-- ==== Sys2Proof/Word.lean ====
section
/-! DEFINITION. The word types of the device and the type of a sparse map. -/

namespace Sys2Proof

/-- A register (R5): 32 bits. -/
abbrev Word := BitVec 32

/-- A byte of a frame, of a data structure or of a memory. -/
abbrev Byte := BitVec 8

/-- A sparse map: keys strictly rising, and no entry equal to what an unlisted key reads as. -/
abbrev KMap (α : Type) := List (Nat × α)

end Sys2Proof
end

