-- ==== Sys2Proof/Syntax.lean ====
section
/-! DEFINITION. The commands of the block, one constructor per row of the spec's opcode table, with their operands. -/

namespace Sys2Proof

/-- A PCIe function (R5): the physical function, or virtual function s + 1, which owns slice s. -/
inductive Fn where
  | pf
  | vf (slice : Nat)
  deriving DecidableEq, Repr

/-- The client or the line side (R12). -/
inductive Side where
  | client
  | line
  deriving DecidableEq, Repr

/-- The clock islands (R14). -/
inductive Island where
  | laneGroup (side : Side) (k : Nat)
  | classifier (g : Nat)
  | rill (r : Nat)
  | scheduler | cistern | timeUnit | keyStore | pke | mc | alwaysOn
  deriving DecidableEq, Repr

/-- What a DMA read of host memory brought (R70). -/
inductive HostRead where
  | data (bytes : List Byte)
  | error
  deriving DecidableEq, Repr

/-- What an access to the cistern's stacks finds (R250): nothing, corrected words, or an error of data, of tag lines, of a
counter node of a level, or of a word of the root. -/
inductive MemErr where
  | none
  | corrected (words : Nat)
  | dataUncorr | dataTag | dataTagLine
  | nodeUncorr (level : Nat)
  | nodeTag (level : Nat)
  | nodeTagLine (level : Nat)
  | rootWord
  deriving DecidableEq, Repr

/-- A token bucket of the scheduler (R264, R285): of a subscriber, a service, a port node, or the ceiling of an energy
class in a direction. -/
inductive Bucket where
  | sub (u : Nat)
  | svc (v : Nat)
  | port (n : Nat)
  | ceiling (inbound : Bool) (e : Nat)
  deriving DecidableEq, Repr

/-- A table entry of the scheduler (R270): SUB, SVC or PORT. -/
inductive SchedTable where
  | sub | svc | port
  deriving DecidableEq, Repr

/-- Port personalities (R40). -/
inductive Personality where
  | none | portMacsec | channelMacsec | bridgedMacsec | espTunnel | cascade
  deriving DecidableEq, Repr

/-- The commands: the rows of the opcode table with their operands. A time-driven row says that its instant has come; a row
that stands for an event of the outside brings what the outside found as operands.

Operand letters: `fn` the PCIe function; `off` an offset in its BAR0; `v` the value written; `p` a port as R79 numbers it;
`l` a lane, 18 a side; `side k` spare k of a side; `g` a classifier instance; `t` a trunk and `i` its tributary, or `t`
a table; `r` a rill, a ring pair or a region; `i k` an association and its slot; `rx` the receive direction; `h` a frame
and `j` a queue entry, by the numbers State gives them; `e` an egress; `b` a time base or a bucket; `k` a comparator, key
ID, arm, slice or trie entry; `n` an output, a node or a source. Facts of the outside: `fuses` which of the next epoch
fuses blow when tried; `pers` the personality of each pairing; `read`, `desc`, `input`, `frame` what a DMA read of host
memory brought; `ecc` 0 none, 1 corrected, 2 uncorrectable; `logOk`, `journalOk` whether a flash write succeeded; `late`
that the command comes on or after its deadline; `interval` the duty interval; `first` the order in which nodes select. -/
inductive Instr where
  /-- A write to a register that has no row of its own is stored, triggers or is ignored by its access type, and goes to the shadow while a transaction is open (R7). -/
  | registerWrite (fn : Fn) (off : Nat) (v : Word) (full : Bool)
  /-- An access in the BAR0 hole reads 0, ignores a write and sets GLB_ERR.HOLE (R490). -/
  | holeAccess (off : Nat) (write : Bool)
  /-- An access to a block not served in the current state reads 0, ignores a write and sets GLB_ERR.STATE (R37). -/
  | unservedBlockAccess (fn : Fn) (off : Nat) (write : Bool)
  /-- Main power becomes valid and the 10 ms wait before cold reset release begins (R497). -/
  | mainPowerValid
  /-- Main power is lost; the device enters Well-only and pending tamper responses are recorded in the Well (R38). -/
  | mainPowerLost
  /-- Cold reset is released 10 ms after power is valid or when COLD_RST_N rises, supply tamper sources are armed and Start begins (R497). -/
  | coldResetRelease (fuses : List Bool)
  /-- COLD_RST_N held low for 1 us puts every island except the always-on island in reset within 10 us (R516). -/
  | coldRstNAssert (mark : Bool)
  /-- PERST_N places the device in warm reset and Start runs from step 1, keeping the state that R52 lists (R8). -/
  | warmReset (fuses : List Bool) (mark : Bool)
  /-- GLB_RESET OP 1 with the right key starts a warm reset within 2 us and undoes the start's increments when PLANNED is 1 (R493). -/
  | glbWarmReset (key : Nat) (fuses : List Bool) (mark : Bool)
  /-- GLB_RESET OP 2 with the right key restarts the MC (R493). -/
  | glbMcRestart (key : Nat)
  /-- The MC restarts its watchdog (R30). -/
  | mcWatchdogRestart
  /-- The watchdog expires after 512 Well oscillator cycles and the always-on island performs an MC restart (R30). -/
  | mcWatchdogExpiry
  /-- The MC is serving again; held PKE results are written and basic writes and mailbox commands are served again (R31). -/
  | mcRestartComplete
  /-- A PCIe FLR of the physical function rolls back a transaction that it opened and ends host PKE jobs without completions (R52). -/
  | functionLevelReset
  /-- Start step 2 reads both headers, updates the fail counts and chooses a slot, or enters Minimal (R46). -/
  | slotSelection (flash : Bool)
  /-- Start step 3 verifies the header and the hybrid signature of the chosen image and checks UPDATE_CTR (R67). -/
  | imageSignatureCheck
  /-- Start step 4 loads factory calibration, adds the CAL_USER offsets and clamps them (R78). -/
  | calibrationLoad
  /-- Start step 5 derives the wrap and journal keys, replays the key log and rebuilds GEN_HIGH from the journal (R374). -/
  | keyUnwrap
  /-- Start step 6 runs known-answer tests, health tests, memory BIST and HBM3E training (R43). -/
  | selfTests (test : Option Nat) (hbm : Option Nat)
  /-- Start step 7 begins: the remaining image records are applied and lane training begins (R43). -/
  | laneTrainingStart (pers : List (Nat × Personality))
  /-- Start step 8 brings up the ports with UP_AT_START set in UP_ORDER and enters Active or Standby (R93). -/
  | portBringUp
  /-- With no trained link within NEG_WAIT_MS the device becomes Active with partner state NONE (R429). -/
  | negWaitTimeout
  /-- After 60 s in Active or Standby the start counts as successful and the fail counts are cleared (R47). -/
  | successTimerExpiry
  /-- START_CTRL.FAIL_CLEAR clears FAIL_CONSEC and both slot fail counts (R49). -/
  | failClear
  /-- START_CTRL.MAINT_REQ moves Active or Standby to Maintenance, or returns QUIESCE_REQUIRED or DENIED (R38). -/
  | maintReq
  /-- START_CTRL.MAINT_EXIT in Maintenance starts a planned warm reset (R38). -/
  | maintExit (fuses : List Bool)
  /-- IMG_CTRL.GO checks the host address and state and starts writing an image slot (R70). -/
  | imgWriteGo (slotB : Bool)
  /-- A phase of the slot write completes and the next phase begins, or the write ends with its status (R70). -/
  | imgWritePhaseComplete (read : HostRead) (readBack : Bool)
  /-- TXN_CTRL.BEGIN opens a transaction, empties the shadow and starts the timer (R82). -/
  | txnBegin
  /-- TXN_CTRL.COMMIT stops the timer and starts validation (R82). -/
  | txnCommit
  /-- TXN_CTRL.ROLLBACK discards the shadow with RESULT ABORTED (R82). -/
  | txnRollback
  /-- The transaction timer expires in the MC island and the open transaction rolls back with EXPIRED (R82). -/
  | txnTimeoutExpiry (late : Bool)
  /-- Validation ends: a failure discards the shadow with its code, or a pass chooses the apply instant (R83). -/
  | txnValidationEnd (pers : List (Nat × Personality))
  /-- An island applies the staged change at its first frame boundary or cycle at or after A; the last acknowledgement ends the transaction OK (R84). -/
  | txnApplyInstant (i : Island)
  /-- BP_CMD.WRITE writes a basic parameter, to the shadow or as an implicit transaction (R75). -/
  | bpWrite
  /-- BP_CMD.READ loads the effective or shadow value of BP_ID into BP_VAL (R77). -/
  | bpRead
  /-- A CAL_OFFSET write sets a user offset at once in Maintenance, shadows it within a transaction, or is refused (R80). -/
  | calOffsetWrite (v : Word)
  /-- Start-of-frame is detected at an ingress port; the frame is timestamped, written to the forebay and a header record is sent (R21). -/
  | frameArrival (p : Nat) (header : List Byte) (preambleOk : Bool)
  /-- The frame's tail arrives and the MAC checks FCS, length and codewords; a failed frame is discarded or stomped (R98). -/
  | frameEnd (h : Nat) (tail : List Byte) (codewords : Bool) (reassembled : Bool) (arrived : Bool)
  /-- The classifier parses the header record and chooses the frame's result and queue (R132). -/
  | headerRecordClassify (h : Nat) (ecc : Nat) (ecc2 : Nat)
  /-- The learn queue applies one request, creating an entry, setting HIT or refusing for a full table (R141). -/
  | learnApply (g : Nat)
  /-- A classified frame reaching the scheduler is admitted to its queue or dropped by the admission checks (R276). -/
  | queueAdmission (j : Nat)
  /-- On each scheduler cycle each port node selects up to 3 frames by the committed and excess passes (R267). -/
  | schedulerSelect (first : List Nat)
  /-- A shaper, port or ceiling bucket is refilled at its interval and clipped at its burst (R269). -/
  | bucketRefill (b : Bucket)
  /-- The dispatcher gives a selected frame a context, tag, PN and rill, or stalls or drops it (R211). -/
  | dispatch (j : Nat) (mayProbe : Bool)
  /-- A requested PN boundary is recorded and RES_END is raised once recorded, or after the partner's acknowledgement (R182). -/
  | reservationBoundaryRecord (i : Nat) (k : Nat)
  /-- The dispatcher feeds a beat that has arrived in the forebay to its rill at the paced rate (R212). -/
  | beatFeed (j : Nat) (keyEcc : Nat) (cellEcc : Nat)
  /-- A beat leaves the rill 96 cycles after entry; the last beat carries the ICV, the verdict and the completion (R216). -/
  | rillBeatExit (j : Nat)
  /-- A completion reaches the dispatcher, updating the replay window, PROBATION state, DRAINING counts and the context (R190). -/
  | verdictReturn (j : Nat)
  /-- Merge releases the beats of the expected tag to the egress MAC and advances the tag, holding all others (R214). -/
  | mergeRelease (e : Nat) (desc : HostRead)
  /-- TBL_CMD READ returns the entry of a slot or prefix slot (R151). -/
  | tblRead (g : Nat) (table : Nat)
  /-- TBL_CMD WRITE replaces RESULT, STATIC and PINNED of the entry with the given key (R151). -/
  | tblWrite (g : Nat) (table : Nat)
  /-- TBL_CMD INSERT adds an exact-match entry or LPM prefix, relocating entries if needed (R151). -/
  | tblInsert (g : Nat) (table : Nat)
  /-- TBL_CMD DELETE removes the entry or prefix with the given key (R151). -/
  | tblDelete (g : Nat) (table : Nat)
  /-- TBL_CMD SEARCH returns the matching entry or longest matching prefix (R151). -/
  | tblSearch (g : Nat) (table : Nat)
  /-- TBL_CMD FLUSH removes the entries matching the filter (R151). -/
  | tblFlush (g : Nat) (table : Nat) (flt : Nat)
  /-- TBL_CMD AGE runs one complete ageing sweep at full rate (R151). -/
  | tblAge (g : Nat) (table : Nat)
  /-- A table command completes, clearing BUSY and writing STATUS and TBL_INDEX (R152). -/
  | tblCmdDone (g : Nat)
  /-- The sweeper visits a dynamic entry, clearing HIT, setting SWEPT or removing it (R144). -/
  | ageingSweepVisit (g : Nat) (k : Nat) (hit : Bool)
  /-- The station-move window restarts and every MOVES field reads 0 (R142). -/
  | moveWindowRestart (g : Nat)
  /-- A pin set by station moves ends PIN_HOLD_S after the move that set it (R142). -/
  | pinHoldExpiry (g : Nat) (k : Nat)
  /-- A trie word with an uncorrectable error is rewritten from the next replica (R150). -/
  | trieWordRepair (g : Nat)
  /-- SA_CMD INSTALL installs an association record (R195). -/
  | saInstall (fn : Fn)
  /-- SA_CMD REMOVE ends an association; new frames drop at once and the slots empty when drained (R195). -/
  | saRemove (fn : Fn)
  /-- SA_CMD READ returns the association record (R195). -/
  | saRead (fn : Fn)
  /-- SA_CMD READ_SLOT returns a slot record (R197). -/
  | saReadSlot (fn : Fn)
  /-- SA_CMD DERIVE loads the lowest EMPTY slot by on-chip derivation (R195). -/
  | saDerive (fn : Fn)
  /-- SA_CMD SWITCH makes the READY transmit slot CURRENT (R184). -/
  | saSwitch (fn : Fn)
  /-- SA_CMD ARM_TIME arms a time-instant switch on a TIM_TIA comparator (R185). -/
  | saArmTime (fn : Fn)
  /-- SA_CMD RETIRE empties the READY transmit slot or the older receive slot (R195). -/
  | saRetire (fn : Fn)
  /-- SA_CMD MODIFY changes the modifiable fields of an installed record (R195). -/
  | saModify (fn : Fn)
  /-- A loading slot receives its key and journal confirmations and becomes READY, CURRENT or ACCEPT (R172). -/
  | slotLoadComplete (rx : Bool) (i : Nat) (k : Nat) (journalOk : Bool)
  /-- A DRAINING transmit slot with no frame left in flight becomes EMPTY and its key is cleared (R172). -/
  | slotDrainComplete (i : Nat) (k : Nat)
  /-- A failed AUTO_NEXT derivation is tried again after 1 s (R186). -/
  | autoNextRetry (i : Nat)
  /-- The retire timer expires and the older receive slot goes EMPTY (R192). -/
  | rxRetireTimerExpiry (i : Nat)
  /-- A FOLLOW candidate key has been derived and the slot enters PROBATION (R193). -/
  | followCandidateReady (i : Nat) (k : Nat)
  /-- The last frame of a removed association leaves merge and the index accepts INSTALL again (R195). -/
  | assocRemoveDrainComplete (rx : Bool) (i : Nat)
  /-- RIL_CMD WITHDRAW starts a fence of a rill (R221). -/
  | rilWithdraw (r : Nat) (same : Bool)
  /-- RIL_CMD RESTORE returns an OUT rill to service (R224). -/
  | rilRestore (r : Nat)
  /-- A rill fault of parity, repeated key-view error or stall sets its alarm and fences the rill when AUTO is 1 (R221). -/
  | rillFault (r : Nat) (kind : Nat) (same : Bool)
  /-- At F + 64 the claimed spare RL_8, or a restored rill, enters service (R221). -/
  | spareInService (r : Nat)
  /-- No frame of the leaving rill remains outstanding and it becomes OUT or FAULTED (R221). -/
  | fenceComplete (r : Nat)
  /-- At F + 2 000 every frame of the rill without a completion is declared LOST (R221). -/
  | fenceDeadline (r : Nat)
  /-- Once per second a known-answer test runs on the spare and on each OUT rill (R220). -/
  | katRun (r : Nat) (pass : Bool)
  /-- TEP_CMD READ returns a tunnel endpoint entry (R230). -/
  | tepRead (i : Nat)
  /-- TEP_CMD WRITE holds the affected frames and writes the entry atomically in every copy (R210). -/
  | tepWrite (i : Nat)
  /-- TEP_CMD CLEAR atomically empties a tunnel endpoint entry (R210). -/
  | tepClear (i : Nat)
  /-- A woken rill becomes IN_SERVICE (R288). -/
  | rillWakeComplete (r : Nat)
  /-- The governor's 1 us hardware tick updates p, g and the rill-gating decision (R284). -/
  | sluiceTick (readings : List Int) (rails : Option (List (Nat × Nat))) (hbm : Nat)
  /-- The MC slow loop converts ceilings and g to refill increments and sets PKE and scrub pacing (R282). -/
  | slowLoop
  /-- A write of word 3 of a SUB, SVC or PORT entry makes the whole entry effective (R270). -/
  | schedEntryWord3Write (t : SchedTable) (i : Nat) (v : Word)
  /-- An eligible frame is written to the cistern under its owner's current key ID (R233). -/
  | spill (h : Nat) (errs : List (Nat × MemErr))
  /-- The cistern cells of a spilled frame are acknowledged and its forebay cells are freed (R233). -/
  | spillWriteAck (h : Nat) (phase : Nat)
  /-- A fetched-back cell is verified up the counter tree, decrypted and placed in forebay staging (R244). -/
  | fetchBackComplete (h : Nat) (err : MemErr)
  /-- A dirty counter node written back from the cache advances its parent counter (R243). -/
  | nodeWriteBack (k : Nat) (n : Nat) (errs : List (Nat × MemErr))
  /-- The 10 ms sweep drops spilled frames older than MAX_AGE_MS (R236). -/
  | cisternAgeSweep
  /-- CIS_CMD ROTATE gives the owner a new key ID and retires the old one (R247). -/
  | cisRotate (owner : Nat)
  /-- CIS_CMD SCRUB_NOW runs one full scrub pass at 4 times the period rate (R258). -/
  | scrubNow
  /-- ROT_H hours after an owner's last rotation, its key ID rotates, or the attempt is retried after 1 s (R247). -/
  | timedRotation (owner : Nat)
  /-- A RETIRING key ID with no allocated cell becomes EMPTY and its keys are zeroised (R247). -/
  | keyidRetireComplete (k : Nat)
  /-- The last cell of a DRAINING region is freed and the region takes the owner's current key ID (R249). -/
  | regionDrainComplete (r : Nat)
  /-- The scrubber reads a location, checks ECC and rewrites corrected words (R253). -/
  | scrubVisit (b : Nat) (err : MemErr) (passEnd : Bool)
  /-- A failing HBM3E row is repaired in service by soft post-package repair (R254). -/
  | rowRepair (stack : Nat) (cells : List Nat) (isData : Bool) (spareLeft : Bool)
  /-- A stack stops answering or exhausts repair; the cistern enters FAILED and every spilled frame is dropped (R252). -/
  | stackFail
  /-- A training lane locks its PCS or Cascade marker and becomes Up (R97). -/
  | laneMarkerLock (l : Nat) (polInv : Bool) (portLane : Nat) (marker : List Byte) (skewOk : Bool)
  /-- A lane not locked within 1.5 s sets TRAIN_FAIL and is faulted (R97). -/
  | trainTimeout (l : Nat)
  /-- A lane fault is detected; the lane is faulted, its port goes down and sparing is requested (R106). -/
  | laneFault (l : Nat) (kind : Nat)
  /-- A lane's pre-FEC error ratio exceeds the threshold, raising an alarm and requesting sparing if ON_DEGRADE is 1 (R106). -/
  | laneDegrade (l : Nat)
  /-- A faulted lane's condition clears, and it retrains and locks again (R107). -/
  | laneFaultClear (l : Nat)
  /-- Three agreeing good steering blocks are accepted as IDLE, ASK, MOVE, SYNC or RELEASE (R109). -/
  | steeringBlockAccept (k : Nat) (block : List Byte)
  /-- PARTNER_OK of a spare clears after 1 ms without a good block (R109). -/
  | partnerOkTimeout (k : Nat)
  /-- The spare's data is aligned at POSITION and replaces the faulted lane in the deskew output (R111). -/
  | spareAlign (k : Nat)
  /-- Without an accepted SYNC within 16 us the requester sends RELEASE and gives up (R113). -/
  | askTimeout (k : Nat)
  /-- SPARE_CMD OP 1 steers a transmit lane onto a spare in commanded mode (R115). -/
  | steerTransmit (side : Side) (k : Nat) (l : Nat)
  /-- SPARE_CMD OP 2 steers a receive lane onto a spare in commanded mode (R115). -/
  | steerReceive (side : Side) (k : Nat) (l : Nat)
  /-- SPARE_CMD OP 3 steers both directions of a lane onto a spare (R115). -/
  | steerBoth (side : Side) (k : Nat) (l : Nat)
  /-- SPARE_CMD OP 4 releases a spare and returns it to the pool (R114). -/
  | spareRelease (side : Side) (k : Nat) (l : Nat)
  /-- PORT_CTRL.UP ends the hold of a port left down by UP_AT_START 0 (R118). -/
  | portUp (p : Nat)
  /-- PORT_CTRL.SLEEP closes the port's node and begins sleep entry (R103). -/
  | portSleep (p : Nat)
  /-- The port's dispatched frames have left and its transmit side powers down (R103). -/
  | sleepReached (p : Nat)
  /-- PORT_CTRL.WAKE wakes a sleeping port (R104). -/
  | portWake (p : Nat)
  /-- A received frame matches an enabled wake pattern and the port wakes (R104). -/
  | wakePatternMatch (p : Nat) (f : List Byte)
  /-- The receive PCS of a sleeping port changes state with WAKE_CTRL.LINK set and the port wakes (R104). -/
  | linkChangeWake (p : Nat) (aligned : Bool) (lf : Bool) (rf : Bool)
  /-- A waking port is up again (R104). -/
  | wakeComplete (p : Nat)
  /-- The 802.3br verify exchange ends and preemption becomes active or fails (R101). -/
  | preemptVerify (p : Nat) (ok : Bool)
  /-- The trunk endpoint builds, encrypts and sends the next Cascade frame (R305). -/
  | cascadeFrameSend (t : Nat) (clients : List (Nat × Nat × List Bool))
  /-- A delineated Cascade frame is checked, and accepted frames are decrypted and delivered (R307). -/
  | cascadeFrameReceive (t : Nat) (frame : List Byte) (errored : Bool) (uncorr : Nat) (corr : Nat)
  /-- The receiver finishes deriving the key of a higher epoch (R307). -/
  | epochKeyDerived (t : Nat)
  /-- CAS_CMD EPOCH_SWITCH starts an epoch switch (R306). -/
  | epochSwitch (t : Nat)
  /-- The EPOCH_PERIOD_S timer starts an epoch switch (R306). -/
  | epochPeriodExpiry (t : Nat)
  /-- A new epoch's journal record, and any partner acknowledgement, is confirmed and its announcement begins (R304). -/
  | epochConfirmed (t : Nat) (journalOk : Bool)
  /-- After a failed journal write the epoch switch is retried after 1 s (R304). -/
  | epochJournalRetry (t : Nat)
  /-- CAS_CMD MAP_SWITCH announces and performs a basin map change (R309). -/
  | mapSwitch (t : Nat)
  /-- CAS_CMD REALIGN returns frame alignment to HUNT (R317). -/
  | realign (t : Nat)
  /-- dSLIP clears after 10 ms without a further slip (R325). -/
  | dslipClear (t : Nat) (i : Nat)
  /-- A second ends and is judged, held or committed to its bin under the availability rules (R333). -/
  | pmSecondBoundary (t : Nat)
  /-- CAS_OPS_CTRL.SEND starts sending a message over the operations channel (R331). -/
  | opsSend (t : Nat) (len : Nat)
  /-- A CAS_PM_SEL write selects a bin and freezes the PM register values (R338). -/
  | casPmSelWrite (t : Nat) (v : Word)
  /-- A TB_INCR write within range changes the base's rate at the next tick (R341). -/
  | tbIncrWrite (b : Nat) (v : Word)
  /-- TB_CMD STEP judges a step against the jump threshold and schedules the step instant (R342). -/
  | tbStep (b : Nat)
  /-- TB_CMD ARM_FORCE arms the override for 10 ms (R343). -/
  | tbArmForce (b : Nat)
  /-- The override disarms 10 ms after ARM_FORCE (R343). -/
  | armForceExpiry (b : Nat)
  /-- The time unit and each island apply the step at I, acting on comparators, launch frames, gate lists and bins (R344). -/
  | stepInstant (b : Nat)
  /-- A read of TB_SNAP_FRAC latches the base into the snapshot registers (R361). -/
  | tbSnapFracRead (b : Nat)
  /-- A comparator reaches its target, fires its feature and advances by its period (R357). -/
  | comparatorFire (k : Nat)
  /-- PPS_OUT_n falls WIDTH_US after its rising edge (R358). -/
  | ppsOutPulseEnd (n : Nat)
  /-- A PPS_IN rising edge is captured on all four bases (R358). -/
  | ppsInEdge
  /-- No PPS_IN edge for 1.1 s sets TIM_ALARM.PPS_LOSS (R358). -/
  | ppsLoss
  /-- The chosen edge of a GPIO pin latches its base into the capture comparator (R357). -/
  | gpioCapture (j : Nat) (rise : Bool)
  /-- A gate-list cycle begins, taking over a newly committed list if one is due (R352). -/
  | gateCycleStart (p : Nat)
  /-- A launch-time frame's queue becomes eligible at L minus LAUNCH_LEAD_NS (R355). -/
  | launchEligible (j : Nat)
  /-- The egress MAC releases a launch-time frame's first bit when its local counter reaches L (R355). -/
  | launchRelease (j : Nat)
  /-- A frame not released by L + 5 ns is late and LATE_POLICY sends or discards it (R356). -/
  | launchLate (j : Nat)
  /-- An island loses the coded time stream or its discipline and raises time-unlock (R18). -/
  | timeUnlock (i : Nat)
  /-- The mailbox UPDATE operation judges and applies a key-update message (R382). -/
  | kstUpdate (read : HostRead) (fuses : List Bool) (logOk : Bool)
  /-- The mailbox ATTEST operation assembles and signs an attestation statement (R385). -/
  | kstAttest
  /-- The mailbox GENERATE operation creates an owner key under a free handle (R370). -/
  | kstGenerate (logOk : Bool)
  /-- The mailbox DELETE operation removes an owner key (R388). -/
  | kstDelete (logOk : Bool)
  /-- The mailbox INFO operation returns a key's inventory entry (R388). -/
  | kstInfo
  /-- The mailbox AGREE_PUB operation returns the agreement public keys (R388). -/
  | kstAgreePub
  /-- The DRBG is reseeded from the entropy source every 1 s (R369). -/
  | drbgReseed
  /-- A health test fails; DRBG requests return ABORTED and the tamper monitor is told (R369). -/
  | entropyHealthFail
  /-- After 1 024 consecutive good samples the DRBG resumes (R369). -/
  | drbgResume
  /-- PKE_CMD SUBMIT reads and checks a job descriptor and queues the job (R397). -/
  | pkeSubmit (desc : HostRead) (input : HostRead)
  /-- PKE_CMD ABORT removes a queued or suspended job, or stops a running one at its next checkpoint (R407). -/
  | pkeAbort (id : Nat)
  /-- The engine starts or resumes the next job by priority (R405). -/
  | pkeJobStart (interval : Nat)
  /-- After 64 us of execution a job may be suspended for a waiting job, paused for duty, or stopped by an abort (R405). -/
  | pkeCheckpoint (interval : Nat)
  /-- A job ends, writing its result and then its completion record (R399). -/
  | pkeJobEnd (execUs : Nat) (waitUs : Nat) (fault : Bool)
  /-- A 512 us duty window begins and the engine executes only in its first 8 × duty intervals (R406). -/
  | pkeDutyWindow
  /-- A tamper source fires, and its response is raised, logged and carried out (R416). -/
  | tamperSourceLatch (mask : Nat) (raw : Nat)
  /-- An under-voltage or stopped clock still present after 100 us without power loss fires its source (R414). -/
  | undervoltageDelayExpiry (src : Nat)
  /-- The key clearing of a zeroising or HALT response completes (R417). -/
  | keyClearComplete
  /-- Cell voltages are sampled and judged against the cell bands (R413). -/
  | cellSample (a : Int) (b : Int)
  /-- The tamper monitor reads junction temperature against its limits (R413). -/
  | temperatureReading (hi : Int) (lo : Int) (well : Int)
  /-- The Well supply falls below 1.8 V and every item held in the Well is lost (R519). -/
  | wellBrownOut
  /-- TMP_CMD RELEASE ends ISOLATE or ZEROISE_TRAFFIC when no source of level 3 or above is present (R419). -/
  | tmpRelease
  /-- TMP_CMD SERVICE_A opens a service window on cell A (R422). -/
  | tmpServiceA
  /-- TMP_CMD SERVICE_B opens a service window on cell B (R422). -/
  | tmpServiceB
  /-- TMP_CMD END_SERVICE closes the open service window (R422). -/
  | tmpEndService
  /-- A service window's time runs out and it closes (R422). -/
  | serviceWindowExpiry
  /-- TMP_CMD ZEROISE_ARM arms a commanded zeroisation for 1 s (R425). -/
  | tmpZeroiseArm
  /-- TMP_CMD ZEROISE_ALL within 1 s of the arm fires ZEROISE_CMD, or returns EXPIRED or DENIED (R425). -/
  | tmpZeroiseAll (late : Bool)
  /-- A W1C write to TMP_FLAGS clears source flags, and TAMPER_MAX when all flags are 0 (R419). -/
  | tmpFlagsClear (mask : Nat)
  /-- SMBus command 0xD5 arms with 0x5A, fires ZEROISE_SMB with a timely 0xA5, or disarms (R423). -/
  | smbusZeroiseWrite (data : Nat) (pecOk : Bool)
  /-- The SMBus zeroise arm lapses 100 ms after arming (R423). -/
  | smbusZeroiseArmExpiry
  /-- SMBus command 0xB0 returns the 32-byte black-box status block (R423). -/
  | smbusStatusRead
  /-- PEER_ACTIVE changes; an Active device that sees it high gives up (R448). -/
  | peerActiveChange (level : Bool)
  /-- PEER_HANDOVER rises and a READY standby takes over (R445). -/
  | peerHandoverRise
  /-- The partner's forwarded clock is present with the DLLs locked, and training moves to DESKEW (R434). -/
  | aqdClockDetect
  /-- Every lane is bit-locked and deskewed, and CONFIG frames begin (R434). -/
  | aqdDeskewLock
  /-- Agreeing partner CONFIG frames lead to session key derivation and AUTH, or a mismatch leads to FAILED (R434). -/
  | configFrameReceive (frame : List Byte)
  /-- The partner's AUTH frame verifies and the link is UP, starting resynchronisation on the Active side (R434). -/
  | authFrameReceive (frame : List Byte) (rtt : Nat)
  /-- A training state times out and the link goes FAILED (R434). -/
  | aqdTrainingTimeout
  /-- 10 ms after FAILED the link returns to DOWN (R434). -/
  | aqdFailedRetry
  /-- Repeated tag failures, clock loss or a lane fault take the link DOWN and erase the session keys (R434). -/
  | aqdLinkDown
  /-- A DATA frame is authenticated and its records are applied in stream order (R435). -/
  | dataFrameReceive (frame : List Byte)
  /-- ACK has not moved for 2 us and records are resent from ACK (R435). -/
  | retransmitTimeout
  /-- Each device sends an HB record every 1 us (R437). -/
  | heartbeatSend
  /-- No HB record for HB_LOSS_NS: the active marks the partner LOST, and a READY standby with HB_TAKE takes over (R445). -/
  | hbLoss
  /-- The take-over actions complete in 256 cycles and ACTIVE rises (R446). -/
  | takeOverComplete
  /-- PAI_CMD GIVE_UP closes the nodes, drops ACTIVE, pulses HANDOVER and moves the device to Standby (R444). -/
  | giveUp
  /-- PAI_CMD TAKE_OVER makes a READY standby take over (R445). -/
  | takeOver
  /-- PAI_CMD PARTNER_GONE sets partner state NONE and detaches a standby partner (R428). -/
  | partnerGone
  /-- At H + 1.5 us merge discards every frame not yet begun (R444). -/
  | giveUpDiscardDeadline
  /-- A self-diagnosis fails, clearing READY on a standby or making an Active device give up if enabled (R443). -/
  | diagnosisFault (n : Nat) (present : Bool)
  /-- AQD_CMD DEEP puts a x2 or x4 link into DEEP (R436). -/
  | aqdDeep
  /-- AQD_CMD WAKE brings the link out of DEEP (R436). -/
  | aqdWake
  /-- A x8 transmit direction with few pending records for 10 us turns off lanes 2 to 7 (R436). -/
  | linkSleepEntry (rx : Bool)
  /-- Four or more pending records wake lanes 2 to 7 of the direction (R436). -/
  | linkSleepExit (rx : Bool)
  /-- A write of TXQ_TAIL posts transmit descriptors, or is ignored as out of bound or fenced (R461). -/
  | txqDoorbell (fn : Fn) (r : Nat) (v : Nat)
  /-- A write of RXQ_TAIL posts receive buffers (R461). -/
  | rxqDoorbell (fn : Fn) (r : Nat) (v : Nat)
  /-- A transmit descriptor is fetched when its partition has room and its frame is read into the forebay (R458). -/
  | descriptorFetch (fn : Fn) (r : Nat) (desc : HostRead) (frame : HostRead)
  /-- A transmit completion is written in descriptor order once the frame's fate is known (R462). -/
  | txCompletionWrite (fn : Fn) (r : Nat)
  /-- USEC after the first unsignalled completion the ring vector fires (R465). -/
  | interruptCoalesceExpiry (fn : Fn) (r : Nat)
  /-- HIF_SLCMD BIND binds a slice to a PASID (R457). -/
  | sliceBind (k : Nat) (vfOn : Bool) (pasidOn : Bool)
  /-- HIF_SLCMD FENCE fences an active slice (R467). -/
  | sliceFence (k : Nat)
  /-- HIF_SLCMD RESUME returns a quiesced slice to ACTIVE (R467). -/
  | sliceResume (k : Nat)
  /-- HIF_SLCMD RESET clears a quiesced slice's associations, queues and counters (R470). -/
  | sliceReset (k : Nat)
  /-- HIF_SLCMD UNBIND resets a quiesced slice and releases its PASID (R470). -/
  | sliceUnbind (k : Nat)
  /-- A virtual function FLR fences the slice and discards its unfetched descriptors and undispatched frames (R469). -/
  | vfFlr (k : Nat)
  /-- Clearing Bus Master Enable or VF Enable fences the slice as for FLR (R469). -/
  | vfBusMasterClear (k : Nat)
  /-- A FENCED slice's IN_FLIGHT reaches 0 and it becomes QUIESCED (R467). -/
  | sliceQuiesced (k : Nat)
  /-- A periodic instant latches every counter bank and starts an image write, or counts as skipped (R480). -/
  | snapshotInstant
  /-- CNT_CMD SNAP schedules a commanded snapshot instant (R482). -/
  | cntSnap
  /-- CNT_CMD FREEZE schedules a freeze of all counter register reads (R481). -/
  | cntFreeze
  /-- CNT_CMD THAW schedules the end of a freeze (R481). -/
  | cntThaw
  /-- CNT_CMD CLEAR_WRAP clears one wrap bit or all of them (R476). -/
  | cntClearWrap (i : Nat)
  /-- A commanded SNAP, FREEZE or THAW instant is reached (R482). -/
  | commandedInstant
  /-- A snapshot image is fully written with DONE set and CNT_STATUS.SEQ advances (R479). -/
  | snapshotImageDone (ok : Bool)
  /-- The bandwidth comparator fires and each port's window counts are latched (R483). -/
  | bwWindowBoundary
  /-- A write of CNT_ARM_k_IDX arms an event counter on a word index (R484). -/
  | cntArmIdxWrite (k : Nat) (v : Word)
  /-- An arm has seen N events and sets CNT_ARM_HIT, raises vector 0 and disarms (R484). -/
  | armFire (k : Nat)
  /-- A read of CNT_RD_LO returns the low word of the selected counter and latches its high word (R488). -/
  | cntRdLoRead
  /-- A read of LEG_i_LO latches bits 47:32 into LEG_i_HI (R485). -/
  | legLoRead (i : Nat)
  /-- An island in time-unlock regains the coded time stream and its discipline, and its time-unlock status clears (R18). -/
  | timeLockRegained (i : Nat)
  /-- The receive PCS of an awake port gains or loses alignment, or begins or stops receiving local or remote fault, so the port goes up or down and changes what it transmits (R100). -/
  | receivePcsChange (p : Nat) (aligned : Bool) (lf : Bool) (rf : Bool)
  /-- The 64 Kibit output buffer of a transparent tributary empties or overflows and dSLIP is set and counted (R325). -/
  | tribBufferSlip (t : Nat) (i : Nat)
  /-- The partner's forwarded clock appears on a link in DEEP and the link leaves DEEP within 20 us, with the session continuing (R436). -/
  | partnerClockWake
  /-- A gate-list entry ends within a cycle, so the gates of some classes open or close and a frame held as gate-hold may begin or preempted fragments resume (R352). -/
  | gateEntryBoundary (p : Nat)
  deriving DecidableEq, Repr

end Sys2Proof
end

