-- ==== Sys2Proof/Config.lean ====
section
/-! DEFINITION. What one device has fixed (fuses, factory values), the cryptographic functions the spec takes from
public standards, and the free values: constants without a body, so that nothing can be proved of their values. -/

namespace Sys2Proof.Config

/-! ### Free values -/

/-- A value the spec leaves open: the `n`-th such value, of a number. It is always read modulo what its use allows. -/
opaque freeNat : Nat → Nat

/-- The `n`-th free string of bytes: entropy, keys and nonces drawn by the DRBG (R369, R370). -/
opaque freeByte : Nat → Nat → BitVec 8

/-- Fields of the device-owned subscribers and services of the host pool that R274 does not state, by number. -/
opaque hostPool : Nat → Nat

/-! ### Functions of public standards that stay without a body -/

/-- ML-KEM (FIPS 203), with `true` for ML-KEM-1024 and `false` for ML-KEM-768: encapsulation key of a seed d ‖ z; the
modulus check of an encapsulation key; ciphertext and secret of an encapsulation with 32 random bytes; decapsulation. -/
opaque kemPublic : Bool → List Byte → List Byte
opaque kemValid : Bool → List Byte → Bool
opaque kemCipher : Bool → List Byte → List Byte → List Byte
opaque kemSecret : Bool → List Byte → List Byte → List Byte
opaque kemDecap : Bool → List Byte → List Byte → List Byte

/-- ML-DSA (FIPS 204), with `true` for ML-DSA-87 and `false` for ML-DSA-65: public key of a seed; signature by a seed of
a context and a message with 32 random bytes; encodings of key and signature are well formed; verification of a
context and a message. -/
opaque mldsaPublic : Bool → List Byte → List Byte
opaque mldsaSign : Bool → List Byte → List Byte → List Byte → List Byte → List Byte
opaque mldsaEncoded : Bool → List Byte → List Byte → Bool
opaque mldsaVerify : Bool → List Byte → List Byte → List Byte → List Byte → Bool

/-- Verification of an MC_PATCH object against the Knamir key in ROM (R65): its version if it verifies. -/
opaque patchVersion : List Byte → Option Nat

/-- Hash of the 16 key bytes that gives the candidate bucket of a bank (R137). -/
opaque bankHash : Nat → List Byte → Nat

/-- Which of the 16 candidate slots a relocation takes (R137): relocation `step` of insertion number `n`. -/
opaque relocate : Nat → Nat → Nat

/-- Bits of the alignment marker blocks of IEEE 802.3 for a port speed (R89, R328), in their order. -/
opaque markerBit : Nat → Nat → Bool

/-- Where the first block of a transparent tributary's stream lies in the period of its markers (R328): of the stream received
(`true`) or sent, by trunk and tributary. -/
opaque markerPhase : Bool → Nat → Nat → Nat

/-! ### Fuses and factory values of the device -/

/-- Device-unique secret (R43, R366). -/
opaque dus : List Byte

/-- Owner key digest in fuses (R67). -/
opaque ownerDigest : List Byte

/-- Owner key digest programmed (R385). -/
opaque digestFuse : Bool

/-- Internal scan is disabled by fuse, of every device that has left final test (R33, R385). -/
def scanFuse : Bool := true

/-- ROM_MEAS (R384), and the MC ROM firmware. -/
opaque romMeas : List Byte
opaque mcRom : List Byte

/-- Serial number in fuses (R492). -/
opaque serial : Nat

/-- ORDER fuse (R492): 0 MLS3216-FA, 1 MLS3216-FX. -/
opaque order : Nat

/-- Factory value of a calibration item (R78). -/
opaque factory : Nat → Int

/-- ROM firmware version, major and minor (R492). -/
opaque romMajor : Nat
opaque romMinor : Nat

end Sys2Proof.Config
end

