-- ==== Sys2Proof/Machine/Map.lean ====
section
/-! DEFINITION. Sparse maps in one canonical form, and byte strings in network order (R4). -/

namespace Sys2Proof.Machine

/-- The value of key `k`; an unlisted key has the value `d`. -/
def kget {α : Type} (d : α) : KMap α → Nat → α
  | [], _ => d
  | (j, v) :: r, k => if j = k then v else kget d r k

/-- The map without key `k`. -/
def kdel {α : Type} : KMap α → Nat → KMap α
  | [], _ => []
  | (j, v) :: r, k => if j = k then kdel r k else (j, v) :: kdel r k

/-- An entry put before the first larger key. -/
def kins {α : Type} : KMap α → Nat → α → KMap α
  | [], k, v => [(k, v)]
  | (j, w) :: r, k, v => if k < j then (k, v) :: (j, w) :: r else (j, w) :: kins r k v

/-- Key `k` given the value `v`; the value `d` an unlisted key reads as removes the entry. -/
def kset {α : Type} [DecidableEq α] (d : α) (m : KMap α) (k : Nat) (v : α) : KMap α :=
  if v = d then kdel m k else kins (kdel m k) k v

/-- Keys strictly rising. -/
def krising {α : Type} : KMap α → Bool
  | [] => true
  | [_] => true
  | (j, _) :: (k, v) :: r => decide (j < k) && krising ((k, v) :: r)

/-- The canonical form: keys strictly rising, and no entry equal to its default. -/
def kwf {α : Type} [DecidableEq α] (d : Nat → α) (m : KMap α) : Bool :=
  krising m && m.all (fun e => decide (e.2 ≠ d e.1))

/-- The keys whose value satisfies `p`, in rising order. -/
def kkeys {α : Type} (p : α → Bool) (m : KMap α) : List Nat :=
  (m.filter (fun e => p e.2)).map Prod.fst

/-- How many listed values satisfy `p`. -/
def kcount {α : Type} (p : α → Bool) (m : KMap α) : Nat :=
  (m.filter (fun e => p e.2)).length

/-! ### Byte strings -/

/-- `n` bytes of `v`, most significant first (R4). -/
def be : Nat → Nat → List Byte
  | 0, _ => []
  | n + 1, v => BitVec.ofNat 8 (v / 256 ^ n) :: be n v

/-- The number that bytes spell, most significant first (R4). -/
def beVal (l : List Byte) : Nat := l.foldl (fun a b => a * 256 + b.toNat) 0

/-- `n` bytes from offset `o`; bytes past the end read 0. -/
def slice (l : List Byte) (o n : Nat) : List Byte :=
  let t := (l.drop o).take n
  t ++ List.replicate (n - t.length) 0

/-- The number in the `n` bytes at offset `o` (R4). -/
def beAt (l : List Byte) (o n : Nat) : Nat := beVal (slice l o n)

/-- `l` with the bytes `d` laid over it from offset `o`. -/
def overlay (l : List Byte) (o : Nat) (d : List Byte) : List Byte :=
  slice l 0 o ++ d ++ l.drop (o + d.length)

/-- Bits `hi` down to `lo` of a number. -/
def bits (v hi lo : Nat) : Nat := v / 2 ^ lo % 2 ^ (hi + 1 - lo)

/-- Bit `i` of a number. -/
def bit (v i : Nat) : Bool := v / 2 ^ i % 2 = 1

/-- 1 for true, 0 for false. -/
def b2n (b : Bool) : Nat := if b then 1 else 0

/-- A two's complement number of `w` bits. -/
def signed (w v : Nat) : Int :=
  if v % 2 ^ w < 2 ^ (w - 1) then (v % 2 ^ w : Nat) else (v % 2 ^ w : Nat) - (2 ^ w : Nat)

/-- The `w`-bit two's complement form of a number. -/
def unsigned (w : Nat) (v : Int) : Nat := (v % (2 ^ w : Nat)).toNat

/-- `n` rounded up to a multiple of `m`. -/
def roundUp (n m : Nat) : Nat := (n + m - 1) / m * m

/-- All bytes of a string are 0. -/
def allZero (l : List Byte) : Bool := l.all (· = 0)

/-- The bytes of a register window: byte 4w is bits 7:0 of word w (R159, R194). -/
def wordBytes (w : Word) : List Byte :=
  [w.extractLsb' 0 8, w.extractLsb' 8 8, w.extractLsb' 16 8, w.extractLsb' 24 8]

/-- The word whose bits 7:0 are the first of four bytes. -/
def bytesWord (l : List Byte) : Word :=
  BitVec.ofNat 32 (beVal (slice l 0 4).reverse)

/-- One bit step of the reflected CRC-32 of IEEE 802.3. -/
def crcBit (c : BitVec 32) : BitVec 32 :=
  if c.getLsbD 0 then (c >>> 1) ^^^ 0xEDB88320#32 else c >>> 1

/-- One byte of the CRC-32. -/
def crcByte (c : BitVec 32) (b : Byte) : BitVec 32 :=
  crcBit (crcBit (crcBit (crcBit (crcBit (crcBit (crcBit (crcBit (c ^^^ b.setWidth 32))))))))

/-- CRC-32 with the IEEE 802.3 polynomial (R62). -/
def crc32 (l : List Byte) : BitVec 32 := ~~~ (l.foldl crcByte 0xFFFFFFFF#32)

end Sys2Proof.Machine
end

