-- ==== Sys2Proof/Machine/Regs.lean ====
section
/-! DEFINITION. The register map of the device, as the spec's field tables give it (R489 to R492 and the field tables
that the register index of 19_register_map.md names): the address of every register, the place of every field, and
for each register its reset value and which bits software stores, clears, or sets. Offsets are BAR0 offsets of the
physical function; the slice page of slice s (R491) is keyed from 0x1000_0000 + 0x20_0000 s. -/

namespace Sys2Proof.Machine

/-- A field of a register: lowest bit and width (R3). -/
structure Fld where
  lo : Nat
  len : Nat
  deriving DecidableEq, Repr

/-- A family of registers of one layout: base address, strides and counts of its instances, reset value, and the masks
of the bits that a write stores (RW), clears (W1C), and of the bits a read clears (RC); and whether transactions
shadow it (R81). -/
structure RegFam where
  base : Nat
  dims : List (Nat × Nat)
  reset : Nat
  rw : Nat
  w1c : Nat
  rc : Nat
  shadowed : Bool
  deriving DecidableEq, Repr

/-- GLB GLB_ID (R492). -/
def R.GLB_ID : Nat := 0x0
/-- GLB GLB_REV (R492). -/
def R.GLB_REV : Nat := 0x4
/-- GLB GLB_SERIAL_LO (R492). -/
def R.GLB_SERIAL_LO : Nat := 0x8
/-- GLB GLB_SERIAL_HI (R492). -/
def R.GLB_SERIAL_HI : Nat := 0xc
/-- GLB GLB_FW (R492). -/
def R.GLB_FW : Nat := 0x10
/-- GLB GLB_STATUS (R492). -/
def R.GLB_STATUS : Nat := 0x14
/-- GLB GLB_ALARM_SUM (R492). -/
def R.GLB_ALARM_SUM : Nat := 0x18
/-- GLB GLB_RESET (R492). -/
def R.GLB_RESET : Nat := 0x20
/-- GLB GLB_ERR (R492). -/
def R.GLB_ERR : Nat := 0x30
/-- GLB GLB_ERR_ADDR (R492). -/
def R.GLB_ERR_ADDR : Nat := 0x34
/-- GLB GLB_SCRATCH (R492). -/
def R.GLB_SCRATCH : Nat := 0x3c
/-- TXN TXN_CTRL (R86). -/
def R.TXN_CTRL : Nat := 0x10000
/-- TXN TXN_STATUS (R86). -/
def R.TXN_STATUS : Nat := 0x10004
/-- TXN TXN_TIMEOUT (R86). -/
def R.TXN_TIMEOUT : Nat := 0x10008
/-- TXN TXN_CONFLICT (R86). -/
def R.TXN_CONFLICT : Nat := 0x1000c
/-- TXN TXN_INVALID (R86). -/
def R.TXN_INVALID : Nat := 0x10010
/-- TXN TXN_SEQ (R86). -/
def R.TXN_SEQ : Nat := 0x10014
/-- TXN TXN_LEVEL (R76). -/
def R.TXN_LEVEL : Nat := 0x10018
/-- TXN BP_ID (R77). -/
def R.BP_ID : Nat := 0x10020
/-- TXN BP_VAL_LO (R77). -/
def R.BP_VAL_LO : Nat := 0x10024
/-- TXN BP_VAL_HI (R77). -/
def R.BP_VAL_HI : Nat := 0x10028
/-- TXN BP_CMD (R77). -/
def R.BP_CMD : Nat := 0x1002c
/-- TXN BP_STATUS (R77). -/
def R.BP_STATUS : Nat := 0x10030
/-- TXN TXN_SHADOW (R86). -/
def R.TXN_SHADOW : Nat := 0x10034
/-- START START_STATE (R54). -/
def R.START_STATE : Nat := 0x20000
/-- START START_CTRL (R55). -/
def R.START_CTRL : Nat := 0x20004
/-- START START_FAILS (R56). -/
def R.START_FAILS : Nat := 0x20008
/-- START START_REASON (R57). -/
def R.START_REASON : Nat := 0x2000c
/-- START START_STATUS (R58). -/
def R.START_STATUS : Nat := 0x20010
/-- START START_TIME (R59). -/
def R.START_TIME : Nat := 0x20014
/-- START START_LOG_n (R60). -/
def R.START_LOG_n (p : Nat) : Nat := 0x20040 + 0x4 * p
/-- START IMG_CTRL (R71). -/
def R.IMG_CTRL : Nat := 0x20100
/-- START IMG_SRC_LO (R71). -/
def R.IMG_SRC_LO : Nat := 0x20104
/-- START IMG_SRC_HI (R71). -/
def R.IMG_SRC_HI : Nat := 0x20108
/-- START IMG_LEN (R71). -/
def R.IMG_LEN : Nat := 0x2010c
/-- START IMG_STATUS (R71). -/
def R.IMG_STATUS : Nat := 0x20110
/-- START IMG_REJ (R71). -/
def R.IMG_REJ : Nat := 0x20120
/-- START IMG_REJ_IDX (R71). -/
def R.IMG_REJ_IDX : Nat := 0x20124
/-- CAL CAL_SEL (R80). -/
def R.CAL_SEL : Nat := 0x40000
/-- CAL CAL_VALUE (R80). -/
def R.CAL_VALUE : Nat := 0x40004
/-- CAL CAL_OFFSET (R80). -/
def R.CAL_OFFSET : Nat := 0x40008
/-- CAL CAL_LIMITS (R80). -/
def R.CAL_LIMITS : Nat := 0x4000c
/-- CPT PORT_CFG (R116). -/
def R.CPT_PORT_CFG (p : Nat) : Nat := 0x100000 + 0x4000 * p
/-- CPT PORT_LANES (R117). -/
def R.CPT_PORT_LANES (p : Nat) : Nat := 0x100004 + 0x4000 * p
/-- CPT PORT_CTRL (R118). -/
def R.CPT_PORT_CTRL (p : Nat) : Nat := 0x100008 + 0x4000 * p
/-- CPT PORT_STATUS (R119). -/
def R.CPT_PORT_STATUS (p : Nat) : Nat := 0x10000c + 0x4000 * p
/-- CPT PORT_ERR (R120). -/
def R.CPT_PORT_ERR (p : Nat) : Nat := 0x100010 + 0x4000 * p
/-- CPT WAKE_CTRL (R121). -/
def R.CPT_WAKE_CTRL (p : Nat) : Nat := 0x100020 + 0x4000 * p
/-- CPT WAKE_PATTERN (R121). -/
def R.CPT_WAKE_PATTERN (p : Nat) (q : Nat) (r : Nat) : Nat := 0x100400 + 0x4000 * p + 0x80 * q + 0x4 * r
/-- CPT WAKE_MASK (R121). -/
def R.CPT_WAKE_MASK (p : Nat) (q : Nat) (r : Nat) : Nat := 0x100440 + 0x4000 * p + 0x80 * q + 0x4 * r
/-- CPT LANE_CFG (R122). -/
def R.CPT_LANE_CFG (p : Nat) : Nat := 0x101000 + 0x4000 * p
/-- CPT SPARE_LANE_CFG (R122). -/
def R.CPT_SPARE_LANE_CFG (p : Nat) : Nat := 0x102000 + 0x4000 * p
/-- CPT LANE_STATUS (R123). -/
def R.CPT_LANE_STATUS (p : Nat) : Nat := 0x101004 + 0x4000 * p
/-- CPT SPARE_LANE_STATUS (R123). -/
def R.CPT_SPARE_LANE_STATUS (p : Nat) : Nat := 0x102004 + 0x4000 * p
/-- CPT LANE_FAULT (R124). -/
def R.CPT_LANE_FAULT (p : Nat) : Nat := 0x101008 + 0x4000 * p
/-- CPT SPARE_LANE_FAULT (R124). -/
def R.CPT_SPARE_LANE_FAULT (p : Nat) : Nat := 0x102008 + 0x4000 * p
/-- CPT SPARE_CFG (R125). -/
def R.CPT_SPARE_CFG : Nat := 0x103000
/-- CPT SPARE_CMD (R126). -/
def R.CPT_SPARE_CMD : Nat := 0x103004
/-- CPT SPARE_STATUS (R127). -/
def R.CPT_SPARE_STATUS : Nat := 0x103008
/-- LPT PORT_CFG (R116). -/
def R.LPT_PORT_CFG (p : Nat) : Nat := 0x140000 + 0x4000 * p
/-- LPT PORT_LANES (R117). -/
def R.LPT_PORT_LANES (p : Nat) : Nat := 0x140004 + 0x4000 * p
/-- LPT PORT_CTRL (R118). -/
def R.LPT_PORT_CTRL (p : Nat) : Nat := 0x140008 + 0x4000 * p
/-- LPT PORT_STATUS (R119). -/
def R.LPT_PORT_STATUS (p : Nat) : Nat := 0x14000c + 0x4000 * p
/-- LPT PORT_ERR (R120). -/
def R.LPT_PORT_ERR (p : Nat) : Nat := 0x140010 + 0x4000 * p
/-- LPT WAKE_CTRL (R121). -/
def R.LPT_WAKE_CTRL (p : Nat) : Nat := 0x140020 + 0x4000 * p
/-- LPT WAKE_PATTERN (R121). -/
def R.LPT_WAKE_PATTERN (p : Nat) (q : Nat) (r : Nat) : Nat := 0x140400 + 0x4000 * p + 0x80 * q + 0x4 * r
/-- LPT WAKE_MASK (R121). -/
def R.LPT_WAKE_MASK (p : Nat) (q : Nat) (r : Nat) : Nat := 0x140440 + 0x4000 * p + 0x80 * q + 0x4 * r
/-- LPT LANE_CFG (R122). -/
def R.LPT_LANE_CFG (p : Nat) : Nat := 0x141000 + 0x4000 * p
/-- LPT SPARE_LANE_CFG (R122). -/
def R.LPT_SPARE_LANE_CFG (p : Nat) : Nat := 0x142000 + 0x4000 * p
/-- LPT LANE_STATUS (R123). -/
def R.LPT_LANE_STATUS (p : Nat) : Nat := 0x141004 + 0x4000 * p
/-- LPT SPARE_LANE_STATUS (R123). -/
def R.LPT_SPARE_LANE_STATUS (p : Nat) : Nat := 0x142004 + 0x4000 * p
/-- LPT LANE_FAULT (R124). -/
def R.LPT_LANE_FAULT (p : Nat) : Nat := 0x141008 + 0x4000 * p
/-- LPT SPARE_LANE_FAULT (R124). -/
def R.LPT_SPARE_LANE_FAULT (p : Nat) : Nat := 0x142008 + 0x4000 * p
/-- LPT SPARE_CFG (R125). -/
def R.LPT_SPARE_CFG : Nat := 0x143000
/-- LPT SPARE_CMD (R126). -/
def R.LPT_SPARE_CMD : Nat := 0x143004
/-- LPT SPARE_STATUS (R127). -/
def R.LPT_SPARE_STATUS : Nat := 0x143008
/-- AQD AQD_CFG (R451). -/
def R.AQD_CFG : Nat := 0x180000
/-- AQD AQD_STATUS (R451). -/
def R.AQD_STATUS : Nat := 0x180004
/-- AQD AQD_CMD (R451). -/
def R.AQD_CMD : Nat := 0x180008
/-- AQD AQD_CMDST (R451). -/
def R.AQD_CMDST : Nat := 0x18000c
/-- AQD AQD_LAT (R451). -/
def R.AQD_LAT : Nat := 0x180010
/-- AQD AQD_ALARM (R451). -/
def R.AQD_ALARM : Nat := 0x180014
/-- CLS CLS_AGE (R154). -/
def R.CLS_AGE (p : Nat) : Nat := 0x200000 + 0x40000 * p
/-- CLS CLS_MOVE (R155). -/
def R.CLS_MOVE (p : Nat) : Nat := 0x200004 + 0x40000 * p
/-- CLS CLS_PUNT (R156). -/
def R.CLS_PUNT (p : Nat) : Nat := 0x200008 + 0x40000 * p
/-- CLS TBL_CMD (R157). -/
def R.TBL_CMD (p : Nat) : Nat := 0x200010 + 0x40000 * p
/-- CLS TBL_STATUS (R158). -/
def R.TBL_STATUS (p : Nat) : Nat := 0x200014 + 0x40000 * p
/-- CLS TBL_INDEX (R158). -/
def R.TBL_INDEX (p : Nat) : Nat := 0x200018 + 0x40000 * p
/-- CLS CLS_OCC (R160). -/
def R.CLS_OCC (p : Nat) : Nat := 0x200040 + 0x40000 * p
/-- CLS CLS_LPM4 (R160). -/
def R.CLS_LPM4 (p : Nat) : Nat := 0x200044 + 0x40000 * p
/-- CLS CLS_LPM6 (R160). -/
def R.CLS_LPM6 (p : Nat) : Nat := 0x200048 + 0x40000 * p
/-- CLS CLS_ALARM (R161). -/
def R.CLS_ALARM (p : Nat) : Nat := 0x200050 + 0x40000 * p
/-- CLS TBL_DATA_n (R159). -/
def R.TBL_DATA_n (p : Nat) (q : Nat) : Nat := 0x200020 + 0x40000 * p + 0x4 * q
/-- CLS PPOL_A_i (R162). -/
def R.PPOL_A_i (p : Nat) (q : Nat) : Nat := 0x200100 + 0x40000 * p + 0x8 * q
/-- CLS PPOL_B_i (R162). -/
def R.PPOL_B_i (p : Nat) (q : Nat) : Nat := 0x200104 + 0x40000 * p + 0x8 * q
/-- CLS DOMAIN_CFG_d (R163). -/
def R.DOMAIN_CFG_d (p : Nat) (q : Nat) : Nat := 0x200800 + 0x40000 * p + 0x4 * q
/-- CLS FLOOD_d_m (R163). -/
def R.FLOOD_d_m (p : Nat) (q : Nat) (r : Nat) : Nat := 0x201000 + 0x40000 * p + 0x40 * q + 0x4 * r
/-- SAT SA_CMD (R194). -/
def R.SA_CMD : Nat := 0x300000
/-- SAT SA_STATUS (R194). -/
def R.SA_STATUS : Nat := 0x300004
/-- SAT SA_INDEX (R194). -/
def R.SA_INDEX : Nat := 0x300008
/-- SAT SA_ALARM (R194). -/
def R.SA_ALARM : Nat := 0x300010
/-- SAT SA_OCC (R194). -/
def R.SA_OCC : Nat := 0x300014
/-- SAT SA_DATA_n (R194). -/
def R.SA_DATA_n (p : Nat) : Nat := 0x300040 + 0x4 * p
/-- RIL RIL_STATE (R225). -/
def R.RIL_STATE (p : Nat) : Nat := 0x400000 + 0x10000 * p
/-- RIL RIL_ALARM (R226). -/
def R.RIL_ALARM (p : Nat) : Nat := 0x400004 + 0x10000 * p
/-- RIL RIL_KAT (R227). -/
def R.RIL_KAT (p : Nat) : Nat := 0x400008 + 0x10000 * p
/-- RIL RIL_CMD (R228). -/
def R.RIL_CMD : Nat := 0x490000
/-- RIL RIL_STATUS (R228). -/
def R.RIL_STATUS : Nat := 0x490004
/-- RIL RIL_SPARE (R229). -/
def R.RIL_SPARE : Nat := 0x490008
/-- RIL RIL_CTX (R229). -/
def R.RIL_CTX : Nat := 0x49000c
/-- RIL TEP_CMD (R230). -/
def R.TEP_CMD : Nat := 0x490020
/-- RIL TEP_STATUS (R230). -/
def R.TEP_STATUS : Nat := 0x490024
/-- RIL TEP_DATA_n (R230). -/
def R.TEP_DATA_n (p : Nat) : Nat := 0x490040 + 0x4 * p
/-- RIL DECAP_0_p (R231). -/
def R.DECAP_0_p (p : Nat) : Nat := 0x491000 + 0x10 * p
/-- RIL DECAP_1_p (R231). -/
def R.DECAP_1_p (p : Nat) : Nat := 0x491004 + 0x10 * p
/-- RIL DECAP_2_p (R231). -/
def R.DECAP_2_p (p : Nat) : Nat := 0x491008 + 0x10 * p
/-- RIL DECAP_3_p (R231). -/
def R.DECAP_3_p (p : Nat) : Nat := 0x49100c + 0x10 * p
/-- CIS CIS_CFG (R256). -/
def R.CIS_CFG : Nat := 0x500000
/-- CIS CIS_ROT (R257). -/
def R.CIS_ROT : Nat := 0x500004
/-- CIS CIS_SCRUB (R257). -/
def R.CIS_SCRUB : Nat := 0x500008
/-- CIS CIS_CMD (R258). -/
def R.CIS_CMD : Nat := 0x500010
/-- CIS CIS_STATUS (R258). -/
def R.CIS_STATUS : Nat := 0x500014
/-- CIS CIS_OCC (R259). -/
def R.CIS_OCC : Nat := 0x500018
/-- CIS CIS_SERIAL (R259). -/
def R.CIS_SERIAL : Nat := 0x50001c
/-- CIS CIS_ALARM (R260). -/
def R.CIS_ALARM : Nat := 0x500020
/-- CIS CIS_ERR_LO (R261). -/
def R.CIS_ERR_LO : Nat := 0x500024
/-- CIS CIS_ERR_HI (R261). -/
def R.CIS_ERR_HI : Nat := 0x500028
/-- CIS CIS_QUAR (R259). -/
def R.CIS_QUAR : Nat := 0x50002c
/-- CIS CIS_PPR (R259). -/
def R.CIS_PPR : Nat := 0x500030
/-- CIS CIS_KEYID_k (R262). -/
def R.CIS_KEYID_k (p : Nat) : Nat := 0x500100 + 0x4 * p
/-- CIS CIS_REGION_r (R262). -/
def R.CIS_REGION_r (p : Nat) : Nat := 0x501000 + 0x4 * p
/-- SCH SCH_DRR_j (R280). -/
def R.SCH_DRR_j (p : Nat) : Nat := 0x600010 + 0x4 * p
/-- SCH SCH_ALARM (R281). -/
def R.SCH_ALARM : Nat := 0x600040
/-- SCH SCH_ADMIT_o (R280). -/
def R.SCH_ADMIT_o (p : Nat) : Nat := 0x600100 + 0x4 * p
/-- SCH PROF_k_w (R280). -/
def R.PROF_k_w (p : Nat) (q : Nat) : Nat := 0x600200 + 0x10 * p + 0x4 * q
/-- SCH PORT_n_0 (R279). -/
def R.PORT_n_0 (p : Nat) : Nat := 0x600400 + 0x10 * p
/-- SCH PORT_n_1 (R279). -/
def R.PORT_n_1 (p : Nat) : Nat := 0x600404 + 0x10 * p
/-- SCH PORT_n_2 (R279). -/
def R.PORT_n_2 (p : Nat) : Nat := 0x600408 + 0x10 * p
/-- SCH PORT_n_3 (R279). -/
def R.PORT_n_3 (p : Nat) : Nat := 0x60040c + 0x10 * p
/-- SCH SVC_s_0 (R279). -/
def R.SVC_s_0 (p : Nat) : Nat := 0x601000 + 0x10 * p
/-- SCH SVC_s_1 (R279). -/
def R.SVC_s_1 (p : Nat) : Nat := 0x601004 + 0x10 * p
/-- SCH SVC_s_2 (R279). -/
def R.SVC_s_2 (p : Nat) : Nat := 0x601008 + 0x10 * p
/-- SCH SVC_s_3 (R279). -/
def R.SVC_s_3 (p : Nat) : Nat := 0x60100c + 0x10 * p
/-- SCH SUB_u_0 (R278). -/
def R.SUB_u_0 (p : Nat) : Nat := 0x620000 + 0x10 * p
/-- SCH SUB_u_1 (R278). -/
def R.SUB_u_1 (p : Nat) : Nat := 0x620004 + 0x10 * p
/-- SCH SUB_u_2 (R278). -/
def R.SUB_u_2 (p : Nat) : Nat := 0x620008 + 0x10 * p
/-- SCH SUB_u_3 (R278). -/
def R.SUB_u_3 (p : Nat) : Nat := 0x62000c + 0x10 * p
/-- SLU SLU_BUDGET (R291). -/
def R.SLU_BUDGET : Nat := 0x700000
/-- SLU SLU_THERM (R291). -/
def R.SLU_THERM : Nat := 0x700004
/-- SLU SLU_LOOP (R291). -/
def R.SLU_LOOP : Nat := 0x700008
/-- SLU SLU_GATE (R291). -/
def R.SLU_GATE : Nat := 0x700020
/-- SLU SLU_STATUS (R292). -/
def R.SLU_STATUS : Nat := 0x700030
/-- SLU SLU_MEAS (R292). -/
def R.SLU_MEAS : Nat := 0x700034
/-- SLU SLU_ALARM (R293). -/
def R.SLU_ALARM : Nat := 0x700038
/-- SLU SLU_SENSOR (R292). -/
def R.SLU_SENSOR : Nat := 0x70003c
/-- SLU SLU_ECL_e (R291). -/
def R.SLU_ECL_e (p : Nat) : Nat := 0x700010 + 0x4 * p
/-- CAS CAS_CFG (R320). -/
def R.CAS_CFG (p : Nat) : Nat := 0x780000 + 0x10000 * p
/-- CAS CAS_MASTER (R320). -/
def R.CAS_MASTER (p : Nat) : Nat := 0x780004 + 0x10000 * p
/-- CAS CAS_TXTAG_LO (R320). -/
def R.CAS_TXTAG_LO (p : Nat) : Nat := 0x780008 + 0x10000 * p
/-- CAS CAS_TXTAG_HI (R320). -/
def R.CAS_TXTAG_HI (p : Nat) : Nat := 0x78000c + 0x10000 * p
/-- CAS CAS_RXTAG_LO (R320). -/
def R.CAS_RXTAG_LO (p : Nat) : Nat := 0x780010 + 0x10000 * p
/-- CAS CAS_RXTAG_HI (R320). -/
def R.CAS_RXTAG_HI (p : Nat) : Nat := 0x780014 + 0x10000 * p
/-- CAS CAS_EPER (R320). -/
def R.CAS_EPER (p : Nat) : Nat := 0x780018 + 0x10000 * p
/-- CAS CAS_TRIB_t_0 (R320). -/
def R.CAS_TRIB_t_0 (p : Nat) (q : Nat) : Nat := 0x780100 + 0x10000 * p + 0x8 * q
/-- CAS CAS_TRIB_t_1 (R320). -/
def R.CAS_TRIB_t_1 (p : Nat) (q : Nat) : Nat := 0x780104 + 0x10000 * p + 0x8 * q
/-- CAS CAS_MAP_0_w (R320). -/
def R.CAS_MAP_0_w (p : Nat) (q : Nat) : Nat := 0x780400 + 0x10000 * p + 0x4 * q
/-- CAS CAS_MAP_1_w (R320). -/
def R.CAS_MAP_1_w (p : Nat) (q : Nat) : Nat := 0x780500 + 0x10000 * p + 0x4 * q
/-- CAS CAS_CMD (R321). -/
def R.CAS_CMD (p : Nat) : Nat := 0x780020 + 0x10000 * p
/-- CAS CAS_CMDST (R321). -/
def R.CAS_CMDST (p : Nat) : Nat := 0x780024 + 0x10000 * p
/-- CAS CAS_ALIGN (R321). -/
def R.CAS_ALIGN (p : Nat) : Nat := 0x780028 + 0x10000 * p
/-- CAS CAS_TX_EPOCH (R321). -/
def R.CAS_TX_EPOCH (p : Nat) : Nat := 0x780030 + 0x10000 * p
/-- CAS CAS_RX_EPOCH (R321). -/
def R.CAS_RX_EPOCH (p : Nat) : Nat := 0x780034 + 0x10000 * p
/-- CAS CAS_TX_FC_LO (R321). -/
def R.CAS_TX_FC_LO (p : Nat) : Nat := 0x780038 + 0x10000 * p
/-- CAS CAS_TX_FC_HI (R321). -/
def R.CAS_TX_FC_HI (p : Nat) : Nat := 0x78003c + 0x10000 * p
/-- CAS CAS_RX_FC_LO (R321). -/
def R.CAS_RX_FC_LO (p : Nat) : Nat := 0x780040 + 0x10000 * p
/-- CAS CAS_RX_FC_HI (R321). -/
def R.CAS_RX_FC_HI (p : Nat) : Nat := 0x780044 + 0x10000 * p
/-- CAS CAS_ALARM (R322). -/
def R.CAS_ALARM (p : Nat) : Nat := 0x78002c + 0x10000 * p
/-- CAS CAS_DEF (R336). -/
def R.CAS_DEF (p : Nat) : Nat := 0x780060 + 0x10000 * p
/-- CAS CAS_DEF_LATCH (R336). -/
def R.CAS_DEF_LATCH (p : Nat) : Nat := 0x780064 + 0x10000 * p
/-- CAS CAS_TDEF_LOD (R337). -/
def R.CAS_TDEF_LOD (p : Nat) : Nat := 0x780068 + 0x10000 * p
/-- CAS CAS_TDEF_SLIP (R337). -/
def R.CAS_TDEF_SLIP (p : Nat) : Nat := 0x78006c + 0x10000 * p
/-- CAS CAS_TDEF_RFAIL (R337). -/
def R.CAS_TDEF_RFAIL (p : Nat) : Nat := 0x780070 + 0x10000 * p
/-- CAS CAS_TDEF_LATCH (R337). -/
def R.CAS_TDEF_LATCH (p : Nat) : Nat := 0x780074 + 0x10000 * p
/-- CAS CAS_FE_EF_LO (R337). -/
def R.CAS_FE_EF_LO (p : Nat) : Nat := 0x780078 + 0x10000 * p
/-- CAS CAS_FE_EF_HI (R337). -/
def R.CAS_FE_EF_HI (p : Nat) : Nat := 0x78007c + 0x10000 * p
/-- CAS CAS_PM_CFG (R338). -/
def R.CAS_PM_CFG (p : Nat) : Nat := 0x780080 + 0x10000 * p
/-- CAS CAS_PM_SEL (R338). -/
def R.CAS_PM_SEL (p : Nat) : Nat := 0x780084 + 0x10000 * p
/-- CAS CAS_PM_ES (R338). -/
def R.CAS_PM_ES (p : Nat) : Nat := 0x780088 + 0x10000 * p
/-- CAS CAS_PM_SES (R338). -/
def R.CAS_PM_SES (p : Nat) : Nat := 0x78008c + 0x10000 * p
/-- CAS CAS_PM_UAS (R338). -/
def R.CAS_PM_UAS (p : Nat) : Nat := 0x780090 + 0x10000 * p
/-- CAS CAS_PM_START_LO (R338). -/
def R.CAS_PM_START_LO (p : Nat) : Nat := 0x780094 + 0x10000 * p
/-- CAS CAS_PM_START_HI (R338). -/
def R.CAS_PM_START_HI (p : Nat) : Nat := 0x780098 + 0x10000 * p
/-- CAS CAS_PM_STATE (R338). -/
def R.CAS_PM_STATE (p : Nat) : Nat := 0x78009c + 0x10000 * p
/-- CAS CAS_OPS_CTRL (R339). -/
def R.CAS_OPS_CTRL (p : Nat) : Nat := 0x7800c0 + 0x10000 * p
/-- CAS CAS_OPS_STATUS (R339). -/
def R.CAS_OPS_STATUS (p : Nat) : Nat := 0x7800c4 + 0x10000 * p
/-- CAS CAS_OPS_RX_n (R339). -/
def R.CAS_OPS_RX_n (p : Nat) (q : Nat) : Nat := 0x7800c8 + 0x10000 * p + 0x4 * q
/-- CAS CAS_OPS_TXBUF (R339). -/
def R.CAS_OPS_TXBUF (p : Nat) (q : Nat) : Nat := 0x781000 + 0x10000 * p + 0x4 * q
/-- CAS CAS_OPS_RXBUF_n (R339). -/
def R.CAS_OPS_RXBUF_n (p : Nat) (q : Nat) (r : Nat) : Nat := 0x782000 + 0x10000 * p + 0x1000 * q + 0x4 * r
/-- TIM TB_INCR (R361). -/
def R.TB_INCR (p : Nat) : Nat := 0x800000 + 0x40 * p
/-- TIM TB_JUMP (R361). -/
def R.TB_JUMP (p : Nat) : Nat := 0x800004 + 0x40 * p
/-- TIM TB_STEP_LO (R361). -/
def R.TB_STEP_LO (p : Nat) : Nat := 0x800008 + 0x40 * p
/-- TIM TB_STEP_HI (R361). -/
def R.TB_STEP_HI (p : Nat) : Nat := 0x80000c + 0x40 * p
/-- TIM TB_CMD (R361). -/
def R.TB_CMD (p : Nat) : Nat := 0x800010 + 0x40 * p
/-- TIM TB_STATUS (R361). -/
def R.TB_STATUS (p : Nat) : Nat := 0x800014 + 0x40 * p
/-- TIM TB_SNAP_FRAC (R361). -/
def R.TB_SNAP_FRAC (p : Nat) : Nat := 0x800018 + 0x40 * p
/-- TIM TB_SNAP_NS (R361). -/
def R.TB_SNAP_NS (p : Nat) : Nat := 0x80001c + 0x40 * p
/-- TIM TB_SNAP_SEC_LO (R361). -/
def R.TB_SNAP_SEC_LO (p : Nat) : Nat := 0x800020 + 0x40 * p
/-- TIM TB_SNAP_SEC_HI (R361). -/
def R.TB_SNAP_SEC_HI (p : Nat) : Nat := 0x800024 + 0x40 * p
/-- TIM TIM_ALARM (R362). -/
def R.TIM_ALARM : Nat := 0x800100
/-- TIM TIM_UNLOCK (R362). -/
def R.TIM_UNLOCK : Nat := 0x800104
/-- TIM TIM_TIA (R362). -/
def R.TIM_TIA : Nat := 0x800108
/-- TIM TIM_DOMAIN_d (R362). -/
def R.TIM_DOMAIN_d (p : Nat) : Nat := 0x800110 + 0x4 * p
/-- TIM PPS_OUT_n (R362). -/
def R.PPS_OUT_n (p : Nat) : Nat := 0x800120 + 0x4 * p
/-- TIM PPS_IN_STAT (R362). -/
def R.PPS_IN_STAT : Nat := 0x800130
/-- TIM PPS_IN_b_NS (R362). -/
def R.PPS_IN_b_NS (p : Nat) : Nat := 0x800140 + 0x10 * p
/-- TIM PPS_IN_b_SEC_LO (R362). -/
def R.PPS_IN_b_SEC_LO (p : Nat) : Nat := 0x800144 + 0x10 * p
/-- TIM PPS_IN_b_SEC_HI (R362). -/
def R.PPS_IN_b_SEC_HI (p : Nat) : Nat := 0x800148 + 0x10 * p
/-- TIM TIM_GPIO_j (R362). -/
def R.TIM_GPIO_j (p : Nat) : Nat := 0x800180 + 0x4 * p
/-- TIM CMP_CFG (R363). -/
def R.CMP_CFG (p : Nat) : Nat := 0x800400 + 0x20 * p
/-- TIM CMP_TGT_NS (R363). -/
def R.CMP_TGT_NS (p : Nat) : Nat := 0x800404 + 0x20 * p
/-- TIM CMP_TGT_SEC_LO (R363). -/
def R.CMP_TGT_SEC_LO (p : Nat) : Nat := 0x800408 + 0x20 * p
/-- TIM CMP_TGT_SEC_HI (R363). -/
def R.CMP_TGT_SEC_HI (p : Nat) : Nat := 0x80040c + 0x20 * p
/-- TIM CMP_PERIOD (R363). -/
def R.CMP_PERIOD (p : Nat) : Nat := 0x800410 + 0x20 * p
/-- TIM CMP_MISSED (R363). -/
def R.CMP_MISSED (p : Nat) : Nat := 0x800414 + 0x20 * p
/-- TIM PTP_CFG (R364). -/
def R.PTP_CFG (p : Nat) : Nat := 0x810000 + 0x1000 * p
/-- TIM PORT_PDELAY (R364). -/
def R.PORT_PDELAY (p : Nat) : Nat := 0x810004 + 0x1000 * p
/-- TIM LAUNCH_CFG (R364). -/
def R.LAUNCH_CFG (p : Nat) : Nat := 0x810008 + 0x1000 * p
/-- TIM GATE_CFG (R364). -/
def R.GATE_CFG (p : Nat) : Nat := 0x810010 + 0x1000 * p
/-- TIM GATE_LEN (R364). -/
def R.GATE_LEN (p : Nat) : Nat := 0x810014 + 0x1000 * p
/-- TIM GATE_CYCLE (R364). -/
def R.GATE_CYCLE (p : Nat) : Nat := 0x810018 + 0x1000 * p
/-- TIM GATE_BASE_NS (R364). -/
def R.GATE_BASE_NS (p : Nat) : Nat := 0x81001c + 0x1000 * p
/-- TIM GATE_BASE_SEC_LO (R364). -/
def R.GATE_BASE_SEC_LO (p : Nat) : Nat := 0x810020 + 0x1000 * p
/-- TIM GATE_BASE_SEC_HI (R364). -/
def R.GATE_BASE_SEC_HI (p : Nat) : Nat := 0x810024 + 0x1000 * p
/-- TIM GATE_ENTRY_e (R364). -/
def R.GATE_ENTRY_e (p : Nat) (q : Nat) : Nat := 0x810400 + 0x1000 * p + 0x4 * q
/-- KST KST_CMD (R390). -/
def R.KST_CMD : Nat := 0x880000
/-- KST KST_STATUS (R390). -/
def R.KST_STATUS : Nat := 0x880004
/-- KST KST_ADDR_LO (R390). -/
def R.KST_ADDR_LO : Nat := 0x880008
/-- KST KST_ADDR_HI (R390). -/
def R.KST_ADDR_HI : Nat := 0x88000c
/-- KST KST_LEN (R390). -/
def R.KST_LEN : Nat := 0x880010
/-- KST KST_ARG_0 (R390). -/
def R.KST_ARG_0 : Nat := 0x880014
/-- KST KST_ARG_1 (R390). -/
def R.KST_ARG_1 : Nat := 0x880018
/-- KST KST_NONCE_n (R390). -/
def R.KST_NONCE_n (p : Nat) : Nat := 0x880020 + 0x4 * p
/-- KST KST_CTR_LO (R390). -/
def R.KST_CTR_LO : Nat := 0x880040
/-- KST KST_CTR_HI (R390). -/
def R.KST_CTR_HI : Nat := 0x880044
/-- KST KST_OCC (R390). -/
def R.KST_OCC : Nat := 0x880048
/-- KST KST_ALARM (R391). -/
def R.KST_ALARM : Nat := 0x88004c
/-- KST KST_RESULT_LEN (R390). -/
def R.KST_RESULT_LEN : Nat := 0x880050
/-- KST KST_INFO_n (R390). -/
def R.KST_INFO_n (p : Nat) : Nat := 0x880060 + 0x4 * p
/-- PKE PKE_DESC_LO (R409). -/
def R.PKE_DESC_LO : Nat := 0x8c0000
/-- PKE PKE_DESC_HI (R409). -/
def R.PKE_DESC_HI : Nat := 0x8c0004
/-- PKE PKE_CMD (R409). -/
def R.PKE_CMD : Nat := 0x8c0008
/-- PKE PKE_CMD_STATUS (R409). -/
def R.PKE_CMD_STATUS : Nat := 0x8c000c
/-- PKE PKE_OCC (R410). -/
def R.PKE_OCC : Nat := 0x8c0010
/-- PKE PKE_CURVE (R410). -/
def R.PKE_CURVE : Nat := 0x8c0014
/-- PKE PKE_ALARM (R411). -/
def R.PKE_ALARM : Nat := 0x8c0018
/-- PKE PKE_DONE (R410). -/
def R.PKE_DONE : Nat := 0x8c001c
/-- TMP TMP_FLAGS (R425). -/
def R.TMP_FLAGS : Nat := 0x900000
/-- TMP TMP_RAW (R425). -/
def R.TMP_RAW : Nat := 0x900004
/-- TMP TMP_STATUS (R425). -/
def R.TMP_STATUS : Nat := 0x900008
/-- TMP TMP_CMD (R425). -/
def R.TMP_CMD : Nat := 0x90000c
/-- TMP TMP_WINDOW (R425). -/
def R.TMP_WINDOW : Nat := 0x900010
/-- TMP TMP_LIMITS (R425). -/
def R.TMP_LIMITS : Nat := 0x900020
/-- TMP TMP_CELL (R425). -/
def R.TMP_CELL : Nat := 0x900024
/-- TMP TMP_LOG_COUNT (R425). -/
def R.TMP_LOG_COUNT : Nat := 0x900028
/-- TMP TMP_RESP_s (R425). -/
def R.TMP_RESP_s (p : Nat) : Nat := 0x900040 + 0x4 * p
/-- TMP TMP_LOG_n_w (R425). -/
def R.TMP_LOG_n_w (p : Nat) (q : Nat) : Nat := 0x900100 + 0x10 * p + 0x4 * q
/-- PAI PAI_CFG (R452). -/
def R.PAI_CFG : Nat := 0x980000
/-- PAI PAI_STATUS (R452). -/
def R.PAI_STATUS : Nat := 0x980004
/-- PAI PAI_CMD (R452). -/
def R.PAI_CMD : Nat := 0x980008
/-- PAI PAI_CMDST (R452). -/
def R.PAI_CMDST : Nat := 0x98000c
/-- PAI PAI_TAKE (R452). -/
def R.PAI_TAKE : Nat := 0x980010
/-- PAI PAI_DIAG (R452). -/
def R.PAI_DIAG : Nat := 0x980014
/-- PAI PAI_ALARM (R452). -/
def R.PAI_ALARM : Nat := 0x980018
/-- HIF HIF_CFG (R472). -/
def R.HIF_CFG : Nat := 0xa00000
/-- HIF HIF_SUB (R472). -/
def R.HIF_SUB : Nat := 0xa00004
/-- HIF HIF_SLCMD (R472). -/
def R.HIF_SLCMD : Nat := 0xa00010
/-- HIF HIF_SLARG (R472). -/
def R.HIF_SLARG : Nat := 0xa00014
/-- HIF HIF_SLCMDST (R472). -/
def R.HIF_SLCMDST : Nat := 0xa00018
/-- HIF HIF_SLICE_s_0 (R473). -/
def R.HIF_SLICE_s_0 (p : Nat) : Nat := 0xa01000 + 0x10 * p
/-- HIF HIF_SLICE_s_1 (R473). -/
def R.HIF_SLICE_s_1 (p : Nat) : Nat := 0xa01004 + 0x10 * p
/-- HIF HIF_SLICE_s_2 (R473). -/
def R.HIF_SLICE_s_2 (p : Nat) : Nat := 0xa01008 + 0x10 * p
/-- HIF HIF_SLSTAT_s (R473). -/
def R.HIF_SLSTAT_s (p : Nat) : Nat := 0xa02000 + 0x4 * p
/-- HIF HIF_SLFLIGHT_s (R473). -/
def R.HIF_SLFLIGHT_s (p : Nat) : Nat := 0xa03000 + 0x4 * p
/-- HIF TXQ_BASE_LO (R475). -/
def R.TXQ_BASE_LO (p : Nat) : Nat := 0xa04000 + 0x40 * p
/-- HIF TXQ_BASE_HI (R475). -/
def R.TXQ_BASE_HI (p : Nat) : Nat := 0xa04004 + 0x40 * p
/-- HIF TXQ_CFG (R475). -/
def R.TXQ_CFG (p : Nat) : Nat := 0xa04008 + 0x40 * p
/-- HIF TXQ_TAIL (R475). -/
def R.TXQ_TAIL (p : Nat) : Nat := 0xa0400c + 0x40 * p
/-- HIF TXQ_HEAD (R475). -/
def R.TXQ_HEAD (p : Nat) : Nat := 0xa04010 + 0x40 * p
/-- HIF TXC_BASE_LO (R475). -/
def R.TXC_BASE_LO (p : Nat) : Nat := 0xa04014 + 0x40 * p
/-- HIF TXC_BASE_HI (R475). -/
def R.TXC_BASE_HI (p : Nat) : Nat := 0xa04018 + 0x40 * p
/-- HIF RXQ_BASE_LO (R475). -/
def R.RXQ_BASE_LO (p : Nat) : Nat := 0xa04020 + 0x40 * p
/-- HIF RXQ_BASE_HI (R475). -/
def R.RXQ_BASE_HI (p : Nat) : Nat := 0xa04024 + 0x40 * p
/-- HIF RXQ_CFG (R475). -/
def R.RXQ_CFG (p : Nat) : Nat := 0xa04028 + 0x40 * p
/-- HIF RXQ_TAIL (R475). -/
def R.RXQ_TAIL (p : Nat) : Nat := 0xa0402c + 0x40 * p
/-- HIF RXQ_HEAD (R475). -/
def R.RXQ_HEAD (p : Nat) : Nat := 0xa04030 + 0x40 * p
/-- HIF RXC_BASE_LO (R475). -/
def R.RXC_BASE_LO (p : Nat) : Nat := 0xa04034 + 0x40 * p
/-- HIF RXC_BASE_HI (R475). -/
def R.RXC_BASE_HI (p : Nat) : Nat := 0xa04038 + 0x40 * p
/-- HIF IRQ_COAL (R475). -/
def R.IRQ_COAL (p : Nat) : Nat := 0xa0403c + 0x40 * p
/-- CNT CNT_CFG (R488). -/
def R.CNT_CFG : Nat := 0xc00000
/-- CNT CNT_BW (R488). -/
def R.CNT_BW : Nat := 0xc00004
/-- CNT CNT_BUF_A_LO (R488). -/
def R.CNT_BUF_A_LO : Nat := 0xc00008
/-- CNT CNT_BUF_A_HI (R488). -/
def R.CNT_BUF_A_HI : Nat := 0xc0000c
/-- CNT CNT_BUF_B_LO (R488). -/
def R.CNT_BUF_B_LO : Nat := 0xc00010
/-- CNT CNT_BUF_B_HI (R488). -/
def R.CNT_BUF_B_HI : Nat := 0xc00014
/-- CNT CNT_CMD (R488). -/
def R.CNT_CMD : Nat := 0xc00018
/-- CNT CNT_STATUS (R488). -/
def R.CNT_STATUS : Nat := 0xc00028
/-- CNT CNT_ALARM (R488). -/
def R.CNT_ALARM : Nat := 0xc0002c
/-- CNT CNT_RD_IDX (R488). -/
def R.CNT_RD_IDX : Nat := 0xc00030
/-- CNT CNT_AT_SEC_LO (R488). -/
def R.CNT_AT_SEC_LO : Nat := 0xc0001c
/-- CNT CNT_AT_SEC_HI (R488). -/
def R.CNT_AT_SEC_HI : Nat := 0xc00020
/-- CNT CNT_AT_NS (R488). -/
def R.CNT_AT_NS : Nat := 0xc00024
/-- CNT CNT_RD_LO (R488). -/
def R.CNT_RD_LO : Nat := 0xc00034
/-- CNT CNT_RD_HI (R488). -/
def R.CNT_RD_HI : Nat := 0xc00038
/-- CNT CNT_ARM_k_IDX (R488). -/
def R.CNT_ARM_k_IDX (p : Nat) : Nat := 0xc00100 + 0x10 * p
/-- CNT CNT_ARM_k_N (R488). -/
def R.CNT_ARM_k_N (p : Nat) : Nat := 0xc00104 + 0x10 * p
/-- CNT CNT_ARM_HIT (R488). -/
def R.CNT_ARM_HIT : Nat := 0xc00180
/-- CNT CNT_BW_p_RX_LO (R488). -/
def R.CNT_BW_p_RX_LO (p : Nat) : Nat := 0xc01000 + 0x10 * p
/-- CNT CNT_BW_p_RX_HI (R488). -/
def R.CNT_BW_p_RX_HI (p : Nat) : Nat := 0xc01004 + 0x10 * p
/-- CNT CNT_BW_p_TX_LO (R488). -/
def R.CNT_BW_p_TX_LO (p : Nat) : Nat := 0xc01008 + 0x10 * p
/-- CNT CNT_BW_p_TX_HI (R488). -/
def R.CNT_BW_p_TX_HI (p : Nat) : Nat := 0xc0100c + 0x10 * p
/-- LEG LEG_i_LO (R485). -/
def R.LEG_i_LO (p : Nat) : Nat := 0xe00000 + 0x8 * p
/-- LEG LEG_i_HI (R485). -/
def R.LEG_i_HI (p : Nat) : Nat := 0xe00004 + 0x8 * p
/-- SL SL_INFO (R474). -/
def R.SL_INFO (p : Nat) : Nat := 0x10000000 + 0x200000 * p
/-- SL SL_RXMAP (R474). -/
def R.SL_RXMAP (p : Nat) : Nat := 0x10000004 + 0x200000 * p
/-- SL SL_INFLIGHT (R474). -/
def R.SL_INFLIGHT (p : Nat) : Nat := 0x10000008 + 0x200000 * p
/-- SL SL_ALARM (R474). -/
def R.SL_ALARM (p : Nat) : Nat := 0x10000010 + 0x200000 * p
/-- SL SL_SA_CMD (R194). -/
def R.SL_SA_CMD (p : Nat) : Nat := 0x10000100 + 0x200000 * p
/-- SL SL_SA_STATUS (R194). -/
def R.SL_SA_STATUS (p : Nat) : Nat := 0x10000104 + 0x200000 * p
/-- SL SL_SA_INDEX (R194). -/
def R.SL_SA_INDEX (p : Nat) : Nat := 0x10000108 + 0x200000 * p
/-- SL SL_SA_ALARM (R194). -/
def R.SL_SA_ALARM (p : Nat) : Nat := 0x10000110 + 0x200000 * p
/-- SL SL_SA_DATA_n (R194). -/
def R.SL_SA_DATA_n (p : Nat) (q : Nat) : Nat := 0x10000140 + 0x200000 * p + 0x4 * q
/-- SL SL_TXQ_BASE_LO (R475). -/
def R.SL_TXQ_BASE_LO (p : Nat) (q : Nat) : Nat := 0x10001000 + 0x200000 * p + 0x40 * q
/-- SL SL_TXQ_BASE_HI (R475). -/
def R.SL_TXQ_BASE_HI (p : Nat) (q : Nat) : Nat := 0x10001004 + 0x200000 * p + 0x40 * q
/-- SL SL_TXQ_CFG (R475). -/
def R.SL_TXQ_CFG (p : Nat) (q : Nat) : Nat := 0x10001008 + 0x200000 * p + 0x40 * q
/-- SL SL_TXQ_TAIL (R475). -/
def R.SL_TXQ_TAIL (p : Nat) (q : Nat) : Nat := 0x1000100c + 0x200000 * p + 0x40 * q
/-- SL SL_TXQ_HEAD (R475). -/
def R.SL_TXQ_HEAD (p : Nat) (q : Nat) : Nat := 0x10001010 + 0x200000 * p + 0x40 * q
/-- SL SL_TXC_BASE_LO (R475). -/
def R.SL_TXC_BASE_LO (p : Nat) (q : Nat) : Nat := 0x10001014 + 0x200000 * p + 0x40 * q
/-- SL SL_TXC_BASE_HI (R475). -/
def R.SL_TXC_BASE_HI (p : Nat) (q : Nat) : Nat := 0x10001018 + 0x200000 * p + 0x40 * q
/-- SL SL_RXQ_BASE_LO (R475). -/
def R.SL_RXQ_BASE_LO (p : Nat) (q : Nat) : Nat := 0x10001020 + 0x200000 * p + 0x40 * q
/-- SL SL_RXQ_BASE_HI (R475). -/
def R.SL_RXQ_BASE_HI (p : Nat) (q : Nat) : Nat := 0x10001024 + 0x200000 * p + 0x40 * q
/-- SL SL_RXQ_CFG (R475). -/
def R.SL_RXQ_CFG (p : Nat) (q : Nat) : Nat := 0x10001028 + 0x200000 * p + 0x40 * q
/-- SL SL_RXQ_TAIL (R475). -/
def R.SL_RXQ_TAIL (p : Nat) (q : Nat) : Nat := 0x1000102c + 0x200000 * p + 0x40 * q
/-- SL SL_RXQ_HEAD (R475). -/
def R.SL_RXQ_HEAD (p : Nat) (q : Nat) : Nat := 0x10001030 + 0x200000 * p + 0x40 * q
/-- SL SL_RXC_BASE_LO (R475). -/
def R.SL_RXC_BASE_LO (p : Nat) (q : Nat) : Nat := 0x10001034 + 0x200000 * p + 0x40 * q
/-- SL SL_RXC_BASE_HI (R475). -/
def R.SL_RXC_BASE_HI (p : Nat) (q : Nat) : Nat := 0x10001038 + 0x200000 * p + 0x40 * q
/-- SL SL_IRQ_COAL (R475). -/
def R.SL_IRQ_COAL (p : Nat) (q : Nat) : Nat := 0x1000103c + 0x200000 * p + 0x40 * q
/-- HIF PF_MSIX_ADDR_LO (R491). -/
def R.PF_MSIX_ADDR_LO (p : Nat) : Nat := 0xa08000 + 0x10 * p
/-- HIF PF_MSIX_ADDR_HI (R491). -/
def R.PF_MSIX_ADDR_HI (p : Nat) : Nat := 0xa08004 + 0x10 * p
/-- HIF PF_MSIX_DATA (R491). -/
def R.PF_MSIX_DATA (p : Nat) : Nat := 0xa08008 + 0x10 * p
/-- HIF PF_MSIX_CTRL (R491). -/
def R.PF_MSIX_CTRL (p : Nat) : Nat := 0xa0800c + 0x10 * p
/-- HIF PF_MSIX_PBA (R491). -/
def R.PF_MSIX_PBA (p : Nat) : Nat := 0xa09000 + 0x4 * p
/-- SL SL_MSIX_ADDR_LO (R491). -/
def R.SL_MSIX_ADDR_LO (p : Nat) (q : Nat) : Nat := 0x10008000 + 0x200000 * p + 0x10 * q
/-- SL SL_MSIX_ADDR_HI (R491). -/
def R.SL_MSIX_ADDR_HI (p : Nat) (q : Nat) : Nat := 0x10008004 + 0x200000 * p + 0x10 * q
/-- SL SL_MSIX_DATA (R491). -/
def R.SL_MSIX_DATA (p : Nat) (q : Nat) : Nat := 0x10008008 + 0x200000 * p + 0x10 * q
/-- SL SL_MSIX_CTRL (R491). -/
def R.SL_MSIX_CTRL (p : Nat) (q : Nat) : Nat := 0x1000800c + 0x200000 * p + 0x10 * q
/-- SL SL_MSIX_PBA (R491). -/
def R.SL_MSIX_PBA (p : Nat) (q : Nat) : Nat := 0x10009000 + 0x200000 * p + 0x4 * q

/-- GLB_ID.DEVICE (R492). -/
def F.GLB_ID_DEVICE : Fld := ⟨16, 16⟩
/-- GLB_ID.VENDOR (R492). -/
def F.GLB_ID_VENDOR : Fld := ⟨0, 16⟩
/-- GLB_REV.ORDER (R492). -/
def F.GLB_REV_ORDER : Fld := ⟨16, 2⟩
/-- GLB_REV.STEPPING (R492). -/
def F.GLB_REV_STEPPING : Fld := ⟨0, 16⟩
/-- GLB_SERIAL_LO.SERIAL (R492). -/
def F.GLB_SERIAL_LO_SERIAL : Fld := ⟨0, 32⟩
/-- GLB_SERIAL_HI.SERIAL (R492). -/
def F.GLB_SERIAL_HI_SERIAL : Fld := ⟨0, 32⟩
/-- GLB_FW.ROM_MAJOR (R492). -/
def F.GLB_FW_ROM_MAJOR : Fld := ⟨24, 8⟩
/-- GLB_FW.ROM_MINOR (R492). -/
def F.GLB_FW_ROM_MINOR : Fld := ⟨16, 8⟩
/-- GLB_FW.PATCH (R492). -/
def F.GLB_FW_PATCH : Fld := ⟨0, 16⟩
/-- GLB_STATUS.MC_RESTARTS (R492). -/
def F.GLB_STATUS_MC_RESTARTS : Fld := ⟨16, 16⟩
/-- GLB_STATUS.MC_UP (R492). -/
def F.GLB_STATUS_MC_UP : Fld := ⟨8, 1⟩
/-- GLB_STATUS.DEV_STATE (R492). -/
def F.GLB_STATUS_DEV_STATE : Fld := ⟨0, 3⟩
/-- GLB_ALARM_SUM.BLOCK (R492). -/
def F.GLB_ALARM_SUM_BLOCK : Fld := ⟨0, 15⟩
/-- GLB_RESET.KEY (R492). -/
def F.GLB_RESET_KEY : Fld := ⟨16, 16⟩
/-- GLB_RESET.OP (R492). -/
def F.GLB_RESET_OP : Fld := ⟨0, 2⟩
/-- GLB_ERR.BAD_KEY (R492). -/
def F.GLB_ERR_BAD_KEY : Fld := ⟨3, 1⟩
/-- GLB_ERR.HOLE (R492). -/
def F.GLB_ERR_HOLE : Fld := ⟨2, 1⟩
/-- GLB_ERR.STATE (R492). -/
def F.GLB_ERR_STATE : Fld := ⟨1, 1⟩
/-- GLB_ERR.PARTIAL (R492). -/
def F.GLB_ERR_PARTIAL : Fld := ⟨0, 1⟩
/-- GLB_ERR_ADDR.OFFSET (R492). -/
def F.GLB_ERR_ADDR_OFFSET : Fld := ⟨0, 26⟩
/-- GLB_SCRATCH.VALUE (R492). -/
def F.GLB_SCRATCH_VALUE : Fld := ⟨0, 32⟩
/-- TXN_CTRL.ROLLBACK (R86). -/
def F.TXN_CTRL_ROLLBACK : Fld := ⟨2, 1⟩
/-- TXN_CTRL.COMMIT (R86). -/
def F.TXN_CTRL_COMMIT : Fld := ⟨1, 1⟩
/-- TXN_CTRL.BEGIN (R86). -/
def F.TXN_CTRL_BEGIN : Fld := ⟨0, 1⟩
/-- TXN_STATUS.STATE (R86). -/
def F.TXN_STATUS_STATE : Fld := ⟨16, 3⟩
/-- TXN_STATUS.CMD (R86). -/
def F.TXN_STATUS_CMD : Fld := ⟨8, 8⟩
/-- TXN_STATUS.RESULT (R86). -/
def F.TXN_STATUS_RESULT : Fld := ⟨0, 8⟩
/-- TXN_TIMEOUT.MS (R86). -/
def F.TXN_TIMEOUT_MS : Fld := ⟨0, 14⟩
/-- TXN_CONFLICT.CLASS (R86). -/
def F.TXN_CONFLICT_CLASS : Fld := ⟨28, 4⟩
/-- TXN_CONFLICT.INSTANCE (R86). -/
def F.TXN_CONFLICT_INSTANCE : Fld := ⟨16, 12⟩
/-- TXN_CONFLICT.HOLDER (R86). -/
def F.TXN_CONFLICT_HOLDER : Fld := ⟨8, 8⟩
/-- TXN_CONFLICT.CLAIMANT (R86). -/
def F.TXN_CONFLICT_CLAIMANT : Fld := ⟨0, 8⟩
/-- TXN_INVALID.WHERE (R86). -/
def F.TXN_INVALID_WHERE : Fld := ⟨0, 32⟩
/-- TXN_SEQ.COUNT (R86). -/
def F.TXN_SEQ_COUNT : Fld := ⟨0, 32⟩
/-- TXN_LEVEL.CNT (R76). -/
def F.TXN_LEVEL_CNT : Fld := ⟨14, 1⟩
/-- TXN_LEVEL.HIF (R76). -/
def F.TXN_LEVEL_HIF : Fld := ⟨13, 1⟩
/-- TXN_LEVEL.PAI (R76). -/
def F.TXN_LEVEL_PAI : Fld := ⟨12, 1⟩
/-- TXN_LEVEL.TMP (R76). -/
def F.TXN_LEVEL_TMP : Fld := ⟨11, 1⟩
/-- TXN_LEVEL.TIM (R76). -/
def F.TXN_LEVEL_TIM : Fld := ⟨10, 1⟩
/-- TXN_LEVEL.CAS (R76). -/
def F.TXN_LEVEL_CAS : Fld := ⟨9, 1⟩
/-- TXN_LEVEL.SLU (R76). -/
def F.TXN_LEVEL_SLU : Fld := ⟨8, 1⟩
/-- TXN_LEVEL.SCH (R76). -/
def F.TXN_LEVEL_SCH : Fld := ⟨7, 1⟩
/-- TXN_LEVEL.CIS (R76). -/
def F.TXN_LEVEL_CIS : Fld := ⟨6, 1⟩
/-- TXN_LEVEL.RIL (R76). -/
def F.TXN_LEVEL_RIL : Fld := ⟨5, 1⟩
/-- TXN_LEVEL.SAT (R76). -/
def F.TXN_LEVEL_SAT : Fld := ⟨4, 1⟩
/-- TXN_LEVEL.CLS (R76). -/
def F.TXN_LEVEL_CLS : Fld := ⟨3, 1⟩
/-- TXN_LEVEL.AQD (R76). -/
def F.TXN_LEVEL_AQD : Fld := ⟨2, 1⟩
/-- TXN_LEVEL.LPT (R76). -/
def F.TXN_LEVEL_LPT : Fld := ⟨1, 1⟩
/-- TXN_LEVEL.CPT (R76). -/
def F.TXN_LEVEL_CPT : Fld := ⟨0, 1⟩
/-- BP_ID.ID (R77). -/
def F.BP_ID_ID : Fld := ⟨0, 32⟩
/-- BP_VAL_LO.VAL (R77). -/
def F.BP_VAL_LO_VAL : Fld := ⟨0, 32⟩
/-- BP_VAL_HI.VAL (R77). -/
def F.BP_VAL_HI_VAL : Fld := ⟨0, 32⟩
/-- BP_CMD.READ (R77). -/
def F.BP_CMD_READ : Fld := ⟨1, 1⟩
/-- BP_CMD.WRITE (R77). -/
def F.BP_CMD_WRITE : Fld := ⟨0, 1⟩
/-- BP_STATUS.STATUS (R77). -/
def F.BP_STATUS_STATUS : Fld := ⟨0, 8⟩
/-- TXN_SHADOW.PARAMS (R86). -/
def F.TXN_SHADOW_PARAMS : Fld := ⟨16, 16⟩
/-- TXN_SHADOW.REGS (R86). -/
def F.TXN_SHADOW_REGS : Fld := ⟨0, 16⟩
/-- START_STATE.SLOT (R54). -/
def F.START_STATE_SLOT : Fld := ⟨10, 2⟩
/-- START_STATE.SUCCESS (R54). -/
def F.START_STATE_SUCCESS : Fld := ⟨9, 1⟩
/-- START_STATE.PAIR_ROLE_PENDING (R54). -/
def F.START_STATE_PAIR_ROLE_PENDING : Fld := ⟨8, 1⟩
/-- START_STATE.STEP (R54). -/
def F.START_STATE_STEP : Fld := ⟨4, 4⟩
/-- START_STATE.DEV_STATE (R54). -/
def F.START_STATE_DEV_STATE : Fld := ⟨0, 3⟩
/-- START_CTRL.FAIL_CLEAR (R55). -/
def F.START_CTRL_FAIL_CLEAR : Fld := ⟨3, 1⟩
/-- START_CTRL.MAINT_EXIT (R55). -/
def F.START_CTRL_MAINT_EXIT : Fld := ⟨2, 1⟩
/-- START_CTRL.MAINT_REQ (R55). -/
def F.START_CTRL_MAINT_REQ : Fld := ⟨1, 1⟩
/-- START_CTRL.PLANNED (R55). -/
def F.START_CTRL_PLANNED : Fld := ⟨0, 1⟩
/-- START_FAILS.LAST_SLOT (R56). -/
def F.START_FAILS_LAST_SLOT : Fld := ⟨8, 1⟩
/-- START_FAILS.FAIL_B (R56). -/
def F.START_FAILS_FAIL_B : Fld := ⟨4, 2⟩
/-- START_FAILS.FAIL_A (R56). -/
def F.START_FAILS_FAIL_A : Fld := ⟨2, 2⟩
/-- START_FAILS.FAIL_CONSEC (R56). -/
def F.START_FAILS_FAIL_CONSEC : Fld := ⟨0, 2⟩
/-- START_REASON.DETAIL (R57). -/
def F.START_REASON_DETAIL : Fld := ⟨8, 8⟩
/-- START_REASON.CODE (R57). -/
def F.START_REASON_CODE : Fld := ⟨0, 8⟩
/-- START_STATUS.CMD_STATUS (R58). -/
def F.START_STATUS_CMD_STATUS : Fld := ⟨0, 8⟩
/-- START_TIME.TO_ACTIVE_US (R59). -/
def F.START_TIME_TO_ACTIVE_US : Fld := ⟨0, 32⟩
/-- START_LOG_n.SEQ (R60). -/
def F.START_LOG_n_SEQ : Fld := ⟨16, 16⟩
/-- START_LOG_n.REASON (R60). -/
def F.START_LOG_n_REASON : Fld := ⟨8, 8⟩
/-- START_LOG_n.LAST_STEP (R60). -/
def F.START_LOG_n_LAST_STEP : Fld := ⟨4, 4⟩
/-- START_LOG_n.SLOT (R60). -/
def F.START_LOG_n_SLOT : Fld := ⟨2, 2⟩
/-- START_LOG_n.OUTCOME (R60). -/
def F.START_LOG_n_OUTCOME : Fld := ⟨0, 2⟩
/-- IMG_CTRL.SLOT (R71). -/
def F.IMG_CTRL_SLOT : Fld := ⟨1, 1⟩
/-- IMG_CTRL.GO (R71). -/
def F.IMG_CTRL_GO : Fld := ⟨0, 1⟩
/-- IMG_SRC_LO.ADDR (R71). -/
def F.IMG_SRC_LO_ADDR : Fld := ⟨0, 32⟩
/-- IMG_SRC_HI.ADDR (R71). -/
def F.IMG_SRC_HI_ADDR : Fld := ⟨0, 32⟩
/-- IMG_LEN.LEN (R71). -/
def F.IMG_LEN_LEN : Fld := ⟨0, 32⟩
/-- IMG_STATUS.PERCENT (R71). -/
def F.IMG_STATUS_PERCENT : Fld := ⟨16, 8⟩
/-- IMG_STATUS.PHASE (R71). -/
def F.IMG_STATUS_PHASE : Fld := ⟨8, 3⟩
/-- IMG_STATUS.STATUS (R71). -/
def F.IMG_STATUS_STATUS : Fld := ⟨0, 8⟩
/-- IMG_REJ.COUNT (R71). -/
def F.IMG_REJ_COUNT : Fld := ⟨8, 24⟩
/-- IMG_REJ.FIRST_STATUS (R71). -/
def F.IMG_REJ_FIRST_STATUS : Fld := ⟨0, 8⟩
/-- IMG_REJ_IDX.INDEX (R71). -/
def F.IMG_REJ_IDX_INDEX : Fld := ⟨0, 32⟩
/-- CAL_SEL.ITEM (R80). -/
def F.CAL_SEL_ITEM : Fld := ⟨0, 16⟩
/-- CAL_VALUE.FACTORY (R80). -/
def F.CAL_VALUE_FACTORY : Fld := ⟨16, 16⟩
/-- CAL_VALUE.EFFECTIVE (R80). -/
def F.CAL_VALUE_EFFECTIVE : Fld := ⟨0, 16⟩
/-- CAL_OFFSET.STATUS (R80). -/
def F.CAL_OFFSET_STATUS : Fld := ⟨24, 8⟩
/-- CAL_OFFSET.CLAMPED (R80). -/
def F.CAL_OFFSET_CLAMPED : Fld := ⟨16, 1⟩
/-- CAL_OFFSET.OFFSET (R80). -/
def F.CAL_OFFSET_OFFSET : Fld := ⟨0, 16⟩
/-- CAL_LIMITS.MAX (R80). -/
def F.CAL_LIMITS_MAX : Fld := ⟨16, 16⟩
/-- CAL_LIMITS.MIN (R80). -/
def F.CAL_LIMITS_MIN : Fld := ⟨0, 16⟩
/-- PORT_CFG.EXPRESS_MASK (R116). -/
def F.PORT_CFG_EXPRESS_MASK : Fld := ⟨24, 8⟩
/-- PORT_CFG.ADD_FRAG (R116). -/
def F.PORT_CFG_ADD_FRAG : Fld := ⟨22, 2⟩
/-- PORT_CFG.PREEMPT_EN (R116). -/
def F.PORT_CFG_PREEMPT_EN : Fld := ⟨21, 1⟩
/-- PORT_CFG.SLEEP_OK (R116). -/
def F.PORT_CFG_SLEEP_OK : Fld := ⟨20, 1⟩
/-- PORT_CFG.SPEED (R116). -/
def F.PORT_CFG_SPEED : Fld := ⟨16, 4⟩
/-- PORT_CFG.MAX_FRAME (R116). -/
def F.PORT_CFG_MAX_FRAME : Fld := ⟨0, 14⟩
/-- PORT_LANES.WIDTH (R117). -/
def F.PORT_LANES_WIDTH : Fld := ⟨4, 2⟩
/-- PORT_LANES.FIRST_LANE (R117). -/
def F.PORT_LANES_FIRST_LANE : Fld := ⟨0, 4⟩
/-- PORT_CTRL.UP (R118). -/
def F.PORT_CTRL_UP : Fld := ⟨2, 1⟩
/-- PORT_CTRL.WAKE (R118). -/
def F.PORT_CTRL_WAKE : Fld := ⟨1, 1⟩
/-- PORT_CTRL.SLEEP (R118). -/
def F.PORT_CTRL_SLEEP : Fld := ⟨0, 1⟩
/-- PORT_STATUS.WAKE_CAUSE (R119). -/
def F.PORT_STATUS_WAKE_CAUSE : Fld := ⟨12, 4⟩
/-- PORT_STATUS.MATCH (R119). -/
def F.PORT_STATUS_MATCH : Fld := ⟨10, 2⟩
/-- PORT_STATUS.PREEMPT (R119). -/
def F.PORT_STATUS_PREEMPT : Fld := ⟨8, 2⟩
/-- PORT_STATUS.SPARED (R119). -/
def F.PORT_STATUS_SPARED : Fld := ⟨7, 1⟩
/-- PORT_STATUS.RF (R119). -/
def F.PORT_STATUS_RF : Fld := ⟨6, 1⟩
/-- PORT_STATUS.LF (R119). -/
def F.PORT_STATUS_LF : Fld := ⟨5, 1⟩
/-- PORT_STATUS.STATE (R119). -/
def F.PORT_STATUS_STATE : Fld := ⟨0, 3⟩
/-- PORT_ERR.SLEEP_DENIED (R120). -/
def F.PORT_ERR_SLEEP_DENIED : Fld := ⟨6, 1⟩
/-- PORT_ERR.WAKE_DROP (R120). -/
def F.PORT_ERR_WAKE_DROP : Fld := ⟨5, 1⟩
/-- PORT_ERR.REASM (R120). -/
def F.PORT_ERR_REASM : Fld := ⟨4, 1⟩
/-- PORT_ERR.OVERRUN (R120). -/
def F.PORT_ERR_OVERRUN : Fld := ⟨3, 1⟩
/-- PORT_ERR.OVERSIZE (R120). -/
def F.PORT_ERR_OVERSIZE : Fld := ⟨2, 1⟩
/-- PORT_ERR.FCS (R120). -/
def F.PORT_ERR_FCS : Fld := ⟨1, 1⟩
/-- PORT_ERR.RUNT (R120). -/
def F.PORT_ERR_RUNT : Fld := ⟨0, 1⟩
/-- WAKE_CTRL.LINK (R121). -/
def F.WAKE_CTRL_LINK : Fld := ⟨4, 1⟩
/-- WAKE_CTRL.PAT_EN (R121). -/
def F.WAKE_CTRL_PAT_EN : Fld := ⟨0, 4⟩
/-- WAKE_PATTERN.VALUE (R121). -/
def F.WAKE_PATTERN_VALUE : Fld := ⟨0, 32⟩
/-- WAKE_MASK.VALUE (R121). -/
def F.WAKE_MASK_VALUE : Fld := ⟨0, 32⟩
/-- LANE_CFG.TX_INV (R122). -/
def F.LANE_CFG_TX_INV : Fld := ⟨2, 1⟩
/-- LANE_CFG.RATE (R122). -/
def F.LANE_CFG_RATE : Fld := ⟨0, 2⟩
/-- LANE_STATUS.PARTNER_OK (R123). -/
def F.LANE_STATUS_PARTNER_OK : Fld := ⟨16, 1⟩
/-- LANE_STATUS.FOR_LANE (R123). -/
def F.LANE_STATUS_FOR_LANE : Fld := ⟨12, 4⟩
/-- LANE_STATUS.REPLACED_BY (R123). -/
def F.LANE_STATUS_REPLACED_BY : Fld := ⟨10, 2⟩
/-- LANE_STATUS.SIGNAL (R123). -/
def F.LANE_STATUS_SIGNAL : Fld := ⟨9, 1⟩
/-- LANE_STATUS.CDR_LOCK (R123). -/
def F.LANE_STATUS_CDR_LOCK : Fld := ⟨8, 1⟩
/-- LANE_STATUS.PORT_LANE (R123). -/
def F.LANE_STATUS_PORT_LANE : Fld := ⟨4, 4⟩
/-- LANE_STATUS.RX_POL_INV (R123). -/
def F.LANE_STATUS_RX_POL_INV : Fld := ⟨3, 1⟩
/-- LANE_STATUS.STATE (R123). -/
def F.LANE_STATUS_STATE : Fld := ⟨0, 3⟩
/-- LANE_FAULT.LANE_REV (R124). -/
def F.LANE_FAULT_LANE_REV : Fld := ⟨8, 1⟩
/-- LANE_FAULT.TRAIN_FAIL (R124). -/
def F.LANE_FAULT_TRAIN_FAIL : Fld := ⟨7, 1⟩
/-- LANE_FAULT.DEGRADE (R124). -/
def F.LANE_FAULT_DEGRADE : Fld := ⟨6, 1⟩
/-- LANE_FAULT.LOL (R124). -/
def F.LANE_FAULT_LOL : Fld := ⟨5, 1⟩
/-- LANE_FAULT.LOS (R124). -/
def F.LANE_FAULT_LOS : Fld := ⟨4, 1⟩
/-- LANE_FAULT.RX_SHORT (R124). -/
def F.LANE_FAULT_RX_SHORT : Fld := ⟨3, 1⟩
/-- LANE_FAULT.TX_OPEN (R124). -/
def F.LANE_FAULT_TX_OPEN : Fld := ⟨2, 1⟩
/-- LANE_FAULT.TX_SHORT_N (R124). -/
def F.LANE_FAULT_TX_SHORT_N : Fld := ⟨1, 1⟩
/-- LANE_FAULT.TX_SHORT_P (R124). -/
def F.LANE_FAULT_TX_SHORT_P : Fld := ⟨0, 1⟩
/-- SPARE_CFG.DEGRADE_EXP (R125). -/
def F.SPARE_CFG_DEGRADE_EXP : Fld := ⟨8, 4⟩
/-- SPARE_CFG.POOL_17 (R125). -/
def F.SPARE_CFG_POOL_17 : Fld := ⟨4, 1⟩
/-- SPARE_CFG.POOL_16 (R125). -/
def F.SPARE_CFG_POOL_16 : Fld := ⟨3, 1⟩
/-- SPARE_CFG.ON_DEGRADE (R125). -/
def F.SPARE_CFG_ON_DEGRADE : Fld := ⟨2, 1⟩
/-- SPARE_CFG.MODE (R125). -/
def F.SPARE_CFG_MODE : Fld := ⟨0, 2⟩
/-- SPARE_CMD.GO (R126). -/
def F.SPARE_CMD_GO : Fld := ⟨31, 1⟩
/-- SPARE_CMD.OP (R126). -/
def F.SPARE_CMD_OP : Fld := ⟨28, 3⟩
/-- SPARE_CMD.SPARE (R126). -/
def F.SPARE_CMD_SPARE : Fld := ⟨24, 1⟩
/-- SPARE_CMD.LANE (R126). -/
def F.SPARE_CMD_LANE : Fld := ⟨0, 4⟩
/-- SPARE_STATUS.ASK_TIMEOUTS (R127). -/
def F.SPARE_STATUS_ASK_TIMEOUTS : Fld := ⟨16, 16⟩
/-- SPARE_STATUS.CMD_STATUS (R127). -/
def F.SPARE_STATUS_CMD_STATUS : Fld := ⟨0, 8⟩
/-- AQD_CFG.EN (R451). -/
def F.AQD_CFG_EN : Fld := ⟨31, 1⟩
/-- AQD_CFG.WIDTH (R451). -/
def F.AQD_CFG_WIDTH : Fld := ⟨8, 2⟩
/-- AQD_CFG.SLEEP_EN (R451). -/
def F.AQD_CFG_SLEEP_EN : Fld := ⟨5, 1⟩
/-- AQD_CFG.CODING (R451). -/
def F.AQD_CFG_CODING : Fld := ⟨4, 1⟩
/-- AQD_STATUS.RX_SLEEP (R451). -/
def F.AQD_STATUS_RX_SLEEP : Fld := ⟨12, 1⟩
/-- AQD_STATUS.TX_SLEEP (R451). -/
def F.AQD_STATUS_TX_SLEEP : Fld := ⟨11, 1⟩
/-- AQD_STATUS.TRAIN (R451). -/
def F.AQD_STATUS_TRAIN : Fld := ⟨8, 3⟩
/-- AQD_STATUS.LANES (R451). -/
def F.AQD_STATUS_LANES : Fld := ⟨0, 8⟩
/-- AQD_CMD.GO (R451). -/
def F.AQD_CMD_GO : Fld := ⟨31, 1⟩
/-- AQD_CMD.OP (R451). -/
def F.AQD_CMD_OP : Fld := ⟨0, 2⟩
/-- AQD_CMDST.STATUS (R451). -/
def F.AQD_CMDST_STATUS : Fld := ⟨0, 8⟩
/-- AQD_LAT.RTT (R451). -/
def F.AQD_LAT_RTT : Fld := ⟨0, 16⟩
/-- AQD_ALARM.SEQ_GAP (R451). -/
def F.AQD_ALARM_SEQ_GAP : Fld := ⟨6, 1⟩
/-- AQD_ALARM.FRAME_TAG (R451). -/
def F.AQD_ALARM_FRAME_TAG : Fld := ⟨5, 1⟩
/-- AQD_ALARM.LANE_FAIL (R451). -/
def F.AQD_ALARM_LANE_FAIL : Fld := ⟨4, 1⟩
/-- AQD_ALARM.ID_MISMATCH (R451). -/
def F.AQD_ALARM_ID_MISMATCH : Fld := ⟨3, 1⟩
/-- AQD_ALARM.CONFIG (R451). -/
def F.AQD_ALARM_CONFIG : Fld := ⟨2, 1⟩
/-- AQD_ALARM.AUTH_FAIL (R451). -/
def F.AQD_ALARM_AUTH_FAIL : Fld := ⟨1, 1⟩
/-- AQD_ALARM.TRAIN_FAIL (R451). -/
def F.AQD_ALARM_TRAIN_FAIL : Fld := ⟨0, 1⟩
/-- CLS_AGE.PERIOD_S (R154). -/
def F.CLS_AGE_PERIOD_S : Fld := ⟨0, 16⟩
/-- CLS_MOVE.PIN_HOLD_S (R155). -/
def F.CLS_MOVE_PIN_HOLD_S : Fld := ⟨16, 16⟩
/-- CLS_MOVE.WINDOW (R155). -/
def F.CLS_MOVE_WINDOW : Fld := ⟨8, 8⟩
/-- CLS_MOVE.LIMIT (R155). -/
def F.CLS_MOVE_LIMIT : Fld := ⟨0, 8⟩
/-- CLS_PUNT.EN (R156). -/
def F.CLS_PUNT_EN : Fld := ⟨0, 4⟩
/-- TBL_CMD.GO (R157). -/
def F.TBL_CMD_GO : Fld := ⟨31, 1⟩
/-- TBL_CMD.OP (R157). -/
def F.TBL_CMD_OP : Fld := ⟨24, 4⟩
/-- TBL_CMD.TABLE (R157). -/
def F.TBL_CMD_TABLE : Fld := ⟨16, 2⟩
/-- TBL_CMD.FLT (R157). -/
def F.TBL_CMD_FLT : Fld := ⟨0, 4⟩
/-- TBL_STATUS.BUSY (R158). -/
def F.TBL_STATUS_BUSY : Fld := ⟨31, 1⟩
/-- TBL_STATUS.LOST_WRITE (R158). -/
def F.TBL_STATUS_LOST_WRITE : Fld := ⟨30, 1⟩
/-- TBL_STATUS.STATUS (R158). -/
def F.TBL_STATUS_STATUS : Fld := ⟨0, 8⟩
/-- TBL_INDEX.INDEX (R158). -/
def F.TBL_INDEX_INDEX : Fld := ⟨0, 18⟩
/-- CLS_OCC.EM_USED (R160). -/
def F.CLS_OCC_EM_USED : Fld := ⟨0, 18⟩
/-- CLS_LPM4.NODES_FREE (R160). -/
def F.CLS_LPM4_NODES_FREE : Fld := ⟨18, 14⟩
/-- CLS_LPM4.PREFIXES (R160). -/
def F.CLS_LPM4_PREFIXES : Fld := ⟨0, 18⟩
/-- CLS_LPM6.NODES_FREE (R160). -/
def F.CLS_LPM6_NODES_FREE : Fld := ⟨18, 14⟩
/-- CLS_LPM6.PREFIXES (R160). -/
def F.CLS_LPM6_PREFIXES : Fld := ⟨0, 18⟩
/-- CLS_ALARM.STATIC_CONFLICT (R161). -/
def F.CLS_ALARM_STATIC_CONFLICT : Fld := ⟨4, 1⟩
/-- CLS_ALARM.TABLE_ECC (R161). -/
def F.CLS_ALARM_TABLE_ECC : Fld := ⟨3, 1⟩
/-- CLS_ALARM.LEARN_QFULL (R161). -/
def F.CLS_ALARM_LEARN_QFULL : Fld := ⟨2, 1⟩
/-- CLS_ALARM.LEARN_FULL (R161). -/
def F.CLS_ALARM_LEARN_FULL : Fld := ⟨1, 1⟩
/-- CLS_ALARM.MOVE_PIN (R161). -/
def F.CLS_ALARM_MOVE_PIN : Fld := ⟨0, 1⟩
/-- TBL_DATA_n.BYTES (R159). -/
def F.TBL_DATA_n_BYTES : Fld := ⟨0, 32⟩
/-- PPOL_A_i.NOPROT (R162). -/
def F.PPOL_A_i_NOPROT : Fld := ⟨24, 4⟩
/-- PPOL_A_i.DOMAIN (R162). -/
def F.PPOL_A_i_DOMAIN : Fld := ⟨16, 8⟩
/-- PPOL_A_i.CLASS (R162). -/
def F.PPOL_A_i_CLASS : Fld := ⟨12, 4⟩
/-- PPOL_A_i.ACTION (R162). -/
def F.PPOL_A_i_ACTION : Fld := ⟨0, 4⟩
/-- PPOL_B_i.SUBSCRIBER (R162). -/
def F.PPOL_B_i_SUBSCRIBER : Fld := ⟨16, 13⟩
/-- PPOL_B_i.ASSOC (R162). -/
def F.PPOL_B_i_ASSOC : Fld := ⟨0, 14⟩
/-- DOMAIN_CFG_d.VALID (R163). -/
def F.DOMAIN_CFG_d_VALID : Fld := ⟨31, 1⟩
/-- DOMAIN_CFG_d.LEARN_EN (R163). -/
def F.DOMAIN_CFG_d_LEARN_EN : Fld := ⟨30, 1⟩
/-- DOMAIN_CFG_d.SHARED_VLAN (R163). -/
def F.DOMAIN_CFG_d_SHARED_VLAN : Fld := ⟨29, 1⟩
/-- DOMAIN_CFG_d.STATIC_DROP (R163). -/
def F.DOMAIN_CFG_d_STATIC_DROP : Fld := ⟨28, 1⟩
/-- DOMAIN_CFG_d.FLOOD_CLASS (R163). -/
def F.DOMAIN_CFG_d_FLOOD_CLASS : Fld := ⟨16, 4⟩
/-- DOMAIN_CFG_d.FLOOD_SUB (R163). -/
def F.DOMAIN_CFG_d_FLOOD_SUB : Fld := ⟨0, 13⟩
/-- FLOOD_d_m.VALID (R163). -/
def F.FLOOD_d_m_VALID : Fld := ⟨31, 1⟩
/-- FLOOD_d_m.SIDE (R163). -/
def F.FLOOD_d_m_SIDE : Fld := ⟨30, 1⟩
/-- FLOOD_d_m.PORT (R163). -/
def F.FLOOD_d_m_PORT : Fld := ⟨16, 4⟩
/-- FLOOD_d_m.ASSOC (R163). -/
def F.FLOOD_d_m_ASSOC : Fld := ⟨0, 14⟩
/-- SA_CMD.GO (R194). -/
def F.SA_CMD_GO : Fld := ⟨31, 1⟩
/-- SA_CMD.OP (R194). -/
def F.SA_CMD_OP : Fld := ⟨24, 4⟩
/-- SA_STATUS.BUSY (R194). -/
def F.SA_STATUS_BUSY : Fld := ⟨31, 1⟩
/-- SA_STATUS.LOST_WRITE (R194). -/
def F.SA_STATUS_LOST_WRITE : Fld := ⟨30, 1⟩
/-- SA_STATUS.STATUS (R194). -/
def F.SA_STATUS_STATUS : Fld := ⟨0, 8⟩
/-- SA_INDEX.DIR (R194). -/
def F.SA_INDEX_DIR : Fld := ⟨15, 1⟩
/-- SA_INDEX.SLOT (R194). -/
def F.SA_INDEX_SLOT : Fld := ⟨14, 1⟩
/-- SA_INDEX.INDEX (R194). -/
def F.SA_INDEX_INDEX : Fld := ⟨0, 14⟩
/-- SA_ALARM.FOLLOW_FAIL (R194). -/
def F.SA_ALARM_FOLLOW_FAIL : Fld := ⟨4, 1⟩
/-- SA_ALARM.JOURNAL (R194). -/
def F.SA_ALARM_JOURNAL : Fld := ⟨3, 1⟩
/-- SA_ALARM.STALL (R194). -/
def F.SA_ALARM_STALL : Fld := ⟨2, 1⟩
/-- SA_ALARM.SWITCH_LATE (R194). -/
def F.SA_ALARM_SWITCH_LATE : Fld := ⟨1, 1⟩
/-- SA_ALARM.PN_EXHAUST (R194). -/
def F.SA_ALARM_PN_EXHAUST : Fld := ⟨0, 1⟩
/-- SA_OCC.RX_VALID (R194). -/
def F.SA_OCC_RX_VALID : Fld := ⟨16, 15⟩
/-- SA_OCC.TX_VALID (R194). -/
def F.SA_OCC_TX_VALID : Fld := ⟨0, 15⟩
/-- SA_DATA_n.BYTES (R194). -/
def F.SA_DATA_n_BYTES : Fld := ⟨0, 32⟩
/-- RIL_STATE.FRAMES (R225). -/
def F.RIL_STATE_FRAMES : Fld := ⟨16, 6⟩
/-- RIL_STATE.STANDS_FOR (R225). -/
def F.RIL_STATE_STANDS_FOR : Fld := ⟨8, 4⟩
/-- RIL_STATE.DIR (R225). -/
def F.RIL_STATE_DIR : Fld := ⟨4, 1⟩
/-- RIL_STATE.STATE (R225). -/
def F.RIL_STATE_STATE : Fld := ⟨0, 3⟩
/-- RIL_ALARM.FENCE_LOST (R226). -/
def F.RIL_ALARM_FENCE_LOST : Fld := ⟨4, 1⟩
/-- RIL_ALARM.STALL (R226). -/
def F.RIL_ALARM_STALL : Fld := ⟨3, 1⟩
/-- RIL_ALARM.PIPE_PAR (R226). -/
def F.RIL_ALARM_PIPE_PAR : Fld := ⟨2, 1⟩
/-- RIL_ALARM.KEY_ECC (R226). -/
def F.RIL_ALARM_KEY_ECC : Fld := ⟨1, 1⟩
/-- RIL_ALARM.KAT_FAIL (R226). -/
def F.RIL_ALARM_KAT_FAIL : Fld := ⟨0, 1⟩
/-- RIL_KAT.PASSES (R227). -/
def F.RIL_KAT_PASSES : Fld := ⟨16, 16⟩
/-- RIL_KAT.FAILS (R227). -/
def F.RIL_KAT_FAILS : Fld := ⟨0, 16⟩
/-- RIL_CMD.GO (R228). -/
def F.RIL_CMD_GO : Fld := ⟨31, 1⟩
/-- RIL_CMD.OP (R228). -/
def F.RIL_CMD_OP : Fld := ⟨24, 4⟩
/-- RIL_CMD.RILL (R228). -/
def F.RIL_CMD_RILL : Fld := ⟨0, 4⟩
/-- RIL_STATUS.BUSY (R228). -/
def F.RIL_STATUS_BUSY : Fld := ⟨31, 1⟩
/-- RIL_STATUS.STATUS (R228). -/
def F.RIL_STATUS_STATUS : Fld := ⟨0, 8⟩
/-- RIL_SPARE.KAT_EN (R229). -/
def F.RIL_SPARE_KAT_EN : Fld := ⟨1, 1⟩
/-- RIL_SPARE.AUTO (R229). -/
def F.RIL_SPARE_AUTO : Fld := ⟨0, 1⟩
/-- RIL_CTX.IN_USED (R229). -/
def F.RIL_CTX_IN_USED : Fld := ⟨16, 14⟩
/-- RIL_CTX.OUT_USED (R229). -/
def F.RIL_CTX_OUT_USED : Fld := ⟨0, 14⟩
/-- TEP_CMD.GO (R230). -/
def F.TEP_CMD_GO : Fld := ⟨31, 1⟩
/-- TEP_CMD.OP (R230). -/
def F.TEP_CMD_OP : Fld := ⟨24, 4⟩
/-- TEP_CMD.INDEX (R230). -/
def F.TEP_CMD_INDEX : Fld := ⟨0, 12⟩
/-- TEP_STATUS.BUSY (R230). -/
def F.TEP_STATUS_BUSY : Fld := ⟨31, 1⟩
/-- TEP_STATUS.LOST_WRITE (R230). -/
def F.TEP_STATUS_LOST_WRITE : Fld := ⟨30, 1⟩
/-- TEP_STATUS.STATUS (R230). -/
def F.TEP_STATUS_STATUS : Fld := ⟨0, 8⟩
/-- TEP_DATA_n.BYTES (R230). -/
def F.TEP_DATA_n_BYTES : Fld := ⟨0, 32⟩
/-- DECAP_0_p.DA_HI (R231). -/
def F.DECAP_0_p_DA_HI : Fld := ⟨0, 32⟩
/-- DECAP_1_p.SA_HI (R231). -/
def F.DECAP_1_p_SA_HI : Fld := ⟨16, 16⟩
/-- DECAP_1_p.DA_LO (R231). -/
def F.DECAP_1_p_DA_LO : Fld := ⟨0, 16⟩
/-- DECAP_2_p.SA_LO (R231). -/
def F.DECAP_2_p_SA_LO : Fld := ⟨0, 32⟩
/-- DECAP_3_p.VLAN_EN (R231). -/
def F.DECAP_3_p_VLAN_EN : Fld := ⟨31, 1⟩
/-- DECAP_3_p.VLAN_TCI (R231). -/
def F.DECAP_3_p_VLAN_TCI : Fld := ⟨0, 16⟩
/-- CIS_CFG.SPILL_EN (R256). -/
def F.CIS_CFG_SPILL_EN : Fld := ⟨31, 1⟩
/-- CIS_CFG.SPILL_HI (R256). -/
def F.CIS_CFG_SPILL_HI : Fld := ⟨24, 7⟩
/-- CIS_CFG.PREFETCH_KIB (R256). -/
def F.CIS_CFG_PREFETCH_KIB : Fld := ⟨8, 8⟩
/-- CIS_CFG.QSPILL_KIB (R256). -/
def F.CIS_CFG_QSPILL_KIB : Fld := ⟨0, 8⟩
/-- CIS_ROT.MAX_AGE_MS (R257). -/
def F.CIS_ROT_MAX_AGE_MS : Fld := ⟨16, 16⟩
/-- CIS_ROT.ROT_H (R257). -/
def F.CIS_ROT_ROT_H : Fld := ⟨0, 14⟩
/-- CIS_SCRUB.SCRUB_EN (R257). -/
def F.CIS_SCRUB_SCRUB_EN : Fld := ⟨31, 1⟩
/-- CIS_SCRUB.PERIOD_MIN (R257). -/
def F.CIS_SCRUB_PERIOD_MIN : Fld := ⟨0, 11⟩
/-- CIS_CMD.GO (R258). -/
def F.CIS_CMD_GO : Fld := ⟨31, 1⟩
/-- CIS_CMD.OP (R258). -/
def F.CIS_CMD_OP : Fld := ⟨24, 4⟩
/-- CIS_CMD.OWNER (R258). -/
def F.CIS_CMD_OWNER : Fld := ⟨0, 3⟩
/-- CIS_STATUS.BUSY (R258). -/
def F.CIS_STATUS_BUSY : Fld := ⟨31, 1⟩
/-- CIS_STATUS.STATE (R258). -/
def F.CIS_STATUS_STATE : Fld := ⟨8, 3⟩
/-- CIS_STATUS.STATUS (R258). -/
def F.CIS_STATUS_STATUS : Fld := ⟨0, 8⟩
/-- CIS_OCC.CELLS (R259). -/
def F.CIS_OCC_CELLS : Fld := ⟨0, 27⟩
/-- CIS_SERIAL.KEY_SERIAL (R259). -/
def F.CIS_SERIAL_KEY_SERIAL : Fld := ⟨0, 32⟩
/-- CIS_ALARM.STACK_FAIL (R260). -/
def F.CIS_ALARM_STACK_FAIL : Fld := ⟨8, 1⟩
/-- CIS_ALARM.PPR_FAIL (R260). -/
def F.CIS_ALARM_PPR_FAIL : Fld := ⟨7, 1⟩
/-- CIS_ALARM.AGED (R260). -/
def F.CIS_ALARM_AGED : Fld := ⟨6, 1⟩
/-- CIS_ALARM.FULL (R260). -/
def F.CIS_ALARM_FULL : Fld := ⟨5, 1⟩
/-- CIS_ALARM.QUARANTINE (R260). -/
def F.CIS_ALARM_QUARANTINE : Fld := ⟨4, 1⟩
/-- CIS_ALARM.NODE_TAG_FAIL (R260). -/
def F.CIS_ALARM_NODE_TAG_FAIL : Fld := ⟨3, 1⟩
/-- CIS_ALARM.TAG_FAIL (R260). -/
def F.CIS_ALARM_TAG_FAIL : Fld := ⟨2, 1⟩
/-- CIS_ALARM.NODE_UE (R260). -/
def F.CIS_ALARM_NODE_UE : Fld := ⟨1, 1⟩
/-- CIS_ALARM.DATA_UE (R260). -/
def F.CIS_ALARM_DATA_UE : Fld := ⟨0, 1⟩
/-- CIS_ERR_LO.ADDR_LO (R261). -/
def F.CIS_ERR_LO_ADDR_LO : Fld := ⟨0, 32⟩
/-- CIS_ERR_HI.KIND (R261). -/
def F.CIS_ERR_HI_KIND : Fld := ⟨28, 4⟩
/-- CIS_ERR_HI.LEVEL (R261). -/
def F.CIS_ERR_HI_LEVEL : Fld := ⟨26, 2⟩
/-- CIS_ERR_HI.ADDR_HI (R261). -/
def F.CIS_ERR_HI_ADDR_HI : Fld := ⟨0, 10⟩
/-- CIS_QUAR.REINIT (R259). -/
def F.CIS_QUAR_REINIT : Fld := ⟨16, 11⟩
/-- CIS_QUAR.QUARANTINED (R259). -/
def F.CIS_QUAR_QUARANTINED : Fld := ⟨0, 11⟩
/-- CIS_PPR.FAILED (R259). -/
def F.CIS_PPR_FAILED : Fld := ⟨16, 8⟩
/-- CIS_PPR.HARD_PENDING (R259). -/
def F.CIS_PPR_HARD_PENDING : Fld := ⟨8, 8⟩
/-- CIS_PPR.SOFT_DONE (R259). -/
def F.CIS_PPR_SOFT_DONE : Fld := ⟨0, 8⟩
/-- CIS_KEYID_k.STATE (R262). -/
def F.CIS_KEYID_k_STATE : Fld := ⟨30, 2⟩
/-- CIS_KEYID_k.OWNER (R262). -/
def F.CIS_KEYID_k_OWNER : Fld := ⟨27, 3⟩
/-- CIS_KEYID_k.CELLS (R262). -/
def F.CIS_KEYID_k_CELLS : Fld := ⟨0, 27⟩
/-- CIS_REGION_r.STATE (R262). -/
def F.CIS_REGION_r_STATE : Fld := ⟨29, 3⟩
/-- CIS_REGION_r.OWNER (R262). -/
def F.CIS_REGION_r_OWNER : Fld := ⟨26, 3⟩
/-- CIS_REGION_r.KEY_ID (R262). -/
def F.CIS_REGION_r_KEY_ID : Fld := ⟨20, 6⟩
/-- CIS_REGION_r.CELLS (R262). -/
def F.CIS_REGION_r_CELLS : Fld := ⟨0, 17⟩
/-- SCH_DRR_j.Q_HI (R280). -/
def F.SCH_DRR_j_Q_HI : Fld := ⟨16, 16⟩
/-- SCH_DRR_j.Q_LO (R280). -/
def F.SCH_DRR_j_Q_LO : Fld := ⟨0, 16⟩
/-- SCH_ALARM.LEVEL (R281). -/
def F.SCH_ALARM_LEVEL : Fld := ⟨2, 1⟩
/-- SCH_ALARM.OVERCOMMIT (R281). -/
def F.SCH_ALARM_OVERCOMMIT : Fld := ⟨1, 1⟩
/-- SCH_ALARM.PRESSURE (R281). -/
def F.SCH_ALARM_PRESSURE : Fld := ⟨0, 1⟩
/-- SCH_ADMIT_o.ADMIT_PCT (R280). -/
def F.SCH_ADMIT_o_ADMIT_PCT : Fld := ⟨0, 7⟩
/-- PROF_k_w.LIMIT_HI (R280). -/
def F.PROF_k_w_LIMIT_HI : Fld := ⟨16, 16⟩
/-- PROF_k_w.LIMIT_LO (R280). -/
def F.PROF_k_w_LIMIT_LO : Fld := ⟨0, 16⟩
/-- PORT_n_0.RATE (R279). -/
def F.PORT_n_0_RATE : Fld := ⟨0, 22⟩
/-- PORT_n_1.LEN_ADJ (R279). -/
def F.PORT_n_1_LEN_ADJ : Fld := ⟨16, 8⟩
/-- PORT_n_1.BURST (R279). -/
def F.PORT_n_1_BURST : Fld := ⟨0, 16⟩
/-- PORT_n_3.HOST_WEIGHT (R279). -/
def F.PORT_n_3_HOST_WEIGHT : Fld := ⟨0, 8⟩
/-- SVC_s_0.PIR (R279). -/
def F.SVC_s_0_PIR : Fld := ⟨0, 22⟩
/-- SVC_s_1.PBS (R279). -/
def F.SVC_s_1_PBS : Fld := ⟨0, 16⟩
/-- SVC_s_3.VALID (R279). -/
def F.SVC_s_3_VALID : Fld := ⟨31, 1⟩
/-- SVC_s_3.ECLASS (R279). -/
def F.SVC_s_3_ECLASS : Fld := ⟨24, 2⟩
/-- SVC_s_3.PORT (R279). -/
def F.SVC_s_3_PORT : Fld := ⟨16, 6⟩
/-- SVC_s_3.WEIGHT (R279). -/
def F.SVC_s_3_WEIGHT : Fld := ⟨0, 8⟩
/-- SUB_u_0.CIR (R278). -/
def F.SUB_u_0_CIR : Fld := ⟨0, 22⟩
/-- SUB_u_1.PIR (R278). -/
def F.SUB_u_1_PIR : Fld := ⟨0, 22⟩
/-- SUB_u_2.PBS (R278). -/
def F.SUB_u_2_PBS : Fld := ⟨16, 16⟩
/-- SUB_u_2.CBS (R278). -/
def F.SUB_u_2_CBS : Fld := ⟨0, 16⟩
/-- SUB_u_3.VALID (R278). -/
def F.SUB_u_3_VALID : Fld := ⟨31, 1⟩
/-- SUB_u_3.FILL (R278). -/
def F.SUB_u_3_FILL : Fld := ⟨30, 1⟩
/-- SUB_u_3.PROF (R278). -/
def F.SUB_u_3_PROF : Fld := ⟨16, 4⟩
/-- SUB_u_3.SERVICE (R278). -/
def F.SUB_u_3_SERVICE : Fld := ⟨0, 10⟩
/-- SLU_BUDGET.HYST (R291). -/
def F.SLU_BUDGET_HYST : Fld := ⟨16, 8⟩
/-- SLU_BUDGET.BUDGET (R291). -/
def F.SLU_BUDGET_BUDGET : Fld := ⟨0, 10⟩
/-- SLU_THERM.T_HYST (R291). -/
def F.SLU_THERM_T_HYST : Fld := ⟨16, 4⟩
/-- SLU_THERM.HARD (R291). -/
def F.SLU_THERM_HARD : Fld := ⟨8, 8⟩
/-- SLU_THERM.SOFT (R291). -/
def F.SLU_THERM_SOFT : Fld := ⟨0, 8⟩
/-- SLU_LOOP.COMMIT_FLOOR (R291). -/
def F.SLU_LOOP_COMMIT_FLOOR : Fld := ⟨24, 4⟩
/-- SLU_LOOP.HARD_STEP_US (R291). -/
def F.SLU_LOOP_HARD_STEP_US : Fld := ⟨16, 8⟩
/-- SLU_LOOP.RELEASE_US (R291). -/
def F.SLU_LOOP_RELEASE_US : Fld := ⟨0, 16⟩
/-- SLU_GATE.GATE_EN (R291). -/
def F.SLU_GATE_GATE_EN : Fld := ⟨31, 1⟩
/-- SLU_GATE.MIN_RILLS (R291). -/
def F.SLU_GATE_MIN_RILLS : Fld := ⟨24, 2⟩
/-- SLU_GATE.HOLD_US (R291). -/
def F.SLU_GATE_HOLD_US : Fld := ⟨16, 8⟩
/-- SLU_GATE.WAKE_KIB (R291). -/
def F.SLU_GATE_WAKE_KIB : Fld := ⟨0, 16⟩
/-- SLU_STATUS.HARD_ON (R292). -/
def F.SLU_STATUS_HARD_ON : Fld := ⟨20, 1⟩
/-- SLU_STATUS.SCRUB_X (R292). -/
def F.SLU_STATUS_SCRUB_X : Fld := ⟨18, 2⟩
/-- SLU_STATUS.PKE_DUTY (R292). -/
def F.SLU_STATUS_PKE_DUTY : Fld := ⟨16, 2⟩
/-- SLU_STATUS.COMMIT (R292). -/
def F.SLU_STATUS_COMMIT : Fld := ⟨8, 5⟩
/-- SLU_STATUS.POSITION (R292). -/
def F.SLU_STATUS_POSITION : Fld := ⟨0, 7⟩
/-- SLU_MEAS.TMAX (R292). -/
def F.SLU_MEAS_TMAX : Fld := ⟨16, 12⟩
/-- SLU_MEAS.POWER (R292). -/
def F.SLU_MEAS_POWER : Fld := ⟨0, 10⟩
/-- SLU_ALARM.COMMIT_CUT (R293). -/
def F.SLU_ALARM_COMMIT_CUT : Fld := ⟨4, 1⟩
/-- SLU_ALARM.CLASS0_SHED (R293). -/
def F.SLU_ALARM_CLASS0_SHED : Fld := ⟨3, 1⟩
/-- SLU_ALARM.SHED (R293). -/
def F.SLU_ALARM_SHED : Fld := ⟨2, 1⟩
/-- SLU_ALARM.TELEMETRY (R293). -/
def F.SLU_ALARM_TELEMETRY : Fld := ⟨1, 1⟩
/-- SLU_ALARM.SENSOR (R293). -/
def F.SLU_ALARM_SENSOR : Fld := ⟨0, 1⟩
/-- SLU_SENSOR.IN_SERVICE (R292). -/
def F.SLU_SENSOR_IN_SERVICE : Fld := ⟨0, 24⟩
/-- SLU_ECL_e.ECL_MAX (R291). -/
def F.SLU_ECL_e_ECL_MAX : Fld := ⟨0, 22⟩
/-- CAS_CFG.ENABLE (R320). -/
def F.CAS_CFG_ENABLE : Fld := ⟨31, 1⟩
/-- CAS_CFG.RATE (R320). -/
def F.CAS_CFG_RATE : Fld := ⟨24, 3⟩
/-- CAS_CFG.WIDTH (R320). -/
def F.CAS_CFG_WIDTH : Fld := ⟨16, 5⟩
/-- CAS_CFG.TX_MAP_SEL (R320). -/
def F.CAS_CFG_TX_MAP_SEL : Fld := ⟨8, 1⟩
/-- CAS_CFG.FIRST_LANE (R320). -/
def F.CAS_CFG_FIRST_LANE : Fld := ⟨0, 4⟩
/-- CAS_MASTER.HANDLE (R320). -/
def F.CAS_MASTER_HANDLE : Fld := ⟨0, 32⟩
/-- CAS_TXTAG_LO.TAG (R320). -/
def F.CAS_TXTAG_LO_TAG : Fld := ⟨0, 32⟩
/-- CAS_TXTAG_HI.TAG (R320). -/
def F.CAS_TXTAG_HI_TAG : Fld := ⟨0, 32⟩
/-- CAS_RXTAG_LO.TAG (R320). -/
def F.CAS_RXTAG_LO_TAG : Fld := ⟨0, 32⟩
/-- CAS_RXTAG_HI.TAG (R320). -/
def F.CAS_RXTAG_HI_TAG : Fld := ⟨0, 32⟩
/-- CAS_EPER.PERIOD_S (R320). -/
def F.CAS_EPER_PERIOD_S : Fld := ⟨0, 32⟩
/-- CAS_TRIB_t_0.VALID (R320). -/
def F.CAS_TRIB_t_0_VALID : Fld := ⟨31, 1⟩
/-- CAS_TRIB_t_0.TYPE (R320). -/
def F.CAS_TRIB_t_0_TYPE : Fld := ⟨30, 1⟩
/-- CAS_TRIB_t_0.CLIENT (R320). -/
def F.CAS_TRIB_t_0_CLIENT : Fld := ⟨8, 4⟩
/-- CAS_TRIB_t_0.JSLOT (R320). -/
def F.CAS_TRIB_t_0_JSLOT : Fld := ⟨0, 3⟩
/-- CAS_TRIB_t_1.FIXED (R320). -/
def F.CAS_TRIB_t_1_FIXED : Fld := ⟨16, 9⟩
/-- CAS_TRIB_t_1.SERVICE (R320). -/
def F.CAS_TRIB_t_1_SERVICE : Fld := ⟨0, 10⟩
/-- CAS_MAP_0_w.BYTES (R320). -/
def F.CAS_MAP_0_w_BYTES : Fld := ⟨0, 32⟩
/-- CAS_MAP_1_w.BYTES (R320). -/
def F.CAS_MAP_1_w_BYTES : Fld := ⟨0, 32⟩
/-- CAS_CMD.GO (R321). -/
def F.CAS_CMD_GO : Fld := ⟨31, 1⟩
/-- CAS_CMD.OP (R321). -/
def F.CAS_CMD_OP : Fld := ⟨24, 4⟩
/-- CAS_CMDST.BUSY (R321). -/
def F.CAS_CMDST_BUSY : Fld := ⟨31, 1⟩
/-- CAS_CMDST.STATUS (R321). -/
def F.CAS_CMDST_STATUS : Fld := ⟨0, 8⟩
/-- CAS_ALIGN.CAND_FAIL (R321). -/
def F.CAS_ALIGN_CAND_FAIL : Fld := ⟨16, 16⟩
/-- CAS_ALIGN.EPOCH_PEND (R321). -/
def F.CAS_ALIGN_EPOCH_PEND : Fld := ⟨11, 1⟩
/-- CAS_ALIGN.MAP_PEND (R321). -/
def F.CAS_ALIGN_MAP_PEND : Fld := ⟨10, 1⟩
/-- CAS_ALIGN.TX_MAP (R321). -/
def F.CAS_ALIGN_TX_MAP : Fld := ⟨9, 1⟩
/-- CAS_ALIGN.RX_MAP (R321). -/
def F.CAS_ALIGN_RX_MAP : Fld := ⟨8, 1⟩
/-- CAS_ALIGN.DESKEWED (R321). -/
def F.CAS_ALIGN_DESKEWED : Fld := ⟨5, 1⟩
/-- CAS_ALIGN.MF_SYNC (R321). -/
def F.CAS_ALIGN_MF_SYNC : Fld := ⟨4, 1⟩
/-- CAS_ALIGN.FA_STATE (R321). -/
def F.CAS_ALIGN_FA_STATE : Fld := ⟨0, 3⟩
/-- CAS_TX_EPOCH.EPOCH (R321). -/
def F.CAS_TX_EPOCH_EPOCH : Fld := ⟨0, 32⟩
/-- CAS_RX_EPOCH.EPOCH (R321). -/
def F.CAS_RX_EPOCH_EPOCH : Fld := ⟨0, 32⟩
/-- CAS_TX_FC_LO.FC (R321). -/
def F.CAS_TX_FC_LO_FC : Fld := ⟨0, 32⟩
/-- CAS_TX_FC_HI.FC (R321). -/
def F.CAS_TX_FC_HI_FC : Fld := ⟨0, 32⟩
/-- CAS_RX_FC_LO.FC (R321). -/
def F.CAS_RX_FC_LO_FC : Fld := ⟨0, 32⟩
/-- CAS_RX_FC_HI.FC (R321). -/
def F.CAS_RX_FC_HI_FC : Fld := ⟨0, 32⟩
/-- CAS_ALARM.DESKEW (R322). -/
def F.CAS_ALARM_DESKEW : Fld := ⟨5, 1⟩
/-- CAS_ALARM.REPLAY (R322). -/
def F.CAS_ALARM_REPLAY : Fld := ⟨4, 1⟩
/-- CAS_ALARM.JC_VOTE (R322). -/
def F.CAS_ALARM_JC_VOTE : Fld := ⟨3, 1⟩
/-- CAS_ALARM.MAP_ERR (R322). -/
def F.CAS_ALARM_MAP_ERR : Fld := ⟨2, 1⟩
/-- CAS_ALARM.EPOCH_EXHAUST (R322). -/
def F.CAS_ALARM_EPOCH_EXHAUST : Fld := ⟨1, 1⟩
/-- CAS_ALARM.JOURNAL (R322). -/
def F.CAS_ALARM_JOURNAL : Fld := ⟨0, 1⟩
/-- CAS_DEF.RAW (R336). -/
def F.CAS_DEF_RAW : Fld := ⟨16, 6⟩
/-- CAS_DEF.R_RDI_EPOCH (R336). -/
def F.CAS_DEF_R_RDI_EPOCH : Fld := ⟨9, 1⟩
/-- CAS_DEF.R_RDI (R336). -/
def F.CAS_DEF_R_RDI : Fld := ⟨8, 1⟩
/-- CAS_DEF.TRIB (R336). -/
def F.CAS_DEF_TRIB : Fld := ⟨6, 1⟩
/-- CAS_DEF.DEF (R336). -/
def F.CAS_DEF_DEF : Fld := ⟨0, 6⟩
/-- CAS_DEF_LATCH.LATCH (R336). -/
def F.CAS_DEF_LATCH_LATCH : Fld := ⟨0, 10⟩
/-- CAS_TDEF_LOD.TRIB (R337). -/
def F.CAS_TDEF_LOD_TRIB : Fld := ⟨0, 32⟩
/-- CAS_TDEF_SLIP.TRIB (R337). -/
def F.CAS_TDEF_SLIP_TRIB : Fld := ⟨0, 32⟩
/-- CAS_TDEF_RFAIL.TRIB (R337). -/
def F.CAS_TDEF_RFAIL_TRIB : Fld := ⟨0, 32⟩
/-- CAS_TDEF_LATCH.TRIB (R337). -/
def F.CAS_TDEF_LATCH_TRIB : Fld := ⟨0, 32⟩
/-- CAS_FE_EF_LO.COUNT (R337). -/
def F.CAS_FE_EF_LO_COUNT : Fld := ⟨0, 32⟩
/-- CAS_FE_EF_HI.COUNT (R337). -/
def F.CAS_FE_EF_HI_COUNT : Fld := ⟨0, 32⟩
/-- CAS_PM_CFG.PM_EN (R338). -/
def F.CAS_PM_CFG_PM_EN : Fld := ⟨31, 1⟩
/-- CAS_PM_CFG.PM_TB (R338). -/
def F.CAS_PM_CFG_PM_TB : Fld := ⟨0, 2⟩
/-- CAS_PM_SEL.BIN (R338). -/
def F.CAS_PM_SEL_BIN : Fld := ⟨0, 8⟩
/-- CAS_PM_ES.ES (R338). -/
def F.CAS_PM_ES_ES : Fld := ⟨0, 32⟩
/-- CAS_PM_SES.SES (R338). -/
def F.CAS_PM_SES_SES : Fld := ⟨0, 32⟩
/-- CAS_PM_UAS.UAS (R338). -/
def F.CAS_PM_UAS_UAS : Fld := ⟨0, 32⟩
/-- CAS_PM_START_LO.SEC (R338). -/
def F.CAS_PM_START_LO_SEC : Fld := ⟨0, 32⟩
/-- CAS_PM_START_HI.VALID (R338). -/
def F.CAS_PM_START_HI_VALID : Fld := ⟨31, 1⟩
/-- CAS_PM_START_HI.SUSPECT (R338). -/
def F.CAS_PM_START_HI_SUSPECT : Fld := ⟨30, 1⟩
/-- CAS_PM_START_HI.SEC (R338). -/
def F.CAS_PM_START_HI_SEC : Fld := ⟨0, 16⟩
/-- CAS_PM_STATE.HELD (R338). -/
def F.CAS_PM_STATE_HELD : Fld := ⟨1, 4⟩
/-- CAS_PM_STATE.UNAVAIL (R338). -/
def F.CAS_PM_STATE_UNAVAIL : Fld := ⟨0, 1⟩
/-- CAS_OPS_CTRL.SEND (R339). -/
def F.CAS_OPS_CTRL_SEND : Fld := ⟨31, 1⟩
/-- CAS_OPS_CTRL.LEN (R339). -/
def F.CAS_OPS_CTRL_LEN : Fld := ⟨0, 13⟩
/-- CAS_OPS_STATUS.TX_BUSY (R339). -/
def F.CAS_OPS_STATUS_TX_BUSY : Fld := ⟨31, 1⟩
/-- CAS_OPS_STATUS.RX_OVF (R339). -/
def F.CAS_OPS_STATUS_RX_OVF : Fld := ⟨16, 8⟩
/-- CAS_OPS_STATUS.RX_GAP (R339). -/
def F.CAS_OPS_STATUS_RX_GAP : Fld := ⟨8, 8⟩
/-- CAS_OPS_STATUS.STATUS (R339). -/
def F.CAS_OPS_STATUS_STATUS : Fld := ⟨0, 8⟩
/-- CAS_OPS_RX_n.FULL (R339). -/
def F.CAS_OPS_RX_n_FULL : Fld := ⟨31, 1⟩
/-- CAS_OPS_RX_n.LEN (R339). -/
def F.CAS_OPS_RX_n_LEN : Fld := ⟨0, 13⟩
/-- CAS_OPS_TXBUF.VALUE (R339). -/
def F.CAS_OPS_TXBUF_VALUE : Fld := ⟨0, 32⟩
/-- CAS_OPS_RXBUF_n.VALUE (R339). -/
def F.CAS_OPS_RXBUF_n_VALUE : Fld := ⟨0, 32⟩
/-- TB_INCR.INCR (R361). -/
def F.TB_INCR_INCR : Fld := ⟨0, 32⟩
/-- TB_JUMP.NS (R361). -/
def F.TB_JUMP_NS : Fld := ⟨0, 32⟩
/-- TB_STEP_LO.STEP (R361). -/
def F.TB_STEP_LO_STEP : Fld := ⟨0, 32⟩
/-- TB_STEP_HI.STEP (R361). -/
def F.TB_STEP_HI_STEP : Fld := ⟨0, 32⟩
/-- TB_CMD.OP (R361). -/
def F.TB_CMD_OP : Fld := ⟨0, 2⟩
/-- TB_STATUS.ARMED (R361). -/
def F.TB_STATUS_ARMED : Fld := ⟨9, 1⟩
/-- TB_STATUS.VALID (R361). -/
def F.TB_STATUS_VALID : Fld := ⟨8, 1⟩
/-- TB_STATUS.STATUS (R361). -/
def F.TB_STATUS_STATUS : Fld := ⟨0, 8⟩
/-- TB_SNAP_FRAC.FRAC (R361). -/
def F.TB_SNAP_FRAC_FRAC : Fld := ⟨0, 24⟩
/-- TB_SNAP_NS.NS (R361). -/
def F.TB_SNAP_NS_NS : Fld := ⟨0, 30⟩
/-- TB_SNAP_SEC_LO.SEC (R361). -/
def F.TB_SNAP_SEC_LO_SEC : Fld := ⟨0, 32⟩
/-- TB_SNAP_SEC_HI.SEC (R361). -/
def F.TB_SNAP_SEC_HI_SEC : Fld := ⟨0, 16⟩
/-- TIM_ALARM.PPS_LOSS (R362). -/
def F.TIM_ALARM_PPS_LOSS : Fld := ⟨5, 1⟩
/-- TIM_ALARM.UNLOCK (R362). -/
def F.TIM_ALARM_UNLOCK : Fld := ⟨4, 1⟩
/-- TIM_ALARM.FORCED (R362). -/
def F.TIM_ALARM_FORCED : Fld := ⟨3, 1⟩
/-- TIM_ALARM.JUMP_REFUSED (R362). -/
def F.TIM_ALARM_JUMP_REFUSED : Fld := ⟨2, 1⟩
/-- TIM_ALARM.INCR_RANGE (R362). -/
def F.TIM_ALARM_INCR_RANGE : Fld := ⟨1, 1⟩
/-- TIM_UNLOCK.ISLANDS (R362). -/
def F.TIM_UNLOCK_ISLANDS : Fld := ⟨0, 11⟩
/-- TIM_TIA.MASK (R362). -/
def F.TIM_TIA_MASK : Fld := ⟨0, 32⟩
/-- TIM_DOMAIN_d.VALID (R362). -/
def F.TIM_DOMAIN_d_VALID : Fld := ⟨31, 1⟩
/-- TIM_DOMAIN_d.TB (R362). -/
def F.TIM_DOMAIN_d_TB : Fld := ⟨8, 2⟩
/-- TIM_DOMAIN_d.DOMAIN (R362). -/
def F.TIM_DOMAIN_d_DOMAIN : Fld := ⟨0, 8⟩
/-- PPS_OUT_n.EN (R362). -/
def F.PPS_OUT_n_EN : Fld := ⟨31, 1⟩
/-- PPS_OUT_n.CMP (R362). -/
def F.PPS_OUT_n_CMP : Fld := ⟨20, 5⟩
/-- PPS_OUT_n.WIDTH_US (R362). -/
def F.PPS_OUT_n_WIDTH_US : Fld := ⟨0, 20⟩
/-- PPS_IN_STAT.NEW (R362). -/
def F.PPS_IN_STAT_NEW : Fld := ⟨0, 1⟩
/-- PPS_IN_b_NS.NS (R362). -/
def F.PPS_IN_b_NS_NS : Fld := ⟨0, 32⟩
/-- PPS_IN_b_SEC_LO.SEC_LO (R362). -/
def F.PPS_IN_b_SEC_LO_SEC_LO : Fld := ⟨0, 32⟩
/-- PPS_IN_b_SEC_HI.SEC_HI (R362). -/
def F.PPS_IN_b_SEC_HI_SEC_HI : Fld := ⟨0, 32⟩
/-- TIM_GPIO_j.EN (R362). -/
def F.TIM_GPIO_j_EN : Fld := ⟨31, 1⟩
/-- TIM_GPIO_j.EDGE (R362). -/
def F.TIM_GPIO_j_EDGE : Fld := ⟨29, 2⟩
/-- TIM_GPIO_j.CMP (R362). -/
def F.TIM_GPIO_j_CMP : Fld := ⟨8, 5⟩
/-- TIM_GPIO_j.PIN (R362). -/
def F.TIM_GPIO_j_PIN : Fld := ⟨0, 8⟩
/-- CMP_CFG.EN (R363). -/
def F.CMP_CFG_EN : Fld := ⟨31, 1⟩
/-- CMP_CFG.OVR (R363). -/
def F.CMP_CFG_OVR : Fld := ⟨30, 1⟩
/-- CMP_CFG.FUNC (R363). -/
def F.CMP_CFG_FUNC : Fld := ⟨16, 3⟩
/-- CMP_CFG.TB (R363). -/
def F.CMP_CFG_TB : Fld := ⟨0, 2⟩
/-- CMP_TGT_NS.NS (R363). -/
def F.CMP_TGT_NS_NS : Fld := ⟨0, 30⟩
/-- CMP_TGT_SEC_LO.SEC (R363). -/
def F.CMP_TGT_SEC_LO_SEC : Fld := ⟨0, 32⟩
/-- CMP_TGT_SEC_HI.SEC (R363). -/
def F.CMP_TGT_SEC_HI_SEC : Fld := ⟨0, 16⟩
/-- CMP_PERIOD.NS (R363). -/
def F.CMP_PERIOD_NS : Fld := ⟨0, 32⟩
/-- CMP_MISSED.COUNT (R363). -/
def F.CMP_MISSED_COUNT : Fld := ⟨0, 32⟩
/-- PTP_CFG.ONESTEP_EN (R364). -/
def F.PTP_CFG_ONESTEP_EN : Fld := ⟨3, 1⟩
/-- PTP_CFG.TC_MODE (R364). -/
def F.PTP_CFG_TC_MODE : Fld := ⟨0, 2⟩
/-- PORT_PDELAY.DELAY (R364). -/
def F.PORT_PDELAY_DELAY : Fld := ⟨0, 32⟩
/-- LAUNCH_CFG.LATE_POLICY (R364). -/
def F.LAUNCH_CFG_LATE_POLICY : Fld := ⟨31, 1⟩
/-- LAUNCH_CFG.LEAD_NS (R364). -/
def F.LAUNCH_CFG_LEAD_NS : Fld := ⟨0, 14⟩
/-- GATE_CFG.EN (R364). -/
def F.GATE_CFG_EN : Fld := ⟨31, 1⟩
/-- GATE_CFG.CMP (R364). -/
def F.GATE_CFG_CMP : Fld := ⟨26, 5⟩
/-- GATE_CFG.TB (R364). -/
def F.GATE_CFG_TB : Fld := ⟨24, 2⟩
/-- GATE_CFG.LEAD_NS (R364). -/
def F.GATE_CFG_LEAD_NS : Fld := ⟨0, 10⟩
/-- GATE_LEN.COUNT (R364). -/
def F.GATE_LEN_COUNT : Fld := ⟨0, 9⟩
/-- GATE_CYCLE.NS (R364). -/
def F.GATE_CYCLE_NS : Fld := ⟨0, 32⟩
/-- GATE_BASE_NS.NS (R364). -/
def F.GATE_BASE_NS_NS : Fld := ⟨0, 30⟩
/-- GATE_BASE_SEC_LO.SEC (R364). -/
def F.GATE_BASE_SEC_LO_SEC : Fld := ⟨0, 32⟩
/-- GATE_BASE_SEC_HI.SEC (R364). -/
def F.GATE_BASE_SEC_HI_SEC : Fld := ⟨0, 16⟩
/-- GATE_ENTRY_e.GATES (R364). -/
def F.GATE_ENTRY_e_GATES : Fld := ⟨24, 8⟩
/-- GATE_ENTRY_e.INTERVAL_NS (R364). -/
def F.GATE_ENTRY_e_INTERVAL_NS : Fld := ⟨0, 24⟩
/-- KST_CMD.GO (R390). -/
def F.KST_CMD_GO : Fld := ⟨31, 1⟩
/-- KST_CMD.OP (R390). -/
def F.KST_CMD_OP : Fld := ⟨0, 4⟩
/-- KST_STATUS.BUSY (R390). -/
def F.KST_STATUS_BUSY : Fld := ⟨31, 1⟩
/-- KST_STATUS.STEP (R390). -/
def F.KST_STATUS_STEP : Fld := ⟨16, 8⟩
/-- KST_STATUS.DETAIL (R390). -/
def F.KST_STATUS_DETAIL : Fld := ⟨8, 8⟩
/-- KST_STATUS.STATUS (R390). -/
def F.KST_STATUS_STATUS : Fld := ⟨0, 8⟩
/-- KST_ADDR_LO.ADDR (R390). -/
def F.KST_ADDR_LO_ADDR : Fld := ⟨0, 32⟩
/-- KST_ADDR_HI.ADDR (R390). -/
def F.KST_ADDR_HI_ADDR : Fld := ⟨0, 32⟩
/-- KST_LEN.LEN (R390). -/
def F.KST_LEN_LEN : Fld := ⟨0, 32⟩
/-- KST_ARG_0.ARG (R390). -/
def F.KST_ARG_0_ARG : Fld := ⟨0, 32⟩
/-- KST_ARG_1.TYPE (R390). -/
def F.KST_ARG_1_TYPE : Fld := ⟨24, 8⟩
/-- KST_ARG_1.DEST (R390). -/
def F.KST_ARG_1_DEST : Fld := ⟨16, 8⟩
/-- KST_ARG_1.PERSIST (R390). -/
def F.KST_ARG_1_PERSIST : Fld := ⟨8, 1⟩
/-- KST_ARG_1.PARAM (R390). -/
def F.KST_ARG_1_PARAM : Fld := ⟨0, 8⟩
/-- KST_NONCE_n.BYTES (R390). -/
def F.KST_NONCE_n_BYTES : Fld := ⟨0, 32⟩
/-- KST_CTR_LO.W (R390). -/
def F.KST_CTR_LO_W : Fld := ⟨0, 32⟩
/-- KST_CTR_HI.EXHAUSTED (R390). -/
def F.KST_CTR_HI_EXHAUSTED : Fld := ⟨31, 1⟩
/-- KST_CTR_HI.E (R390). -/
def F.KST_CTR_HI_E : Fld := ⟨0, 8⟩
/-- KST_OCC.HANDLES (R390). -/
def F.KST_OCC_HANDLES : Fld := ⟨0, 12⟩
/-- KST_ALARM.FUSE (R391). -/
def F.KST_ALARM_FUSE : Fld := ⟨3, 1⟩
/-- KST_ALARM.KEY_LOG (R391). -/
def F.KST_ALARM_KEY_LOG : Fld := ⟨2, 1⟩
/-- KST_ALARM.UPD_REJECT (R391). -/
def F.KST_ALARM_UPD_REJECT : Fld := ⟨1, 1⟩
/-- KST_ALARM.ENTROPY (R391). -/
def F.KST_ALARM_ENTROPY : Fld := ⟨0, 1⟩
/-- KST_RESULT_LEN.LEN (R390). -/
def F.KST_RESULT_LEN_LEN : Fld := ⟨0, 32⟩
/-- KST_INFO_n.BYTES (R390). -/
def F.KST_INFO_n_BYTES : Fld := ⟨0, 32⟩
/-- PKE_DESC_LO.ADDR (R409). -/
def F.PKE_DESC_LO_ADDR : Fld := ⟨0, 32⟩
/-- PKE_DESC_HI.ADDR (R409). -/
def F.PKE_DESC_HI_ADDR : Fld := ⟨0, 32⟩
/-- PKE_CMD.GO (R409). -/
def F.PKE_CMD_GO : Fld := ⟨31, 1⟩
/-- PKE_CMD.OP (R409). -/
def F.PKE_CMD_OP : Fld := ⟨24, 4⟩
/-- PKE_CMD.JOB (R409). -/
def F.PKE_CMD_JOB : Fld := ⟨0, 8⟩
/-- PKE_CMD_STATUS.BUSY (R409). -/
def F.PKE_CMD_STATUS_BUSY : Fld := ⟨31, 1⟩
/-- PKE_CMD_STATUS.JOB (R409). -/
def F.PKE_CMD_STATUS_JOB : Fld := ⟨8, 8⟩
/-- PKE_CMD_STATUS.STATUS (R409). -/
def F.PKE_CMD_STATUS_STATUS : Fld := ⟨0, 8⟩
/-- PKE_OCC.RUN_JOB (R410). -/
def F.PKE_OCC_RUN_JOB : Fld := ⟨24, 8⟩
/-- PKE_OCC.RUN (R410). -/
def F.PKE_OCC_RUN : Fld := ⟨23, 1⟩
/-- PKE_OCC.SUSPENDED (R410). -/
def F.PKE_OCC_SUSPENDED : Fld := ⟨16, 4⟩
/-- PKE_OCC.QUEUED (R410). -/
def F.PKE_OCC_QUEUED : Fld := ⟨0, 9⟩
/-- PKE_CURVE.CHECKED (R410). -/
def F.PKE_CURVE_CHECKED : Fld := ⟨16, 16⟩
/-- PKE_CURVE.LOADED (R410). -/
def F.PKE_CURVE_LOADED : Fld := ⟨0, 16⟩
/-- PKE_ALARM.RANDOM (R411). -/
def F.PKE_ALARM_RANDOM : Fld := ⟨2, 1⟩
/-- PKE_ALARM.ZEROISED (R411). -/
def F.PKE_ALARM_ZEROISED : Fld := ⟨1, 1⟩
/-- PKE_ALARM.FAULT (R411). -/
def F.PKE_ALARM_FAULT : Fld := ⟨0, 1⟩
/-- PKE_DONE.COUNT (R410). -/
def F.PKE_DONE_COUNT : Fld := ⟨0, 32⟩
/-- TMP_FLAGS.HALT_HOLD (R425). -/
def F.TMP_FLAGS_HALT_HOLD : Fld := ⟨31, 1⟩
/-- TMP_FLAGS.PENDING (R425). -/
def F.TMP_FLAGS_PENDING : Fld := ⟨30, 1⟩
/-- TMP_FLAGS.SOURCE (R425). -/
def F.TMP_FLAGS_SOURCE : Fld := ⟨0, 24⟩
/-- TMP_RAW.SOURCE (R425). -/
def F.TMP_RAW_SOURCE : Fld := ⟨0, 24⟩
/-- TMP_STATUS.CMD_STATUS (R425). -/
def F.TMP_STATUS_CMD_STATUS : Fld := ⟨24, 8⟩
/-- TMP_STATUS.WINDOW_B (R425). -/
def F.TMP_STATUS_WINDOW_B : Fld := ⟨12, 1⟩
/-- TMP_STATUS.WINDOW_A (R425). -/
def F.TMP_STATUS_WINDOW_A : Fld := ⟨11, 1⟩
/-- TMP_STATUS.ALERT (R425). -/
def F.TMP_STATUS_ALERT : Fld := ⟨10, 1⟩
/-- TMP_STATUS.IN_FORCE (R425). -/
def F.TMP_STATUS_IN_FORCE : Fld := ⟨7, 3⟩
/-- TMP_STATUS.PENDING_LVL (R425). -/
def F.TMP_STATUS_PENDING_LVL : Fld := ⟨4, 3⟩
/-- TMP_STATUS.TAMPER_MAX (R425). -/
def F.TMP_STATUS_TAMPER_MAX : Fld := ⟨0, 3⟩
/-- TMP_CMD.GO (R425). -/
def F.TMP_CMD_GO : Fld := ⟨31, 1⟩
/-- TMP_CMD.OP (R425). -/
def F.TMP_CMD_OP : Fld := ⟨0, 4⟩
/-- TMP_WINDOW.REMAIN (R425). -/
def F.TMP_WINDOW_REMAIN : Fld := ⟨16, 16⟩
/-- TMP_WINDOW.SECONDS (R425). -/
def F.TMP_WINDOW_SECONDS : Fld := ⟨0, 12⟩
/-- TMP_LIMITS.WINDOW_MAX_S (R425). -/
def F.TMP_LIMITS_WINDOW_MAX_S : Fld := ⟨24, 8⟩
/-- TMP_LIMITS.CELL_LOW (R425). -/
def F.TMP_LIMITS_CELL_LOW : Fld := ⟨16, 8⟩
/-- TMP_LIMITS.TEMP_LOW (R425). -/
def F.TMP_LIMITS_TEMP_LOW : Fld := ⟨8, 8⟩
/-- TMP_LIMITS.TEMP_HIGH (R425). -/
def F.TMP_LIMITS_TEMP_HIGH : Fld := ⟨0, 8⟩
/-- TMP_CELL.CELL_B (R425). -/
def F.TMP_CELL_CELL_B : Fld := ⟨16, 16⟩
/-- TMP_CELL.CELL_A (R425). -/
def F.TMP_CELL_CELL_A : Fld := ⟨0, 16⟩
/-- TMP_LOG_COUNT.COUNT (R425). -/
def F.TMP_LOG_COUNT_COUNT : Fld := ⟨0, 32⟩
/-- TMP_RESP_s.RESP (R425). -/
def F.TMP_RESP_s_RESP : Fld := ⟨0, 3⟩
/-- TMP_LOG_n_w.BYTES (R425). -/
def F.TMP_LOG_n_w_BYTES : Fld := ⟨0, 32⟩
/-- PAI_CFG.EN (R452). -/
def F.PAI_CFG_EN : Fld := ⟨31, 1⟩
/-- PAI_CFG.PREFER (R452). -/
def F.PAI_CFG_PREFER : Fld := ⟨30, 1⟩
/-- PAI_CFG.HB_TAKE (R452). -/
def F.PAI_CFG_HB_TAKE : Fld := ⟨29, 1⟩
/-- PAI_CFG.RX_RESUME (R452). -/
def F.PAI_CFG_RX_RESUME : Fld := ⟨28, 1⟩
/-- PAI_CFG.GU_EN (R452). -/
def F.PAI_CFG_GU_EN : Fld := ⟨16, 8⟩
/-- PAI_CFG.HB_LOSS_NS (R452). -/
def F.PAI_CFG_HB_LOSS_NS : Fld := ⟨0, 16⟩
/-- PAI_STATUS.NEG_WAIT_MS (R452). -/
def F.PAI_STATUS_NEG_WAIT_MS : Fld := ⟨16, 16⟩
/-- PAI_STATUS.LAST_CAUSE (R452). -/
def F.PAI_STATUS_LAST_CAUSE : Fld := ⟨8, 8⟩
/-- PAI_STATUS.PARTNER (R452). -/
def F.PAI_STATUS_PARTNER : Fld := ⟨4, 3⟩
/-- PAI_STATUS.ROLE (R452). -/
def F.PAI_STATUS_ROLE : Fld := ⟨0, 2⟩
/-- PAI_CMD.GO (R452). -/
def F.PAI_CMD_GO : Fld := ⟨31, 1⟩
/-- PAI_CMD.OP (R452). -/
def F.PAI_CMD_OP : Fld := ⟨0, 2⟩
/-- PAI_CMDST.STATUS (R452). -/
def F.PAI_CMDST_STATUS : Fld := ⟨0, 8⟩
/-- PAI_TAKE.TAKE_GEN (R452). -/
def F.PAI_TAKE_TAKE_GEN : Fld := ⟨0, 32⟩
/-- PAI_DIAG.FAULT (R452). -/
def F.PAI_DIAG_FAULT : Fld := ⟨0, 8⟩
/-- PAI_ALARM.DUAL_ACTIVE (R452). -/
def F.PAI_ALARM_DUAL_ACTIVE : Fld := ⟨5, 1⟩
/-- PAI_ALARM.KEY_MISSING (R452). -/
def F.PAI_ALARM_KEY_MISSING : Fld := ⟨4, 1⟩
/-- PAI_ALARM.CAP (R452). -/
def F.PAI_ALARM_CAP : Fld := ⟨3, 1⟩
/-- PAI_ALARM.NO_STANDBY (R452). -/
def F.PAI_ALARM_NO_STANDBY : Fld := ⟨2, 1⟩
/-- PAI_ALARM.HB_LOSS (R452). -/
def F.PAI_ALARM_HB_LOSS : Fld := ⟨1, 1⟩
/-- PAI_ALARM.DIAG (R452). -/
def F.PAI_ALARM_DIAG : Fld := ⟨0, 1⟩
/-- HIF_CFG.SLICES_EN (R472). -/
def F.HIF_CFG_SLICES_EN : Fld := ⟨31, 1⟩
/-- HIF_CFG.PF_RINGS (R472). -/
def F.HIF_CFG_PF_RINGS : Fld := ⟨0, 5⟩
/-- HIF_SUB.PUNT_SUB (R472). -/
def F.HIF_SUB_PUNT_SUB : Fld := ⟨16, 13⟩
/-- HIF_SUB.TX_SUB (R472). -/
def F.HIF_SUB_TX_SUB : Fld := ⟨0, 13⟩
/-- HIF_SLCMD.GO (R472). -/
def F.HIF_SLCMD_GO : Fld := ⟨31, 1⟩
/-- HIF_SLCMD.OP (R472). -/
def F.HIF_SLCMD_OP : Fld := ⟨24, 3⟩
/-- HIF_SLCMD.SLICE (R472). -/
def F.HIF_SLCMD_SLICE : Fld := ⟨0, 6⟩
/-- HIF_SLARG.PASID (R472). -/
def F.HIF_SLARG_PASID : Fld := ⟨0, 20⟩
/-- HIF_SLCMDST.BUSY (R472). -/
def F.HIF_SLCMDST_BUSY : Fld := ⟨31, 1⟩
/-- HIF_SLCMDST.STATUS (R472). -/
def F.HIF_SLCMDST_STATUS : Fld := ⟨0, 8⟩
/-- HIF_SLICE_s_0.CNT_READ (R473). -/
def F.HIF_SLICE_s_0_CNT_READ : Fld := ⟨31, 1⟩
/-- HIF_SLICE_s_0.BYPASS_OK (R473). -/
def F.HIF_SLICE_s_0_BYPASS_OK : Fld := ⟨30, 1⟩
/-- HIF_SLICE_s_0.PORT_MASK (R473). -/
def F.HIF_SLICE_s_0_PORT_MASK : Fld := ⟨0, 16⟩
/-- HIF_SLICE_s_1.ROOT (R473). -/
def F.HIF_SLICE_s_1_ROOT : Fld := ⟨0, 32⟩
/-- HIF_SLICE_s_2.TEP_BASE (R473). -/
def F.HIF_SLICE_s_2_TEP_BASE : Fld := ⟨16, 12⟩
/-- HIF_SLICE_s_2.TEP_COUNT (R473). -/
def F.HIF_SLICE_s_2_TEP_COUNT : Fld := ⟨0, 13⟩
/-- HIF_SLSTAT_s.STATE (R473). -/
def F.HIF_SLSTAT_s_STATE : Fld := ⟨28, 4⟩
/-- HIF_SLSTAT_s.PASID (R473). -/
def F.HIF_SLSTAT_s_PASID : Fld := ⟨0, 20⟩
/-- HIF_SLFLIGHT_s.IN_FLIGHT (R473). -/
def F.HIF_SLFLIGHT_s_IN_FLIGHT : Fld := ⟨0, 32⟩
/-- TXQ_BASE_LO.ADDR (R475). -/
def F.TXQ_BASE_LO_ADDR : Fld := ⟨0, 32⟩
/-- TXQ_BASE_HI.ADDR (R475). -/
def F.TXQ_BASE_HI_ADDR : Fld := ⟨0, 32⟩
/-- TXQ_CFG.EN (R475). -/
def F.TXQ_CFG_EN : Fld := ⟨31, 1⟩
/-- TXQ_CFG.CLASS (R475). -/
def F.TXQ_CFG_CLASS : Fld := ⟨24, 3⟩
/-- TXQ_CFG.SIZE (R475). -/
def F.TXQ_CFG_SIZE : Fld := ⟨20, 4⟩
/-- TXQ_TAIL.TAIL (R475). -/
def F.TXQ_TAIL_TAIL : Fld := ⟨0, 16⟩
/-- TXQ_HEAD.HEAD (R475). -/
def F.TXQ_HEAD_HEAD : Fld := ⟨0, 16⟩
/-- TXC_BASE_LO.ADDR (R475). -/
def F.TXC_BASE_LO_ADDR : Fld := ⟨0, 32⟩
/-- TXC_BASE_HI.ADDR (R475). -/
def F.TXC_BASE_HI_ADDR : Fld := ⟨0, 32⟩
/-- RXQ_BASE_LO.ADDR (R475). -/
def F.RXQ_BASE_LO_ADDR : Fld := ⟨0, 32⟩
/-- RXQ_BASE_HI.ADDR (R475). -/
def F.RXQ_BASE_HI_ADDR : Fld := ⟨0, 32⟩
/-- RXQ_CFG.EN (R475). -/
def F.RXQ_CFG_EN : Fld := ⟨31, 1⟩
/-- RXQ_CFG.TB (R475). -/
def F.RXQ_CFG_TB : Fld := ⟨29, 2⟩
/-- RXQ_CFG.SIZE (R475). -/
def F.RXQ_CFG_SIZE : Fld := ⟨20, 4⟩
/-- RXQ_CFG.BUF_LEN (R475). -/
def F.RXQ_CFG_BUF_LEN : Fld := ⟨0, 9⟩
/-- RXQ_TAIL.TAIL (R475). -/
def F.RXQ_TAIL_TAIL : Fld := ⟨0, 16⟩
/-- RXQ_HEAD.HEAD (R475). -/
def F.RXQ_HEAD_HEAD : Fld := ⟨0, 16⟩
/-- RXC_BASE_LO.ADDR (R475). -/
def F.RXC_BASE_LO_ADDR : Fld := ⟨0, 32⟩
/-- RXC_BASE_HI.ADDR (R475). -/
def F.RXC_BASE_HI_ADDR : Fld := ⟨0, 32⟩
/-- IRQ_COAL.COUNT (R475). -/
def F.IRQ_COAL_COUNT : Fld := ⟨8, 8⟩
/-- IRQ_COAL.USEC (R475). -/
def F.IRQ_COAL_USEC : Fld := ⟨0, 8⟩
/-- CNT_CFG.EN (R488). -/
def F.CNT_CFG_EN : Fld := ⟨31, 1⟩
/-- CNT_CFG.SNAP_TB (R488). -/
def F.CNT_CFG_SNAP_TB : Fld := ⟨28, 2⟩
/-- CNT_CFG.INTERVAL_MS (R488). -/
def F.CNT_CFG_INTERVAL_MS : Fld := ⟨0, 16⟩
/-- CNT_BW.EN (R488). -/
def F.CNT_BW_EN : Fld := ⟨31, 1⟩
/-- CNT_BW.CMP (R488). -/
def F.CNT_BW_CMP : Fld := ⟨0, 5⟩
/-- CNT_BUF_A_LO.VALUE (R488). -/
def F.CNT_BUF_A_LO_VALUE : Fld := ⟨0, 32⟩
/-- CNT_BUF_A_HI.VALUE (R488). -/
def F.CNT_BUF_A_HI_VALUE : Fld := ⟨0, 32⟩
/-- CNT_BUF_B_LO.VALUE (R488). -/
def F.CNT_BUF_B_LO_VALUE : Fld := ⟨0, 32⟩
/-- CNT_BUF_B_HI.VALUE (R488). -/
def F.CNT_BUF_B_HI_VALUE : Fld := ⟨0, 32⟩
/-- CNT_CMD.GO (R488). -/
def F.CNT_CMD_GO : Fld := ⟨31, 1⟩
/-- CNT_CMD.OP (R488). -/
def F.CNT_CMD_OP : Fld := ⟨24, 4⟩
/-- CNT_CMD.INDEX (R488). -/
def F.CNT_CMD_INDEX : Fld := ⟨0, 20⟩
/-- CNT_STATUS.BUSY (R488). -/
def F.CNT_STATUS_BUSY : Fld := ⟨31, 1⟩
/-- CNT_STATUS.FROZEN (R488). -/
def F.CNT_STATUS_FROZEN : Fld := ⟨30, 1⟩
/-- CNT_STATUS.SEQ (R488). -/
def F.CNT_STATUS_SEQ : Fld := ⟨8, 16⟩
/-- CNT_STATUS.STATUS (R488). -/
def F.CNT_STATUS_STATUS : Fld := ⟨0, 8⟩
/-- CNT_ALARM.DMA_ERR (R488). -/
def F.CNT_ALARM_DMA_ERR : Fld := ⟨0, 1⟩
/-- CNT_RD_IDX.WRAP (R488). -/
def F.CNT_RD_IDX_WRAP : Fld := ⟨31, 1⟩
/-- CNT_RD_IDX.IDX (R488). -/
def F.CNT_RD_IDX_IDX : Fld := ⟨0, 20⟩
/-- CNT_AT_SEC_LO.VALUE (R488). -/
def F.CNT_AT_SEC_LO_VALUE : Fld := ⟨0, 32⟩
/-- CNT_AT_SEC_HI.VALUE (R488). -/
def F.CNT_AT_SEC_HI_VALUE : Fld := ⟨0, 16⟩
/-- CNT_AT_NS.VALUE (R488). -/
def F.CNT_AT_NS_VALUE : Fld := ⟨0, 30⟩
/-- CNT_RD_LO.VALUE (R488). -/
def F.CNT_RD_LO_VALUE : Fld := ⟨0, 32⟩
/-- CNT_RD_HI.VALUE (R488). -/
def F.CNT_RD_HI_VALUE : Fld := ⟨0, 32⟩
/-- CNT_ARM_k_IDX.EN (R488). -/
def F.CNT_ARM_k_IDX_EN : Fld := ⟨31, 1⟩
/-- CNT_ARM_k_IDX.IDX (R488). -/
def F.CNT_ARM_k_IDX_IDX : Fld := ⟨0, 20⟩
/-- CNT_ARM_k_N.N (R488). -/
def F.CNT_ARM_k_N_N : Fld := ⟨0, 32⟩
/-- CNT_ARM_HIT.HIT (R488). -/
def F.CNT_ARM_HIT_HIT : Fld := ⟨0, 8⟩
/-- CNT_BW_p_RX_LO.VALUE (R488). -/
def F.CNT_BW_p_RX_LO_VALUE : Fld := ⟨0, 32⟩
/-- CNT_BW_p_RX_HI.VALUE (R488). -/
def F.CNT_BW_p_RX_HI_VALUE : Fld := ⟨0, 32⟩
/-- CNT_BW_p_TX_LO.VALUE (R488). -/
def F.CNT_BW_p_TX_LO_VALUE : Fld := ⟨0, 32⟩
/-- CNT_BW_p_TX_HI.VALUE (R488). -/
def F.CNT_BW_p_TX_HI_VALUE : Fld := ⟨0, 32⟩
/-- LEG_i_LO.VALUE (R485). -/
def F.LEG_i_LO_VALUE : Fld := ⟨0, 32⟩
/-- LEG_i_HI.WRAP (R485). -/
def F.LEG_i_HI_WRAP : Fld := ⟨31, 1⟩
/-- LEG_i_HI.VALUE (R485). -/
def F.LEG_i_HI_VALUE : Fld := ⟨0, 16⟩
/-- SL_INFO.STATE (R474). -/
def F.SL_INFO_STATE : Fld := ⟨28, 4⟩
/-- SL_INFO.SLICE (R474). -/
def F.SL_INFO_SLICE : Fld := ⟨0, 6⟩
/-- SL_RXMAP.RING (R474). -/
def F.SL_RXMAP_RING : Fld := ⟨0, 32⟩
/-- SL_INFLIGHT.IN_FLIGHT (R474). -/
def F.SL_INFLIGHT_IN_FLIGHT : Fld := ⟨0, 32⟩
/-- SL_ALARM.DMA_ERR (R474). -/
def F.SL_ALARM_DMA_ERR : Fld := ⟨4, 1⟩
/-- SL_ALARM.RX_OVERSIZE (R474). -/
def F.SL_ALARM_RX_OVERSIZE : Fld := ⟨3, 1⟩
/-- SL_ALARM.NO_BUFFER (R474). -/
def F.SL_ALARM_NO_BUFFER : Fld := ⟨2, 1⟩
/-- SL_ALARM.DB_BAD (R474). -/
def F.SL_ALARM_DB_BAD : Fld := ⟨1, 1⟩
/-- SL_ALARM.DB_DROPPED (R474). -/
def F.SL_ALARM_DB_DROPPED : Fld := ⟨0, 1⟩
/-- PF_MSIX_ADDR_LO.VALUE (R491). -/
def F.PF_MSIX_ADDR_LO_VALUE : Fld := ⟨0, 32⟩
/-- PF_MSIX_ADDR_HI.VALUE (R491). -/
def F.PF_MSIX_ADDR_HI_VALUE : Fld := ⟨0, 32⟩
/-- PF_MSIX_DATA.VALUE (R491). -/
def F.PF_MSIX_DATA_VALUE : Fld := ⟨0, 32⟩
/-- PF_MSIX_CTRL.MASK (R491). -/
def F.PF_MSIX_CTRL_MASK : Fld := ⟨0, 1⟩
/-- PF_MSIX_PBA.VALUE (R491). -/
def F.PF_MSIX_PBA_VALUE : Fld := ⟨0, 32⟩

/-- The registers of block GLB. -/
def regsGLB : List RegFam :=
  [⟨0x0, [], 0x32161ef3, 0x0, 0x0, 0x0, false⟩,
   ⟨0x4, [], 0xa00, 0x0, 0x0, 0x0, false⟩,
   ⟨0x8, [], 0x0, 0x0, 0x0, 0x0, false⟩,
   ⟨0xc, [], 0x0, 0x0, 0x0, 0x0, false⟩,
   ⟨0x10, [], 0x0, 0x0, 0x0, 0x0, false⟩,
   ⟨0x14, [], 0x1, 0x0, 0x0, 0x0, false⟩,
   ⟨0x18, [], 0x0, 0x0, 0x0, 0x0, false⟩,
   ⟨0x20, [], 0x0, 0x0, 0x0, 0x0, false⟩,
   ⟨0x30, [], 0x0, 0x0, 0xf, 0x0, false⟩,
   ⟨0x34, [], 0x0, 0x0, 0x0, 0x0, false⟩,
   ⟨0x3c, [], 0x0, 0xffffffff, 0x0, 0x0, false⟩]

/-- The registers of block TXN. -/
def regsTXN : List RegFam :=
  [⟨0x10000, [], 0x0, 0x0, 0x0, 0x0, false⟩,
   ⟨0x10004, [], 0x0, 0x0, 0x0, 0x0, false⟩,
   ⟨0x10008, [], 0x64, 0x3fff, 0x0, 0x0, false⟩,
   ⟨0x1000c, [], 0x0, 0x0, 0x0, 0x0, false⟩,
   ⟨0x10010, [], 0x0, 0x0, 0x0, 0x0, false⟩,
   ⟨0x10014, [], 0x0, 0x0, 0x0, 0x0, false⟩,
   ⟨0x10018, [], 0x0, 0x7fff, 0x0, 0x0, true⟩,
   ⟨0x10020, [], 0x0, 0xffffffff, 0x0, 0x0, false⟩,
   ⟨0x10024, [], 0x0, 0xffffffff, 0x0, 0x0, false⟩,
   ⟨0x10028, [], 0x0, 0xffffffff, 0x0, 0x0, false⟩,
   ⟨0x1002c, [], 0x0, 0x0, 0x0, 0x0, false⟩,
   ⟨0x10030, [], 0x0, 0x0, 0x0, 0x0, false⟩,
   ⟨0x10034, [], 0x0, 0x0, 0x0, 0x0, false⟩]

/-- The registers of block START. -/
def regsSTART : List RegFam :=
  [⟨0x20000, [], 0x1, 0x0, 0x0, 0x0, false⟩,
   ⟨0x20004, [], 0x0, 0x1, 0x0, 0x0, false⟩,
   ⟨0x20008, [], 0x0, 0x0, 0x0, 0x0, false⟩,
   ⟨0x2000c, [], 0x0, 0x0, 0x0, 0x0, false⟩,
   ⟨0x20010, [], 0x0, 0x0, 0x0, 0x0, false⟩,
   ⟨0x20014, [], 0x0, 0x0, 0x0, 0x0, false⟩,
   ⟨0x20040, [(0x4, 16)], 0x0, 0x0, 0x0, 0x0, false⟩,
   ⟨0x20100, [], 0x0, 0x2, 0x0, 0x0, false⟩,
   ⟨0x20104, [], 0x0, 0xffffffff, 0x0, 0x0, false⟩,
   ⟨0x20108, [], 0x0, 0xffffffff, 0x0, 0x0, false⟩,
   ⟨0x2010c, [], 0x0, 0xffffffff, 0x0, 0x0, false⟩,
   ⟨0x20110, [], 0x0, 0x0, 0x0, 0x0, false⟩,
   ⟨0x20120, [], 0x0, 0x0, 0x0, 0x0, false⟩,
   ⟨0x20124, [], 0x0, 0x0, 0x0, 0x0, false⟩]

/-- The registers of block CAL. -/
def regsCAL : List RegFam :=
  [⟨0x40000, [], 0x0, 0xffff, 0x0, 0x0, false⟩,
   ⟨0x40004, [], 0x0, 0x0, 0x0, 0x0, false⟩,
   ⟨0x40008, [], 0x0, 0xffff, 0x0, 0x0, true⟩,
   ⟨0x4000c, [], 0x0, 0x0, 0x0, 0x0, false⟩]

/-- The registers of block CPT. -/
def regsCPT : List RegFam :=
  [⟨0x100000, [(0x4000, 16)], 0xc0002400, 0xffff3fff, 0x0, 0x0, true⟩,
   ⟨0x100004, [(0x4000, 16)], 0x0, 0x3f, 0x0, 0x0, true⟩,
   ⟨0x100008, [(0x4000, 16)], 0x0, 0x0, 0x0, 0x0, false⟩,
   ⟨0x10000c, [(0x4000, 16)], 0x0, 0x0, 0x0, 0x0, false⟩,
   ⟨0x100010, [(0x4000, 16)], 0x0, 0x0, 0x7f, 0x0, false⟩,
   ⟨0x100020, [(0x4000, 16)], 0x0, 0x1f, 0x0, 0x0, true⟩,
   ⟨0x100400, [(0x4000, 16), (0x80, 4), (0x4, 16)], 0x0, 0xffffffff, 0x0, 0x0, true⟩,
   ⟨0x100440, [(0x4000, 16), (0x80, 4), (0x4, 16)], 0x0, 0xffffffff, 0x0, 0x0, true⟩,
   ⟨0x101000, [(0x4000, 16)], 0x0, 0x7, 0x0, 0x0, true⟩,
   ⟨0x102000, [(0x4000, 2)], 0x0, 0x7, 0x0, 0x0, true⟩,
   ⟨0x101004, [(0x4000, 16)], 0x0, 0x0, 0x0, 0x0, false⟩,
   ⟨0x102004, [(0x4000, 2)], 0x0, 0x0, 0x0, 0x0, false⟩,
   ⟨0x101008, [(0x4000, 16)], 0x0, 0x0, 0x1ff, 0x0, false⟩,
   ⟨0x102008, [(0x4000, 2)], 0x0, 0x0, 0x1ff, 0x0, false⟩,
   ⟨0x103000, [], 0x400, 0xf1f, 0x0, 0x0, true⟩,
   ⟨0x103004, [], 0x0, 0x0, 0x0, 0x0, false⟩,
   ⟨0x103008, [], 0x0, 0x0, 0x0, 0x0, false⟩]

/-- The registers of block LPT. -/
def regsLPT : List RegFam :=
  [⟨0x140000, [(0x4000, 16)], 0xc0002400, 0xffff3fff, 0x0, 0x0, true⟩,
   ⟨0x140004, [(0x4000, 16)], 0x0, 0x3f, 0x0, 0x0, true⟩,
   ⟨0x140008, [(0x4000, 16)], 0x0, 0x0, 0x0, 0x0, false⟩,
   ⟨0x14000c, [(0x4000, 16)], 0x0, 0x0, 0x0, 0x0, false⟩,
   ⟨0x140010, [(0x4000, 16)], 0x0, 0x0, 0x7f, 0x0, false⟩,
   ⟨0x140020, [(0x4000, 16)], 0x0, 0x1f, 0x0, 0x0, true⟩,
   ⟨0x140400, [(0x4000, 16), (0x80, 4), (0x4, 16)], 0x0, 0xffffffff, 0x0, 0x0, true⟩,
   ⟨0x140440, [(0x4000, 16), (0x80, 4), (0x4, 16)], 0x0, 0xffffffff, 0x0, 0x0, true⟩,
   ⟨0x141000, [(0x4000, 16)], 0x0, 0x7, 0x0, 0x0, true⟩,
   ⟨0x142000, [(0x4000, 2)], 0x0, 0x7, 0x0, 0x0, true⟩,
   ⟨0x141004, [(0x4000, 16)], 0x0, 0x0, 0x0, 0x0, false⟩,
   ⟨0x142004, [(0x4000, 2)], 0x0, 0x0, 0x0, 0x0, false⟩,
   ⟨0x141008, [(0x4000, 16)], 0x0, 0x0, 0x1ff, 0x0, false⟩,
   ⟨0x142008, [(0x4000, 2)], 0x0, 0x0, 0x1ff, 0x0, false⟩,
   ⟨0x143000, [], 0x400, 0xf1f, 0x0, 0x0, true⟩,
   ⟨0x143004, [], 0x0, 0x0, 0x0, 0x0, false⟩,
   ⟨0x143008, [], 0x0, 0x0, 0x0, 0x0, false⟩]

/-- The registers of block AQD. -/
def regsAQD : List RegFam :=
  [⟨0x180000, [], 0x0, 0x80000330, 0x0, 0x0, true⟩,
   ⟨0x180004, [], 0x0, 0x0, 0x0, 0x0, false⟩,
   ⟨0x180008, [], 0x0, 0x0, 0x0, 0x0, false⟩,
   ⟨0x18000c, [], 0x0, 0x0, 0x0, 0x0, false⟩,
   ⟨0x180010, [], 0x0, 0x0, 0x0, 0x0, false⟩,
   ⟨0x180014, [], 0x0, 0x0, 0x7f, 0x0, false⟩]

/-- The registers of block CLS. -/
def regsCLS : List RegFam :=
  [⟨0x200000, [(0x40000, 4)], 0x12c, 0xffff, 0x0, 0x0, true⟩,
   ⟨0x200004, [(0x40000, 4)], 0x3c0a08, 0xffffffff, 0x0, 0x0, true⟩,
   ⟨0x200008, [(0x40000, 4)], 0x0, 0xf, 0x0, 0x0, true⟩,
   ⟨0x200010, [(0x40000, 4)], 0x0, 0x0, 0x0, 0x0, false⟩,
   ⟨0x200014, [(0x40000, 4)], 0x0, 0x0, 0x40000000, 0x0, false⟩,
   ⟨0x200018, [(0x40000, 4)], 0x0, 0x3ffff, 0x0, 0x0, false⟩,
   ⟨0x200040, [(0x40000, 4)], 0x0, 0x0, 0x0, 0x0, false⟩,
   ⟨0x200044, [(0x40000, 4)], 0x40000000, 0x0, 0x0, 0x0, false⟩,
   ⟨0x200048, [(0x40000, 4)], 0x80000000, 0x0, 0x0, 0x0, false⟩,
   ⟨0x200050, [(0x40000, 4)], 0x0, 0x0, 0x1f, 0x0, false⟩,
   ⟨0x200020, [(0x40000, 4), (0x4, 8)], 0x0, 0xffffffff, 0x0, 0x0, false⟩,
   ⟨0x200100, [(0x40000, 4), (0x8, 8)], 0x0, 0xffff00f, 0x0, 0x0, true⟩,
   ⟨0x200104, [(0x40000, 4), (0x8, 8)], 0x0, 0x1fff3fff, 0x0, 0x0, true⟩,
   ⟨0x200800, [(0x40000, 4), (0x4, 256)], 0x0, 0xf00f1fff, 0x0, 0x0, true⟩,
   ⟨0x201000, [(0x40000, 4), (0x40, 256), (0x4, 16)], 0x0, 0xc00f3fff, 0x0, 0x0, true⟩]

/-- The registers of block SAT. -/
def regsSAT : List RegFam :=
  [⟨0x300000, [], 0x0, 0x0, 0x0, 0x0, false⟩,
   ⟨0x300004, [], 0x0, 0x0, 0x40000000, 0x0, false⟩,
   ⟨0x300008, [], 0x0, 0xffff, 0x0, 0x0, false⟩,
   ⟨0x300010, [], 0x0, 0x0, 0x1f, 0x0, false⟩,
   ⟨0x300014, [], 0x0, 0x0, 0x0, 0x0, false⟩,
   ⟨0x300040, [(0x4, 16)], 0x0, 0xffffffff, 0x0, 0x0, false⟩]

/-- The registers of block RIL. -/
def regsRIL : List RegFam :=
  [⟨0x400000, [(0x10000, 9)], 0xf00, 0x0, 0x0, 0x0, false⟩,
   ⟨0x400004, [(0x10000, 9)], 0x0, 0x0, 0x1f, 0x0, false⟩,
   ⟨0x400008, [(0x10000, 9)], 0x0, 0x0, 0x0, 0x0, false⟩,
   ⟨0x490000, [], 0x0, 0x0, 0x0, 0x0, false⟩,
   ⟨0x490004, [], 0x0, 0x0, 0x0, 0x0, false⟩,
   ⟨0x490008, [], 0x3, 0x3, 0x0, 0x0, true⟩,
   ⟨0x49000c, [], 0x0, 0x0, 0x0, 0x0, false⟩,
   ⟨0x490020, [], 0x0, 0x0, 0x0, 0x0, false⟩,
   ⟨0x490024, [], 0x0, 0x0, 0x40000000, 0x0, false⟩,
   ⟨0x490040, [(0x4, 16)], 0x0, 0xffffffff, 0x0, 0x0, false⟩,
   ⟨0x491000, [(0x10, 16)], 0x0, 0xffffffff, 0x0, 0x0, true⟩,
   ⟨0x491004, [(0x10, 16)], 0x0, 0xffffffff, 0x0, 0x0, true⟩,
   ⟨0x491008, [(0x10, 16)], 0x0, 0xffffffff, 0x0, 0x0, true⟩,
   ⟨0x49100c, [(0x10, 16)], 0x0, 0x8000ffff, 0x0, 0x0, true⟩]

/-- The registers of block CIS. -/
def regsCIS : List RegFam :=
  [⟨0x500000, [], 0xcb004080, 0xff00ffff, 0x0, 0x0, true⟩,
   ⟨0x500004, [], 0x3e80018, 0xffff3fff, 0x0, 0x0, true⟩,
   ⟨0x500008, [], 0x8000003c, 0x800007ff, 0x0, 0x0, true⟩,
   ⟨0x500010, [], 0x0, 0x0, 0x0, 0x0, false⟩,
   ⟨0x500014, [], 0x0, 0x0, 0x0, 0x0, false⟩,
   ⟨0x500018, [], 0x0, 0x0, 0x0, 0x0, false⟩,
   ⟨0x50001c, [], 0x0, 0x0, 0x0, 0x0, false⟩,
   ⟨0x500020, [], 0x0, 0x0, 0x1ff, 0x0, false⟩,
   ⟨0x500024, [], 0x0, 0x0, 0x0, 0x0, false⟩,
   ⟨0x500028, [], 0x0, 0x0, 0x0, 0x0, false⟩,
   ⟨0x50002c, [], 0x0, 0x0, 0x0, 0x0, false⟩,
   ⟨0x500030, [], 0x0, 0x0, 0x0, 0x0, false⟩,
   ⟨0x500100, [(0x4, 64)], 0x0, 0x0, 0x0, 0x0, false⟩,
   ⟨0x501000, [(0x4, 1792)], 0x0, 0x1c000000, 0x0, 0x0, true⟩]

/-- The registers of block SCH. -/
def regsSCH : List RegFam :=
  [⟨0x600010, [(0x4, 3)], 0x8000800, 0xffffffff, 0x0, 0x0, true⟩,
   ⟨0x600040, [], 0x0, 0x0, 0x7, 0x0, false⟩,
   ⟨0x600100, [(0x4, 6)], 0x5a, 0x7f, 0x0, 0x0, true⟩,
   ⟨0x600200, [(0x10, 16), (0x4, 4)], 0xffffffff, 0xffffffff, 0x0, 0x0, true⟩,
   ⟨0x600400, [(0x10, 34)], 0x0, 0x3fffff, 0x0, 0x0, true⟩,
   ⟨0x600404, [(0x10, 34)], 0x0, 0xffffff, 0x0, 0x0, true⟩,
   ⟨0x600408, [(0x10, 34)], 0x0, 0x0, 0x0, 0x0, false⟩,
   ⟨0x60040c, [(0x10, 34)], 0x0, 0xff, 0x0, 0x0, true⟩,
   ⟨0x601000, [(0x10, 1024)], 0x0, 0x3fffff, 0x0, 0x0, true⟩,
   ⟨0x601004, [(0x10, 1024)], 0x0, 0xffff, 0x0, 0x0, true⟩,
   ⟨0x601008, [(0x10, 1024)], 0x0, 0x0, 0x0, 0x0, false⟩,
   ⟨0x60100c, [(0x10, 1024)], 0x0, 0x833f00ff, 0x0, 0x0, true⟩,
   ⟨0x620000, [(0x10, 8192)], 0x0, 0x3fffff, 0x0, 0x0, true⟩,
   ⟨0x620004, [(0x10, 8192)], 0x0, 0x3fffff, 0x0, 0x0, true⟩,
   ⟨0x620008, [(0x10, 8192)], 0x0, 0xffffffff, 0x0, 0x0, true⟩,
   ⟨0x62000c, [(0x10, 8192)], 0x0, 0x800f03ff, 0x0, 0x0, true⟩]

/-- The registers of block SLU. -/
def regsSLU : List RegFam :=
  [⟨0x700000, [], 0x802a0, 0xff03ff, 0x0, 0x0, true⟩,
   ⟨0x700004, [], 0x26c64, 0xfffff, 0x0, 0x0, true⟩,
   ⟨0x700008, [], 0x80a0064, 0xfffffff, 0x0, 0x0, true⟩,
   ⟨0x700020, [], 0x140040, 0x83ffffff, 0x0, 0x0, true⟩,
   ⟨0x700030, [], 0x1000, 0x0, 0x0, 0x0, false⟩,
   ⟨0x700034, [], 0x0, 0x0, 0x0, 0x0, false⟩,
   ⟨0x700038, [], 0x0, 0x0, 0x1f, 0x0, false⟩,
   ⟨0x70003c, [], 0xffffff, 0x0, 0x0, 0x0, false⟩,
   ⟨0x700010, [(0x4, 4)], 0x36ee80, 0x3fffff, 0x0, 0x0, true⟩]

/-- The registers of block CAS. -/
def regsCAS : List RegFam :=
  [⟨0x780000, [(0x10000, 4)], 0x0, 0x871f010f, 0x0, 0x0, true⟩,
   ⟨0x780004, [(0x10000, 4)], 0x0, 0xffffffff, 0x0, 0x0, true⟩,
   ⟨0x780008, [(0x10000, 4)], 0x0, 0xffffffff, 0x0, 0x0, true⟩,
   ⟨0x78000c, [(0x10000, 4)], 0x0, 0xffffffff, 0x0, 0x0, true⟩,
   ⟨0x780010, [(0x10000, 4)], 0x0, 0xffffffff, 0x0, 0x0, true⟩,
   ⟨0x780014, [(0x10000, 4)], 0x0, 0xffffffff, 0x0, 0x0, true⟩,
   ⟨0x780018, [(0x10000, 4)], 0xe10, 0xffffffff, 0x0, 0x0, true⟩,
   ⟨0x780100, [(0x10000, 4), (0x8, 32)], 0x0, 0xc0000f07, 0x0, 0x0, true⟩,
   ⟨0x780104, [(0x10000, 4), (0x8, 32)], 0x0, 0x1ff03ff, 0x0, 0x0, true⟩,
   ⟨0x780400, [(0x10000, 4), (0x4, 64)], 0xffffffff, 0xffffffff, 0x0, 0x0, true⟩,
   ⟨0x780500, [(0x10000, 4), (0x4, 64)], 0xffffffff, 0xffffffff, 0x0, 0x0, true⟩,
   ⟨0x780020, [(0x10000, 4)], 0x0, 0x0, 0x0, 0x0, false⟩,
   ⟨0x780024, [(0x10000, 4)], 0x0, 0x0, 0x0, 0x0, false⟩,
   ⟨0x780028, [(0x10000, 4)], 0x0, 0x0, 0x0, 0x0, false⟩,
   ⟨0x780030, [(0x10000, 4)], 0x0, 0x0, 0x0, 0x0, false⟩,
   ⟨0x780034, [(0x10000, 4)], 0x0, 0x0, 0x0, 0x0, false⟩,
   ⟨0x780038, [(0x10000, 4)], 0x0, 0x0, 0x0, 0x0, false⟩,
   ⟨0x78003c, [(0x10000, 4)], 0x0, 0x0, 0x0, 0x0, false⟩,
   ⟨0x780040, [(0x10000, 4)], 0x0, 0x0, 0x0, 0x0, false⟩,
   ⟨0x780044, [(0x10000, 4)], 0x0, 0x0, 0x0, 0x0, false⟩,
   ⟨0x78002c, [(0x10000, 4)], 0x0, 0x0, 0x3f, 0x0, false⟩,
   ⟨0x780060, [(0x10000, 4)], 0x40004, 0x0, 0x0, 0x0, false⟩,
   ⟨0x780064, [(0x10000, 4)], 0x0, 0x0, 0x3ff, 0x0, false⟩,
   ⟨0x780068, [(0x10000, 4)], 0x0, 0x0, 0x0, 0x0, false⟩,
   ⟨0x78006c, [(0x10000, 4)], 0x0, 0x0, 0x0, 0x0, false⟩,
   ⟨0x780070, [(0x10000, 4)], 0x0, 0x0, 0x0, 0x0, false⟩,
   ⟨0x780074, [(0x10000, 4)], 0x0, 0x0, 0xffffffff, 0x0, false⟩,
   ⟨0x780078, [(0x10000, 4)], 0x0, 0x0, 0x0, 0x0, false⟩,
   ⟨0x78007c, [(0x10000, 4)], 0x0, 0x0, 0x0, 0x0, false⟩,
   ⟨0x780080, [(0x10000, 4)], 0x80000000, 0x80000003, 0x0, 0x0, true⟩] ++
  [⟨0x780084, [(0x10000, 4)], 0x0, 0xff, 0x0, 0x0, false⟩,
   ⟨0x780088, [(0x10000, 4)], 0x0, 0x0, 0x0, 0x0, false⟩,
   ⟨0x78008c, [(0x10000, 4)], 0x0, 0x0, 0x0, 0x0, false⟩,
   ⟨0x780090, [(0x10000, 4)], 0x0, 0x0, 0x0, 0x0, false⟩,
   ⟨0x780094, [(0x10000, 4)], 0x0, 0x0, 0x0, 0x0, false⟩,
   ⟨0x780098, [(0x10000, 4)], 0x0, 0x0, 0x0, 0x0, false⟩,
   ⟨0x78009c, [(0x10000, 4)], 0x0, 0x0, 0x0, 0x0, false⟩,
   ⟨0x7800c0, [(0x10000, 4)], 0x0, 0x1fff, 0x0, 0x0, false⟩,
   ⟨0x7800c4, [(0x10000, 4)], 0x0, 0x0, 0x0, 0x0, false⟩,
   ⟨0x7800c8, [(0x10000, 4), (0x4, 2)], 0x0, 0x0, 0x80000000, 0x0, false⟩,
   ⟨0x781000, [(0x10000, 4), (0x4, 1024)], 0x0, 0xffffffff, 0x0, 0x0, false⟩,
   ⟨0x782000, [(0x10000, 4), (0x1000, 2), (0x4, 1024)], 0x0, 0x0, 0x0, 0x0, false⟩]

/-- The registers of block TIM. -/
def regsTIM : List RegFam :=
  [⟨0x800000, [(0x40, 4)], 0x1400000, 0xffffffff, 0x0, 0x0, false⟩,
   ⟨0x800004, [(0x40, 4)], 0x3e8, 0xffffffff, 0x0, 0x0, true⟩,
   ⟨0x800008, [(0x40, 4)], 0x0, 0xffffffff, 0x0, 0x0, false⟩,
   ⟨0x80000c, [(0x40, 4)], 0x0, 0xffffffff, 0x0, 0x0, false⟩,
   ⟨0x800010, [(0x40, 4)], 0x0, 0x0, 0x0, 0x0, false⟩,
   ⟨0x800014, [(0x40, 4)], 0x0, 0x0, 0x0, 0x0, false⟩,
   ⟨0x800018, [(0x40, 4)], 0x0, 0x0, 0x0, 0x0, false⟩,
   ⟨0x80001c, [(0x40, 4)], 0x0, 0x0, 0x0, 0x0, false⟩,
   ⟨0x800020, [(0x40, 4)], 0x0, 0x0, 0x0, 0x0, false⟩,
   ⟨0x800024, [(0x40, 4)], 0x0, 0x0, 0x0, 0x0, false⟩,
   ⟨0x800100, [], 0x0, 0x0, 0x3e, 0x0, false⟩,
   ⟨0x800104, [], 0x0, 0x0, 0x0, 0x0, false⟩,
   ⟨0x800108, [], 0x0, 0xffffffff, 0x0, 0x0, true⟩,
   ⟨0x800110, [(0x4, 4)], 0x0, 0x800003ff, 0x0, 0x0, true⟩,
   ⟨0x800120, [(0x4, 4)], 0x186a0, 0x81ffffff, 0x0, 0x0, true⟩,
   ⟨0x800130, [], 0x0, 0x0, 0x1, 0x0, false⟩,
   ⟨0x800140, [(0x10, 4)], 0x0, 0x0, 0x0, 0x0, false⟩,
   ⟨0x800144, [(0x10, 4)], 0x0, 0x0, 0x0, 0x0, false⟩,
   ⟨0x800148, [(0x10, 4)], 0x0, 0x0, 0x0, 0x0, false⟩,
   ⟨0x800180, [(0x4, 8)], 0x0, 0xe0001fff, 0x0, 0x0, true⟩,
   ⟨0x800400, [(0x20, 32)], 0x0, 0x80000003, 0x40000000, 0x0, true⟩,
   ⟨0x800404, [(0x20, 32)], 0x0, 0x3fffffff, 0x0, 0x0, false⟩,
   ⟨0x800408, [(0x20, 32)], 0x0, 0xffffffff, 0x0, 0x0, false⟩,
   ⟨0x80040c, [(0x20, 32)], 0x0, 0xffff, 0x0, 0x0, false⟩,
   ⟨0x800410, [(0x20, 32)], 0x0, 0xffffffff, 0x0, 0x0, true⟩,
   ⟨0x800414, [(0x20, 32)], 0x0, 0x0, 0x0, 0xffffffff, false⟩,
   ⟨0x810000, [(0x1000, 32)], 0x8, 0xb, 0x0, 0x0, true⟩,
   ⟨0x810004, [(0x1000, 32)], 0x0, 0xffffffff, 0x0, 0x0, true⟩,
   ⟨0x810008, [(0x1000, 32)], 0x3e8, 0x80003fff, 0x0, 0x0, true⟩,
   ⟨0x810010, [(0x1000, 32)], 0xc8, 0xff0003ff, 0x0, 0x0, true⟩] ++
  [⟨0x810014, [(0x1000, 32)], 0x0, 0x1ff, 0x0, 0x0, true⟩,
   ⟨0x810018, [(0x1000, 32)], 0x0, 0xffffffff, 0x0, 0x0, true⟩,
   ⟨0x81001c, [(0x1000, 32)], 0x0, 0x3fffffff, 0x0, 0x0, true⟩,
   ⟨0x810020, [(0x1000, 32)], 0x0, 0xffffffff, 0x0, 0x0, true⟩,
   ⟨0x810024, [(0x1000, 32)], 0x0, 0xffff, 0x0, 0x0, true⟩,
   ⟨0x810400, [(0x1000, 32), (0x4, 256)], 0xff000000, 0xffffffff, 0x0, 0x0, true⟩]

/-- The registers of block KST. -/
def regsKST : List RegFam :=
  [⟨0x880000, [], 0x0, 0x0, 0x0, 0x0, false⟩,
   ⟨0x880004, [], 0x0, 0x0, 0x0, 0x0, false⟩,
   ⟨0x880008, [], 0x0, 0xffffffff, 0x0, 0x0, false⟩,
   ⟨0x88000c, [], 0x0, 0xffffffff, 0x0, 0x0, false⟩,
   ⟨0x880010, [], 0x0, 0xffffffff, 0x0, 0x0, false⟩,
   ⟨0x880014, [], 0x0, 0xffffffff, 0x0, 0x0, false⟩,
   ⟨0x880018, [], 0x0, 0xffff01ff, 0x0, 0x0, false⟩,
   ⟨0x880020, [(0x4, 8)], 0x0, 0xffffffff, 0x0, 0x0, false⟩,
   ⟨0x880040, [], 0x0, 0x0, 0x0, 0x0, false⟩,
   ⟨0x880044, [], 0x0, 0x0, 0x0, 0x0, false⟩,
   ⟨0x880048, [], 0x0, 0x0, 0x0, 0x0, false⟩,
   ⟨0x88004c, [], 0x0, 0x0, 0xf, 0x0, false⟩,
   ⟨0x880050, [], 0x0, 0x0, 0x0, 0x0, false⟩,
   ⟨0x880060, [(0x4, 4)], 0x0, 0x0, 0x0, 0x0, false⟩]

/-- The registers of block PKE. -/
def regsPKE : List RegFam :=
  [⟨0x8c0000, [], 0x0, 0xffffffff, 0x0, 0x0, false⟩,
   ⟨0x8c0004, [], 0x0, 0xffffffff, 0x0, 0x0, false⟩,
   ⟨0x8c0008, [], 0x0, 0x0, 0x0, 0x0, false⟩,
   ⟨0x8c000c, [], 0x0, 0x0, 0x0, 0x0, false⟩,
   ⟨0x8c0010, [], 0x0, 0x0, 0x0, 0x0, false⟩,
   ⟨0x8c0014, [], 0x0, 0x0, 0x0, 0x0, false⟩,
   ⟨0x8c0018, [], 0x0, 0x0, 0x7, 0x0, false⟩,
   ⟨0x8c001c, [], 0x0, 0x0, 0x0, 0x0, false⟩]

/-- The registers of block TMP. -/
def regsTMP : List RegFam :=
  [⟨0x900000, [], 0x0, 0x0, 0xffffff, 0x0, false⟩,
   ⟨0x900004, [], 0x0, 0x0, 0x0, 0x0, false⟩,
   ⟨0x900008, [], 0x0, 0x0, 0x400, 0x0, false⟩,
   ⟨0x90000c, [], 0x0, 0x0, 0x0, 0x0, false⟩,
   ⟨0x900010, [], 0x258, 0xfff, 0x0, 0x0, false⟩,
   ⟨0x900020, [], 0xa17d076, 0x0, 0x0, 0x0, false⟩,
   ⟨0x900024, [], 0x0, 0x0, 0x0, 0x0, false⟩,
   ⟨0x900028, [], 0x0, 0x0, 0x0, 0x0, false⟩,
   ⟨0x900040, [(0x4, 32)], 0x0, 0x0, 0x0, 0x0, false⟩,
   ⟨0x900100, [(0x10, 64), (0x4, 4)], 0x0, 0x0, 0x0, 0x0, false⟩]

/-- The registers of block PAI. -/
def regsPAI : List RegFam :=
  [⟨0x980000, [], 0x20df0bb8, 0xf0ffffff, 0x0, 0x0, true⟩,
   ⟨0x980004, [], 0x13880000, 0x0, 0x0, 0x0, false⟩,
   ⟨0x980008, [], 0x0, 0x0, 0x0, 0x0, false⟩,
   ⟨0x98000c, [], 0x0, 0x0, 0x0, 0x0, false⟩,
   ⟨0x980010, [], 0x0, 0x0, 0x0, 0x0, false⟩,
   ⟨0x980014, [], 0x0, 0x0, 0x0, 0x0, false⟩,
   ⟨0x980018, [], 0x0, 0x0, 0x3f, 0x0, false⟩]

/-- The registers of block HIF. -/
def regsHIF : List RegFam :=
  [⟨0xa00000, [], 0x1, 0x8000001f, 0x0, 0x0, true⟩,
   ⟨0xa00004, [], 0x0, 0x1fff1fff, 0x0, 0x0, true⟩,
   ⟨0xa00010, [], 0x0, 0x0, 0x0, 0x0, false⟩,
   ⟨0xa00014, [], 0x0, 0xfffff, 0x0, 0x0, false⟩,
   ⟨0xa00018, [], 0x0, 0x0, 0x0, 0x0, false⟩,
   ⟨0xa01000, [(0x10, 64)], 0x0, 0xc000ffff, 0x0, 0x0, true⟩,
   ⟨0xa01004, [(0x10, 64)], 0x0, 0xffffffff, 0x0, 0x0, true⟩,
   ⟨0xa01008, [(0x10, 64)], 0x0, 0xfff1fff, 0x0, 0x0, true⟩,
   ⟨0xa02000, [(0x4, 64)], 0x0, 0x0, 0x0, 0x0, false⟩,
   ⟨0xa03000, [(0x4, 64)], 0x0, 0x0, 0x0, 0x0, false⟩,
   ⟨0xa04000, [(0x40, 16)], 0x0, 0xffffffff, 0x0, 0x0, false⟩,
   ⟨0xa04004, [(0x40, 16)], 0x0, 0xffffffff, 0x0, 0x0, false⟩,
   ⟨0xa04008, [(0x40, 16)], 0x0, 0x87f00000, 0x0, 0x0, false⟩,
   ⟨0xa0400c, [(0x40, 16)], 0x0, 0xffff, 0x0, 0x0, false⟩,
   ⟨0xa04010, [(0x40, 16)], 0x0, 0x0, 0x0, 0x0, false⟩,
   ⟨0xa04014, [(0x40, 16)], 0x0, 0xffffffff, 0x0, 0x0, false⟩,
   ⟨0xa04018, [(0x40, 16)], 0x0, 0xffffffff, 0x0, 0x0, false⟩,
   ⟨0xa04020, [(0x40, 16)], 0x0, 0xffffffff, 0x0, 0x0, false⟩,
   ⟨0xa04024, [(0x40, 16)], 0x0, 0xffffffff, 0x0, 0x0, false⟩,
   ⟨0xa04028, [(0x40, 16)], 0x0, 0xe0f001ff, 0x0, 0x0, false⟩,
   ⟨0xa0402c, [(0x40, 16)], 0x0, 0xffff, 0x0, 0x0, false⟩,
   ⟨0xa04030, [(0x40, 16)], 0x0, 0x0, 0x0, 0x0, false⟩,
   ⟨0xa04034, [(0x40, 16)], 0x0, 0xffffffff, 0x0, 0x0, false⟩,
   ⟨0xa04038, [(0x40, 16)], 0x0, 0xffffffff, 0x0, 0x0, false⟩,
   ⟨0xa0403c, [(0x40, 16)], 0x100, 0xffff, 0x0, 0x0, false⟩,
   ⟨0xa08000, [(0x10, 32)], 0x0, 0xffffffff, 0x0, 0x0, false⟩,
   ⟨0xa08004, [(0x10, 32)], 0x0, 0xffffffff, 0x0, 0x0, false⟩,
   ⟨0xa08008, [(0x10, 32)], 0x0, 0xffffffff, 0x0, 0x0, false⟩,
   ⟨0xa0800c, [(0x10, 32)], 0x1, 0x1, 0x0, 0x0, false⟩,
   ⟨0xa09000, [(0x4, 1)], 0x0, 0x0, 0x0, 0x0, false⟩]

/-- The registers of block CNT. -/
def regsCNT : List RegFam :=
  [⟨0xc00000, [], 0x3e8, 0xb000ffff, 0x0, 0x0, true⟩,
   ⟨0xc00004, [], 0x0, 0x8000001f, 0x0, 0x0, true⟩,
   ⟨0xc00008, [], 0x0, 0xffffffff, 0x0, 0x0, false⟩,
   ⟨0xc0000c, [], 0x0, 0xffffffff, 0x0, 0x0, false⟩,
   ⟨0xc00010, [], 0x0, 0xffffffff, 0x0, 0x0, false⟩,
   ⟨0xc00014, [], 0x0, 0xffffffff, 0x0, 0x0, false⟩,
   ⟨0xc00018, [], 0x0, 0x0, 0x0, 0x0, false⟩,
   ⟨0xc00028, [], 0x0, 0x0, 0x0, 0x0, false⟩,
   ⟨0xc0002c, [], 0x0, 0x0, 0x1, 0x0, false⟩,
   ⟨0xc00030, [], 0x0, 0xfffff, 0x0, 0x0, false⟩,
   ⟨0xc0001c, [], 0x0, 0xffffffff, 0x0, 0x0, false⟩,
   ⟨0xc00020, [], 0x0, 0xffff, 0x0, 0x0, false⟩,
   ⟨0xc00024, [], 0x0, 0x3fffffff, 0x0, 0x0, false⟩,
   ⟨0xc00034, [], 0x0, 0x0, 0x0, 0x0, false⟩,
   ⟨0xc00038, [], 0x0, 0x0, 0x0, 0x0, false⟩,
   ⟨0xc00100, [(0x10, 8)], 0x0, 0x800fffff, 0x0, 0x0, false⟩,
   ⟨0xc00104, [(0x10, 8)], 0x0, 0xffffffff, 0x0, 0x0, false⟩,
   ⟨0xc00180, [], 0x0, 0x0, 0xff, 0x0, false⟩,
   ⟨0xc01000, [(0x10, 32)], 0x0, 0x0, 0x0, 0x0, false⟩,
   ⟨0xc01004, [(0x10, 32)], 0x0, 0x0, 0x0, 0x0, false⟩,
   ⟨0xc01008, [(0x10, 32)], 0x0, 0x0, 0x0, 0x0, false⟩,
   ⟨0xc0100c, [(0x10, 32)], 0x0, 0x0, 0x0, 0x0, false⟩]

/-- The registers of block LEG. -/
def regsLEG : List RegFam :=
  [⟨0xe00000, [(0x8, 256)], 0x0, 0x0, 0x0, 0x0, false⟩,
   ⟨0xe00004, [(0x8, 256)], 0x0, 0x0, 0x80000000, 0x0, false⟩]

/-- The registers of block SL. -/
def regsSL : List RegFam :=
  [⟨0x10000000, [(0x200000, 64)], 0x0, 0x0, 0x0, 0x0, false⟩,
   ⟨0x10000004, [(0x200000, 64)], 0x0, 0xffffffff, 0x0, 0x0, false⟩,
   ⟨0x10000008, [(0x200000, 64)], 0x0, 0x0, 0x0, 0x0, false⟩,
   ⟨0x10000010, [(0x200000, 64)], 0x0, 0x0, 0x1f, 0x0, false⟩,
   ⟨0x10000100, [(0x200000, 64)], 0x0, 0x0, 0x0, 0x0, false⟩,
   ⟨0x10000104, [(0x200000, 64)], 0x0, 0x0, 0x40000000, 0x0, false⟩,
   ⟨0x10000108, [(0x200000, 64)], 0x0, 0xffff, 0x0, 0x0, false⟩,
   ⟨0x10000110, [(0x200000, 64)], 0x0, 0x0, 0x1f, 0x0, false⟩,
   ⟨0x10000140, [(0x200000, 64), (0x4, 16)], 0x0, 0xffffffff, 0x0, 0x0, false⟩,
   ⟨0x10001000, [(0x200000, 64), (0x40, 16)], 0x0, 0xffffffff, 0x0, 0x0, false⟩,
   ⟨0x10001004, [(0x200000, 64), (0x40, 16)], 0x0, 0xffffffff, 0x0, 0x0, false⟩,
   ⟨0x10001008, [(0x200000, 64), (0x40, 16)], 0x0, 0x87f00000, 0x0, 0x0, false⟩,
   ⟨0x1000100c, [(0x200000, 64), (0x40, 16)], 0x0, 0xffff, 0x0, 0x0, false⟩,
   ⟨0x10001010, [(0x200000, 64), (0x40, 16)], 0x0, 0x0, 0x0, 0x0, false⟩,
   ⟨0x10001014, [(0x200000, 64), (0x40, 16)], 0x0, 0xffffffff, 0x0, 0x0, false⟩,
   ⟨0x10001018, [(0x200000, 64), (0x40, 16)], 0x0, 0xffffffff, 0x0, 0x0, false⟩,
   ⟨0x10001020, [(0x200000, 64), (0x40, 16)], 0x0, 0xffffffff, 0x0, 0x0, false⟩,
   ⟨0x10001024, [(0x200000, 64), (0x40, 16)], 0x0, 0xffffffff, 0x0, 0x0, false⟩,
   ⟨0x10001028, [(0x200000, 64), (0x40, 16)], 0x0, 0xe0f001ff, 0x0, 0x0, false⟩,
   ⟨0x1000102c, [(0x200000, 64), (0x40, 16)], 0x0, 0xffff, 0x0, 0x0, false⟩,
   ⟨0x10001030, [(0x200000, 64), (0x40, 16)], 0x0, 0x0, 0x0, 0x0, false⟩,
   ⟨0x10001034, [(0x200000, 64), (0x40, 16)], 0x0, 0xffffffff, 0x0, 0x0, false⟩,
   ⟨0x10001038, [(0x200000, 64), (0x40, 16)], 0x0, 0xffffffff, 0x0, 0x0, false⟩,
   ⟨0x1000103c, [(0x200000, 64), (0x40, 16)], 0x100, 0xffff, 0x0, 0x0, false⟩,
   ⟨0x10008000, [(0x200000, 64), (0x10, 17)], 0x0, 0xffffffff, 0x0, 0x0, false⟩,
   ⟨0x10008004, [(0x200000, 64), (0x10, 17)], 0x0, 0xffffffff, 0x0, 0x0, false⟩,
   ⟨0x10008008, [(0x200000, 64), (0x10, 17)], 0x0, 0xffffffff, 0x0, 0x0, false⟩,
   ⟨0x1000800c, [(0x200000, 64), (0x10, 17)], 0x1, 0x1, 0x0, 0x0, false⟩,
   ⟨0x10009000, [(0x200000, 64), (0x4, 1)], 0x0, 0x0, 0x0, 0x0, false⟩]

/-- Does the offset `o` fall on an instance of strides and counts `dims`? -/
def dimsHit : List (Nat × Nat) → Nat → Bool
  | [], o => o == 0
  | (st, n) :: r, o => decide (o / st < n) && dimsHit r (o % st)

/-- Is `a` the address of a register of the family? -/
def RegFam.hit (f : RegFam) (a : Nat) : Bool := decide (f.base ≤ a) && dimsHit f.dims (a - f.base)

/-- The registers of the block that holds address `a` (R489, R491). -/
def regsOf (a : Nat) : List RegFam :=
  if 0x10000000 ≤ a then regsSL
  else if 0x1000000 ≤ a then []
  else if 0xe00000 ≤ a then regsLEG
  else if 0xc00000 ≤ a then regsCNT
  else if 0xa00000 ≤ a then regsHIF
  else if 0x980000 ≤ a then regsPAI
  else if 0x900000 ≤ a then regsTMP
  else if 0x8c0000 ≤ a then regsPKE
  else if 0x880000 ≤ a then regsKST
  else if 0x800000 ≤ a then regsTIM
  else if 0x780000 ≤ a then regsCAS
  else if 0x700000 ≤ a then regsSLU
  else if 0x600000 ≤ a then regsSCH
  else if 0x500000 ≤ a then regsCIS
  else if 0x400000 ≤ a then regsRIL
  else if 0x300000 ≤ a then regsSAT
  else if 0x200000 ≤ a then regsCLS
  else if 0x180000 ≤ a then regsAQD
  else if 0x140000 ≤ a then regsLPT
  else if 0x100000 ≤ a then regsCPT
  else if 0x40000 ≤ a then regsCAL
  else if 0x20000 ≤ a then regsSTART
  else if 0x10000 ≤ a then regsTXN
  else regsGLB

/-- The register family of an address; none for a reserved address (R6) or the hole. -/
def regFam (a : Nat) : Option RegFam := (regsOf a).find? (fun f => f.hit a)

/-- What register `a` holds until something is stored: its reset value. -/
def resetVal (a : Nat) : Word :=
  match regFam a with
  | some f => BitVec.ofNat 32 f.reset
  | none => 0

/-- The bits of register `a` that a write stores. -/
def rwMask (a : Nat) : Word :=
  match regFam a with
  | some f => BitVec.ofNat 32 f.rw
  | none => 0

/-- The bits of register `a` that a written 1 clears. -/
def w1cMask (a : Nat) : Word :=
  match regFam a with
  | some f => BitVec.ofNat 32 f.w1c
  | none => 0

/-- The bits of register `a` that a read clears. -/
def rcMask (a : Nat) : Word :=
  match regFam a with
  | some f => BitVec.ofNat 32 f.rc
  | none => 0

/-- Do transactions shadow register `a` (R81)? -/
def isShadowed (a : Nat) : Bool :=
  match regFam a with
  | some f => f.shadowed
  | none => false

end Sys2Proof.Machine
end

