-- ==== Sys2Proof/Machine/State.lean ====
section
/-! DEFINITION. The state of the device as plain data: registers, counters, and what each chapter of the spec gives
its unit to hold. Each field's docstring names the rule that gives it. -/

namespace Sys2Proof.Machine

/-! ### What every unit uses -/

/-- The common status codes (R9). -/
inductive Status where
  | ok | busy | expired | conflict | invalid | denied | exhausted | aborted | integrity | notFound | full
  | quiesceRequired
  deriving DecidableEq, Repr

/-- A native counter, by its bank, instance and number (R477). -/
inductive Ctr where
  | dev (j : Nat) | host (j : Nat) | cis (j : Nat) | ril (r j : Nat) | cls (g j : Nat) | cas (t j : Nat)
  | port (p j : Nat) | slice (s j : Nat) | sch (u j : Nat) | txsa (a j : Nat) | rxsa (a j : Nat)
  deriving DecidableEq, Repr

/-- What the device puts out: the model's own log of its outputs, newest first. -/
inductive Out where
  /-- The data a read returns. -/
  | readData (fn : Fn) (addr : Nat) (value : Word)
  /-- An MSI-X message (R464). -/
  | msix (fn : Fn) (vector : Nat)
  /-- A DMA write to host memory, with the PASID of the slice it is made for; `relaxed` when it sets Relaxed Ordering where the host
  permits that (R455). -/
  | dma (fn : Fn) (pasid : Option Nat) (relaxed : Bool) (addr : Nat) (data : List Byte)
  /-- A DMA read of host memory; what it brings is an operand of the command (R455). -/
  | dmaRead (fn : Fn) (pasid : Option Nat) (addr : Nat) (size : Nat)
  /-- A frame leaving a port: `good` false when it is stomped (R218). -/
  | frame (port : Nat) (data : List Byte) (good : Bool)
  /-- A frame leaving a port in the fragments that preemption made of it, each with its mCRC, the last with the FCS (R101). -/
  | fragments (port : Nat) (pieces : List (List Byte)) (good : Bool)
  /-- A frame delivered to a ring of a function. -/
  | toHost (fn : Fn) (data : List Byte) (good : Bool)
  /-- A steering block on a transmit spare (R109). -/
  | steer (lane : Nat) (block : List Byte)
  /-- A Cascade frame sent on a trunk (R305). -/
  | cascade (trunk : Nat) (data : List Byte)
  /-- The PAM4 levels that the line lanes of a trunk send, by trunk lane (R297). -/
  | trunkLanes (trunk : Nat) (levels : List (List Nat))
  /-- Client bits delivered by a transparent tributary (R313, R315). -/
  | tributary (trunk trib : Nat) (data : List Bool)
  /-- Bits of the replacement pattern delivered by a transparent tributary (R316, R328). -/
  | pattern (trunk trib : Nat) (bits : List Bool)
  /-- An Aqueduct frame (R433). -/
  | aqueduct (data : List Byte)
  /-- What the data lanes of the Aqueduct send for a frame and the idles before it, bit by bit (R431). -/
  | aqueductLanes (bits : List (List Bool))
  /-- The data an SMBus read returns (R423). -/
  | smbus (data : List Byte)
  /-- A pulse on `HANDOVER` (R426). -/
  | handover
  /-- A time-instant action of a comparator (R357). -/
  | instant (comparator : Nat)
  deriving DecidableEq, Repr

/-- A time of a time base: whole seconds, nanoseconds and 2^-24 ns (R340). -/
structure TimeVal where
  sec : Nat := 0
  ns : Nat := 0
  frac : Nat := 0
  deriving DecidableEq, Repr

/-- A local counter of a time base in an island that is in time-unlock (R18): its value, and the increment per tick that it keeps. -/
structure LocalTime where
  time : TimeVal := {}
  rate : Nat := 0
  deriving DecidableEq, Repr

/-! ### Device state, resets and start (02_modes_and_start.md) -/

/-- The seven device states (R35). -/
inductive DevState where
  | wellOnly | start | minimal | maintenance | active | standby | halt
  deriving DecidableEq, Repr

/-- Device state and start (R35 to R60). -/
structure Dev where
  /-- Device state (R35, R54). -/
  state : DevState := .start
  /-- START_STATE.STEP (R54): 0 none, 1 to 8, 0xF complete. -/
  step : Nat := 0
  /-- START_STATE.SLOT (R54): 0 none, 1 A, 2 B. -/
  slot : Nat := 0
  /-- START_STATE.SUCCESS (R47, R54). -/
  success : Bool := false
  /-- START_STATE.PAIR_ROLE_PENDING (R54). -/
  rolePending : Bool := false
  /-- The success timer runs (R47, R50). -/
  timing : Bool := false
  /-- A start has begun whose log entry is not written yet (R60). -/
  logDue : Bool := false
  /-- What the current start added to FAIL_A, FAIL_B and FAIL_CONSEC (R46, R48). -/
  incA : Nat := 0
  incB : Nat := 0
  incConsec : Nat := 0
  /-- Sequence number of the image run, 0 if none (R60, R385). -/
  seq : Nat := 0
  /-- Slots tried in this start, and those of them that were rolled back (R46). -/
  tried : List Nat := []
  rolledBack : List Nat := []
  /-- Main power is present (R35). -/
  power : Bool := true
  /-- Cold reset is held (R497, R516). -/
  coldReset : Bool := true
  /-- `COLD_RST_N` is low (R516). -/
  coldPin : Bool := false
  /-- Supply tamper sources are armed (R497). -/
  supplyArmed : Bool := false
  /-- GLB_STATUS.MC_UP (R492): the MC serves. -/
  mcUp : Bool := false
  /-- An MC restart is running (R31). -/
  mcRestarting : Bool := false
  /-- GLB_STATUS.MC_RESTARTS (R492), saturating. -/
  mcRestarts : Nat := 0
  /-- The MC watchdog counts (R30). -/
  watchdog : Bool := false
  /-- Version in the MC_PATCH header, 0 when none is applied (R492). -/
  patch : Nat := 0
  deriving DecidableEq, Repr

/-! ### Image, calibration, transactions (03_image_and_transactions.md) -/

/-- A write of an image slot in progress (R70). -/
structure ImgWrite where
  /-- The slot written: 1 A, 2 B. -/
  slot : Nat := 0
  /-- The first 256 bytes, held on the die until the end (R70). -/
  header : List Byte := []
  /-- The bytes that the body of the slot was programmed with (R70). -/
  body : List Byte := []
  deriving DecidableEq, Repr

/-- Transaction states (R82). -/
inductive TxnState where
  | idle | open | validating | applying
  deriving DecidableEq, Repr

/-- The transaction engine (R81 to R86). -/
structure Txn where
  state : TxnState := .idle
  /-- The transaction is an implicit one (R75). -/
  implicit : Bool := false
  /-- Shadow register entries: address and value (R81). -/
  regs : KMap Word := []
  /-- Shadow register addresses in use, a CAL_OFFSET entry at 0x4000_0000 + item. -/
  used : List Nat := []
  /-- Shadow basic parameters: ID and value (R81). -/
  params : List (Nat × Nat) := []
  /-- A write found no entry free (R81). -/
  overflow : Bool := false
  /-- A write of the transaction was at the wrong level (R73). -/
  wrongLevel : Bool := false
  /-- The timer's setting in ms while it runs (R82). -/
  timer : Option Nat := none
  /-- Apply instant A on `TB_0` (R84). -/
  applyAt : TimeVal := {}
  /-- The register words distributed to the staging registers of the islands (R84). -/
  staged : List (Island × Nat × Word) := []
  /-- Affected islands that have not applied yet (R84). -/
  waiting : List Island := []
  deriving DecidableEq, Repr

/-! ### Ports, lanes and spares (04_ports_and_lanes.md) -/

/-- Where a port is in its sleep cycle (R103, R104). -/
inductive Sleep where
  | awake | entering | asleep | waking
  deriving DecidableEq, Repr

/-- The 802.3br verify exchange (R101). -/
inductive Verify where
  | verifying | active | failed
  deriving DecidableEq, Repr

/-- A port, keyed by P of R79: 0 to 15 client, 16 to 31 line. -/
structure Port where
  /-- Held by UP_AT_START 0 (R93). -/
  held : Bool := false
  /-- UP_AT_START and UP_ORDER of its PORT record (R92). -/
  upAtStart : Bool := false
  upOrder : Nat := 0
  /-- It had a plan at start step 8 (R93, R419). -/
  atStart : Bool := false
  /-- Its turn in the bring-up of start step 8; 0 none (R93). -/
  turn : Nat := 0
  sleep : Sleep := .awake
  /-- The receive PCS is aligned (R100). -/
  aligned : Bool := false
  /-- Receiving local fault, remote fault (R119). -/
  lf : Bool := false
  rf : Bool := false
  /-- PORT_STATUS.WAKE_CAUSE and MATCH (R119). -/
  wakeCause : Nat := 0
  matched : Nat := 0
  verify : Verify := .verifying
  /-- A personality change is in progress (R42). -/
  changing : Bool := false
  deriving DecidableEq, Repr

/-- Lane states (R107); a spare lane uses the last three of LANE_STATUS, from its `Spare`. -/
inductive LaneState where
  | unused | training | up | faulted | replaced
  deriving DecidableEq, Repr

/-- A lane, keyed by L of R79: 0 to 17 client, 18 to 35 line. Its state (R107) follows from what is held here, from its rate and from
the spares: `laneState`. -/
structure Lane where
  /-- Its receive PCS or Cascade marker is locked (R97). -/
  locked : Bool := false
  /-- It has faulted and not locked again since (R97). -/
  hurt : Bool := false
  /-- Fault conditions present now, as LANE_FAULT numbers them (R106, R124). -/
  conditions : List Nat := []
  /-- The conditions behind DEGRADE and LANE_REV are present (R96, R106, R124). -/
  degraded : Bool := false
  reversed : Bool := false
  /-- The driver is disabled (R106). -/
  txDisabled : Bool := false
  /-- SIGNAL, CDR_LOCK, PORT_LANE, RX_POL_INV of LANE_STATUS (R123). -/
  signal : Bool := false
  cdrLock : Bool := false
  portLane : Nat := 0
  polInv : Bool := false
  /-- Bits sent, and bits at the output of the receive deskew, since the last training, in 1/32 bit modulo 2^37 (R111). -/
  sent : Nat := 0
  got : Nat := 0
  deriving DecidableEq, Repr

/-- What the transmit side of a spare does (R110). -/
inductive SpareTx where
  | idle
  /-- ASK(L) sent; the 16 us run (R113). `second` when the other spare was tried before. -/
  | asking (lane : Nat) (second : Bool)
  /-- It bridges the data of lane L for a partner that asked (R110). -/
  | bridging (lane : Nat)
  /-- It carries the data of lane L, whose own transmit side is out of use (R110, R115). -/
  | carrying (lane : Nat)
  deriving DecidableEq, Repr

/-- What the receive side of a spare does (R110, R111). -/
inductive SpareRx where
  | idle
  /-- MOVE(L) of a SEQ accepted. -/
  | moveSeen (lane seq : Nat)
  /-- SYNC accepted: POSITION held. -/
  | synced (lane position : Nat)
  /-- Steered by command: the markers of lane L are not locked on it yet (R115). -/
  | steered (lane : Nat)
  /-- It carries lane L in the deskew output. -/
  | carrying (lane : Nat)
  deriving DecidableEq, Repr

/-- A spare lane, keyed by L of R79: 16 and 17 client, 34 and 35 line. -/
structure Spare where
  tx : SpareTx := .idle
  rx : SpareRx := .idle
  /-- PARTNER_OK (R109). -/
  partnerOk : Bool := false
  /-- SEQ of the last command sent (R109). -/
  seq : Nat := 0
  /-- Leading bits of its data that the last alignment discarded (R111). -/
  discarded : Nat := 0
  deriving DecidableEq, Repr

/-! ### Classifier (05_classification.md) -/

/-- A classification result (R133). -/
structure Result where
  action : Nat := 0
  cls : Nat := 0
  egress : Nat := 0
  assoc : Nat := 0
  sub : Nat := 0
  deriving DecidableEq, Repr

/-- An exact-match entry (R136): its 16 key bytes, its result and its flags. -/
structure EmEntry where
  key : List Byte := []
  res : Result := {}
  static : Bool := false
  hit : Bool := false
  swept : Bool := false
  pinned : Bool := false
  pinSw : Bool := false
  moves : Nat := 0
  deriving DecidableEq, Repr

/-- An LPM prefix (R148, R151): FAMILY 4 or 6, LENGTH, the 16 PREFIX bytes, the result. -/
structure LpmEntry where
  family : Nat := 0
  length : Nat := 0
  prefix16 : List Byte := []
  res : Result := {}
  deriving DecidableEq, Repr

/-- A learn request (R140, R141). -/
structure Learn where
  key : List Byte := []
  res : Result := {}
  /-- Forebay handle of its frame (R143). -/
  frame : Nat := 0
  deriving DecidableEq, Repr

/-- A table command that runs: what it will report when it is done (R151, R152). -/
structure TblPending where
  status : Status := .ok
  index : Option Nat := none
  data : Option (List Byte) := none
  /-- The command changes an LPM table of all replicas (R152). -/
  lpmChange : Bool := false
  /-- CLS_OCC, CLS_LPM4 and CLS_LPM6 as they read until the command is done (R152): 0, 4 or 6, and the value. -/
  before : List (Nat × Word) := []
  deriving DecidableEq, Repr

/-- A classifier instance (R128). -/
structure Cls where
  /-- The exact-match table by slot (R137). -/
  em : KMap EmEntry := []
  /-- The learn queue, oldest first (R141). -/
  learnQ : List Learn := []
  /-- The table command that runs (R152). -/
  pending : Option TblPending := none
  /-- A trie word of this replica has an uncorrectable error and is not rewritten yet (R150). -/
  trieBad : Bool := false
  /-- A change of an LPM table that this instance has not swapped in yet: the family, and its old prefixes (R149). -/
  lpmOld : Option (Nat × KMap LpmEntry) := none
  deriving DecidableEq, Repr

/-! ### Frames -/

/-- A frame in the forebay, keyed by its handle (R21). -/
structure Frame where
  /-- Ingress: port P of R79, 32 the host port, 64 + t a tributary of trunk t. -/
  ingress : Nat := 0
  /-- The tributary it came from, for a trunk (R27). -/
  trib : Nat := 0
  /-- The bytes that have arrived, from the destination address on. -/
  bytes : List Byte := []
  /-- The whole frame has arrived, and its checks passed (R98). -/
  complete : Bool := false
  /-- The frame failed after it was written: it is discarded or stomped (R98). -/
  bad : Bool := false
  /-- Receive timestamps on the four bases, and whether their island was in time-unlock (R345, R346). -/
  ts : List TimeVal := []
  unlocked : Bool := false
  /-- A learn request held until the frame is known good (R140). -/
  learn : Option Learn := none
  /-- The classifier has decided its result (R132). -/
  classified : Bool := false
  /-- Queue entries that still refer to its cells (R147). -/
  copies : Nat := 0
  /-- Slot and full PN under which a flood copy of it has been accepted (R146, R190). -/
  rxOk : Option (Nat × Nat) := none
  /-- Its cells are in the cistern; the cistern cells that hold it (R233), and its age in ms at the next sweep (R236). -/
  spilled : Bool := false
  cells : List Nat := []
  spillTime : Nat := 0
  /-- Bytes fetched back so far (R234); a quarantine has touched it (R251). -/
  staged : List Byte := []
  quarantined : Bool := false
  deriving DecidableEq, Repr

/-! ### Associations (06_associations_and_rekey.md) -/

/-- States of a key slot, transmit and receive (R172, R173). -/
inductive SlotState where
  | empty | loading | ready | current | draining | exhausted | probation | accept
  deriving DecidableEq, Repr

/-- A key slot of an association (R171, R197). -/
structure Slot where
  state : SlotState := .empty
  an : Nat := 0
  /-- ORIGIN: 0 none, 1 derived, 2 installed. -/
  origin : Nat := 0
  spi : Nat := 0
  gen : Nat := 0
  /-- NEXT_PN (transmit) or HIGH_PN (receive). -/
  pn : Nat := 0
  /-- RES_END: the first PN that may not be used yet (R182). -/
  resEnd : Nat := 0
  /-- The boundary that is requested and not recorded yet (R181, R182). -/
  resReq : Option Nat := none
  key : List Byte := []
  salt : List Byte := []
  /-- Frames dispatched under the slot that have not completed (R172). -/
  inFlight : Nat := 0
  /-- ESP: PNs inside the window that have passed, and those whose verdict is awaited (R190). -/
  seen : List Nat := []
  awaited : List Nat := []
  /-- FOLLOW candidates tried (R193); the candidate's key is derived. -/
  tried : Nat := 0
  candidate : Bool := false
  /-- The window whose DERIVE awaits this load (R195); the load belongs to an UPDATE (R382), to AUTO_NEXT (R186). -/
  cmd : Option Fn := none
  auto : Bool := false
  /-- The item of an UPDATE that waits for this load (R382, step 11); the image record whose DERIVE_AT_START it is (R198). -/
  upd : Option Nat := none
  startRec : Option Nat := none
  /-- Position of its SLOT record in the record stream, and whether the partner's JOURNALED has come (R439). -/
  recPos : Nat := 0
  journaled : Bool := false
  /-- On a standby: the state code that the active device's last SLOT record gave (R437, R439). -/
  goal : Nat := 0
  /-- B_ack (R427): the last boundary the partner acknowledged; the last RX_MARK sent or received (R441). -/
  backed : Nat := 0
  mark : Nat := 0
  deriving DecidableEq, Repr

/-- An association record (R196). -/
structure AssocRec where
  kind : Nat := 0
  suite : Nat := 0
  port : Nat := 0
  flags : Nat := 0
  confOffset : Nat := 0
  sw : Nat := 0
  comparator : Nat := 0
  root : Nat := 0
  paired : Nat := 0
  tep : Nat := 0
  sci : Nat := 0
  ssci : Nat := 0
  replayWin : Nat := 0
  swThresh : Nat := 0
  retireUs : Nat := 0
  deriving DecidableEq, Repr

/-- An association of one direction (R167). -/
structure Assoc where
  valid : Bool := false
  /-- REMOVE has ended it and its slots still drain (R195). -/
  draining : Bool := false
  record : AssocRec := {}
  slot0 : Slot := {}
  slot1 : Slot := {}
  /-- GEN_RX (R175). -/
  genRx : Nat := 0
  /-- The instant armed by ARM_TIME (R185). -/
  armed : Option TimeVal := none
  /-- A switch trigger has been met and waits for a READY slot (R184). -/
  met : Bool := false
  /-- The slot that the running retire timer will empty (R192). -/
  retiring : Option Nat := none
  /-- An AUTO_NEXT derivation failed and is due again (R186). -/
  retryDue : Bool := false
  deriving DecidableEq, Repr

/-- A generation high-water mark (R174). -/
structure GenMark where
  root : Nat
  ctx : Nat
  gen : Nat
  deriving DecidableEq, Repr

/-- The generation journal in flash: two halves of 32-byte records, and the half in use (R179). -/
structure Journal where
  half0 : List (List Byte) := []
  half1 : List (List Byte) := []
  active : Nat := 0
  deriving DecidableEq, Repr

/-! ### Rills, dispatch and merge (07_rills.md) -/

/-- Rill states (R219). -/
inductive RillState where
  | out | gated | waking | inService | leaving | spare | faulted | test
  deriving DecidableEq, Repr

/-- A rill (R199, R219 to R229). -/
structure Rill where
  state : RillState := .out
  /-- DIR: true inbound (R225). -/
  inbound : Bool := false
  /-- STANDS_FOR (R225): the rill that `RL_8` replaces. -/
  standsFor : Option Nat := none
  /-- The fence that runs was caused by a fault (R221). -/
  fault : Bool := false
  /-- Claimed or restored: it enters service, for the rill named if it is `RL_8`, at F + 64 (R221, R224). -/
  entering : Option Nat := none
  /-- Result of the last known-answer test (R220, R224). -/
  katOk : Option Bool := none
  /-- `RL_8` fenced out by RESTORE returns to SPARE (R224). -/
  toSpare : Bool := false
  /-- The test that runs: the state that it was begun in, and how it will end (R219, R220). -/
  katRun : Option (RillState × Bool) := none
  /-- No output for 1 us with beats inside: the condition of STALL (R221, R226). -/
  stalled : Bool := false
  deriving DecidableEq, Repr

/-- Where a queue entry is on its way (R21, R213). -/
inductive Stage where
  | none | classified | queued | handoff | selected | dispatched | lost | done
  deriving DecidableEq, Repr

/-- A queue entry: one copy of a frame with its result, from classification to merge (R21, R146, R213). -/
structure Job where
  stage : Stage := .none
  /-- Forebay handle of its frame. -/
  frame : Nat := 0
  /-- Action of its result (R133). -/
  action : Nat := 0
  /-- It came from a host descriptor (R24); its function and transmit ring, and the descriptor's index (R458). -/
  host : Option (Fn × Nat × Nat) := none
  /-- COOKIE of its descriptor (R462). -/
  cookie : List Byte := []
  /-- Punt class of a punted frame (R131). -/
  punt : Nat := 0
  assoc : Nat := 0
  /-- Egress: port P of R79, 32 the host port, 64 + t trunk t. -/
  egress : Nat := 0
  /-- Tributary, for a trunk egress. -/
  trib : Nat := 0
  sub : Nat := 0
  cls : Nat := 0
  /-- Selected in the committed pass (R267). -/
  committed : Bool := false
  /-- Bytes that its queue and its debits count for it (R266, R276). -/
  size : Nat := 0
  /-- LENGTH with which it leaves (R311), set at selection. -/
  length : Nat := 0
  /-- Reorder context: tag, rill, key slot, PN (R211). -/
  tag : Nat := 0
  rill : Nat := 0
  slot : Nat := 0
  pn : Nat := 0
  /-- Generation of its key slot at dispatch (R193, R202). -/
  gen : Nat := 0
  /-- Record, key, salt, AN and SPI latched with its key slot at the first beat, and whether the slot was in PROBATION, whose frames
  are decrypted as strict (R193, R202, R216). -/
  under : AssocRec := {}
  strict : Bool := false
  an : Nat := 0
  spi : Nat := 0
  key : List Byte := []
  salt : List Byte := []
  /-- Beats fed to the rill, beats that have left it, beats released by merge (R212, R214). -/
  fed : Nat := 0
  left : Nat := 0
  released : Nat := 0
  /-- When its last beat left the rill (R215). -/
  leftAt : Option TimeVal := none
  /-- It is preempted and waits to resume; the byte positions at which it has been cut, newest first (R101). -/
  parked : Bool := false
  cuts : List Nat := []
  /-- Dropped without output: merge gets a skip token (R214). -/
  skip : Bool := false
  /-- The whole output, once the last beat has left, and the verdict (R215, R217). -/
  output : List Byte := []
  verdict : Option Bool := none
  /-- It leaves stomped (R218). -/
  stomp : Bool := false
  /-- Its ICV failed under VALIDATE_CHECK 1 (R191). -/
  checkFail : Bool := false
  /-- It was cut short before its last beat: truncation, integrity drop (R98, R463). -/
  cut : Bool := false
  /-- Its timestamp was taken in an island in time-unlock (R345). -/
  unlocked : Bool := false
  /-- The tunnel endpoint entry and identification read at the first beat (R206, R210). -/
  tep : List Byte := []
  ident : Nat := 0
  /-- A host frame's end: STATUS and DETAIL of its completion (R462). -/
  fate : Option (Status × Nat) := none
  /-- The completion has reached the dispatcher; merge is done with it (R213, R215). -/
  completed : Bool := false
  merged : Bool := false
  /-- Launch time L on its base, if any (R355). -/
  launch : Option (Nat × TimeVal) := none
  /-- It waits for launch and its queue is eligible (R355). -/
  eligible : Bool := false
  /-- Transmit timestamp to be reported; one-step patch due (R346, R351). -/
  txTs : Option TimeVal := none
  oneStep : Bool := false
  /-- Place in its queue (R267). -/
  order : Nat := 0
  /-- Late for launch; discarded by merge for it (R356); held by a gate and counted (R353). -/
  late : Bool := false
  discard : Bool := false
  gateHeld : Bool := false
  /-- Capture its departure time on the base of `tsBase` (R462). -/
  tsCapture : Bool := false
  tsBase : Nat := 0
  deriving DecidableEq, Repr

/-! ### Keys (13_keys_and_attestation.md) -/

/-- An owner key (R365 to R368), keyed by its handle. -/
structure OwnerKey where
  typ : Nat := 0
  dest : Nat := 0
  param : Nat := 0
  /-- GENERATION (R368). -/
  gen : Nat := 0
  /-- ORIGIN: 1 generated, 2 installed (R368). -/
  origin : Nat := 0
  persist : Bool := false
  material : List Byte := []
  deriving DecidableEq, Repr

/-- The key log in flash: two copies of records, oldest first, and the copy in use (R372, R373). -/
structure KeyLog where
  copyA : List (List Byte) := []
  copyB : List (List Byte) := []
  active : Nat := 0
  deriving DecidableEq, Repr

/-- The epoch fuses (R375): those blown and those that failed to blow, by index; they outlive every reset. -/
structure Fuses where
  blown : List Nat := []
  failed : List Nat := []
  /-- The update-exhausted condition (R377). -/
  exhausted : Bool := false
  deriving DecidableEq, Repr

/-- A short-Weierstrass curve y^2 = x^3 + ax + b over a prime field (R394, R395): P_BITS, p, a, b, G, n, h. -/
structure Curve where
  bits : Nat := 0
  p : Nat := 0
  a : Nat := 0
  b : Nat := 0
  gx : Nat := 0
  gy : Nat := 0
  n : Nat := 0
  h : Nat := 0
  deriving DecidableEq, Repr

/-- How a job of the public-key engine ended: status, DETAIL, its result, EXEC_US, WAIT_US (R399). -/
structure PkeEnd where
  status : Status
  detail : Nat
  result : List Byte
  exec : Nat
  wait : Nat
  deriving DecidableEq, Repr

/-- A job of the public-key engine, keyed by its ID: its descriptor and its input (R397). -/
structure PkeJob where
  op : Nat := 0
  prio : Nat := 0
  curve : Nat := 0
  variant : Nat := 0
  handle : Nat := 0
  input : List Byte := []
  outAddr : Nat := 0
  cplAddr : Nat := 0
  tag : List Byte := []
  param : Nat := 0
  /-- Order of acceptance; checkpoints reached, 64 us each (R405). -/
  order : Nat := 0
  ran : Nat := 0
  suspended : Bool := false
  /-- An abort waits for its next checkpoint or its end (R407). -/
  aborting : Bool := false
  /-- It has ended during an MC restart, and its completion is held (R408). -/
  ended : Option PkeEnd := none
  deriving DecidableEq, Repr

/-- The public-key engine (R392 to R411). -/
structure Pke where
  jobs : KMap PkeJob := []
  /-- The running job; it pauses for duty (R406). -/
  run : Option Nat := none
  paused : Bool := false
  /-- Order of the next job accepted. -/
  order : Nat := 1
  /-- Loaded curves by slot (R396). -/
  curves : KMap Curve := []
  /-- PKE_DONE (R410). -/
  done : Nat := 0
  deriving DecidableEq, Repr

/-- The identity that this start has derived (R383, R384). -/
structure Ident where
  /-- FW_MEAS and IMAGE_MEAS; empty stands for 48 zero bytes. -/
  fwMeas : List Byte := []
  imageMeas : List Byte := []
  /-- The alias keys and the agreement keys are present. -/
  alias_ : Bool := false
  agree : Bool := false
  /-- The endorsement's signatures (R387). -/
  endorseEc : List Byte := []
  endorseMl : List Byte := []
  deriving DecidableEq, Repr

/-- Items held in the Well (R375, R378, R519), beside its registers and its tamper items. -/
structure Well where
  /-- The Well is initialised: it holds a secret (R378, R519). -/
  ok : Bool := false
  secret : List Byte := []
  /-- W of the update counter (R375), KSEQ (R374), JSEQ (R179). -/
  w : Nat := 0
  kseq : Nat := 0
  jseq : Nat := 0
  /-- The curve checks by slot: 8 bytes (R396). -/
  curves : KMap (List Byte) := []
  /-- The KEYS_LOST mark (R378). -/
  keysLost : Bool := false
  deriving DecidableEq, Repr

/-! ### The pair (16_pair_and_aqueduct.md) -/

/-- Partner states (R427). -/
inductive Partner where
  | none | syncing | ready | lost | ousted | active
  deriving DecidableEq, Repr

/-- Roles (R437, R452). -/
inductive Role where
  | none | active | syncing | ready
  deriving DecidableEq, Repr

/-- Link states of the Aqueduct (R434, R436, R451). -/
inductive Train where
  | down | clock | deskew | config | auth | up | deep | failed
  deriving DecidableEq, Repr

/-- A key of a SLOT_KEY item that a standby holds until the active device's SLOT record names it (R439). -/
structure HeldKey where
  rx : Bool := false
  assoc : Nat := 0
  an : Nat := 0
  spi : Nat := 0
  gen : Nat := 0
  key : List Byte := []
  salt : List Byte := []
  deriving DecidableEq, Repr

/-- A transmit lane of the Aqueduct (R431): what its scrambler holds, the last bit sent, and how many equal bits in a row. -/
structure AqLane where
  scr : BitVec 58 := 0
  last : Bool := false
  run : Nat := 0
  deriving DecidableEq, Repr

/-- The redundant pair and its link (R426 to R449). -/
structure Pair where
  /-- The transmit lanes of the link, and the lane of the next block or byte (R431). -/
  line : List AqLane := []
  place : Nat := 0
  role : Role := .none
  partner : Partner := .none
  /-- PAIR_KEY, PARTNER_ID and NEG_WAIT_MS of the PAIR record (R450, R452). -/
  pairKey : Nat := 0
  partnerId : List Byte := []
  negWait : Nat := 5000
  /-- The `ACTIVE` output and the filtered `PEER_ACTIVE` and `PEER_HANDOVER` inputs (R426). -/
  activeOut : Bool := false
  peerActive : Bool := false
  peerHandover : Bool := false
  /-- TAKE_GEN and LAST_CAUSE (R446, R452). -/
  takeGen : Nat := 0
  lastCause : Nat := 0
  /-- HB records sent (R437). -/
  hbCount : Nat := 0
  /-- DETACHED is sent in HB records; DETACHED has been received in this session (R428). -/
  detached : Bool := false
  wasDetached : Bool := false
  train : Train := .down
  /-- Receive lanes that are locked (R451). -/
  lanes : Nat := 0
  /-- Directions asleep (R436). -/
  txSleep : Bool := false
  rxSleep : Bool := false
  /-- Round trip measured at training (R435). -/
  rtt : Nat := 0
  /-- Own nonce and the partner's, and its identity digest, of the training (R432, R433). -/
  nonce : List Byte := []
  peerNonce : List Byte := []
  peerId : List Byte := []
  /-- Agreeing CONFIG frames in a row, and the last one (R434). -/
  agreeing : Nat := 0
  lastConfig : List Byte := []
  /-- PREFER and DEV_STATE of the partner as its CONFIG frames gave them, and ROLE as its last HB gave it. -/
  peerPrefer : Nat := 0
  peerState : Nat := 0
  peerRole : Nat := 0
  /-- Session keys of the two directions (R433). -/
  keyTx : List Byte := []
  keyRx : List Byte := []
  /-- SEQ of the next frame sent, and tag failures in a row (R432). -/
  seqTx : Nat := 1
  tagFails : Nat := 0
  /-- Position of the first record of `queue`, the records not yet acknowledged, and how many of them were sent
  (R435). -/
  base : Nat := 0
  queue : List (List Byte) := []
  sent : Nat := 0
  /-- Next record position expected from the partner (R435). -/
  expected : Nat := 0
  /-- The standby's resynchronisation: SNAP_BEGIN seen, SNAP_END applied (R440). -/
  snapping : Bool := false
  synced : Bool := false
  /-- Installed keys that wait for their SLOT record (R439). -/
  heldKeys : List HeldKey := []
  /-- Diagnoses failing now, as PAI_DIAG numbers them (R443). -/
  faults : List Nat := []
  /-- A take-over runs its 256 cycles (R446); a give-up has not reached its discard deadline (R444). -/
  taking : Bool := false
  givingUp : Bool := false
  deriving DecidableEq, Repr

/-! ### Host interface (17_host_and_slices.md) -/

/-- Slice states (R467). -/
inductive SliceState where
  | unbound | active | fenced | quiesced
  deriving DecidableEq, Repr

/-- A slice (R456, R457, R467). -/
structure HostSlice where
  state : SliceState := .unbound
  pasid : Nat := 0
  /-- It was fenced by FLR or Bus Master Enable: it makes no memory request (R469). -/
  silent : Bool := false
  deriving DecidableEq, Repr

/-- A ring pair (R461, R465). -/
structure Ring where
  /-- Index of the next transmit completion to write, and the index at which the queue was enabled (R461). -/
  txDone : Nat := 0
  txStart : Nat := 0
  /-- Index at which the receive queue was enabled. -/
  rxStart : Nat := 0
  /-- Completions written since the vector last fired (R465). -/
  unsignalled : Nat := 0
  deriving DecidableEq, Repr

/-! ### Scheduler and Sluice governor (09_scheduler_and_sluice.md) -/

/-- The scheduler's working state. Buckets are in units of 1/2000 byte, so that every refill is exact (R269). -/
structure Sched where
  /-- Number of the next queue entry admitted: queues are first in, first out. -/
  order : Nat := 0
  /-- Pending copies of words of SUB, SVC and PORT entries, by address (R270). -/
  held : KMap (Option Word) := []
  /-- Words of SVC and PORT entries that take effect at the node's next refill, by address (R272). -/
  due : KMap (Option Word) := []
  /-- Buckets C and P of subscribers, S of services, L of port nodes, and ceilings by direction * 4 + class. -/
  subC : KMap Int := []
  subP : KMap Int := []
  svcS : KMap Int := []
  nodeL : KMap Int := []
  ceil : KMap Int := []
  /-- Deficits of queues (R264); by subscriber, how far its turn is past class 5, and whether the turn has had its
  quantum. -/
  deficit : KMap Int := []
  drrTurn : KMap Nat := []
  drrFed : KMap Bool := []
  /-- Last subscriber served, by service: committed and excess pass (R264). -/
  lastC : KMap Nat := []
  lastE : KMap Nat := []
  /-- Finish tags of services, of the host handoffs (1024 + node), and virtual times of nodes (R264, R269). -/
  finish : KMap Nat := []
  vtime : KMap Nat := []
  deriving DecidableEq, Repr

/-- The Sluice governor (R282 to R290). -/
structure Sluice where
  /-- Shed position p and committed factor g (R284). -/
  p : Nat := 0
  g : Nat := 16
  hardOn : Bool := false
  /-- Microseconds of quiet; since g last fell; since g last rose (R284). -/
  quiet : Nat := 0
  sinceFall : Nat := 0
  sinceRise : Nat := 0
  /-- Highest p, and hard_on, seen since the last slow loop (R290). -/
  pMax : Nat := 0
  hardSeen : Bool := false
  /-- How long each sensor has differed from the median, in microseconds, and the readings of the last tick (R283). -/
  deviant : KMap Nat := []
  readings : List Int := []
  /-- Telemetry was lost at the last tick (R283). -/
  blind : Bool := false
  /-- ECL_MAX as the slow loop last converted it, by class (R282). -/
  ecl : KMap (Option Nat) := []
  /-- Beats dispatched since the last tick, outbound and inbound (R288). -/
  beatsOut : Nat := 0
  beatsIn : Nat := 0
  /-- Ticks in a row that the target has stayed below the rills in service, outbound and inbound (R288). -/
  lowOut : Nat := 0
  lowIn : Nat := 0
  deriving DecidableEq, Repr

/-! ### Time (12_time.md) -/

/-- A step of a base that waits for its instant (R342). -/
structure StepReq where
  pending : Bool := false
  amount : Int := 0
  instant : TimeVal := {}
  deriving DecidableEq, Repr

/-- A gate list (R352): entries of open classes and interval, cycle, base time, time base. -/
structure GateList where
  entries : List (Nat × Nat) := []
  cycle : Nat := 0
  base : TimeVal := {}
  tb : Nat := 0
  deriving DecidableEq, Repr

/-- The gate lists of a port: the one that runs, and the one that takes over at its first cycle start (R352). -/
structure Gate where
  running : Option GateList := none
  next : Option GateList := none
  /-- GATE_STEP (R344). -/
  steps : Nat := 0
  deriving DecidableEq, Repr

/-! ### Cascade trunks (10_cascade_format.md, 11_cascade_maintenance.md) -/

/-- Delineation of a frame-mapped tributary (R312). -/
inductive Delin where
  | hunt | presync | sync
  deriving DecidableEq, Repr

/-- A tributary as its endpoint holds it. -/
structure Trib where
  /-- The stream that waits in the mapping buffer: delimiters and frames (R310, R311). -/
  buffer : List Byte := []
  /-- What is left to send of an idle delimiter that has begun (R310). -/
  idle : List Byte := []
  /-- Bits of a transparent tributary's stream sent and delivered, modulo the period of its markers (R328, R477). -/
  bitsSent : Nat := 0
  bitsGot : Nat := 0
  /-- Delineation and the received bytes not yet delineated (R312). -/
  delin : Delin := .hunt
  rest : List Byte := []
  /-- Accepted frames in a row out of SYNC; accepted frames in a row with TRIB_FAIL set and clear (R325). -/
  outOfSync : Nat := 0
  failSet : Nat := 0
  failClear : Nat := 0
  /-- dLOD, dSLIP, rFAIL are present (R325). -/
  lod : Bool := false
  slip : Bool := false
  rfail : Bool := false
  /-- The last decided J (R315). -/
  lastJ : Nat := 128
  deriving DecidableEq, Repr

/-- A second that is held (R334). -/
structure HeldSec where
  start : Nat := 0
  es : Bool := false
  ses : Bool := false
  deriving DecidableEq, Repr

/-- A bin of performance monitoring (R335, R338). -/
structure Bin where
  start : Nat := 0
  es : Nat := 0
  ses : Nat := 0
  uas : Nat := 0
  /-- Seconds committed to it. -/
  seconds : Nat := 0
  valid : Bool := false
  /-- A cause of SUSPECT has occurred in it. -/
  disturbed : Bool := false
  deriving DecidableEq, Repr

/-- The transmit side of one lane of a trunk (R297): what its scrambler holds, and the bits that wait for a whole codeword. -/
structure Coder where
  scr : BitVec 58 := 0
  bits : List Bool := []
  deriving DecidableEq, Repr

/-- A trunk endpoint. -/
structure Trunk where
  /-- The trunk has its first epoch confirmed and sends frames (R304). -/
  running : Bool := false
  /-- Transmit epoch, its key, and the FC of the next frame (R302, R303). -/
  txEpoch : Nat := 0
  txKey : List Byte := []
  txFc : Nat := 0
  /-- An epoch requested from the journal (R304), the position of its CAS_TX record, and the partner's JOURNALED. -/
  asked : Option Nat := none
  recPos : Nat := 0
  journaled : Bool := false
  /-- A failed switch is due again after 1 s (R304). -/
  retryDue : Bool := false
  /-- The epoch confirmed for announcement, and EPOCH_CD; 17 before the first multiframe boundary (R306). -/
  nextEpoch : Nat := 0
  countdown : Nat := 0
  /-- Transmit MAP_SEL; a map switch: 0 none, 1 waits for a multiframe, 2 announced (R309). -/
  txMap : Nat := 0
  mapPend : Nat := 0
  /-- The message going out on OPS, its next FSEQ, and whether its first fragment is out (R331). -/
  opsOut : List Byte := []
  opsSeq : Nat := 0
  opsBegun : Bool := false
  /-- Non-accepted frames since the last transmitted frame (R329). -/
  rei : Nat := 0
  /-- FA_STATE, and the count of PRESYNC, CONFIRM or errored FAWs in ALIGNED (R317). -/
  fa : Nat := 0
  faCount : Nat := 0
  /-- Lanes locked and deskewed (R321). -/
  deskewed : Bool := false
  /-- Multiframe alignment: gained, last MFC, expected MFC, wrong in a row (R318). -/
  mfSync : Bool := false
  mfLast : Option Nat := none
  mfWrong : Nat := 0
  /-- dLOM is present (R324). -/
  lom : Bool := false
  /-- Last accepted pair (R307); false before the first accepted frame since start. -/
  rxEpoch : Nat := 0
  rxFc : Nat := 0
  rxAny : Bool := false
  /-- The last FC mark sent to the partner (R441). -/
  fcMark : Nat := 0
  /-- Receive keys held, by epoch, and the epoch whose key is being derived (R307). -/
  rxKeys : List (Nat × List Byte) := []
  pendingKey : Option Nat := none
  /-- MAP_SEL of the last accepted frame; MAP_NEXT of the accepted frames of this multiframe and of the last one. -/
  rxMap : Nat := 0
  mapNextNow : List Nat := []
  mapNextLast : List Nat := []
  /-- Counts of dAUTH and dEPOCH (R324): non-accepted in a row, a tag failure among them, accepted in a row. -/
  refused : Nat := 0
  tagAmong : Bool := false
  accepted : Nat := 0
  auth : Bool := false
  epochDef : Bool := false
  /-- RDI and RDI_EPOCH in accepted frames in a row (R326): set and clear. -/
  rdiSet : Nat := 0
  rdiClear : Nat := 0
  rdiEpochSet : Nat := 0
  rdiEpochClear : Nat := 0
  rdi : Bool := false
  rdiEpoch : Bool := false
  tribs : KMap Trib := []
  /-- The message being received on OPS: its bytes, the last FSEQ, and whether one is in progress (R331). -/
  opsIn : List Byte := []
  opsInSeq : Nat := 256
  opsInOpen : Bool := false
  /-- Sum of received REI (R337). -/
  feEf : Nat := 0
  /-- This second: errored frames, uncorrectable codewords, a trunk defect, dLOS, dLOL or dLOF (R333). -/
  ef : Nat := 0
  uncorr : Bool := false
  anyDef : Bool := false
  severe : Bool := false
  second : Nat := 0
  /-- Held seconds, oldest first; unavailable (R334). -/
  held : List HeldSec := []
  unavail : Bool := false
  /-- 15-minute bins, newest first, and 24-hour totals, current first (R335). -/
  bins : List Bin := []
  days : List Bin := []
  /-- A write of CAS_PM_SEL has frozen the PM registers (R338). -/
  frozen : Bool := false
  /-- Its lanes' coders; the index of the next chunk modulo 256 W; MCNT of the next marker (R297, R298). -/
  coders : List Coder := []
  chunk : Nat := 0
  mcnt : Nat := 0
  deriving DecidableEq, Repr

/-! ### Cistern (08_cistern.md) -/

/-- Key ID states (R247). -/
inductive KeyIdState where
  | empty | active | retiring
  deriving DecidableEq, Repr

/-- A key ID (R240, R247): its owner, the serial of its current key, K and H. -/
structure KeyId where
  state : KeyIdState := .empty
  owner : Nat := 0
  serial : Nat := 0
  key : List Byte := []
  hash : Nat := 0
  deriving DecidableEq, Repr

/-- Region states (R249). -/
inductive RegionState where
  | unassigned | active | draining | quarantined | reinit
  deriving DecidableEq, Repr

/-- A region of 65 536 cells (R246, R248, R249), with the quarantined nodes in it: level and index (R251). -/
structure Region where
  state : RegionState := .unassigned
  owner : Nat := 0
  keyId : Nat := 0
  born : Nat := 0
  quar : List (Nat × Nat) := []
  deriving DecidableEq, Repr

/-- The cistern (R233 to R263). Counters are keyed by level * 2^32 + index: level 0 is that of data blocks, level k + 1
that of nodes of level k. -/
structure Cistern where
  /-- CIS_STATUS.STATE (R258): 0 INIT, 1 READY, 2 FAILED. -/
  state : Nat := 0
  /-- KEY_SERIAL (R240). -/
  serial : Nat := 0
  /-- K_T and H_T (R240). -/
  treeKey : List Byte := []
  treeHash : Nat := 0
  keyIds : KMap KeyId := []
  regions : KMap Region := []
  /-- The frame that holds each allocated cell. -/
  cells : KMap Nat := []
  /-- Cells of failed rows, off the free list until the next start (R254). -/
  outCells : List Nat := []
  /-- Major counters by node, minor counters by unit (R239); the root's counters by level-3 node. -/
  major : KMap Nat := []
  minor : KMap Nat := []
  root : KMap Nat := []
  /-- Dirty nodes of the counter cache (R243). -/
  dirty : List Nat := []
  /-- Dirty nodes of quarantined subtrees, out of the cache and kept for REINIT (R251). -/
  kept : List Nat := []
  /-- Quarantined level-3 nodes that no region has reinitialised yet (R249, R251). -/
  lostTop : List Nat := []
  /-- The stacks: 64 ciphertext bytes and their tag by block; node tags by node (R237, R242). A node without an entry holds the tag of the
  initialisation (R255). -/
  stack : KMap (List Byte) := []
  nodeTags : KMap (Option Nat) := []
  /-- Blocks whose rows are queued for repair (R250). -/
  repairs : List Nat := []
  /-- Rows of each stack that failed repair (R252). -/
  failedRows : KMap Nat := []
  deriving DecidableEq, Repr

/-! ### Counters (18_counters.md) -/

/-- What a FREEZE latches (R481): native counters and wrap bits, legacy counters and WRAP bits, the CNT_BW registers. -/
structure Latch where
  counters : KMap Nat := []
  wraps : KMap Bool := []
  legacy : KMap Nat := []
  legacyWraps : KMap Bool := []
  windows : KMap Word := []
  deriving DecidableEq, Repr

/-- A snapshot image that is being written (R478, R479): its header fields, what the banks held, and its buffer. -/
structure Image where
  commanded : Bool := false
  base : Nat := 0
  instant : TimeVal := {}
  valid : Bool := false
  islands : Nat := 0
  skipped : Nat := 0
  counters : KMap Nat := []
  wraps : KMap Bool := []
  toB : Bool := false
  deriving DecidableEq, Repr

/-- The counter collector (R479 to R482). -/
structure Snap where
  /-- The commanded instant that is pending: OP, base and time (R482). -/
  pending : Option (Nat × Nat × TimeVal) := none
  image : Option Image := none
  /-- SEQ of the last image written; instants since then without an image (R478). -/
  seq : Nat := 0
  skipped : Nat := 0
  /-- The next image goes to buffer B (R479). -/
  toB : Bool := false
  frozen : Option Latch := none
  /-- High words latched by reads of low words, by the address of the high register (R485, R486, R488). -/
  highs : KMap Word := []
  deriving DecidableEq, Repr

/-! ### Tamper monitor (15_tamper_and_well.md) -/

/-- The tamper monitor (R412 to R425). What the Well holds of it outlives every reset (R519). -/
structure Tamper where
  /-- TMP_FLAGS.SOURCE and HALT_HOLD (R419, R425). -/
  flags : Nat := 0
  haltHold : Bool := false
  /-- TMP_STATUS: ALERT, IN_FORCE, TMP_PENDING, TAMPER_MAX (R425). -/
  alert : Bool := false
  inForce : Nat := 0
  pendingLvl : Nat := 0
  max : Nat := 0
  /-- Sources present now (TMP_RAW). -/
  raw : Nat := 0
  /-- The response whose key clearing runs (R417). -/
  clearing : Nat := 0
  /-- The 64 newest log entries of 16 bytes, newest first, and their count (R420). -/
  log : List (List Byte) := []
  logCount : Nat := 0
  /-- The policy in force, as the TAMPER_POLICY record spells it; empty stands for the default (R424). -/
  policy : List Byte := []
  /-- Service window: 0 none, 1 cell A, 2 cell B; the cell has been removed in it (R422). -/
  window : Nat := 0
  removed : Bool := false
  /-- Duration of the window that was opened last, in s. -/
  windowSecs : Nat := 0
  /-- Cell samples in a row: of a band, by cell (1 removed, 2 reversed, 3 low); of a good cell (R412, R422). -/
  bandA : Nat := 0
  runA : Nat := 0
  bandB : Nat := 0
  runB : Nat := 0
  /-- Readings in a row above TEMP_HIGH, below TEMP_LOW (R412). -/
  hot : Nat := 0
  cold : Nat := 0
  /-- Last cell voltages in mV, and the Well sensor's temperature in C, as unsigned 16- and 8-bit numbers. -/
  cellA : Nat := 0
  cellB : Nat := 0
  temp : Nat := 0
  /-- A ZEROISE_ARM is pending (R425). -/
  armed : Bool := false
  /-- The SMBus arm (R423). -/
  smbArmed : Bool := false
  deriving DecidableEq, Repr

/-! ### The whole state -/

/-- Faults: reasons why the block stops. The spec gives none: every row has an effect, and every error of a command is a
status, a flag or an alarm. The one constructor is raised by no meaning. -/
inductive Fault where
  /-- Raised by no meaning (safe: a stop would lose behaviour, never add any). -/
  | unreached
  deriving DecidableEq, Repr

/-- Refusals. -/
inductive Refusal where
  /-- Raised by `exec` for a command that has no meaning yet (safe: it stops). -/
  | notModelled (mnemonic : String)
  deriving DecidableEq, Repr

/-- The state of the block. -/
structure State where
  /-- Commands that wait, first in, first out: the queue of the block model. -/
  pending : List Instr := []
  /-- The model's own log of outputs, newest first. -/
  out : List Out := []
  /-- The model's own counter of free values used. -/
  freeCtr : Nat := 0
  /-- The registers that hold something else than their reset value, by address (R7, R489). -/
  regs : KMap Word := []
  /-- Native counters by word index (R477), and the word indices whose wrap bit is set (R476). -/
  counters : KMap Nat := []
  wraps : KMap Bool := []
  /-- Legacy counters and their WRAP bits (R485). -/
  legacy : KMap Nat := []
  legacyWraps : KMap Bool := []
  /-- Events each arm has counted (R484). -/
  armed : KMap Nat := []
  dev : Dev := {}
  img : ImgWrite := {}
  txn : Txn := {}
  /-- Effective basic-parameter values by PARAM_ID (R73, R77). -/
  basic : KMap Nat := []
  /-- User offsets of calibration items (R78). -/
  calUser : KMap Int := []
  /-- Pairings with BYPASS_PERMIT (R65), as a mask. -/
  bypassPermit : Nat := 0
  /-- Owner byte of each forebay partition (R65). -/
  partition : KMap Nat := []
  /-- Personality of each port pairing (R40). -/
  personality : KMap Personality := []
  ports : KMap Port := []
  lanes : KMap Lane := []
  spares : KMap Spare := []
  /-- The SPARE_CMD release that runs, by side: spare and lane (R114, R126). -/
  releasing : KMap (Option (Nat × Nat)) := []
  /-- Received ASKs that named a lane of no port or trunk, by side (0 client, 1 line). -/
  askIgnored : KMap Nat := []
  cls : KMap Cls := []
  /-- LPM prefixes by prefix slot, one set in every replica (R148, R149): IPv4, IPv6. -/
  lpm4 : KMap LpmEntry := []
  lpm6 : KMap LpmEntry := []
  /-- Frames in the forebay by handle, and the next handle. -/
  frames : KMap Frame := []
  nextFrame : Nat := 1
  /-- Queue entries by number, and the next number. -/
  jobs : KMap Job := []
  nextJob : Nat := 1
  txAssocs : KMap Assoc := []
  rxAssocs : KMap Assoc := []
  /-- GEN_HIGH of every pair ever used (R174, R179). -/
  genHigh : List GenMark := []
  journal : Journal := {}
  rills : KMap Rill := []
  /-- Next tag to assign and next tag to release, by egress (R211, R214). -/
  nextTag : KMap Nat := []
  expTag : KMap Nat := []
  /-- TEP entries of 64 bytes, and the IPv4 identification counter of each (R206, R209). -/
  teps : KMap (List Byte) := []
  /-- A TEP WRITE or CLEAR that waits for the frames dispatched under its entry: index and new entry (R210). -/
  tepPending : Option (Nat × List Byte) := none
  tepIdent : KMap Nat := []
  tmp : Tamper := {}
  /-- The four time bases (R340). -/
  bases : KMap TimeVal := []
  /-- Local counters of the islands in time-unlock, at 4 i + b for bit i of TIM_UNLOCK and base b (R18); a locked island's counters
  are the bases. -/
  localTime : KMap LocalTime := []
  /-- Owner keys by handle, the key log, the epoch fuses (R365, R372, R375). -/
  owner : KMap OwnerKey := []
  keyLog : KeyLog := {}
  fuses : Fuses := {}
  well : Well := {}
  pair : Pair := {}
  /-- Slices by number; ring pairs, the physical function's at 0 to 15, slice s's from 16 (s + 1) (R456, R461). -/
  slices : KMap HostSlice := []
  rings : KMap Ring := []
  sched : Sched := {}
  sluice : Sluice := {}
  /-- Steps of the bases; one-shot comparators that have fired; captures not read yet; `PPS_OUT` pins that are high. -/
  steps : KMap StepReq := []
  cmpDone : KMap Bool := []
  captured : KMap Bool := []
  ppsHigh : KMap Bool := []
  gates : KMap Gate := []
  /-- Octets received and sent by each port at the last bandwidth boundary (R483). -/
  bwRx : KMap Nat := []
  bwTx : KMap Nat := []
  trunks : KMap Trunk := []
  cistern : Cistern := {}
  snap : Snap := {}
  /-- The public-key engine, the identity of this start, LOCAL_OPS (R389), and a DRBG that a health test has stopped (R369). -/
  pke : Pke := {}
  ident : Ident := {}
  localOps : Nat := 0
  drbgDown : Bool := false
  /-- Slots A and B of the flash (R61): what was programmed since the last erase; empty is erased. They outlive every reset. -/
  flashA : List Byte := []
  flashB : List Byte := []
  deriving DecidableEq, Repr

/-- The block right after reset: every field at its reset value, as declared above. -/
def State.reset : State := {}

end Sys2Proof.Machine
end

