-- ==== Sys2Proof/Machine/Ops.lean ====
section
/-! DEFINITION. The named operations over the state: registers and fields, the units of a kind by number, free values,
status codes, the log of outputs, and interrupts. -/

namespace Sys2Proof.Machine

/-- The answer of a meaning. -/
abbrev Res := Host.Outcome State Fault Refusal

/-! ### Registers -/

/-- What register `a` holds (R7); an unlisted one holds its reset value. -/
def State.reg (s : State) (a : Nat) : Word := kget (resetVal a) s.regs a

/-- Register `a` given a value. -/
def State.setReg (s : State) (a : Nat) (v : Word) : State := { s with regs := kset (resetVal a) s.regs a v }

/-- The mask of a field. -/
def Fld.mask (f : Fld) : Word := BitVec.ofNat 32 ((2 ^ f.len - 1) * 2 ^ f.lo)

/-- The value of a field in a word. -/
def Fld.get (f : Fld) (w : Word) : Nat := w.toNat / 2 ^ f.lo % 2 ^ f.len

/-- A word with a field given a value. -/
def Fld.put (f : Fld) (w : Word) (v : Nat) : Word :=
  (w &&& ~~~ f.mask) ||| BitVec.ofNat 32 (v % 2 ^ f.len * 2 ^ f.lo)

/-- The value of field `f` of register `a`. -/
def State.fld (s : State) (a : Nat) (f : Fld) : Nat := f.get (s.reg a)

/-- Is a one-bit field 1? -/
def State.flag (s : State) (a : Nat) (f : Fld) : Bool := s.fld a f = 1

/-- Field `f` of register `a` given a value. -/
def State.setFld (s : State) (a : Nat) (f : Fld) (v : Nat) : State := s.setReg a (f.put (s.reg a) v)

/-- The whole of two registers as one 64-bit number, low half first. -/
def State.reg64 (s : State) (lo hi : Nat) : Nat := (s.reg lo).toNat + (s.reg hi).toNat * 2 ^ 32

/-- Two registers given a 64-bit number, low half first. -/
def State.setReg64 (s : State) (lo hi : Nat) (v : Nat) : State :=
  (s.setReg lo (BitVec.ofNat 32 v)).setReg hi (BitVec.ofNat 32 (v / 2 ^ 32))

/-- The bytes of `n` words from address `a` (R159, R194). -/
def State.winBytes (s : State) (a : Nat) : Nat → List Byte
  | 0 => []
  | n + 1 => wordBytes (s.reg a) ++ s.winBytes (a + 4) n

/-- `n` words from address `a` given the bytes `l`. -/
def State.setWin (s : State) (a : Nat) (l : List Byte) : Nat → State
  | 0 => s
  | n + 1 => (s.setReg a (bytesWord l)).setWin (a + 4) (l.drop 4) n

/-! ### Status codes (R9) -/

/-- The code of a status. -/
def Status.code : Status → Nat
  | .ok => 0 | .busy => 1 | .expired => 2 | .conflict => 3 | .invalid => 4 | .denied => 5 | .exhausted => 6
  | .aborted => 7 | .integrity => 8 | .notFound => 9 | .full => 10 | .quiesceRequired => 11

/-! ### Units by number -/

def State.port (s : State) (p : Nat) : Port := kget {} s.ports p
def State.setPort (s : State) (p : Nat) (x : Port) : State := { s with ports := kset {} s.ports p x }
def State.lane (s : State) (l : Nat) : Lane := kget {} s.lanes l
def State.setLane (s : State) (l : Nat) (x : Lane) : State := { s with lanes := kset {} s.lanes l x }
def State.spare (s : State) (l : Nat) : Spare := kget {} s.spares l
def State.setSpare (s : State) (l : Nat) (x : Spare) : State := { s with spares := kset {} s.spares l x }
def State.clsOf (s : State) (g : Nat) : Cls := kget {} s.cls g
def State.setCls (s : State) (g : Nat) (x : Cls) : State := { s with cls := kset {} s.cls g x }
def State.frame (s : State) (h : Nat) : Frame := kget {} s.frames h
def State.setFrame (s : State) (h : Nat) (x : Frame) : State := { s with frames := kset {} s.frames h x }
def State.job (s : State) (j : Nat) : Job := kget {} s.jobs j
def State.setJob (s : State) (j : Nat) (x : Job) : State := { s with jobs := kset {} s.jobs j x }
def State.rill (s : State) (r : Nat) : Rill := kget {} s.rills r
def State.setRill (s : State) (r : Nat) (x : Rill) : State := { s with rills := kset {} s.rills r x }
def State.tep (s : State) (i : Nat) : List Byte := kget [] s.teps i
def State.pers (s : State) (p : Nat) : Personality := kget .none s.personality p

/-- The associations of a direction: receive if `rx`. -/
def State.assocs (s : State) (rx : Bool) : KMap Assoc := if rx then s.rxAssocs else s.txAssocs
def State.assoc (s : State) (rx : Bool) (i : Nat) : Assoc := kget {} (s.assocs rx) i
def State.setAssoc (s : State) (rx : Bool) (i : Nat) (x : Assoc) : State :=
  if rx then { s with rxAssocs := kset {} s.rxAssocs i x } else { s with txAssocs := kset {} s.txAssocs i x }

/-- A key slot of an association. -/
def Assoc.slot (a : Assoc) (k : Nat) : Slot := if k = 0 then a.slot0 else a.slot1
def Assoc.setSlot (a : Assoc) (k : Nat) (x : Slot) : Assoc := if k = 0 then { a with slot0 := x } else { a with slot1 := x }

/-! ### Free values -/

/-- A free number below `m` (the spec leaves the value open), and the state with the value used up. -/
def State.free (s : State) (m : Nat) : Nat × State :=
  (Config.freeNat s.freeCtr % m, { s with freeCtr := s.freeCtr + 1 })

/-- The state with one free value used up. -/
def State.useFree (s : State) : State := { s with freeCtr := s.freeCtr + 1 }

/-- The next free string of `n` bytes. -/
def State.freeBytes (s : State) (n : Nat) : List Byte := (List.range n).map (Config.freeByte s.freeCtr)

/-! ### Outputs and interrupts -/

/-- An output put in the log. -/
def State.emit (s : State) (o : Out) : State := { s with out := o :: s.out }

/-- The PASID prefix of a memory request made for a function: a slice's bound PASID, none for the physical function (R455). -/
def State.pasidOf (s : State) (fn : Fn) : Option Nat :=
  match fn with
  | .pf => none
  | .vf k => some (kget {} s.slices k).pasid

/-- A memory write for a function; `data`: host-memory data, not a completion, which never sets Relaxed Ordering (R455). -/
def State.dmaWrite (s : State) (fn : Fn) (data : Bool) (addr : Nat) (l : List Byte) : Out := .dma fn (s.pasidOf fn) data addr l

/-- A memory read for a function (R455). -/
def State.dmaRead (s : State) (fn : Fn) (addr size : Nat) : Out := .dmaRead fn (s.pasidOf fn) addr size

/-- MSI-X control word and pending word of a vector (R464, R491). -/
def msixCtrl (fn : Fn) (v : Nat) : Nat :=
  match fn with
  | .pf => R.PF_MSIX_CTRL v
  | .vf k => R.SL_MSIX_CTRL k v

def msixPba (fn : Fn) : Nat :=
  match fn with
  | .pf => R.PF_MSIX_PBA 0
  | .vf k => R.SL_MSIX_PBA k 0

/-- A vector fires: a message, or its pending bit while it is masked (R464, R465). -/
def State.interrupt (s : State) (fn : Fn) (v : Nat) : State :=
  if (s.reg (msixCtrl fn v)).getLsbD 0 then s.setFld (msixPba fn) ⟨v, 1⟩ 1 else s.emit (.msix fn v)

/-- An alarm bit is set; a bit that was 0 raises the physical function's vector 0 (R464). -/
def State.alarm (s : State) (a : Nat) (f : Fld) : State :=
  if s.flag a f then s else (s.setFld a f 1).interrupt .pf 0

/-! ### Errors of register accesses (R5, R37, R490, R492) -/

/-- The offset in its function's BAR0 of an access to address `a`. -/
def barOffset (a : Nat) : Nat := if 0x10000000 ≤ a then (a - 0x10000000) % 0x200000 else a

/-- A GLB_ERR bit is set by an access at `a`; GLB_ERR_ADDR keeps the offset of the access that set a bit while all of
GLB_ERR read 0 (R492). -/
def State.raiseErr (s : State) (f : Fld) (a : Nat) : State :=
  (if s.reg R.GLB_ERR = 0 then s.setFld R.GLB_ERR_ADDR F.GLB_ERR_ADDR_OFFSET (barOffset a) else s).setFld R.GLB_ERR f 1

end Sys2Proof.Machine
end

