-- ==== Sys2Proof/Machine/Flags.lean ====
section
/-! DEFINITION. Native counters, legacy counters and event arms (R476, R477, R484, R485). -/

namespace Sys2Proof.Machine

/-- The word index of a counter: its byte offset in the snapshot image divided by 8 (R477). -/
def Ctr.index : Ctr → Nat
  | .dev j => 0x100 / 8 + j
  | .host j => 0x200 / 8 + j
  | .cis j => 0x280 / 8 + j
  | .ril r j => 0x300 / 8 + 8 * r + j
  | .cls g j => 0x600 / 8 + 32 * g + j
  | .cas t j => 0x1000 / 8 + 160 * t + j
  | .port p j => 0x3000 / 8 + 32 * p + j
  | .slice k j => 0x5000 / 8 + 16 * k + j
  | .sch u j => 0x10000 / 8 + 4 * u + j
  | .txsa a j => 0x100000 / 8 + 8 * a + j
  | .rxsa a j => 0x200000 / 8 + 8 * a + j

/-- The legacy counters that advance with a native counter (R485). -/
def legacyOf (s : State) : Ctr → List Nat
  | .port p 0 => if p < 16 then [p] else [64 + (p - 16)]
  | .port p 1 => if p < 16 then [16 + p] else [80 + (p - 16)]
  | .port p 16 => if p < 16 then [96 + p] else [32 + (p - 16)]
  | .port p 17 => if p < 16 then [112 + p] else [48 + (p - 16)]
  | .port p 2 => if p < 16 then [128 + p] else [144 + (p - 16)]
  | .port p 3 => if p < 16 then [128 + p] else [144 + (p - 16)]
  | .port p 4 => if p < 16 then [128 + p] else [144 + (p - 16)]
  | .port p 5 => if p < 16 then [128 + p] else [144 + (p - 16)]
  | .port _ 18 => [243]
  | .txsa a 0 => [160 + (s.assoc false a).record.port]
  | .rxsa a 2 => [176 + (s.assoc true a).record.port]
  | .rxsa a 3 => [192 + (s.assoc true a).record.port]
  | .rxsa a 4 => [208 + (s.assoc true a).record.port]
  | .cls g 3 => [224 + g]
  | .cls g 4 => [228 + g]
  | .ril r 0 => [232 + r]
  | .cis 0 => [241]
  | .cis 2 => [242]
  | .cis 3 => [242]
  | .cis 4 => [242]
  | .cis 5 => [242]
  | .host 0 => [244]
  | .host 2 => [245]
  | .dev 9 => [246]
  | .dev 10 => [247]
  | _ => []

/-- A native counter advances by `n`, wrapping at 2^64 with its wrap bit set (R476). -/
def State.addNative (s : State) (i n : Nat) : State :=
  let v := kget 0 s.counters i + n
  { s with counters := kset 0 s.counters i (v % 2 ^ 64)
           wraps := if 2 ^ 64 ≤ v then kset false s.wraps i true else s.wraps }

/-- A legacy counter advances by `n`, wrapping at 2^48 with its WRAP bit set (R485). -/
def State.addLegacy (s : State) (n i : Nat) : State :=
  let v := kget 0 s.legacy i + n
  { s with legacy := kset 0 s.legacy i (v % 2 ^ 48)
           legacyWraps := if 2 ^ 48 ≤ v then kset false s.legacyWraps i true else s.legacyWraps }

/-- The enabled arms that watch word index `i` count `n` events (R484). -/
def State.addArms (s : State) (i n : Nat) : Nat → State
  | 0 => s
  | k + 1 =>
    let s := s.addArms i n k
    if s.flag (R.CNT_ARM_k_IDX k) F.CNT_ARM_k_IDX_EN ∧ s.fld (R.CNT_ARM_k_IDX k) F.CNT_ARM_k_IDX_IDX = i then
      { s with armed := kset 0 s.armed k (kget 0 s.armed k + n) }
    else s

/-- `n` events of a counter (R476, R484, R485). -/
def State.countN (s : State) (c : Ctr) (n : Nat) : State :=
  let s := (s.addNative c.index n).addArms c.index n 8
  (legacyOf s c).foldl (fun t i => t.addLegacy n i) s

/-- One event of a counter. -/
def State.count (s : State) (c : Ctr) : State := s.countN c 1

/-- A native counter and its wrap bit cleared (R476). -/
def State.clearCtr (s : State) (i : Nat) : State :=
  { s with counters := kset 0 s.counters i 0, wraps := kset false s.wraps i false }

/-- Counters `i` to `i + n - 1` and their wrap bits cleared (R476). -/
def State.clearCtrs (s : State) (i : Nat) : Nat → State
  | 0 => s
  | n + 1 => (s.clearCtrs i n).clearCtr (i + n)

end Sys2Proof.Machine
end

