-- ==== Sys2Proof/Machine/Blocks.lean ====
section
/-! DEFINITION. Register blocks, which of them a device state serves (R35, R37, R489), and the islands that own them
(R14, R17). -/

namespace Sys2Proof.Machine

/-- The register blocks of R489, and the slice pages of R491. -/
inductive Block where
  | glb | txn | start | cal | cpt | lpt | aqd | cls | sat | ril | cis | sch | slu | cas | tim | kst | pke | tmp | pai
  | hif | cnt | leg | hole | slice
  deriving DecidableEq, Repr

/-- The block that holds an address (R489, R491). -/
def blockOf (a : Nat) : Block :=
  if 0x10000000 ≤ a then .slice
  else if 0x1000000 ≤ a then .hole
  else if 0xE00000 ≤ a then .leg
  else if 0xC00000 ≤ a then .cnt
  else if 0xA00000 ≤ a then .hif
  else if 0x980000 ≤ a then .pai
  else if 0x900000 ≤ a then .tmp
  else if 0x8C0000 ≤ a then .pke
  else if 0x880000 ≤ a then .kst
  else if 0x800000 ≤ a then .tim
  else if 0x780000 ≤ a then .cas
  else if 0x700000 ≤ a then .slu
  else if 0x600000 ≤ a then .sch
  else if 0x500000 ≤ a then .cis
  else if 0x400000 ≤ a then .ril
  else if 0x300000 ≤ a then .sat
  else if 0x200000 ≤ a then .cls
  else if 0x180000 ≤ a then .aqd
  else if 0x140000 ≤ a then .lpt
  else if 0x100000 ≤ a then .cpt
  else if 0x40000 ≤ a then .cal
  else if 0x20000 ≤ a then .start
  else if 0x10000 ≤ a then .txn
  else .glb

/-- Is a block served in a device state (R35, R492)? Start: GLB, START, TMP. Minimal: GLB, START, TMP, CNT, KST.
Halt: GLB, TMP, KST. Maintenance and Standby: all but the slice pages. Active: all. -/
def servedIn (d : DevState) (b : Block) : Bool :=
  match d with
  | .wellOnly => false
  | .start => b = .glb || b = .start || b = .tmp
  | .minimal => b = .glb || b = .start || b = .tmp || b = .cnt || b = .kst
  | .halt => b = .glb || b = .tmp || b = .kst
  | .maintenance => b ≠ .slice
  | .standby => b ≠ .slice
  | .active => true

/-- Is the block served now? -/
def State.serves (s : State) (b : Block) : Bool := servedIn s.dev.state b

/-- Does an access reach the register path at all: main power is present, the device is not in Well-only (R35), and cold
reset is released (R497, R516)? -/
def State.reachable (s : State) : Bool := s.dev.power && !s.dev.coldReset && decide (s.dev.state ≠ .wellOnly)

/-- The status field of the command interface whose command register is at `a`. -/
def commandStatus (a : Nat) : Option (Nat × Fld) :=
  let unit (base stride n off : Nat) (f : Fld) : Option (Nat × Fld) :=
    if base ≤ a ∧ (a - base) % stride = 0 ∧ (a - base) / stride < n then some (a + off, f) else none
  [unit R.TXN_CTRL 4 1 (R.TXN_STATUS - R.TXN_CTRL) F.TXN_STATUS_CMD, unit R.BP_CMD 4 1 (R.BP_STATUS - R.BP_CMD) F.BP_STATUS_STATUS,
    unit R.START_CTRL 4 1 (R.START_STATUS - R.START_CTRL) F.START_STATUS_CMD_STATUS, unit R.IMG_CTRL 4 1 (R.IMG_STATUS - R.IMG_CTRL) F.IMG_STATUS_STATUS,
    unit R.CAL_OFFSET 4 1 0 F.CAL_OFFSET_STATUS, unit R.CPT_SPARE_CMD 0x40000 2 4 F.SPARE_STATUS_CMD_STATUS,
    unit (R.TBL_CMD 0) 0x40000 4 (R.TBL_STATUS 0 - R.TBL_CMD 0) F.TBL_STATUS_STATUS, unit R.SA_CMD 4 1 4 F.SA_STATUS_STATUS,
    unit (R.SL_SA_CMD 0) 0x200000 64 4 F.SA_STATUS_STATUS, unit R.RIL_CMD 4 1 (R.RIL_STATUS - R.RIL_CMD) F.RIL_STATUS_STATUS,
    unit R.TEP_CMD 4 1 (R.TEP_STATUS - R.TEP_CMD) F.TEP_STATUS_STATUS, unit R.CIS_CMD 4 1 (R.CIS_STATUS - R.CIS_CMD) F.CIS_STATUS_STATUS,
    unit (R.CAS_CMD 0) 0x10000 4 (R.CAS_CMDST 0 - R.CAS_CMD 0) F.CAS_CMDST_STATUS,
    unit (R.CAS_OPS_CTRL 0) 0x10000 4 (R.CAS_OPS_STATUS 0 - R.CAS_OPS_CTRL 0) F.CAS_OPS_STATUS_STATUS,
    unit (R.TB_CMD 0) 0x40 4 (R.TB_STATUS 0 - R.TB_CMD 0) F.TB_STATUS_STATUS, unit R.KST_CMD 4 1 (R.KST_STATUS - R.KST_CMD) F.KST_STATUS_STATUS,
    unit R.PKE_CMD 4 1 (R.PKE_CMD_STATUS - R.PKE_CMD) F.PKE_CMD_STATUS_STATUS, unit R.PAI_CMD 4 1 (R.PAI_CMDST - R.PAI_CMD) F.PAI_CMDST_STATUS,
    unit R.AQD_CMD 4 1 (R.AQD_CMDST - R.AQD_CMD) F.AQD_CMDST_STATUS, unit R.HIF_SLCMD 4 1 (R.HIF_SLCMDST - R.HIF_SLCMD) F.HIF_SLCMDST_STATUS,
    unit R.CNT_CMD 4 1 (R.CNT_STATUS - R.CNT_CMD) F.CNT_STATUS_STATUS].findSome? id

/-- The unsupported-access flag, and DENIED in the status of a command interface that is reached in a state that does not serve it
(R37). -/
def State.deny (s : State) (a : Nat) : State :=
  let s := s.raiseErr F.GLB_ERR_STATE a
  match commandStatus a with
  | some (st, f) => s.setFld st f (Status.code .denied)
  | none => s

/-- A register access or command at `a` that acts as `k` where the block is served, and as R37 says where it is not. -/
def State.access (s : State) (a : Nat) (k : State → State) : State :=
  if s.reachable then
    if s.serves (blockOf a) then k s else s.deny a
  else s

/-- A plain write at `a`, which commands nothing: where the block is not served it only sets the flag (R37). -/
def State.accessWrite (s : State) (a : Nat) (k : State → State) : State :=
  if s.reachable then
    if s.serves (blockOf a) then k s else s.raiseErr F.GLB_ERR_STATE a
  else s

/-- The side of a port (R79 numbering) and its page. -/
def portBase (p : Nat) : Nat := if p < 16 then 0x100000 + 0x4000 * p else 0x140000 + 0x4000 * (p - 16)

/-- Registers of port P of R79. -/
def aPORT_CFG (p : Nat) : Nat := portBase p
def aPORT_LANES (p : Nat) : Nat := portBase p + 0x4
def aPORT_CTRL (p : Nat) : Nat := portBase p + 0x8
def aPORT_ERR (p : Nat) : Nat := portBase p + 0x10
def aWAKE_CTRL (p : Nat) : Nat := portBase p + 0x20

/-- Registers of lane L of R79: lanes 0 to 15 of a side in page L, spare lanes 16 and 17 in pages 0 and 1 (R122). -/
def laneBase (l : Nat) : Nat :=
  let side := if l < 18 then 0x100000 else 0x140000
  let i := l % 18
  if i < 16 then side + 0x4000 * i + 0x1000 else side + 0x4000 * (i - 16) + 0x2000

def aLANE_CFG (l : Nat) : Nat := laneBase l
def aLANE_STATUS (l : Nat) : Nat := laneBase l + 0x4
def aLANE_FAULT (l : Nat) : Nat := laneBase l + 0x8

/-- Registers of a side's sparing (R125 to R127); side 0 client, 1 line. -/
def aSPARE_CFG (side : Nat) : Nat := 0x103000 + 0x40000 * side
def aSPARE_CMD (side : Nat) : Nat := 0x103004 + 0x40000 * side
def aSPARE_STATUS (side : Nat) : Nat := 0x103008 + 0x40000 * side

/-! ### Islands (R14, R17, R18) -/

/-- The lane group (0 to 3, of its side) that holds the lowest lane of port P of R79 or of trunk 64 + t (R14). -/
def laneGroupOf (s : State) (p : Nat) : Nat :=
  if p < 32 then s.fld (aPORT_LANES p) F.PORT_LANES_FIRST_LANE / 4 else s.fld (R.CAS_CFG (p - 64)) F.CAS_CFG_FIRST_LANE / 4

/-- The island of a port or trunk. -/
def portIsland (s : State) (p : Nat) : Island := .laneGroup (if p < 16 then .client else .line) (laneGroupOf s p)

/-- The bit of TIM_UNLOCK of the island that stamps and releases frames of a port or trunk (R17, R362); that of the scheduler for
the host port, which no lane group holds. -/
def timeIsland (s : State) (p : Nat) : Nat := if p = 32 then 10 else (if p < 16 then 0 else 5) + laneGroupOf s p

/-- The island in which a register's setting takes effect (R14, R17): that of the port's lowest lane for the registers of a port,
that of the lane for those of a lane, the rill for those of a rill; blocks without an island of their own in R17 are placed as the
assumption log says. -/
def islandOf (s : State) (a : Nat) : Island :=
  let page (side : Side) (first o : Nat) : Island :=
    if o % 0x4000 < 0x1000 then portIsland s (first + o / 0x4000)
    else if o % 0x4000 < 0x2000 then .laneGroup side (o / 0x4000 / 4)
    else .laneGroup side 4
  match blockOf a with
  | .cpt => page .client 0 (a - 0x100000)
  | .lpt => page .line 16 (a - 0x140000)
  | .cls => .classifier ((a - 0x200000) / 0x40000)
  | .ril => if a < 0x490000 then .rill ((a - 0x400000) / 0x10000) else .scheduler
  | .sat => .scheduler
  | .sch => .scheduler
  | .slu => .scheduler
  | .hif => .scheduler
  | .aqd => .scheduler
  | .pai => .scheduler
  | .slice => .scheduler
  | .cis => .cistern
  | .cas => portIsland s (64 + (a - 0x780000) / 0x10000)
  | .tim => if a < 0x810000 then .timeUnit else portIsland s ((a - 0x810000) / 0x1000)
  | .kst => .keyStore
  | .pke => .pke
  | .tmp => .alwaysOn
  | .glb => .mc
  | .txn => .mc
  | .start => .mc
  | .cal => .mc
  | .cnt => .mc
  | .leg => .mc
  | .hole => .mc

end Sys2Proof.Machine
end

