-- ==== Sys2Proof/Machine/Datapath.lean ====
section
/-! DEFINITION. Shared operations over frames and queue entries: creation, dropping, and freeing of cells (R21, R147). -/

namespace Sys2Proof.Machine

/-- The cistern cells of frame `h` return to the free list, without their being read (R235). -/
def State.freeCells (s : State) (h : Nat) : State :=
  if (s.frame h).cells = [] then s
  else { s with cistern := { s.cistern with cells := s.cistern.cells.filter (fun e => e.2 ≠ h) } }

/-- One queue entry of frame `h` is done; the cells are freed when the last copy is done and the frame has ended
(R147). -/
def State.releaseCopy (s : State) (h : Nat) : State :=
  let f := s.frame h
  if f.copies ≤ 1 ∧ (f.complete ∨ f.bad) then (s.freeCells h).setFrame h {} else s.setFrame h { f with copies := f.copies - 1 }

/-- A queue that has emptied loses its deficit (R269). -/
def State.emptied (s : State) (u cls : Nat) : State :=
  if s.jobs.any (fun e => e.2.stage = .queued && e.2.sub = u && e.2.cls = cls) then s
  else { s with sched := { s.sched with deficit := kset 0 s.sched.deficit (8 * u + cls) 0 } }

/-- Queue entry `j` ends: a host frame's entry waits for its completion with a fate (R462), another one goes; the frame's
cells are freed if it was the last copy. -/
def State.endJob (s : State) (j : Nat) (fate : Status × Nat) : State :=
  let x := s.job j
  let s := (s.setJob j (if x.host.isSome then { x with stage := .done, fate := some fate } else {})).releaseCopy x.frame
  if x.stage = .queued then s.emptied x.sub x.cls else s

/-- Queue entry `j` is dropped before dispatch; a host frame's fate is node-closed. -/
def State.dropJob (s : State) (j : Nat) : State := s.endJob j (.aborted, 5)

/-- The stages before dispatch: the entry waits for its scheduler or its dispatcher (R21). -/
def Stage.waits (t : Stage) : Bool := t = .classified || t = .queued || t = .handoff || t = .selected

/-- Queue entry `j` of a frame that is dropped: before dispatch it goes; dispatched with nothing sent, merge skips it; begun, it is
ended by stomping (R20, R42, R143). -/
def State.cutJob (s : State) (j : Nat) : State :=
  let x := s.job j
  if x.stage.waits then s.dropJob j
  else if x.stage = .dispatched ∧ !x.merged then s.setJob j (if x.released = 0 then { x with skip := true } else { x with stomp := true })
  else s

/-- Every queue entry of frame `h` is cut. -/
def State.cutFrame (s : State) (h : Nat) : State := (kkeys (fun (x : Job) => x.frame = h) s.jobs).foldl State.cutJob s

/-- Queue entries with numbers in `l` that wait for egress `e` are dropped and counted under `c` (R106). -/
def State.dropQueuedIn (s : State) (e : Nat) (c : Ctr) : List Nat → State
  | [] => s
  | j :: r =>
    let x := s.job j
    let t := s.dropQueuedIn e c r
    if x.egress = e ∧ x.stage.waits then (t.dropJob j).count c else t

/-- Every frame that waits for egress `e` is dropped and counted under `c`. -/
def State.dropQueued (s : State) (e : Nat) (c : Ctr) : State := s.dropQueuedIn e c (s.jobs.map Prod.fst)

/-- A new queue entry. -/
def State.addJob (s : State) (x : Job) : State :=
  let f := s.frame x.frame
  { (s.setFrame x.frame { f with copies := f.copies + 1 }).setJob s.nextJob x with nextJob := s.nextJob + 1 }

end Sys2Proof.Machine
end

