-- ==== Sys2Proof/Machine/Operands.lean ====
section
/-! DEFINITION. The formats that commands and frames carry: time values (R340), Ethernet, IP and SecTAG headers
(R129, R130, R203), classification results and table entries (R133, R136, R151). -/

namespace Sys2Proof.Machine

/-! ### Time values -/

/-- A time as one number of 2^-24 ns. -/
def TimeVal.units (t : TimeVal) : Nat := (t.sec * 1000000000 + t.ns) * 2 ^ 24 + t.frac

/-- The time of a number of 2^-24 ns; seconds have 48 bits (R340). -/
def timeOf (u : Nat) : TimeVal :=
  { sec := u / 2 ^ 24 / 1000000000 % 2 ^ 48, ns := u / 2 ^ 24 % 1000000000, frac := u % 2 ^ 24 }

/-- The time in whole nanoseconds. -/
def TimeVal.nanos (t : TimeVal) : Nat := t.sec * 1000000000 + t.ns

/-- A time moved by a signed number of 2^-24 ns, modulo the range of a base. -/
def TimeVal.shift (t : TimeVal) (d : Int) : TimeVal :=
  timeOf (((t.units : Int) + d) % ((2 ^ 48 * 1000000000 * 2 ^ 24 : Nat) : Int)).toNat

/-- Is `t` at or after `u`? -/
def TimeVal.ge (t u : TimeVal) : Bool := decide (u.units ≤ t.units)

/-- The value of time base `b` now (R340). -/
def State.now (s : State) (b : Nat) : TimeVal := kget {} s.bases b

/-- Island `i` of TIM_UNLOCK is in time-unlock (R18, R345). -/
def State.unlockedIn (s : State) (i : Nat) : Bool := (s.reg R.TIM_UNLOCK).getLsbD i

/-- The value of time base `b` in island `i`: its own counter while it is in time-unlock (R18). -/
def State.localNow (s : State) (i b : Nat) : TimeVal := if s.unlockedIn i then (kget {} s.localTime (4 * i + b)).time else s.now b

/-- The free-running counters of base `b` go on by what `d` units of a counter that adds `rate` per tick take (R18). -/
def freeRun (m : KMap LocalTime) (b d rate : Nat) : KMap LocalTime :=
  m.map (fun e => if e.1 % 4 = b then (e.1, { e.2 with time := e.2.time.shift (d * e.2.rate / rate : Nat) }) else e)

/-- The command says that the instant `t` of base `b` has come: the base is at least there. -/
def State.reach (s : State) (b : Nat) (t : TimeVal) : State :=
  if (s.now b).ge t then s
  else { s with bases := kset {} s.bases b t, localTime := freeRun s.localTime b (t.units - (s.now b).units) (s.reg (R.TB_INCR b)).toNat }

/-- The command says that the counter of base `b` in island `i` has come to `t`. -/
def State.reachIn (s : State) (i b : Nat) (t : TimeVal) : State :=
  let l := kget {} s.localTime (4 * i + b)
  if !s.unlockedIn i then s.reach b t
  else if l.time.ge t then s
  else
    let d := t.units - l.time.units
    { s with bases := kset {} s.bases b ((s.now b).shift (d * (s.reg (R.TB_INCR b)).toNat / l.rate : Nat))
             localTime := kset {} (freeRun s.localTime b d l.rate) (4 * i + b) { l with time := t } }

/-! ### Calibration (R78, R79) -/

/-- The limits of a calibration item; none for an unknown item (R79). -/
def calLimits (i : Nat) : Option (Int × Int) :=
  if i ≤ 0x23 then some (0, 63)
  else if 0x40 ≤ i ∧ i ≤ 0x63 then some (-16, 0)
  else if 0x80 ≤ i ∧ i ≤ 0xA3 then some (-24, 0)
  else if 0xC0 ≤ i ∧ i ≤ 0xE3 then some (0, 31)
  else if 0x100 ≤ i ∧ i ≤ 0x11F then some (-512, 511)
  else if 0x140 ≤ i ∧ i ≤ 0x15F then some (-512, 511)
  else if 0x180 ≤ i ∧ i ≤ 0x197 then some (-32, 32)
  else if 0x1C0 ≤ i ∧ i ≤ 0x1C3 then some (-512, 511)
  else if i = 0x1C8 then some (-512, 511)
  else if i = 0x200 then some (-100, 100)
  else none

/-- May the item be changed in Active or Standby (R79)? -/
def calInService (i : Nat) : Bool := !(decide (0xC0 ≤ i ∧ i ≤ 0xE3) || decide (i = 0x200))

/-- The effective value of an item with user offset `o`: the sum, clamped to its limits (R78). -/
def calEffective (i : Nat) (o : Int) : Int :=
  match calLimits i with
  | some (lo, hi) => min (max (Config.factory i + o) lo) hi
  | none => 0

/-- The effective value of an item now. -/
def State.cal (s : State) (i : Nat) : Int := calEffective i (kget 0 s.calUser i)

/-- A delay item of 0.125 ns in units of 2^-24 ns. -/
def delayUnits (v : Int) : Int := v * 2 ^ 21

/-- The receive timestamps of port `p` on the four bases: the base less the effective TS_RX_DELAY (R346). -/
def State.rxStamps (s : State) (p : Nat) : List TimeVal :=
  (List.range 4).map (fun b => (s.localNow (timeIsland s p) b).shift (- delayUnits (s.cal (0x100 + p))))

/-- The transmit timestamp of port `p` on base `b`: the base plus the effective TS_TX_DELAY (R346). -/
def State.txStamp (s : State) (p b : Nat) : TimeVal := (s.localNow (timeIsland s p) b).shift (delayUnits (s.cal (0x140 + p)))

/-- The island of a port's lane group is in time-unlock (R345, R362). -/
def portUnlocked (s : State) (p : Nat) : Bool := s.unlockedIn (timeIsland s p)

/-! ### Headers (R129, R130) -/

/-- What the parser finds in a header record. -/
structure Parsed where
  da : Nat := 0
  sa : Nat := 0
  /-- PCP and VID of the outermost VLAN tag. -/
  tag : Option (Nat × Nat) := none
  etype : Nat := 0
  /-- Offset of the byte after the EtherType. -/
  off : Nat := 0
  /-- 4 or 6 for an IP packet, 0 for what is treated as non-IP. -/
  family : Nat := 0
  /-- Destination address, left-aligned in 128 bits. -/
  dst : Nat := 0
  dscp : Nat := 0
  /-- IHL below 5, a total length larger than the frame, or a bad header checksum. -/
  malformed : Bool := false
  /-- The header chain is not finished within the record, or too long. -/
  deep : Bool := false
  udp : Option (Nat × Nat) := none
  /-- The 4 bytes after a UDP header to port 4500. -/
  natWord : Nat := 0
  spi : Option Nat := none
  /-- Offset of the ESP header; UDP encapsulation present. -/
  espOff : Nat := 0
  icmp6 : Option Nat := none
  deriving DecidableEq, Repr

/-- Is `t` an IPv6 extension header (IANA's list)? -/
def isExtHeader (t : Nat) : Bool := t = 0 || t = 43 || t = 44 || t = 51 || t = 60 || t = 135 || t = 139 || t = 140

/-- The length of an extension header of type `t` whose second byte is `n`. -/
def extLength (t n : Nat) : Nat := if t = 44 then 8 else if t = 51 then 4 * (n + 2) else 8 * (n + 1)

/-- The IPv6 header chain from offset `o` with next header `t`: the final protocol and its offset, or none when it is
not finished within the record or holds more than `fuel` extension headers (R130). -/
def ipv6Chain (b : List Byte) (t o : Nat) : Nat → Option (Nat × Nat)
  | 0 => if isExtHeader t then none else some (t, o)
  | fuel + 1 =>
    if isExtHeader t then
      if o + 8 ≤ b.length then ipv6Chain b (beAt b o 1) (o + extLength t (beAt b (o + 1) 1)) fuel else none
    else some (t, o)

/-- The ones' complement sum of 16-bit words. -/
def onesSum (l : List Byte) : Nat :=
  let rec go : List Byte → Nat
    | [] => 0
    | [a] => a.toNat * 256
    | a :: b :: r => a.toNat * 256 + b.toNat + go r
  let v := go l
  let v := v % 65536 + v / 65536
  v % 65536 + v / 65536

/-- The layer above IP (R129): UDP, ESP, ICMPv6. -/
def parseL4 (b : List Byte) (x : Parsed) (proto o : Nat) : Parsed :=
  if proto = 17 then
    let x := { x with udp := some (beAt b o 2, beAt b (o + 2) 2), natWord := beAt b (o + 8) 4 }
    if beAt b (o + 2) 2 = 4500 ∧ beAt b (o + 8) 4 ≠ 0 then { x with spi := some (beAt b (o + 8) 4), espOff := o + 8 } else x
  else if proto = 50 then { x with spi := some (beAt b o 4), espOff := o }
  else if proto = 58 ∧ x.family = 6 then
    if o < b.length then { x with icmp6 := some (beAt b o 1) } else { x with deep := true, family := 0 }
  else x

/-- The IP layer at `x.off` (R129, R130); `len` is the frame's length, FCS included, when it is known; a total
length that reaches into the FCS is larger than the frame. -/
def parseL3 (b : List Byte) (x : Parsed) (len : Option Nat) : Parsed :=
  let o := x.off
  if x.etype = 0x0800 then
    let ihl := beAt b o 1 % 16
    let bad := decide (ihl < 5) || onesSum (slice b o (4 * ihl)) ≠ 0xFFFF ||
      (match len with
       | some n => decide (n < o + beAt b (o + 2) 2 + 4)
       | none => false)
    if b.length < o + 4 * ihl ∨ b.length < o + 20 then { x with deep := true, malformed := bad }
    else parseL4 b { x with family := 4, dst := beAt b (o + 16) 4 * 2 ^ 96, dscp := beAt b (o + 1) 1 / 4, malformed := bad }
      (beAt b (o + 9) 1) (o + 4 * ihl)
  else if x.etype = 0x86DD then
    if b.length < o + 40 then { x with deep := true }
    else match ipv6Chain b (beAt b (o + 6) 1) (o + 40) 4 with
      | some (t, p) => if b.length < p then { x with deep := true } else
          parseL4 b { x with family := 6, dst := beAt b (o + 24) 16, dscp := beAt b o 2 / 64 % 64 } t p
      | none => { x with deep := true }
  else x

/-- A VLAN tag's TPID (R129). -/
def isTpid (e : Nat) : Bool := e = 0x8100 || e = 0x88A8

/-- The parser (R129) on the first 256 bytes of a frame. -/
def parseFrame (frame : List Byte) (len : Option Nat) : Parsed :=
  let b := frame.take 256
  let x : Parsed := { da := beAt b 0 6, sa := beAt b 6 6 }
  if isTpid (beAt b 12 2) then
    let t := beAt b 14 2
    let x := { x with tag := some (t / 8192, t % 4096) }
    if isTpid (beAt b 16 2) then parseL3 b { x with etype := beAt b 20 2, off := 22 } len
    else parseL3 b { x with etype := beAt b 16 2, off := 18 } len
  else parseL3 b { x with etype := beAt b 12 2, off := 14 } len

/-- The fields of a SecTAG directly after the source address (R129, R203). -/
structure SecTag where
  tci : Nat
  sl : Nat
  pn : Nat
  sci : Option Nat
  deriving DecidableEq, Repr

/-- The SecTAG of a frame, if EtherType 0x88E5 follows the source address. -/
def parseSecTag (f : List Byte) : Option SecTag :=
  if beAt f 12 2 = 0x88E5 then
    some { tci := beAt f 14 1, sl := beAt f 15 1, pn := beAt f 16 4, sci := if bit (beAt f 14 1) 5 then some (beAt f 20 8) else none }
  else none

/-- A TCI with a version or reserved-bit error (IEEE 802.1AE-2018): V set, ES with SC, SCB with SC, or an SL octet
above 6 bits (R130). -/
def secTagBad (t : SecTag) : Bool := bit t.tci 7 || (bit t.tci 6 && bit t.tci 5) || (bit t.tci 4 && bit t.tci 5) || decide (64 ≤ t.sl)

/-- Bytes from the destination address to the start of the secure data: 20, or 28 with an SCI (R203). -/
def SecTag.size (t : SecTag) : Nat := if t.sci.isSome then 28 else 20

/-! ### Results and table entries (R133, R136, R151) -/

/-- The 8-byte form of a result (R133). -/
def Result.bytes (r : Result) : List Byte :=
  be 1 r.action ++ be 1 r.cls ++ be 1 r.egress ++ be 1 0 ++ be 2 r.assoc ++ be 2 r.sub

/-- The result that 8 bytes spell. -/
def resultOf (b : List Byte) : Result :=
  { action := beAt b 0 1, cls := beAt b 1 1, egress := beAt b 2 1, assoc := beAt b 4 2, sub := beAt b 6 2 }

/-- Is a result within R133? -/
def resultOk (b : List Byte) : Bool :=
  decide (beAt b 0 1 ≤ 7) && decide (beAt b 1 1 ≤ 9) &&
  (decide (beAt b 2 1 = 255) || decide (beAt b 2 1 / 16 % 8 = 0)) && decide (beAt b 3 1 = 0) &&
  decide (beAt b 4 2 < 16384) && decide (beAt b 6 2 < 8192)

/-- The 16 key bytes of an exact-match entry (R136). -/
def emKey (typ kind scope vlan key : Nat) : List Byte :=
  be 1 typ ++ be 1 kind ++ be 1 scope ++ be 1 0 ++ be 2 vlan ++ be 2 0 ++ be 8 key

/-- The 32 bytes of an exact-match entry (R136). -/
def EmEntry.bytes (e : EmEntry) : List Byte :=
  slice e.key 0 16 ++ e.res.bytes ++ be 1 (b2n e.static + 2 * b2n e.hit + 4 * b2n e.swept + 8 * b2n e.pinned + 16 * b2n e.pinSw) ++
  be 1 0 ++ be 2 e.moves ++ be 4 0

/-- The entry that an INSERT or WRITE of 32 bytes makes: HIT, SWEPT, PIN_SW and MOVES as written are ignored, and PIN_SW
is set with PINNED (R142, R151). -/
def emEntryOf (b : List Byte) : EmEntry :=
  { key := slice b 0 16, res := resultOf (slice b 16 8), static := bit (beAt b 24 1) 0, pinned := bit (beAt b 24 1) 3, pinSw := bit (beAt b 24 1) 3 }

/-- Does the key keep the rules of R136 for instance `g`? -/
def emKeyOk (g : Nat) (b : List Byte) : Bool :=
  let typ := beAt b 0 1
  let kind := beAt b 1 1
  let scope := beAt b 2 1
  let vlan := beAt b 4 2
  decide (1 ≤ typ ∧ typ ≤ 3) && decide (kind ≤ 2) && decide (beAt b 3 1 = 0) && decide (beAt b 6 2 = 0) &&
  (decide (kind = 0) || decide (scope / 4 = g)) && (decide (typ = 1) || decide (kind = 2)) &&
  (if typ = 1 then decide (vlan < 8192) && decide (beAt b 8 2 = 0) else decide (vlan = 0)) &&
  (decide (typ ≠ 3) || decide (beAt b 8 4 = 0))

/-- The 32 bytes of an LPM entry (R151). -/
def LpmEntry.bytes (e : LpmEntry) : List Byte :=
  slice e.prefix16 0 16 ++ e.res.bytes ++ be 1 e.family ++ be 1 e.length ++ be 6 0

/-- The LPM entry that 32 bytes spell. -/
def lpmEntryOf (b : List Byte) : LpmEntry :=
  { family := beAt b 24 1, length := beAt b 25 1, prefix16 := slice b 0 16, res := resultOf (slice b 16 8) }

/-- An LPM prefix within R151 for a family: LENGTH in range, no bit beyond it, reserved bytes 0. -/
def lpmOk (family : Nat) (b : List Byte) : Bool :=
  let len := beAt b 25 1
  decide (beAt b 24 1 = family) && decide (len ≤ (if family = 4 then 32 else 128)) &&
  decide (beAt b 0 16 % 2 ^ (128 - len) = 0) && allZero (slice b 26 6)

/-- A frame's FCS: the CRC-32 of IEEE 802.3, least significant byte first on the wire. -/
def fcsOf (l : List Byte) : List Byte := wordBytes (crc32 l)

end Sys2Proof.Machine
end

