-- ==== Sys2Proof/Machine/Counters.lean ====
section
/-! DEFINITION. The counter collector: snapshots, freezes, arms and counter reads (18_counters.md, R476 to R488). -/

namespace Sys2Proof.Machine

/-! ### Word indices (R477) -/

/-- Is `i` inside a bank of `n` instances of stride `d` from `b`, at a counter that `ok` lists? -/
def inBank (b n d : Nat) (ok : Nat → Bool) (i : Nat) : Bool := decide (b ≤ i ∧ i < b + n * d) && ok ((i - b) % d)

/-- Does a word index name a counter of R477? -/
def knownIndex (i : Nat) : Bool :=
  inBank 0x20 1 32 (· ≤ 11) i || inBank 0x40 1 16 (· ≤ 8) i || inBank 0x50 1 16 (· ≤ 9) i || inBank 0x60 9 8 (· ≤ 5) i ||
  inBank 0xC0 4 32 (· ≤ 23) i || inBank 0x200 4 160 (fun j => j ≤ 9 || 32 ≤ j) i ||
  inBank 0x600 32 32 (fun j => j ≤ 13 || (16 ≤ j && j ≤ 30)) i || inBank 0xA00 64 16 (· ≤ 10) i ||
  inBank 0x2000 8192 4 (fun _ => true) i || inBank 0x20000 16384 8 (fun _ => true) i || inBank 0x40000 16384 8 (fun _ => true) i

/-! ### Latching and images (R478 to R480) -/

/-- The CNT_BW window registers. -/
def windowRegs (s : State) : KMap Word := s.regs.filter (fun e => decide (0xC01000 ≤ e.1 ∧ e.1 < 0xC01200))

/-- Both buffer addresses are set (R480). -/
def buffersSet (s : State) : Bool := s.reg64 R.CNT_BUF_A_LO R.CNT_BUF_A_HI ≠ 0 && s.reg64 R.CNT_BUF_B_LO R.CNT_BUF_B_HI ≠ 0

/-- The address of a buffer. -/
def snapBuffer (s : State) (b : Bool) : Nat := if b then s.reg64 R.CNT_BUF_B_LO R.CNT_BUF_B_HI else s.reg64 R.CNT_BUF_A_LO R.CNT_BUF_A_HI

/-- An instant that produces no image (R480). -/
def skipImage (s : State) : State := { s with snap := { s.snap with skipped := s.snap.skipped + 1 } }

/-- An instant of base `b` at time `t`: every bank is latched and an image begins, DONE written 0 first; or it is skipped,
during an MC restart or while an image is being written (R479, R480). -/
def takeSnapshot (s : State) (commanded : Bool) (b : Nat) (t : TimeVal) : State :=
  if !s.dev.mcUp ∨ s.snap.image.isSome ∨ !buffersSet s then skipImage s
  else
    let i : Image := {
      commanded := commanded, base := b, instant := t, valid := s.flag (R.TB_STATUS b) F.TB_STATUS_VALID
      islands := s.fld R.TIM_UNLOCK F.TIM_UNLOCK_ISLANDS, skipped := s.snap.skipped, counters := s.counters, wraps := s.wraps, toB := s.snap.toB }
    { s with snap := { s.snap with image := some i, toB := !s.snap.toB, skipped := 0 } }.emit (s.dmaWrite .pf false (snapBuffer s s.snap.toB + 255) [0])

/-- The 256-byte header of an image (R478). -/
def imageHeader (i : Image) (seq : Nat) : List Byte :=
  be 4 0x4D4C5343 ++ be 2 1 ++ be 2 0 ++ be 4 0x30C000 ++ be 4 seq ++ be 4 i.skipped ++
  be 1 (b2n i.commanded + 2 * b2n (i.islands ≠ 0) + 4 * b2n (!i.valid)) ++ be 1 i.base ++ be 2 0 ++ be 8 i.instant.sec ++ be 4 i.instant.ns ++
  be 4 i.islands ++ be 215 0 ++ be 1 1

/-- The banks of an image, from offset 0x100 to the wrap bitmap (R478). -/
def imageBanks (i : Image) : List Byte := (List.range (0x300000 / 8 - 0x20)).flatMap (fun k => be 8 (kget 0 i.counters (0x20 + k)))

/-- The wrap bitmap of an image (R478). -/
def imageBitmap (i : Image) : List Byte :=
  (List.range 0xC000).map (fun n => BitVec.ofNat 8 (((List.range 8).map (fun b => b2n (kget false i.wraps (8 * n + b)) * 2 ^ b)).sum))

/-- SNAPSHOT_IMAGE_DONE: the image is written whole, its header with DONE = 1 last, and SEQ advances; or a DMA write failed
(R479, R480). -/
def execSnapshotImageDone (ok : Bool) (s : State) : Res :=
  match s.snap.image with
  | none => .next s
  | some i =>
    if ok then
      let a := snapBuffer s i.toB
      let s := (s.emit (s.dmaWrite .pf true (a + 0x100) (imageBanks i ++ imageBitmap i))).emit (s.dmaWrite .pf false a (imageHeader i (s.snap.seq + 1)))
      .next { s with snap := { s.snap with image := none, seq := s.snap.seq + 1 } }
    else
      .next ({ s with snap := { s.snap with image := none, skipped := s.snap.skipped + i.skipped + 1 } }.alarm R.CNT_ALARM F.CNT_ALARM_DMA_ERR)

/-- Nanoseconds between periodic instants. -/
def snapInterval (s : State) : Nat := s.fld R.CNT_CFG F.CNT_CFG_INTERVAL_MS * 1000000

/-- Periodic instants fall (R480). -/
def snapRuns (s : State) : Bool := s.flag R.CNT_CFG F.CNT_CFG_EN && buffersSet s

/-- The first periodic instant after time `t`. -/
def nextInstant (s : State) (t : TimeVal) : TimeVal := timeOf ((t.nanos / snapInterval s + 1) * snapInterval s * 2 ^ 24)

/-- SNAPSHOT_INSTANT: the base reaches the next multiple of INTERVAL_MS (R480). -/
def execSnapshotInstant (s : State) : Res :=
  if snapRuns s then
    let b := s.fld R.CNT_CFG F.CNT_CFG_SNAP_TB
    let t := nextInstant s (s.now b)
    .next (takeSnapshot (s.reach b t) false b t)
  else .next s

/-- A step of base `b` that passes an instant: it fires once (R480). -/
def stepSnap (s : State) (b : Nat) (old new : TimeVal) : State :=
  if snapRuns s ∧ s.fld R.CNT_CFG F.CNT_CFG_SNAP_TB = b ∧ new.ge (nextInstant s old) then takeSnapshot s false b (nextInstant s old) else s

/-! ### CNT_CMD (R476, R481, R482) -/

/-- The status of a CNT_CMD. -/
def cntEnd (s : State) (st : Status) : State := s.setFld R.CNT_STATUS F.CNT_STATUS_STATUS st.code

/-- CNT_AT as a time (R482). -/
def cntAt (s : State) : TimeVal :=
  { sec := s.fld R.CNT_AT_SEC_HI F.CNT_AT_SEC_HI_VALUE * 2 ^ 32 + (s.reg R.CNT_AT_SEC_LO).toNat, ns := s.fld R.CNT_AT_NS F.CNT_AT_NS_VALUE }

/-- A command that needs the collector: BUSY during an MC restart and while an instant is pending (R482, R488). -/
def cntInstant (op : Nat) (s : State) : State :=
  s.access R.CNT_CMD (fun s =>
    let b := s.fld R.CNT_CFG F.CNT_CFG_SNAP_TB
    let least := (s.now b).shift (10000 * 2 ^ 24 : Nat)
    let at_ := cntAt s
    if !s.dev.mcUp ∨ s.snap.pending.isSome then cntEnd s .busy
    else if at_ = {} then cntEnd { s with snap := { s.snap with pending := some (op, b, least) } } .ok
    else if !at_.ge least then cntEnd s .invalid
    else cntEnd { s with snap := { s.snap with pending := some (op, b, at_) } } .ok)

/-- CNT_SNAP (R482). -/
def execCntSnap (s : State) : Res := .next (cntInstant 1 s)

/-- CNT_FREEZE (R481). -/
def execCntFreeze (s : State) : Res := .next (cntInstant 2 s)

/-- CNT_THAW (R481). -/
def execCntThaw (s : State) : Res := .next (cntInstant 3 s)

/-- CNT_CLEAR_WRAP: one wrap bit, or every one for 0xF_FFFF (R476). -/
def execCntClearWrap (i : Nat) (s : State) : Res :=
  .next (s.access R.CNT_CMD (fun s =>
    cntEnd { s with wraps := if i % 2 ^ 20 = 0xFFFFF then [] else kset false s.wraps (i % 2 ^ 20) false } .ok))

/-- What a FREEZE latches (R481). -/
def latchNow (s : State) : Latch :=
  { counters := s.counters, wraps := s.wraps, legacy := s.legacy, legacyWraps := s.legacyWraps, windows := windowRegs s }

/-- What a commanded instant does: SNAP (1), FREEZE (2) or THAW (R481, R482). -/
def atInstant (op : Nat) (s : State) (b : Nat) (t : TimeVal) : State :=
  if op = 1 then takeSnapshot s true b t
  else { s with snap := { s.snap with frozen := if op = 2 then some (latchNow s) else none } }

/-- COMMANDED_INSTANT: the pending instant is reached (R481, R482). -/
def execCommandedInstant (s : State) : Res :=
  match s.snap.pending with
  | none => .next s
  | some (op, b, t) => .next (atInstant op { s.reach b t with snap := { s.snap with pending := none } } b t)

/-! ### Arms (R484) -/

/-- CNT_ARM_IDX_WRITE: a write of CNT_ARM_k_IDX; an armed index must name a counter (R484). -/
def execCntArmIdxWrite (k : Nat) (v : Word) (s : State) : Res :=
  let k := k % 8
  let a := R.CNT_ARM_k_IDX k
  .next (s.access a (fun s =>
    let w := v &&& rwMask a
    if F.CNT_ARM_k_IDX_EN.get v = 1 ∧ !knownIndex (F.CNT_ARM_k_IDX_IDX.get v) then cntEnd s .invalid
    else cntEnd { s.setReg a w with armed := kset 0 s.armed k 0 } .ok))

/-- ARM_FIRE: arm `k` has seen its N events (R484). -/
def execArmFire (k : Nat) (s : State) : Res :=
  let a := R.CNT_ARM_k_IDX k
  if k < 8 ∧ s.flag a F.CNT_ARM_k_IDX_EN ∧ max 1 (s.reg (R.CNT_ARM_k_N k)).toNat ≤ kget 0 s.armed k then
    .next (({ s.setFld a F.CNT_ARM_k_IDX_EN 0 with armed := kset 0 s.armed k 0 }.setFld R.CNT_ARM_HIT ⟨k, 1⟩ 1).interrupt .pf 0)
  else .next s

/-! ### Reads (R481, R485, R488) -/

/-- The counter and wrap bit that a register read shows: the latched ones while frozen (R481). -/
def shownCounter (s : State) (i : Nat) : Nat := kget 0 (match s.snap.frozen with
  | some l => l.counters
  | none => s.counters) i
def shownWrap (s : State) (i : Nat) : Bool := kget false (match s.snap.frozen with
  | some l => l.wraps
  | none => s.wraps) i
def shownLegacy (s : State) (i : Nat) : Nat := kget 0 (match s.snap.frozen with
  | some l => l.legacy
  | none => s.legacy) i
def shownLegacyWrap (s : State) (i : Nat) : Bool := kget false (match s.snap.frozen with
  | some l => l.legacyWraps
  | none => s.legacyWraps) i

/-- A read of a low word, of a value, latches its high word at address `hi`. -/
def latchHigh (s : State) (hi v : Nat) : State := { s with snap := { s.snap with highs := kset 0 s.snap.highs hi (BitVec.ofNat 32 (v / 2 ^ 32)) } }

/-- A read access at `a` that answers `v` and latches the high word at `hi`. -/
def readLow (fn : Fn) (a hi : Nat) (v : State → Nat) (s : State) : State :=
  if !s.reachable then s
  else if !s.serves (blockOf a) then (s.raiseErr F.GLB_ERR_STATE a).emit (.readData fn a 0)
  else (latchHigh s hi (v s)).emit (.readData fn a (BitVec.ofNat 32 (v s)))

/-- CNT_RD_LO_READ (R488). -/
def execCntRdLoRead (s : State) : Res :=
  .next (readLow .pf R.CNT_RD_LO R.CNT_RD_HI (fun s => shownCounter s (s.fld R.CNT_RD_IDX F.CNT_RD_IDX_IDX)) s)

/-- LEG_LO_READ: LEG_i_LO; bits 47:32 are latched into LEG_i_HI; indices 248 to 255 read 0 (R485). -/
def execLegLoRead (i : Nat) (s : State) : Res :=
  let i := i % 256
  .next (readLow .pf (R.LEG_i_LO i) (R.LEG_i_HI i) (fun s => if i < 248 then shownLegacy s i else 0) s)

end Sys2Proof.Machine
end

