-- ==== Sys2Proof/Machine/Crypto.lean ====
section
/-! DEFINITION. The functions of public standards that the spec names for keys, frames and digests: SHA-2 (FIPS 180-4), AES (FIPS 197),
CMAC (NIST SP 800-38B) and AES-GCM (NIST SP 800-38D). -/

namespace Sys2Proof.Machine

/-! ### SHA-2 (FIPS 180-4) -/

/-- The constants of SHA-512: 64 bits of the fractional parts of the cube roots of the first 80 primes. Those of SHA-256 are the upper
halves of the first 64. -/
def shaConstants : List Nat :=
  [0x428a2f98d728ae22, 0x7137449123ef65cd, 0xb5c0fbcfec4d3b2f, 0xe9b5dba58189dbbc, 0x3956c25bf348b538] ++
  [0x59f111f1b605d019, 0x923f82a4af194f9b, 0xab1c5ed5da6d8118, 0xd807aa98a3030242, 0x12835b0145706fbe] ++
  [0x243185be4ee4b28c, 0x550c7dc3d5ffb4e2, 0x72be5d74f27b896f, 0x80deb1fe3b1696b1, 0x9bdc06a725c71235] ++
  [0xc19bf174cf692694, 0xe49b69c19ef14ad2, 0xefbe4786384f25e3, 0x0fc19dc68b8cd5b5, 0x240ca1cc77ac9c65] ++
  [0x2de92c6f592b0275, 0x4a7484aa6ea6e483, 0x5cb0a9dcbd41fbd4, 0x76f988da831153b5, 0x983e5152ee66dfab] ++
  [0xa831c66d2db43210, 0xb00327c898fb213f, 0xbf597fc7beef0ee4, 0xc6e00bf33da88fc2, 0xd5a79147930aa725] ++
  [0x06ca6351e003826f, 0x142929670a0e6e70, 0x27b70a8546d22ffc, 0x2e1b21385c26c926, 0x4d2c6dfc5ac42aed] ++
  [0x53380d139d95b3df, 0x650a73548baf63de, 0x766a0abb3c77b2a8, 0x81c2c92e47edaee6, 0x92722c851482353b] ++
  [0xa2bfe8a14cf10364, 0xa81a664bbc423001, 0xc24b8b70d0f89791, 0xc76c51a30654be30, 0xd192e819d6ef5218] ++
  [0xd69906245565a910, 0xf40e35855771202a, 0x106aa07032bbd1b8, 0x19a4c116b8d2d0c8, 0x1e376c085141ab53] ++
  [0x2748774cdf8eeb99, 0x34b0bcb5e19b48a8, 0x391c0cb3c5c95a63, 0x4ed8aa4ae3418acb, 0x5b9cca4f7763e373] ++
  [0x682e6ff3d6b2b8a3, 0x748f82ee5defb2fc, 0x78a5636f43172f60, 0x84c87814a1f0ab72, 0x8cc702081a6439ec] ++
  [0x90befffa23631e28, 0xa4506cebde82bde9, 0xbef9a3f7b2c67915, 0xc67178f2e372532b, 0xca273eceea26619c] ++
  [0xd186b8c721c0c207, 0xeada7dd6cde0eb1e, 0xf57d4f7fee6ed178, 0x06f067aa72176fba, 0x0a637dc5a2c898a6] ++
  [0x113f9804bef90dae, 0x1b710b35131c471b, 0x28db77f523047d84, 0x32caab7b40c72493, 0x3c9ebe0a15c9bebc] ++
  [0x431d67c49c100d4c, 0x4cc5d4becb3e42b6, 0x597f299cfc657e2a, 0x5fcb6fab3ad6faec, 0x6c44198c4a475817]

/-- 64 bits of the fractional parts of the square roots of the first 8 primes, and of the next 8. -/
def shaFirst : List Nat := [0x6a09e667f3bcc908, 0xbb67ae8584caa73b, 0x3c6ef372fe94f82b, 0xa54ff53a5f1d36f1] ++
  [0x510e527fade682d1, 0x9b05688c2b3e6c1f, 0x1f83d9abfb41bd6b, 0x5be0cd19137e2179]
def shaSecond : List Nat := [0xcbbb9d5dc1059ed8, 0x629a292a367cd507, 0x9159015a3070dd17, 0x152fecd8f70e5939] ++
  [0x67332667ffc00b31, 0x8eb44a8768581511, 0xdb0c2e0d64f98fa7, 0x47b5481dbefa4fa4]

/-- The amounts of the rotations, and of the last shift of the two message functions, of a SHA-2 function (FIPS 180-4, section 4.1). -/
structure ShaAmounts where
  sum0 : Nat × Nat × Nat
  sum1 : Nat × Nat × Nat
  mix0 : Nat × Nat × Nat
  mix1 : Nat × Nat × Nat
  deriving DecidableEq, Repr

def sha256Amounts : ShaAmounts := { sum0 := (2, 13, 22), sum1 := (6, 11, 25), mix0 := (7, 18, 3), mix1 := (17, 19, 10) }
def sha512Amounts : ShaAmounts := { sum0 := (28, 34, 39), sum1 := (14, 18, 41), mix0 := (1, 8, 7), mix1 := (19, 61, 6) }

/-- Three rotations of a word combined; two rotations and a shift. -/
def shaSum {w : Nat} (n : Nat × Nat × Nat) (x : BitVec w) : BitVec w := x.rotateRight n.1 ^^^ x.rotateRight n.2.1 ^^^ x.rotateRight n.2.2
def shaMix {w : Nat} (n : Nat × Nat × Nat) (x : BitVec w) : BitVec w := x.rotateRight n.1 ^^^ x.rotateRight n.2.1 ^^^ (x >>> n.2.2)

/-- The message schedule, newest word first, `n` words longer (FIPS 180-4, section 6). -/
def shaSchedule {w : Nat} (a : ShaAmounts) (l : List (BitVec w)) : Nat → List (BitVec w)
  | 0 => l
  | n + 1 =>
    let l := shaSchedule a l n
    (shaMix a.mix1 (l.getD 1 0) + l.getD 6 0 + shaMix a.mix0 (l.getD 14 0) + l.getD 15 0) :: l

/-- One round on the eight working variables a to h; `k` is the constant plus the message word. -/
def shaRound {w : Nat} (a : ShaAmounts) (v : List (BitVec w)) (k : BitVec w) : List (BitVec w) :=
  let x (i : Nat) : BitVec w := v.getD i 0
  let t := x 7 + shaSum a.sum1 (x 4) + ((x 4 &&& x 5) ^^^ (~~~ x 4 &&& x 6)) + k
  [t + shaSum a.sum0 (x 0) + ((x 0 &&& x 1) ^^^ (x 0 &&& x 2) ^^^ (x 1 &&& x 2)), x 0, x 1, x 2, x 3 + t, x 4, x 5, x 6]

/-- The hash value after a block of 16 words. -/
def shaBlock {w : Nat} (a : ShaAmounts) (ks : List (BitVec w)) (v : List (BitVec w)) (block : List (BitVec w)) : List (BitVec w) :=
  let words := (shaSchedule a block.reverse (ks.length - 16)).reverse
  List.zipWith (· + ·) v ((List.zipWith (· + ·) ks words).foldl (shaRound a) v)

/-- A message padded to whole blocks of `16 n` bytes, for words of `n` bytes (FIPS 180-4, section 5.1). -/
def shaPad (n : Nat) (l : List Byte) : List Byte :=
  let zeros := (16 * n - (l.length + 1 + 2 * n) % (16 * n)) % (16 * n)
  l ++ [0x80#8] ++ List.replicate zeros 0#8 ++ be (2 * n) (8 * l.length)

/-- The words of `n` bytes of a message, `count` of them from byte `o` on. -/
def shaWords (w n : Nat) (l : List Byte) (o count : Nat) : List (BitVec w) := (List.range count).map (fun i => BitVec.ofNat w (beAt l (o + n * i) n))

/-- The hash value of a message, for words of `w` bits and `n` bytes. -/
def shaHash (w n : Nat) (a : ShaAmounts) (ks iv : List (BitVec w)) (l : List Byte) : List Byte :=
  let m := shaPad n l
  ((List.range (m.length / (16 * n))).foldl (fun (v : List (BitVec w)) i => shaBlock a ks v (shaWords w n m (16 * n * i) 16)) iv).flatMap (fun x => be n x.toNat)

/-- SHA-256, SHA-384 and SHA-512. -/
def sha256 (l : List Byte) : List Byte :=
  shaHash 32 4 sha256Amounts ((shaConstants.take 64).map (fun k => BitVec.ofNat 32 (k / 2 ^ 32))) (shaFirst.map (fun k => BitVec.ofNat 32 (k / 2 ^ 32))) l
def sha512Of (iv : List Nat) (l : List Byte) : List Byte := shaHash 64 8 sha512Amounts (shaConstants.map (BitVec.ofNat 64)) (iv.map (BitVec.ofNat 64)) l
def sha384 (l : List Byte) : List Byte := (sha512Of shaSecond l).take 48
def sha512 (l : List Byte) : List Byte := sha512Of shaFirst l

/-! ### AES (FIPS 197) -/

/-- Multiplication by x in GF(2^8), polynomial x^8 + x^4 + x^3 + x + 1. -/
def gf8Double (v : Byte) : Byte := if v.getLsbD 7 then (v <<< 1) ^^^ 0x1B#8 else v <<< 1

/-- Multiplication in GF(2^8), over the bits of `a` from the most significant one down. -/
def gf8Mul (a b : Byte) : Byte :=
  (List.range 8).foldl (fun (r : Byte) (i : Nat) => if a.getLsbD (7 - i) then gf8Double r ^^^ b else gf8Double r) 0

/-- The inverse in GF(2^8), 0 for 0: the 254th power. -/
def gf8Inv (a : Byte) : Byte :=
  let sq (x : Byte) : Byte := gf8Mul x x
  let a2 := sq a
  let a4 := sq a2
  let a8 := sq a4
  let a16 := sq a8
  let a32 := sq a16
  let a64 := sq a32
  gf8Mul (gf8Mul (gf8Mul (gf8Mul (gf8Mul (gf8Mul a2 a4) a8) a16) a32) a64) (sq a64)

/-- The S-box. -/
def aesSub (a : Byte) : Byte :=
  let b := gf8Inv a
  b ^^^ b.rotateLeft 1 ^^^ b.rotateLeft 2 ^^^ b.rotateLeft 3 ^^^ b.rotateLeft 4 ^^^ 0x63#8

/-- The round constant of number `n`, from 1. -/
def aesRcon : Nat → Byte
  | 0 => 0x8D#8
  | n + 1 => gf8Double (aesRcon n)

/-- Bytewise exclusive or. -/
def xorBytes (a b : List Byte) : List Byte := List.zipWith (fun (x y : Byte) => x ^^^ y) a b

/-- The key schedule, in words of 4 bytes, newest first: that of a key of `nk` words, `n` words longer. -/
def aesSchedule (nk : Nat) (l : List (List Byte)) : Nat → List (List Byte)
  | 0 => l
  | n + 1 =>
    let l := aesSchedule nk l n
    let t := l.headD []
    let t := if l.length % nk = 0 then xorBytes ((t.drop 1 ++ t.take 1).map aesSub) [aesRcon (l.length / nk), 0, 0, 0]
      else if nk = 8 ∧ l.length % nk = 4 then t.map aesSub else t
    xorBytes (l.getD (nk - 1) []) t :: l

/-- SubBytes and ShiftRows; the state is 16 bytes, column after column. -/
def aesShift (l : List Byte) : List Byte := (List.range 16).map (fun i => aesSub (l.getD ((i + 4 * (i % 4)) % 16) 0))

/-- MixColumns. -/
def aesMix (l : List Byte) : List Byte :=
  (List.range 16).map (fun i =>
    let x (k : Nat) : Byte := l.getD (i / 4 * 4 + (i + k) % 4) 0
    gf8Double (x 0) ^^^ gf8Double (x 1) ^^^ x 1 ^^^ x 2 ^^^ x 3)

/-- AES on one block of 16 bytes, with a key of 16 bytes (AES-128) or 32 (AES-256). -/
def aes (key block : List Byte) : List Byte :=
  let nk := key.length / 4
  let rounds := nk + 6
  let words := (aesSchedule nk ((List.range nk).map (fun i => slice key (4 * i) 4)).reverse (4 * (rounds + 1) - nk)).reverse
  let rk (r : Nat) : List Byte := slice words.flatten (16 * r) 16
  let s := (List.range (rounds - 1)).foldl (fun (s : List Byte) r => xorBytes (aesMix (aesShift s)) (rk (r + 1))) (xorBytes (slice block 0 16) (rk 0))
  xorBytes (aesShift s) (rk rounds)

/-! ### CMAC (NIST SP 800-38B) -/

/-- A subkey doubled in GF(2^128). -/
def cmacDouble (l : List Byte) : List Byte :=
  let v := 2 * beVal l
  be 16 (if 2 ^ 128 ≤ v then Nat.xor (v % 2 ^ 128) 0x87 else v)

/-- The 16-byte CMAC of a message: its whole blocks chained, the last one completed and masked by a subkey. -/
def cmac (key l : List Byte) : List Byte :=
  let k1 := cmacDouble (aes key (be 16 0))
  let full := (l.length + 15) / 16 - 1
  let rest := l.drop (16 * full)
  let last := if rest.length = 16 then xorBytes rest k1 else xorBytes (slice (rest ++ [0x80#8]) 0 16) (cmacDouble k1)
  aes key (xorBytes last ((List.range full).foldl (fun (x : List Byte) i => aes key (xorBytes x (slice l (16 * i) 16))) (be 16 0)))

/-! ### AES-GCM (NIST SP 800-38D), with IVs of 12 bytes -/

/-- Multiplication in the field of GHASH: bit 127 of a number is the coefficient of 1. -/
def ghashMul (a b : BitVec 128) : BitVec 128 :=
  ((List.range 128).foldl (fun (r : BitVec 128 × BitVec 128) (i : Nat) =>
    (if a.getLsbD (127 - i) then r.1 ^^^ r.2 else r.1, if r.2.getLsbD 0 then (r.2 >>> 1) ^^^ (0xE1#128 <<< 120) else r.2 >>> 1)) (0, b)).1

/-- Bytes completed to whole blocks of 16 with zeros. -/
def pad16 (l : List Byte) : List Byte := l ++ List.replicate ((16 - l.length % 16) % 16) 0#8

/-- GHASH of whole blocks under H. -/
def ghash (h : BitVec 128) (l : List Byte) : BitVec 128 :=
  (List.range (l.length / 16)).foldl (fun (y : BitVec 128) i => ghashMul (y ^^^ BitVec.ofNat 128 (beAt l (16 * i) 16)) h) 0

/-- AES-GCM in counter mode: the bytes combined with the key stream, whose counters begin at 2. -/
def gcmCrypt (key iv text : List Byte) : List Byte :=
  xorBytes text ((List.range ((text.length + 15) / 16)).flatMap (fun i => aes key (slice iv 0 12 ++ be 4 (i + 2))))

/-- AES-GCM: the 16-byte tag over additional data and ciphertext. -/
def gcmTagOf (key iv aad cipher : List Byte) : List Byte :=
  let h := BitVec.ofNat 128 (beVal (aes key (be 16 0)))
  xorBytes (be 16 (ghash h (pad16 aad ++ pad16 cipher ++ be 8 (8 * aad.length) ++ be 8 (8 * cipher.length))).toNat) (aes key (slice iv 0 12 ++ be 4 1))

end Sys2Proof.Machine
end

