-- ==== Sys2Proof/Machine/PublicKey.lean ====
section
/-! DEFINITION. The arithmetic of the public-key engine: modular powers and inverses, elliptic curves, ECDSA and ECDH
(FIPS 186-5, SP 800-56A), RSA with its encodings (PKCS #1), and the curve and key checks of R395 and R403. -/

namespace Sys2Proof.Machine

/-! ### Modular arithmetic -/

/-- `b ^ e mod m`; `fuel` bounds the bits of `e`. -/
def powMod (b e m : Nat) : Nat → Nat
  | 0 => 1 % m
  | fuel + 1 => if e = 0 then 1 % m else
    let h := powMod (b * b % m) (e / 2) m fuel
    if e % 2 = 1 then h * b % m else h

/-- `b ^ e mod m` for exponents of at most 4 096 bits. -/
def modPow (b e m : Nat) : Nat := powMod (b % m) e m 4096

/-- The inverse modulo a prime (0 for 0). -/
def invPrime (a p : Nat) : Nat := modPow a (p - 2) p

/-- Extended Euclid: `u` with `u * a = gcd` modulo the first modulus; `fuel` bounds the steps. -/
def euclid (r0 r1 : Nat) (t0 t1 : Int) : Nat → Nat × Int
  | 0 => (r0, t0)
  | fuel + 1 => if r1 = 0 then (r0, t0) else euclid r1 (r0 % r1) t1 (t0 - (r0 / r1 : Nat) * t1) fuel

/-- The inverse of `a` modulo `m`. -/
def invMod (a m : Nat) : Nat := ((euclid m (a % m) 0 1 8192).2 % (m : Int)).toNat

/-- Bits of a number. -/
def bitLen (n : Nat) : Nat := if n = 0 then 0 else Nat.log2 n + 1

/-- One Miller–Rabin round of an odd `n` with base `b`, where n - 1 = d * 2 ^ k. -/
def millerRound (n d b : Nat) (k : Nat) : Bool :=
  let x := modPow b d n
  x = 1 || (List.range k).any (fun i => modPow x (2 ^ i) n = n - 1)

/-- The odd part of a number and the power of 2 taken out. -/
def oddPart (d k : Nat) : Nat → Nat × Nat
  | 0 => (d, k)
  | fuel + 1 => if d % 2 = 0 then oddPart (d / 2) (k + 1) fuel else (d, k)

/-- `n` passes 64 Miller–Rabin rounds with the bases that the free values from `ctr` on give (R395, R403). -/
def passesPrime (ctr n : Nat) : Bool :=
  if n < 5 then n = 2 || n = 3
  else if n % 2 = 0 then false
  else
    let (d, k) := oddPart (n - 1) 0 4096
    (List.range 64).all (fun i => millerRound n d (2 + Config.freeNat (ctr + i) % (n - 3)) k)

/-! ### Curves (R394, R395) -/

/-- P-256, P-384 and P-521 (FIPS 186-5). -/
def p256 : Curve where
  bits := 256
  p := 2 ^ 256 - 2 ^ 224 + 2 ^ 192 + 2 ^ 96 - 1
  a := 2 ^ 256 - 2 ^ 224 + 2 ^ 192 + 2 ^ 96 - 4
  b := 0x5ac635d8aa3a93e7b3ebbd55769886bc651d06b0cc53b0f63bce3c3e27d2604b
  gx := 0x6b17d1f2e12c4247f8bce6e563a440f277037d812deb33a0f4a13945d898c296
  gy := 0x4fe342e2fe1a7f9b8ee7eb4a7c0f9e162bce33576b315ececbb6406837bf51f5
  n := 0xffffffff00000000ffffffffffffffffbce6faada7179e84f3b9cac2fc632551
  h := 1

def p384 : Curve where
  bits := 384
  p := 2 ^ 384 - 2 ^ 128 - 2 ^ 96 + 2 ^ 32 - 1
  a := 2 ^ 384 - 2 ^ 128 - 2 ^ 96 + 2 ^ 32 - 4
  b := 0xb3312fa7e23ee7e4988e056be3f82d19181d9c6efe8141120314088f5013875ac656398d8a2ed19d2a85c8edd3ec2aef
  gx := 0xaa87ca22be8b05378eb1c71ef320ad746e1d3b628ba79b9859f741e082542a385502f25dbf55296c3a545e3872760ab7
  gy := 0x3617de4a96262c6f5d9e98bf9292dc29f8f41dbd289a147ce9da3113b5f0b8c00a60b1ce1d7e819d7a431d7c90ea0e5f
  n := 0xffffffffffffffffffffffffffffffffffffffffffffffffc7634d81f4372ddf581a0db248b0a77aecec196accc52973
  h := 1

def p521 : Curve where
  bits := 521
  p := 2 ^ 521 - 1
  a := 2 ^ 521 - 4
  b := 0x051953eb9618e1c9a1f929a21a0b68540eea2da725b99b315f3b8b489918ef109e156193951ec7e937b1652c0bd3bb1bf073573df883d2c34f1ef451fd46b503f00
  gx := 0xc6858e06b70404e9cd9e3ecb662395b4429c648139053fb521f828af606b4d3dbaa14b5e77efe75928fe1dc127a2ffa8de3348b3c1856a429bf97e7e31c2e5bd66
  gy := 0x11839296a789a3bc0045c8a5fb42c7d1bd998f54449579b446817afbd17273e662c97ee72995ef42640c550b9013fad0761353c7086a272c24088be94769fd16650
  n := 2 ^ 521 - 657877501894328237357444332315020117536923257219387276263472201219398408051703
  h := 1

/-- L of a curve: bytes of a coordinate (R393). -/
def Curve.len (c : Curve) : Nat := (c.bits + 7) / 8

/-- A point: none is the point at infinity. -/
abbrev Point := Option (Nat × Nat)

/-- The sum of two points by the affine formulas, which use a and p but not b (R400). -/
def Curve.add (c : Curve) : Point → Point → Point
  | none, q => q
  | some a, none => some a
  | some (x1, y1), some (x2, y2) =>
    let go (l : Nat) : Point :=
      let x := (l * l + 2 * c.p - x1 - x2) % c.p
      some (x, (l * (x1 + c.p - x) + c.p - y1) % c.p)
    if x1 = x2 then
      if (y1 + y2) % c.p = 0 then none else go ((3 * x1 * x1 + c.a) * invPrime (2 * y1 % c.p) c.p % c.p)
    else go ((y2 + c.p - y1) * invPrime ((x2 + c.p - x1) % c.p) c.p % c.p)

/-- `k` times a point; `fuel` bounds the bits of `k`. -/
def Curve.mulAux (c : Curve) (k : Nat) (q : Point) : Nat → Point
  | 0 => none
  | fuel + 1 => if k = 0 then none else
    let r := c.mulAux (k / 2) (c.add q q) fuel
    if k % 2 = 1 then c.add q r else r

/-- `k` times a point, for scalars of at most 544 bits. -/
def Curve.mul (c : Curve) (k : Nat) (q : Point) : Point := c.mulAux k q 544

/-- The generator. -/
def Curve.gen (c : Curve) : Point := some (c.gx, c.gy)

/-- Is a point on the curve, with coordinates below p? -/
def Curve.has (c : Curve) (x y : Nat) : Bool :=
  decide (x < c.p) && decide (y < c.p) && decide (y * y % c.p = (x * x * x + c.a * x + c.b) % c.p)

/-- Full public-key validation of SP 800-56A (R401). -/
def Curve.valid (c : Curve) : Point → Bool
  | none => false
  | some (x, y) => c.has x y && c.mul c.n (some (x, y)) = none

/-- The encoding of a point (R393). -/
def Curve.enc (c : Curve) : Point → List Byte
  | none => List.replicate (1 + 2 * c.len) 0
  | some (x, y) => be 1 4 ++ be c.len x ++ be c.len y

/-- Is a string a point's format: 0x04 first, or all zero (R393)? -/
def pointFormat (l : List Byte) : Bool := beAt l 0 1 = 4 || allZero l

/-- The point that an encoding spells. -/
def Curve.dec (c : Curve) (l : List Byte) : Point := if beAt l 0 1 = 4 then some (beAt l 1 c.len, beAt l (1 + c.len) c.len) else none

/-- A point with its coordinates reduced (R400). -/
def Curve.reduce (c : Curve) : Point → Point
  | none => none
  | some (x, y) => some (x % c.p, y % c.p)

/-- The x-coordinate as bytes. -/
def Curve.xBytes (c : Curve) : Point → List Byte
  | none => be c.len 0
  | some (x, _) => be c.len x

/-- The checks of CURVE_LOAD (R395): the number of the first that fails, 0 for none. -/
def curveCheck (ctr : Nat) (c : Curve) : Nat :=
  if bitLen c.p ≠ c.bits ∨ c.p ≤ c.a ∨ c.p ≤ c.b ∨ c.p ≤ c.gx ∨ c.p ≤ c.gy then 1
  else if !passesPrime ctr c.p then 2
  else if (4 * c.a * c.a * c.a + 27 * c.b * c.b) % c.p = 0 then 3
  else if !c.has c.gx c.gy then 4
  else if !passesPrime (ctr + 64) c.n ∨ c.n ≤ 2 ^ 159 ∨ 8 * c.len < bitLen c.n then 5
  else if c.mul c.n c.gen ≠ none then 6
  else
    let d : Int := (c.p : Int) + 1 - (c.h * c.n : Nat)
    if c.h = 0 ∨ 8 < c.h ∨ 4 * c.p < d.natAbs * d.natAbs then 7 else 0

/-- The curve that a CURVE_LOAD input spells (R395). -/
def curveOf (l : List Byte) : Curve :=
  let n := (beAt l 0 2 + 7) / 8
  { bits := beAt l 0 2, h := beAt l 2 1, p := beAt l 8 n, a := beAt l (8 + n) n, b := beAt l (8 + 2 * n) n,
    gx := beAt l (8 + 3 * n) n, gy := beAt l (8 + 4 * n) n, n := beAt l (8 + 5 * n) n }

/-! ### ECDSA (FIPS 186-5) -/

/-- A hash value as an integer, truncated to the bits of n. -/
def hashInt (c : Curve) (hash : List Byte) : Nat := beVal hash / 2 ^ (8 * hash.length - bitLen c.n)

/-- Does a signature r, s of a hash value verify under a point? -/
def Curve.verify (c : Curve) (q : Point) (hash : List Byte) (r s : Nat) : Bool :=
  let w := invPrime s c.n
  match c.add (c.mul (hashInt c hash * w % c.n) c.gen) (c.mul (r * w % c.n) q) with
  | none => false
  | some (x, _) => decide (1 ≤ r) && decide (r < c.n) && decide (1 ≤ s) && decide (s < c.n) && decide (x % c.n = r)

/-- r and s of a signature with the per-message secret `k`. -/
def Curve.signWith (c : Curve) (d k : Nat) (hash : List Byte) : Nat × Nat :=
  match c.mul k c.gen with
  | none => (0, 0)
  | some (x, _) => (x % c.n, invPrime k c.n * (hashInt c hash + x % c.n * d) % c.n)

/-- A signature r ‖ s with secrets drawn from the free values from `ctr` on, drawn again while r or s is 0 (R398). -/
def Curve.sign (c : Curve) (d ctr : Nat) (hash : List Byte) : Nat → List Byte
  | 0 => []
  | fuel + 1 =>
    let (r, s) := c.signWith d (1 + Config.freeNat ctr % (c.n - 1)) hash
    if r = 0 ∨ s = 0 then c.sign d (ctr + 1) hash fuel else be c.len r ++ be c.len s

/-! ### RSA (PKCS #1) -/

/-- An RSA key: p, q and e of its material (R366). -/
structure RsaKey where
  p : Nat
  q : Nat
  e : Nat
  deriving DecidableEq, Repr

/-- The key that material of `m` modulus bits spells. -/
def rsaOf (m : Nat) (l : List Byte) : RsaKey := { p := beAt l 0 (m / 16), q := beAt l (m / 16) (m / 16), e := beAt l (m / 8) 4 }

def RsaKey.n (k : RsaKey) : Nat := k.p * k.q
def RsaKey.lambda (k : RsaKey) : Nat := Nat.lcm (k.p - 1) (k.q - 1)
def RsaKey.private_ (k : RsaKey) (x : Nat) : Nat := modPow x (invMod k.e k.lambda) k.n

/-- The checks of an RSA key of `b` modulus bits (R403). -/
def rsaOk (ctr b : Nat) (k : RsaKey) : Bool :=
  decide (3 * 2 ^ (b / 2 - 2) ≤ k.p) && decide (3 * 2 ^ (b / 2 - 2) ≤ k.q) && passesPrime ctr k.p && passesPrime (ctr + 64) k.q &&
  decide (2 ^ (b / 2 - 100) < (k.p - k.q) + (k.q - k.p)) && decide (k.e % 2 = 1) && decide (65537 ≤ k.e) && decide (Nat.gcd k.e k.lambda = 1)

/-- The hash function of a digest length. -/
def shaOf (n : Nat) (l : List Byte) : List Byte :=
  if n = 32 then sha256 l else if n = 48 then sha384 l else sha512 l

/-- MGF1. -/
def mgf1 (hash : Nat) (seed : List Byte) (n : Nat) : List Byte :=
  ((List.range ((n + hash - 1) / hash)).flatMap (fun i => shaOf hash (seed ++ be 4 i))).take n

/-- Bytewise exclusive or of two strings. -/
def xorList (a b : List Byte) : List Byte := List.zipWith (fun (x y : Byte) => x ^^^ y) a b

/-- The DER prefix of a DigestInfo for a digest of `n` bytes. -/
def digestInfo (n : Nat) : List Byte :=
  let oid := if n = 32 then 1 else if n = 48 then 2 else 3
  [0x30, BitVec.ofNat 8 (17 + n), 0x30, 0x0d, 0x06, 0x09, 0x60, 0x86, 0x48, 0x01, 0x65, 0x03, 0x04, 0x02, BitVec.ofNat 8 oid, 0x05, 0x00,
   0x04, BitVec.ofNat 8 n]

/-- The PKCS #1 v1.5 encoding of a digest, `m` bytes. -/
def emsaV15 (m : Nat) (hash : List Byte) : List Byte :=
  let t := digestInfo hash.length ++ hash
  [0x00, 0x01] ++ List.replicate (m - 3 - t.length) 0xFF ++ [0x00] ++ t

/-- The PSS encoding of a digest with a salt of its length, for a modulus of 8 `m` bits. -/
def emsaPss (m : Nat) (hash salt : List Byte) : List Byte :=
  let h := shaOf hash.length (List.replicate 8 0 ++ hash ++ salt)
  let db := List.replicate (m - 2 * hash.length - 2) 0 ++ [0x01] ++ salt
  let masked := xorList db (mgf1 hash.length h (m - hash.length - 1))
  be 1 (beAt masked 0 1 % 128) ++ masked.drop 1 ++ h ++ [0xBC]

/-- OAEP decoding with an empty label (R398): the message, none if the encoding is wrong. -/
def oaepDecode (m hash : Nat) (em : List Byte) : Option (List Byte) :=
  let masked := em.drop (1 + hash)
  let seed := xorList (slice em 1 hash) (mgf1 hash masked hash)
  let db := xorList masked (mgf1 hash seed (m - hash - 1))
  let rest := (db.drop hash).dropWhile (· = 0)
  if beAt em 0 1 = 0 ∧ db.take hash = shaOf hash [] ∧ rest.head? = some 1 then some (rest.drop 1) else none

end Sys2Proof.Machine
end

