-- ==== Sys2Proof/Machine/Scramble.lean ====
section
/-! DEFINITION. The self-synchronous scrambler that trunks and the Aqueduct share (R297, R431). -/

namespace Sys2Proof.Machine

/-- A bit through the self-synchronous scrambler x^58 + x^39 + 1: its last 58 output bits, newest in bit 0. -/
def scrambleBit (c : BitVec 58) (b : Bool) : BitVec 58 × Bool :=
  let o := (b ^^ c.getLsbD 38) ^^ c.getLsbD 57
  ((c <<< 1) ||| (BitVec.ofBool o).setWidth 58, o)

/-- Bits through the scrambler, in order. -/
def scramble (c : BitVec 58) : List Bool → BitVec 58 × List Bool
  | [] => (c, [])
  | b :: r =>
    let (c, o) := scrambleBit c b
    let (c, l) := scramble c r
    (c, o :: l)

/-- The bits of bytes, most significant first. -/
def bitsOfBytes (l : List Byte) : List Bool := l.flatMap (fun (b : Byte) => (List.range 8).map (fun i => b.getLsbD (7 - i)))

end Sys2Proof.Machine
end

