-- ==== Sys2Proof/Machine/Link.lean ====
section
/-! DEFINITION. Key derivation and AES-GCM with the functions of Crypto.lean (R176, R204, R432), and the record stream of the
Aqueduct (R432, R435, R437). -/

namespace Sys2Proof.Machine

/-! ### Derivation and sealing -/

/-- The bytes of an ASCII label. -/
def ascii (t : String) : List Byte := t.toList.map (fun c => BitVec.ofNat 8 c.toNat)

/-- The counter-mode KDF of R176: `n` output bytes. -/
def kdf (root label context : List Byte) (n : Nat) : List Byte :=
  ((List.range ((n + 15) / 16)).flatMap (fun i =>
    cmac root (be 4 (i + 1) ++ label ++ [0] ++ context ++ be 4 (8 * n)))).take n

/-- The journal key (R371). -/
def State.journalKey (s : State) : List Byte := kdf Config.dus (ascii "MELSAR JOURNAL") s.well.secret 32

/-- The wrap key KW (R371). -/
def State.wrapKey (s : State) : List Byte := kdf Config.dus (ascii "MELSAR KEY AREA") s.well.secret 32

/-! ### Identity and agreement keys (R383, R384) -/

/-- The P-384 private scalar that 48 bytes give (R383). -/
def scalar384 (l : List Byte) : Nat := beVal (l.take 48) % (p384.n - 1) + 1

/-- The public point of a P-384 scalar, 97 bytes. -/
def public384 (d : Nat) : List Byte := p384.enc (p384.mul d p384.gen)

/-- The output bytes of a DeviceID, alias or agreement derivation (R383). -/
def deviceSecret : List Byte := kdf Config.dus (ascii "MELSAR DEVICE ID") [] 80
def aliasSecret (fw image : List Byte) : List Byte :=
  kdf (kdf Config.dus (ascii "MELSAR CDI") (slice Config.romMeas 0 48 ++ slice fw 0 48 ++ slice image 0 48) 32) (ascii "MELSAR ALIAS KEY") [] 80
def agreeSecret (e : Nat) : List Byte := kdf Config.dus (ascii "MELSAR AGREEMENT") (slice Config.ownerDigest 0 48 ++ be 1 e) 112

/-- The two public keys of DeviceID or of the alias keys: ECDSA P-384, then ML-DSA-65. -/
def publicPair (secret : List Byte) : List Byte := public384 (scalar384 secret) ++ slice (Config.mldsaPublic false (secret.drop 48)) 0 1952

/-- The identity digest (R384). -/
def identityDigest : List Byte := sha384 (publicPair deviceSecret)

/-! ### The Aqueduct's frames and records (R432, R435, R437) -/

/-- A record of 32 bytes (R437). -/
def rec32 (b : List Byte) : List Byte := slice b 0 32

/-- Bytes 0 to 23 of a link frame (R432). -/
def linkHead (kind count seq rseq ack : Nat) : List Byte :=
  be 4 0xA9C35E17 ++ be 1 kind ++ be 1 count ++ be 2 0 ++ be 8 seq ++ be 4 rseq ++ be 4 ack

/-- The IV of a link frame (R432). -/
def linkIv (seq : Nat) : List Byte := be 4 0 ++ be 8 seq

/-- A sealed link frame: DATA or AUTH (R432). -/
def linkFrame (key : List Byte) (kind count seq rseq ack : Nat) (records : List Byte) : List Byte :=
  let h := linkHead kind count seq rseq ack
  let c := gcmCrypt key (linkIv seq) (slice records 0 224)
  h ++ c ++ gcmTagOf key (linkIv seq) h c

/-! ### Line coding (R431) -/

/-- Bits with one of the opposite value put in after 31 equal ones in a row (R431). -/
def stuffBits (x : AqLane) : List Bool → AqLane × List Bool
  | [] => (x, [])
  | b :: r =>
    let n := if x.run ≠ 0 ∧ b = x.last then x.run + 1 else 1
    if 31 ≤ n then
      let (y, l) := stuffBits { x with last := !b, run := 1 } r
      (y, b :: (!b) :: l)
    else
      let (y, l) := stuffBits { x with last := b, run := n } r
      (y, b :: l)

/-- Bits sent on lane `k`, whose coder goes on as `c`. -/
def onLane (p : Pair) (out : List (List Bool)) (w k : Nat) (c : AqLane) (coder : Nat) (l : List Bool) : Pair × List (List Bool) :=
  ({ p with line := p.line.set coder c, place := (k + 1) % w }, out.set k (out.getD k [] ++ l))

/-- BLOCK: a block of 64 bits, `head` when its header is 10, goes to the next lane; one scrambler serves the block stream (R431). -/
def sendBlock (w : Nat) (x : Pair × List (List Bool)) (b : Bool × List Byte) : Pair × List (List Bool) :=
  let c := x.1.line.getD 0 {}
  let (scr, l) := scramble c.scr (bitsOfBytes b.2)
  onLane x.1 x.2 w (x.1.place % w) { c with scr := scr } 0 (b.1 :: (!b.1) :: l)

/-- STUFFED: a byte goes to the next lane, which has its own scrambler and its own stuffing (R431). -/
def sendByte (w : Nat) (x : Pair × List (List Bool)) (b : Byte) : Pair × List (List Bool) :=
  let k := x.1.place % w
  let c := x.1.line.getD k {}
  let (scr, l) := scramble c.scr (bitsOfBytes [b])
  let (c, l) := stuffBits { c with scr := scr } l
  onLane x.1 x.2 w k c k l

/-- Lanes of the configured width (R430, R451). -/
def aqdLanes (s : State) : Nat := 2 ^ (s.fld R.AQD_CFG F.AQD_CFG_WIDTH + 1)

/-- A frame leaves on the link: in the coding of AQD_CFG, after as many idle blocks or zero bytes as time has let pass since the last
one, a free number; in SLEEP it takes lanes 0 and 1 (R431, R436). -/
def sendLink (s : State) (f : List Byte) : State :=
  let (n, s) := s.free (2 ^ 32)
  let w := if s.pair.txSleep then 2 else aqdLanes s
  let x := (s.pair, List.replicate w [])
  let (p, l) :=
    if s.flag R.AQD_CFG F.AQD_CFG_CODING then (List.replicate n 0 ++ f).foldl (sendByte w) x
    else (List.replicate n (true, List.replicate 8 0) ++ (List.range 33).map (fun i => (decide (i = 0), slice f (8 * i) 8))).foldl (sendBlock w) x
  ({ s with pair := p }.emit (.aqueduct f)).emit (.aqueductLanes l)

/-- Coders for `n` lanes; what their scramblers hold at first is a free value: the spec states none. -/
def newLine (s : State) : Nat → List AqLane × State
  | 0 => ([], s)
  | n + 1 =>
    let (v, s) := s.free (2 ^ 58)
    let (l, s) := newLine s n
    ({ scr := BitVec.ofNat 58 v } :: l, s)

/-- Is the session up: records can be sent (R434)? -/
def State.linkUp (s : State) : Bool := s.pair.train = .up

/-- One DATA frame with up to 7 records from the first unsent one (R432, R435). -/
def sendFrame (s : State) : State :=
  let p := s.pair
  let l := (p.queue.drop p.sent).take 7
  let f := linkFrame p.keyTx 1 l.length p.seqTx ((p.base + p.sent) % 2 ^ 32) p.expected l.flatten
  sendLink { s with pair := { p with seqTx := p.seqTx + 1, sent := p.sent + l.length } } f

/-- Frames until every record of the stream has been sent; `n` bounds their number. -/
def pumpFrames (s : State) : Nat → State
  | 0 => s
  | n + 1 => if s.pair.sent < s.pair.queue.length then pumpFrames (sendFrame s) n else s

/-- Every record that waits leaves in new frames, while the session is up (R435). -/
def pump (s : State) : State := if s.linkUp then pumpFrames s s.pair.queue.length else s

/-- A record joins the stream, if the session is up, and leaves in the next frame. -/
def sendRec (s : State) (r : List Byte) : State :=
  if s.linkUp then
    pump ({ s with pair := { s.pair with queue := s.pair.queue ++ [rec32 r] } }.count (.dev 6))
  else s

/-- A HANDOVER or TAKE record goes ahead of every other pending record (R435). -/
def sendUrgent (s : State) (r : List Byte) : State :=
  if s.linkUp then
    let p := s.pair
    pump ({ s with pair := { p with queue := p.queue.take p.sent ++ [rec32 r] ++ p.queue.drop p.sent } }.count (.dev 6))
  else s

/-- Does the active device send mirror records: the partner is SYNCING or READY (R427, R428)? -/
def State.mirrors (s : State) : Bool := s.linkUp && (s.pair.partner = .syncing || s.pair.partner = .ready)

/-- A mirror record of the active device. -/
def mirror (s : State) (r : List Byte) : State := if s.mirrors then sendRec s r else s

/-- A JOURNALED is owed: a transmit load or an epoch of the active device is not journaled here yet (R439, R440). -/
def State.owesJournaled (s : State) : Bool :=
  s.txAssocs.any (fun e => e.2.slot0.state = .loading || e.2.slot1.state = .loading) || s.trunks.any (fun e => e.2.asked.isSome)

/-- A standby is STANDBY_READY once SNAP_END is applied, no JOURNALED is owed and its HEALTH is clear (R440, R443). -/
def becomeReady (s : State) : State :=
  if s.dev.state = .standby ∧ s.pair.role = .syncing ∧ s.pair.synced ∧ !s.pair.wasDetached ∧ !s.owesJournaled ∧ s.pair.faults = [] then
    { s with pair := { s.pair with role := .ready } }
  else s

/-- A diagnosis fails (R443): it is reported, and a standby with an enabled fault is not READY. -/
def addFault (s : State) (n : Nat) : State :=
  let s := if s.pair.faults.contains n then s else { s.alarm R.PAI_ALARM F.PAI_ALARM_DIAG with pair := { s.pair with faults := n :: s.pair.faults } }
  if s.pair.role = .ready ∧ (n = 7 ∨ bit (s.fld R.PAI_CFG F.PAI_CFG_GU_EN) n) then { s with pair := { s.pair with role := .syncing } } else s

/-! ### Giving up and diagnoses (R443, R444) -/

/-- A pair is in use (R426). -/
def pairOn (s : State) : Bool := s.flag R.PAI_CFG F.PAI_CFG_EN

/-- The link's record changed. -/
def State.modPair (s : State) (f : Pair → Pair) : State := { s with pair := f s.pair }

/-- Giving up starts: nodes close, `ACTIVE` falls, `HANDOVER` pulses, and the HANDOVER record goes out (R444). -/
def startGiveUp (s : State) (cause : Nat) : State :=
  let s := s.modPair (fun p => { p with givingUp := true, activeOut := false, lastCause := cause })
  sendUrgent (s.emit .handover) (be 1 8 ++ be 1 cause ++ be 2 0 ++ be 4 s.pair.takeGen)

/-- An Active member of a pair that is not giving up already. -/
def mayGiveUp (s : State) : Bool := pairOn s && s.dev.state = .active && !s.pair.givingUp

/-- Giving up for a cause; not while the partner is not READY (R443). -/
def tryGiveUp (s : State) (cause : Nat) : State × Status :=
  if !mayGiveUp s then (s, .denied)
  else if s.pair.partner = .ready then (startGiveUp s cause, .ok)
  else (s.alarm R.PAI_ALARM F.PAI_ALARM_NO_STANDBY, .denied)

/-- Diagnosis `n` of R443 fails, or, with `present` false, no longer fails. -/
def diagnose (s : State) (n : Nat) (present : Bool) : State :=
  if n = 5 ∨ 7 < n then s
  else if present then
    let s := addFault s n
    if mayGiveUp s ∧ (n = 7 ∨ bit (s.fld R.PAI_CFG F.PAI_CFG_GU_EN) n) then (tryGiveUp s (n + 1)).1 else s
  else becomeReady (s.modPair (fun p => { p with faults := p.faults.filter (· ≠ n) }))

/-- A device that goes to Maintenance or Halt has no role in the pair: `ACTIVE` is low, and it takes over no more (R426, R427,
R445). -/
def leavePair (s : State) : State := s.modPair (fun p => { p with role := .none, activeOut := false, taking := false })

/-- A journal write has failed: diagnosis 6 fails (R443), and a standby is not READY (R439). -/
def journalFault (s : State) : State :=
  let s := diagnose s 6 true
  if s.dev.state = .standby then s.modPair (fun p => { p with role := .syncing }) else s

/-- The position that the next record of the stream takes. -/
def State.nextPos (s : State) : Nat := (s.pair.base + s.pair.queue.length) % 2 ^ 32

/-! ### Identity of a start (R383, R384, R387) -/

/-- The alias keys' public pair. -/
def aliasPair (s : State) : List Byte := publicPair (aliasSecret s.ident.fwMeas s.ident.imageMeas)

/-- The measurements of this start, 144 bytes. -/
def measurements (s : State) : List Byte := slice Config.romMeas 0 48 ++ slice s.ident.fwMeas 0 48 ++ slice s.ident.imageMeas 0 48

/-- The DeviceID and alias keys of this start are derived, and the endorsement signed (R383, R387). -/
def deriveIdentity (s : State) (fw image : List Byte) : State :=
  let s := { s with ident := { s.ident with fwMeas := fw, imageMeas := image, alias_ := true } }
  let d := sha384 (ascii "MELSAR ALIAS" ++ be 8 Config.serial ++ measurements s ++ aliasPair s)
  { s.useFree with ident := { s.ident with
    endorseEc := p384.sign (scalar384 deviceSecret) s.freeCtr d 64
    endorseMl := slice (Config.mldsaSign false (deviceSecret.drop 48) [] d (s.freeBytes 32)) 0 3309 } }

/-- A start that ends before step 3 derives its keys then, FW_MEAS over the MC ROM firmware alone (R383). -/
def lateIdentity (s : State) : State :=
  if s.ident.alias_ then s else deriveIdentity s (sha384 Config.mcRom) (List.replicate 48 0)

end Sys2Proof.Machine
end

