-- ==== Sys2Proof/Machine/Assoc.lean ====
section
/-! DEFINITION. Associations, key slots, generations, the journal and the SA commands (06_associations_and_rekey.md,
R165 to R198; the slice window R466). -/

namespace Sys2Proof.Machine

/-! ### Suites, records and slots (R170, R196, R197) -/

/-- Key bytes, salt bytes and PN_MAX of a suite (R170). -/
def keyBytes (suite : Nat) : Nat := if suite % 2 = 0 then 16 else 32
def saltBytes (kind suite : Nat) : Nat := if kind = 1 then 4 else if 2 ≤ suite then 12 else 0
def narrowPn (kind suite : Nat) : Bool := decide (kind = 0 ∧ suite < 2)
def pnMax (kind suite : Nat) : Nat := if narrowPn kind suite then 0xFFFFFFFF else 0xFFFFFFFFFFFFFFFF
def suiteOk (kind suite : Nat) : Bool := if kind = 0 then decide (suite < 4) else decide (kind = 1 ∧ suite < 2)

/-- Flags of a record (R196). -/
def AssocRec.encrypt (r : AssocRec) : Bool := bit r.flags 0
def AssocRec.sciEn (r : AssocRec) : Bool := bit r.flags 1
def AssocRec.es (r : AssocRec) : Bool := bit r.flags 2
def AssocRec.natT (r : AssocRec) : Bool := bit r.flags 3
def AssocRec.check (r : AssocRec) : Bool := bit r.flags 4
def AssocRec.replayEn (r : AssocRec) : Bool := bit r.flags 5
def AssocRec.autoNext (r : AssocRec) : Bool := bit r.flags 6
def AssocRec.follow (r : AssocRec) : Bool := bit r.flags 7
def AssocRec.trig (r : AssocRec) : Nat := r.sw % 4
def AssocRec.trigTb (r : AssocRec) : Nat := r.sw / 4 % 4
def AssocRec.span (r : AssocRec) : Nat := r.sw / 16

/-- The record that 40 bytes spell (R196). -/
def assocRecOf (b : List Byte) : AssocRec where
  kind := beAt b 1 1
  suite := beAt b 2 1
  port := beAt b 3 1
  flags := beAt b 4 1
  confOffset := beAt b 5 1
  sw := beAt b 6 1
  comparator := beAt b 7 1
  root := beAt b 8 4
  paired := beAt b 12 2
  tep := beAt b 14 2
  sci := beAt b 16 8
  ssci := beAt b 24 4
  replayWin := beAt b 28 4
  swThresh := beAt b 32 4
  retireUs := beAt b 36 4

/-- The 40 bytes of a record (R196). -/
def AssocRec.bytes (rx : Bool) (r : AssocRec) : List Byte :=
  be 1 (b2n rx) ++ be 1 r.kind ++ be 1 r.suite ++ be 1 r.port ++ be 1 r.flags ++ be 1 r.confOffset ++ be 1 r.sw ++
  be 1 r.comparator ++ be 4 r.root ++ be 2 r.paired ++ be 2 r.tep ++ be 8 r.sci ++ be 4 r.ssci ++ be 4 r.replayWin ++
  be 4 r.swThresh ++ be 4 r.retireUs

/-- The flag bits that apply to a kind and direction (R196). -/
def flagMask (rx : Bool) (kind : Nat) : Nat :=
  if kind = 1 then (if rx then 0x28 else 0x08) else if rx then 0xB0 else 0x47

/-- Is a record within R196, R170 and R207, for direction `rx`? The comparator of SW_TRIG 2 must be claimed (R185). -/
def recordOk (s : State) (rx : Bool) (b : List Byte) : Bool :=
  let r := assocRecOf b
  let xpn := decide (r.kind = 0 ∧ 2 ≤ r.suite)
  decide (beAt b 0 1 = b2n rx) && suiteOk r.kind r.suite && decide (r.port < 16) &&
  decide (r.flags &&& (255 - flagMask rx r.kind) = 0) &&
  (if r.kind = 0 then r.confOffset = 0 || r.confOffset = 30 || r.confOffset = 50 else r.confOffset = 0) &&
  (if rx then decide (r.sw % 16 = 0) else decide (r.trig < 3)) &&
  (if rx && r.kind = 0 then !r.follow || decide (0 < r.span) else decide (r.span = 0)) &&
  (if rx then decide (r.comparator = 0) else decide (r.comparator < 32)) &&
  (decide (r.paired < 16384) || decide (r.paired = 0xFFFF)) &&
  (if !rx && r.kind = 1 then decide (r.tep < 4096) else decide (r.tep = 0)) &&
  (decide (r.kind = 0) || decide (r.sci = 0)) && (xpn || decide (r.ssci = 0)) &&
  (if rx then decide (r.kind = 0) || decide (r.replayWin ≤ 1024) else decide (r.replayWin = 0) && decide (r.retireUs = 0)) &&
  (if rx then decide (r.swThresh = 0)
   else if r.trig = 1 then decide (1 ≤ r.swThresh) && (!narrowPn r.kind r.suite || decide (r.swThresh ≤ 255)) else true) &&
  (if !rx && r.trig = 2 then (s.reg R.TIM_TIA).getLsbD r.comparator else true)

/-- The state code of a slot (R197). -/
def SlotState.code : SlotState → Nat
  | .empty => 0 | .loading => 1 | .ready => 2 | .current => 3 | .accept => 3 | .draining => 4 | .exhausted => 5
  | .probation => 6

/-- The transmit slot in use: the CURRENT one, else an EXHAUSTED one. -/
def Assoc.current (a : Assoc) : Option Nat :=
  if a.slot0.state = .current then some 0
  else if a.slot1.state = .current then some 1
  else if a.slot0.state = .exhausted then some 0
  else if a.slot1.state = .exhausted then some 1
  else none

/-- The newer of the receive slots in ACCEPT: the one of higher generation. -/
def Assoc.newer (a : Assoc) : Option Nat :=
  if a.slot0.state = .accept ∧ (a.slot1.state ≠ .accept ∨ a.slot1.gen ≤ a.slot0.gen) then some 0
  else if a.slot1.state = .accept then some 1
  else none

/-- CUR of a slot (R197). -/
def slotCur (rx : Bool) (a : Assoc) (k : Nat) : Bool := (if rx then a.newer else a.current) = some k

/-- The lowest EMPTY slot (R172). -/
def Assoc.emptySlot (a : Assoc) : Option Nat :=
  if a.slot0.state = .empty then some 0 else if a.slot1.state = .empty then some 1 else none

/-- The lowest acceptable PN of a receive slot (R189, R197). -/
def lowestPn (r : AssocRec) (x : Slot) : Nat := if r.replayEn then max 1 (x.pn + 1 - r.replayWin) else 1

/-! ### The host pool (R167, R456) and the windows (R194, R466) -/

/-- Are slices enabled? -/
def State.slicesOn (s : State) : Bool := s.flag R.HIF_CFG F.HIF_CFG_SLICES_EN

/-- The slice that owns an association index, if any (R167). -/
def sliceOfAssoc (s : State) (i : Nat) : Option Nat := if s.slicesOn ∧ 12288 ≤ i then some ((i - 12288) / 64) else none

/-- First register of a window: of the SAT block, or of a slice page. -/
def saBase : Fn → Nat
  | .pf => R.SA_CMD
  | .vf k => R.SL_SA_CMD k

def aSaCmd (fn : Fn) : Nat := saBase fn
def aSaStatus (fn : Fn) : Nat := saBase fn + 0x4
def aSaIndex (fn : Fn) : Nat := saBase fn + 0x8
def aSaAlarm (fn : Fn) : Nat := saBase fn + 0x10
def aSaData (fn : Fn) : Nat := saBase fn + 0x40

/-- An SA_ALARM bit is set in the window of the association's owner; the SAT block's raises vector 0 (R464). -/
def saAlarm (s : State) (i : Nat) (f : Fld) : State :=
  match sliceOfAssoc s i with
  | some k => s.setFld (aSaAlarm (.vf k)) f 1
  | none => s.alarm R.SA_ALARM f

/-- An SA command of a window ends with a status (R195, R464). -/
def saEnd (s : State) (fn : Fn) (st : Status) : State :=
  let s := (s.setFld (aSaStatus fn) F.SA_STATUS_BUSY 0).setFld (aSaStatus fn) F.SA_STATUS_STATUS st.code
  match fn with
  | .pf => s
  | .vf k => s.interrupt (.vf k) 16

/-- Image record `i` refused with a status, and the first one named (R71). -/
def reject (s : State) (i : Nat) (st : Status) : State :=
  let first := s.fld R.IMG_REJ F.IMG_REJ_FIRST_STATUS = 0
  let s := s.setFld R.IMG_REJ F.IMG_REJ_COUNT (min (s.fld R.IMG_REJ F.IMG_REJ_COUNT + 1) (2 ^ 24 - 1))
  if first then (s.setFld R.IMG_REJ F.IMG_REJ_FIRST_STATUS st.code).setReg R.IMG_REJ_IDX (BitVec.ofNat 32 i) else s

/-! ### Slot changes and their records (R172, R173, R437) -/

/-- The SLOT record of a slot (R437). -/
def slotRec (rx : Bool) (i k : Nat) (a : Assoc) : List Byte :=
  let x := a.slot k
  be 1 3 ++ be 1 (b2n rx + 2 * k) ++ be 2 i ++ be 1 x.state.code ++ be 1 x.an ++ be 1 x.origin ++ be 1 (b2n (slotCur rx a k)) ++
  be 4 x.gen ++ be 4 x.spi

/-- The PN_RES record of a boundary (R437). -/
def pnResRec (i k gen boundary : Nat) : List Byte := be 1 2 ++ be 1 k ++ be 2 i ++ be 4 gen ++ be 8 boundary

/-- The RX_MARK record of a slot (R437, R441). -/
def rxMarkRec (i k gen mark : Nat) : List Byte := be 1 4 ++ be 1 k ++ be 2 i ++ be 4 gen ++ be 8 mark

/-- A slot given a new content, without a record. -/
def putSlot (s : State) (rx : Bool) (i k : Nat) (x : Slot) : State := s.setAssoc rx i ((s.assoc rx i).setSlot k x)

/-- A slot that changes state: the change is mirrored (R437). -/
def changeSlot (s : State) (rx : Bool) (i k : Nat) (x : Slot) : State :=
  let s := putSlot s rx i k x
  mirror s (slotRec rx i k (s.assoc rx i))

/-- Loads of an UPDATE that are still on their way (R382, step 11). -/
def updateWaits (s : State) : Bool :=
  s.txAssocs.any (fun e => e.2.slot0.upd.isSome || e.2.slot1.upd.isSome) || s.rxAssocs.any (fun e => e.2.slot0.upd.isSome || e.2.slot1.upd.isSome)

/-- A mailbox operation ends: BUSY falls and vector 3 fires (R390, R464). -/
def kstDone (s : State) : State := (s.setFld R.KST_STATUS F.KST_STATUS_BUSY 0).interrupt .pf 3

/-- One load of an UPDATE has ended; the first that failed makes it ABORTED with its item in DETAIL, and the UPDATE ends
with the last one (R382, step 11). -/
def updateLoaded (s : State) (item : Nat) (good : Bool) : State :=
  let s := if good ∨ s.fld R.KST_STATUS F.KST_STATUS_STATUS = Status.code .aborted then s
    else (s.setFld R.KST_STATUS F.KST_STATUS_STATUS (Status.code .aborted)).setFld R.KST_STATUS F.KST_STATUS_DETAIL item
  if updateWaits s then s else kstDone s

/-- The commands that wait for a load are told how it ended: a DERIVE (R195), an UPDATE (R382). -/
def loadEnds (s : State) (x : Slot) (good : Bool) : State :=
  let s := match x.cmd with
    | some fn => saEnd s fn (if good then .ok else .aborted)
    | none => s
  match x.upd with
  | some n => updateLoaded s n good
  | none => s

/-- A slot goes EMPTY and its key is cleared (R172, R173); a command that waits for it ends ABORTED. -/
def clearSlot (s : State) (rx : Bool) (i k : Nat) : State :=
  let x := (s.assoc rx i).slot k
  if x = {} then s else loadEnds (changeSlot s rx i k {}) x false

/-! ### Generations (R174, R175) and the journal (R179) -/

/-- GEN_HIGH of a pair (R174). -/
def State.genHighOf (s : State) (root ctx : Nat) : Nat :=
  match s.genHigh.find? (fun m => m.root = root && m.ctx = ctx) with
  | some m => m.gen
  | none => 0

/-- The context identifier of a transmit association and SPI (R169, R174). -/
def ctxOf (r : AssocRec) (spi : Nat) : Nat := if r.kind = 0 then r.sci else spi

/-- The root under which a slot's generation counts: installed keys use ROOT 0 (R174). -/
def rootOf (r : AssocRec) (origin : Nat) : Nat := if origin = 2 then 0 else r.root

/-- The highest generation of a pair that a load now on its way has been given. -/
def loadingGen (s : State) (root ctx : Nat) : Nat :=
  (s.txAssocs.map (fun e => (([e.2.slot0, e.2.slot1].filter (fun x =>
    decide (x.state = .loading ∧ rootOf e.2.record x.origin = root ∧ ctxOf e.2.record x.spi = ctx))).map (·.gen)).foldl max 0)).foldl max 0

/-- The highest generation used for a pair, counting loads on their way (R175). -/
def genFloor (s : State) (root ctx : Nat) : Nat := max (s.genHighOf root ctx) (loadingGen s root ctx)

/-- GEN_HIGH of a pair raised; it is never lowered (R175). -/
def raiseGen (s : State) (root ctx gen : Nat) : State :=
  if (s.genHigh.any (fun m => m.root = root && m.ctx = ctx)) then
    { s with genHigh := s.genHigh.map (fun m => if m.root = root ∧ m.ctx = ctx then { m with gen := max m.gen gen } else m) }
  else { s with genHigh := s.genHigh ++ [{ root := root, ctx := ctx, gen := gen }] }

/-- A journal record (R179). -/
def journalRec (key : List Byte) (seq assoc : Nat) (m : GenMark) : List Byte :=
  let h := be 6 seq ++ be 2 assoc ++ be 4 m.root ++ be 4 m.gen ++ be 8 m.ctx
  h ++ (cmac key h).take 8

/-- Records of the half in use. -/
def Journal.half (j : Journal) (n : Nat) : List (List Byte) := if n = 0 then j.half0 else j.half1
def Journal.setHalf (j : Journal) (n : Nat) (l : List (List Byte)) : Journal :=
  if n = 0 then { j with half0 := l } else { j with half1 := l }

/-- One record appended to the active half and confirmed in JSEQ (R179). -/
def journalAppend (s : State) (assoc : Nat) (m : GenMark) : State :=
  let j := s.journal
  let r := journalRec s.journalKey (s.well.jseq + 1) assoc m
  { s with journal := j.setHalf j.active (j.half j.active ++ [r]), well := { s.well with jseq := s.well.jseq + 1 } }

/-- Compaction: one record for each pair into the other half, and the full half is erased (R179). -/
def journalCompact (s : State) : State :=
  let old := s.journal.active
  let s := { s with journal := { s.journal.setHalf (1 - old) [] with active := 1 - old } }
  let s := s.genHigh.foldl (fun t m => journalAppend t 0 m) s
  { s with journal := s.journal.setHalf old [] }

/-- A generation made durable: the half is compacted when it is full (R179), and GEN_HIGH is raised (R175). -/
def journalGen (s : State) (assoc root ctx gen : Nat) : State :=
  let s := if 131072 ≤ (s.journal.half s.journal.active).length then journalCompact s else s
  raiseGen (journalAppend s assoc { root := root, ctx := ctx, gen := gen }) root ctx gen

/-! ### Loads (R169, R171, R175 to R178, R195) -/

/-- The owner key under a handle, if one is held (R365). -/
def State.ownerKey (s : State) (h : Nat) : Option OwnerKey := if kget {} s.owner h = {} then none else some (kget {} s.owner h)

/-- The root key of a DERIVE (R195, R367). -/
def rootKey (s : State) (root : Nat) : Except Status (List Byte) :=
  if root = 0 then .error .invalid
  else if 0xFFFFFF01 ≤ root ∧ root ≤ 0xFFFFFF04 then .error .invalid
  else match s.ownerKey root with
    | none => .error .notFound
    | some k => if bit k.dest 6 then .ok k.material else .error .invalid

/-- The derived key and salt of a slot (R176). -/
def deriveKey (root : List Byte) (r : AssocRec) (spi gen : Nat) : List Byte :=
  let label := if r.kind = 0 then ascii "MELSAR MACSEC SAK" else ascii "MELSAR ESP KEY"
  let ctx := if r.kind = 0 then be 8 r.sci else be 4 spi
  kdf root label (ctx ++ be 4 gen ++ be 1 r.suite) (keyBytes r.suite + saltBytes r.kind r.suite)

/-- Does a load of association `i` repeat the AN or SPI of its other slot (R171), or, for a transmit ESP load, the pair
(ROOT, SPI) of another valid association (R169)? -/
def clashes (s : State) (rx : Bool) (i k an spi root : Nat) : Bool :=
  let a := s.assoc rx i
  let y := a.slot (1 - k)
  (decide (y.state ≠ .empty) && (if a.record.kind = 0 then decide (y.an = an) else decide (y.spi = spi))) ||
  (!rx && decide (a.record.kind = 1) && s.txAssocs.any (fun e =>
    e.1 ≠ i && e.2.valid && e.2.record.kind = 1 && e.2.record.root = root &&
    ((e.2.slot0.state ≠ .empty && e.2.slot0.spi = spi) || (e.2.slot1.state ≠ .empty && e.2.slot1.spi = spi))))

/-- The pairs of the transmit loads on their way. -/
def loadingPairs (s : State) : List (Nat × Nat) :=
  s.txAssocs.flatMap (fun e => ([e.2.slot0, e.2.slot1].filter (fun x => x.state = .loading)).map (fun x => (rootOf e.2.record x.origin, ctxOf e.2.record x.spi)))

/-- The generation table of 32768 pairs has room for a pair, counting the loads on their way (R179). -/
def genRoom (s : State) (root ctx : Nat) : Bool :=
  let known (p : Nat × Nat) : Bool := s.genHigh.any (fun m => m.root = p.1 && m.ctx = p.2)
  let fresh := ((loadingPairs s).filter (fun p => !known p)).eraseDups
  known (root, ctx) || fresh.contains (root, ctx) || decide (s.genHigh.length + fresh.length < 32768)

/-- The generation of a load: `g`, or the next one for 0 (R175); FULL where the table has no room for a new pair (R179). -/
def loadGen (s : State) (rx : Bool) (a : Assoc) (root ctx g : Nat) : Except Status Nat :=
  if rx then
    if g = 0 then (if a.genRx = 0xFFFFFFFF then .error .exhausted else .ok (a.genRx + 1)) else .ok g
  else
    let h := genFloor s root ctx
    if h = 0xFFFFFFFF then .error .exhausted
    else if g ≠ 0 ∧ g ≤ h then .error .invalid
    else if genRoom s root ctx then .ok (if g = 0 then h + 1 else g) else .error .full

/-- A load enters LOADING with its key (R172, R173): the change is mirrored, and the position of a transmit load's
record is kept for the partner's JOURNALED (R439). -/
def startLoad (s : State) (rx : Bool) (i k : Nat) (x : Slot) : State :=
  changeSlot s rx i k { x with state := .loading, recPos := s.nextPos, journaled := false }

/-- A derivation of the lowest EMPTY slot of association `i` (R195): the refusal, or the state with the slot LOADING. -/
def derive (s : State) (rx : Bool) (i g an spi : Nat) (cmd : Option Fn) (auto : Bool) : Except Status State :=
  let a := s.assoc rx i
  let r := a.record
  match rootKey s r.root with
  | .error e => .error e
  | .ok root =>
    match a.emptySlot with
    | none => .error .full
    | some k =>
      let spi := if r.kind = 0 then 0 else spi
      if r.kind = 0 ∧ 4 ≤ an then .error .invalid
      else
        match loadGen s rx a r.root (ctxOf r spi) g with
        | .error e => .error e
        | .ok gen =>
          let an := if r.kind = 0 then (if auto then gen % 4 else an) else 0
          if clashes s rx i k an spi r.root then .error .invalid
          else
            let m := deriveKey root r spi gen
            .ok (startLoad s rx i k { an := an, origin := 1, spi := spi, gen := gen, key := m.take (keyBytes r.suite), salt := m.drop (keyBytes r.suite), cmd := cmd, auto := auto })

/-- May a transmit load begin now: the MC serves the journal (R194), and the partner is not LOST (R427)? -/
def txLoadOpen (s : State) : Bool := s.dev.mcUp && decide (s.pair.partner ≠ .lost)

/-- AUTO_NEXT (R186): an EMPTY slot beside a CURRENT one is derived at once; a derivation that cannot begin is tried
again after 1 s. One that fails sets SA_ALARM.JOURNAL, the only bit of SA_ALARM that stands for a load. -/
def autoNext (s : State) (i : Nat) : State :=
  let a := s.assoc false i
  if a.valid ∧ a.record.kind = 0 ∧ a.record.autoNext ∧ a.record.root ≠ 0 ∧ a.emptySlot.isSome ∧
      (a.slot0.state = .current ∨ a.slot1.state = .current) then
    let again := s.setAssoc false i { a with retryDue := true }
    if txLoadOpen s then
      match derive (s.setAssoc false i { a with retryDue := false }) false i 0 0 0 none true with
      | .ok t => t
      | .error _ => saAlarm again i F.SA_ALARM_JOURNAL
    else again
  else s.setAssoc false i { a with retryDue := false }

/-! ### Switch (R184) -/

/-- The READY slot of a transmit association. -/
def Assoc.ready (a : Assoc) : Option Nat :=
  if a.slot0.state = .ready then some 0 else if a.slot1.state = .ready then some 1 else none

/-- The READY slot becomes CURRENT and the slot in use goes to DRAINING (R172, R184). -/
def switchSlot (s : State) (i : Nat) : State :=
  let a := s.assoc false i
  match a.ready with
  | none => s
  | some k =>
    let s := s.setAssoc false i { a with met := false, armed := none }
    let s := match a.current with
      | some c => changeSlot s false i c { a.slot c with state := .draining }
      | none => s
    (changeSlot s false i k { a.slot k with state := .current }).count (.txsa i 6)

/-! ### Installation and removal (R195) -/

/-- Do two transmit MACsec associations share ROOT and SCI (R169)? -/
def duplicateSc (s : State) (i : Nat) (r : AssocRec) : Bool :=
  r.kind = 0 && s.txAssocs.any (fun e => e.1 ≠ i && e.2.valid && e.2.record.kind = 0 && e.2.record.root = r.root && e.2.record.sci = r.sci)

/-- INSTALL of a record that has passed its checks: slots EMPTY, GEN_RX 0, the counters cleared (R175, R476). -/
def installAssoc (s : State) (rx : Bool) (i : Nat) (r : AssocRec) : State :=
  let s := s.setAssoc rx i { valid := true, record := r }
  s.clearCtrs (if rx then (Ctr.rxsa i 0).index else (Ctr.txsa i 0).index) 8

/-- The association that a queue entry uses, with its direction: ENCRYPT uses a transmit one, DECRYPT a receive one
(R167). -/
def Job.usesAssoc (j : Job) : Option (Bool × Nat) :=
  if j.action = 1 ∨ j.action = 2 then some (false, j.assoc) else if j.action = 3 then some (true, j.assoc) else none

/-- Frames dispatched under an association that merge has not released yet (R195). -/
def assocBusy (s : State) (rx : Bool) (i : Nat) : Bool :=
  s.jobs.any (fun e => (e.2.stage = .dispatched || e.2.stage = .lost) && e.2.usesAssoc = some (rx, i) && !(e.2.merged && e.2.completed))

/-- Every slot of an ended association is emptied; its index accepts INSTALL again (R195). -/
def drainAssoc (s : State) (rx : Bool) (i : Nat) : State :=
  let s := clearSlot (clearSlot s rx i 0) rx i 1
  s.setAssoc rx i {}

/-- REMOVE: new frames drop as no-assoc at once; the slots empty when nothing is in flight (R195). -/
def removeAssoc (s : State) (rx : Bool) (i : Nat) : State :=
  let a := s.assoc rx i
  let s := s.setAssoc rx i { a with valid := false, draining := true, armed := none, met := false, retryDue := false }
  if assocBusy s rx i then s else drainAssoc s rx i

/-! ### The SA commands (R194, R195, R466) -/

/-- A PAIRED value as a window writes it, made absolute; a slice's window is slice-local (R466). -/
def pairedIn (fn : Fn) (v : Nat) : Nat :=
  match fn with
  | .pf => v
  | .vf k => if v = 0xFFFF then v else 12288 + 64 * k + v

/-- A PAIRED value as a window reads it. -/
def pairedOut (fn : Fn) (v : Nat) : Nat :=
  match fn with
  | .pf => v
  | .vf k => if v = 0xFFFF then v else v - (12288 + 64 * k)

/-- The record in a window's data registers. -/
def windowRecord (s : State) (fn : Fn) : List Byte := s.winBytes (aSaData fn) 10

/-- A slice's restrictions on a record (R466). -/
def sliceDenies (s : State) (fn : Fn) (rx : Bool) (r : AssocRec) : Bool :=
  match fn with
  | .pf => false
  | .vf k =>
    !bit (s.fld (R.HIF_SLICE_s_0 k) F.HIF_SLICE_s_0_PORT_MASK) (r.port % 16) ||
    (r.root ≠ 0 && r.root ≠ (s.reg (R.HIF_SLICE_s_1 k)).toNat) ||
    (!rx && r.kind = 1 && (r.tep < s.fld (R.HIF_SLICE_s_2 k) F.HIF_SLICE_s_2_TEP_BASE ||
      s.fld (R.HIF_SLICE_s_2 k) F.HIF_SLICE_s_2_TEP_BASE + s.fld (R.HIF_SLICE_s_2 k) F.HIF_SLICE_s_2_TEP_COUNT ≤ r.tep)) ||
    (!rx && r.trig = 2) || (r.paired ≠ 0xFFFF && 64 ≤ r.paired)

/-- The slice of a window is not ACTIVE (R466). -/
def sliceShut (s : State) (fn : Fn) : Bool :=
  match fn with
  | .pf => false
  | .vf k => (kget {} s.slices k).state ≠ .active

/-- May the window install, remove or load at index `i`: the physical function not in the host pool (R167)? -/
def poolDenied (s : State) (fn : Fn) (i : Nat) : Bool := fn = .pf && (sliceOfAssoc s i).isSome

/-- An SA command: GO is ignored while BUSY (R194). `open_` tells READ and READ_SLOT, which a slice may run in every
state. `k` gets direction and index and answers the state with a status, or none while the command still runs. -/
def saCommand (fn : Fn) (open_ : Bool) (k : Bool → Nat → State → State × Option Status) (s : State) : Res :=
  .next (s.access (aSaCmd fn) (fun s =>
    if s.flag (aSaStatus fn) F.SA_STATUS_BUSY then s
    else
      let i := s.fld (aSaIndex fn) F.SA_INDEX_INDEX
      let rx := s.flag (aSaIndex fn) F.SA_INDEX_DIR
      if sliceShut s fn && !open_ then saEnd s fn .quiesceRequired
      else
        let go := fun (j : Nat) =>
          match k rx j s with
          | (t, some st) => saEnd t fn st
          | (t, none) => t.setFld (aSaStatus fn) F.SA_STATUS_BUSY 1
        match fn with
        | .pf => go i
        | .vf n => if 64 ≤ i then saEnd s fn .invalid else go (12288 + 64 * n + i)))

/-- SA_INSTALL (R195). -/
def execSaInstall (fn : Fn) (s : State) : Res :=
  saCommand fn false (fun rx i s =>
    let b := windowRecord s fn
    let r := assocRecOf b
    if poolDenied s fn i then (s, some .denied)
    else if (s.assoc rx i).valid then (s, some .conflict)
    else if (s.assoc rx i).draining then (s, some .busy)
    else if sliceDenies s fn rx r then (s, some .denied)
    else
      let r := { r with paired := pairedIn fn r.paired }
      if recordOk s rx b && !(!rx && duplicateSc s i r) then (installAssoc s rx i r, some .ok) else (s, some .invalid)) s

/-- SA_REMOVE (R195). -/
def execSaRemove (fn : Fn) (s : State) : Res :=
  saCommand fn false (fun rx i s =>
    if poolDenied s fn i then (s, some .denied)
    else if !(s.assoc rx i).valid then (s, some .notFound)
    else (removeAssoc s rx i, some .ok)) s

/-- SA_READ (R195): the record in bytes 0 to 39. -/
def execSaRead (fn : Fn) (s : State) : Res :=
  saCommand fn true (fun rx i s =>
    let a := s.assoc rx i
    if !a.valid then (s, some .notFound)
    else (s.setWin (aSaData fn) ({ a.record with paired := pairedOut fn a.record.paired }.bytes rx) 10, some .ok)) s

/-- The 32 bytes of a slot record (R197). -/
def slotRecord (s : State) (rx : Bool) (i k : Nat) : List Byte :=
  let a := s.assoc rx i
  let x := a.slot k
  be 1 x.state.code ++ be 1 x.an ++ be 1 x.origin ++ be 1 (b2n (slotCur rx a k)) ++ be 4 x.spi ++ be 4 x.gen ++
  be 4 (if rx then a.genRx else s.genHighOf (rootOf a.record x.origin) (ctxOf a.record x.spi)) ++ be 8 x.pn ++
  be 8 (if rx then lowestPn a.record x else x.resEnd)

/-- SA_READ_SLOT (R195, R197). -/
def execSaReadSlot (fn : Fn) (s : State) : Res :=
  saCommand fn true (fun rx i s =>
    if !(s.assoc rx i).valid then (s, some .notFound)
    else (s.setWin (aSaData fn) (slotRecord s rx i (s.fld (aSaIndex fn) F.SA_INDEX_SLOT)) 8, some .ok)) s

/-- SA_DERIVE (R195): the lowest EMPTY slot is loaded; the command runs until the slot leaves LOADING. -/
def execSaDerive (fn : Fn) (s : State) : Res :=
  saCommand fn false (fun rx i s =>
    let d := s.winBytes (aSaData fn) 3
    if !(s.assoc rx i).valid then (s, some .notFound)
    else if poolDenied s fn i || s.dev.state = .standby then (s, some .denied)
    else if !rx && !txLoadOpen s then (s, some .busy)
    else match derive s rx i (beAt d 0 4) (beAt d 4 1) (beAt d 8 4) (some fn) false with
      | .ok t => (t, none)
      | .error e => (s, some e)) s

/-- SA_SWITCH (R184, R195): accepted under every SW_TRIG. -/
def execSaSwitch (fn : Fn) (s : State) : Res :=
  saCommand fn false (fun rx i s =>
    let a := s.assoc rx i
    if !a.valid then (s, some .notFound)
    else if rx || a.ready.isNone then (s, some .invalid)
    else (switchSlot s i, some .ok)) s

/-- SA_ARM_TIME (R185, R195). -/
def execSaArmTime (fn : Fn) (s : State) : Res :=
  saCommand fn false (fun rx i s =>
    let a := s.assoc rx i
    let d := s.winBytes (aSaData fn) 3
    let c := a.record.comparator
    if !a.valid then (s, some .notFound)
    else if rx || a.record.trig ≠ 2 || !(s.reg R.TIM_TIA).getLsbD c || 1000000000 ≤ beAt d 6 4 then (s, some .invalid)
    else if s.txAssocs.any (fun e => e.1 ≠ i && e.2.armed.isSome && e.2.record.comparator = c) then (s, some .busy)
    else (s.setAssoc rx i { a with armed := some { sec := beAt d 0 6, ns := beAt d 6 4 } }, some .ok)) s

/-- SA_RETIRE (R192, R195). -/
def execSaRetire (fn : Fn) (s : State) : Res :=
  saCommand fn false (fun rx i s =>
    let a := s.assoc rx i
    if !a.valid then (s, some .notFound)
    else if rx then
      if a.slot0.state = .empty ∨ a.slot1.state = .empty then (s, some .notFound)
      else (clearSlot (s.setAssoc rx i { a with retiring := none }) rx i (if a.slot0.gen < a.slot1.gen then 0 else 1), some .ok)
    else match a.ready with
      | some k => (clearSlot s rx i k, some .ok)
      | none => (s, some .notFound)) s

/-- The fields that MODIFY may change, set to those of `r` (R195). -/
def modifiable (q r : AssocRec) : AssocRec where
  kind := q.kind
  suite := q.suite
  port := q.port
  flags := r.flags / 8 * 8 + q.flags % 8
  confOffset := q.confOffset
  sw := r.sw
  comparator := r.comparator
  root := q.root
  paired := r.paired
  tep := r.tep
  sci := q.sci
  ssci := q.ssci
  replayWin := r.replayWin
  swThresh := r.swThresh
  retireUs := r.retireUs

/-- SA_MODIFY (R195). -/
def execSaModify (fn : Fn) (s : State) : Res :=
  saCommand fn false (fun rx i s =>
    let a := s.assoc rx i
    let b := windowRecord s fn
    let r := assocRecOf b
    if !a.valid then (s, some .notFound)
    else if sliceDenies s fn rx r then (s, some .denied)
    else
      let r := { r with paired := pairedIn fn r.paired }
      if recordOk s rx b ∧ modifiable a.record r = r then (s.setAssoc rx i { a with record := r }, some .ok) else (s, some .invalid)) s

/-! ### The events of slots (R172, R173, R186, R192, R193) -/

/-- A load fails: the slot goes EMPTY and its DERIVE ends ABORTED (R172), the DERIVE_AT_START of an image record counted (R198); an
AUTO_NEXT derivation is due again. -/
def loadFailed (s : State) (i k : Nat) : State :=
  let a := s.assoc false i
  let s := journalFault (clearSlot (saAlarm s i F.SA_ALARM_JOURNAL) false i k)
  let s := match (a.slot k).startRec with
    | some n => reject s n .aborted
    | none => s
  if (a.slot k).auto then s.setAssoc false i { s.assoc false i with retryDue := true } else s

/-- The state that a code of R197 names, for a loaded transmit slot of a standby. -/
def goalState (c : Nat) : SlotState := if c = 3 then .current else if c = 4 then .draining else if c = 5 then .exhausted else .ready

/-- A transmit slot leaves LOADING: the journal record is written, NEXT_PN is 1, or the PN that a take-over in the meantime has given
the slot (R183), the first reservation is recorded, and it is CURRENT if the other slot is not CURRENT or EXHAUSTED (R172, R179, R181). On a standby it takes the state
of the active device's slot, and the partner is told JOURNALED (R439). -/
def txLoaded (s : State) (i k : Nat) : State :=
  let a := s.assoc false i
  let x := a.slot k
  let s := journalGen s i (rootOf a.record x.origin) (ctxOf a.record x.spi) x.gen
  let end_ := if x.pn = 0 then 2 ^ 24 else x.pn + 2 ^ 24
  let y : Slot := { x with pn := max 1 x.pn, resEnd := end_, resReq := none, backed := end_, cmd := none, auto := false, upd := none, startRec := none }
  if s.pair.partner = .active then
    becomeReady (sendRec (putSlot s false i k { y with state := goalState x.goal, resEnd := max (2 ^ 24) x.resEnd }) (be 1 0xC ++ be 3 0 ++ be 4 x.recPos))
  else
    let cur := a.current.isNone
    let s := changeSlot s false i k { y with state := if pnMax a.record.kind a.record.suite < y.pn then .exhausted else if cur then .current else .ready }
    let s := loadEnds (mirror s (pnResRec i k x.gen end_)) x true
    if cur then autoNext s i else s

/-- A receive slot leaves LOADING for ACCEPT: HIGH_PN 0, bitmap cleared, GEN_RX raised (R173, R175). -/
def rxLoaded (s : State) (i k : Nat) : State :=
  let a := s.assoc true i
  let x := a.slot k
  let s := s.setAssoc true i { a with genRx := max a.genRx x.gen }
  let s := changeSlot s true i k { x with state := .accept, pn := 0, seen := [], awaited := [], cmd := none, upd := none, mark := if s.pair.partner = .active then x.mark else 0 }
  loadEnds (mirror s (rxMarkRec i k x.gen 0)) x true

/-- SLOT_LOAD_COMPLETE: key and journal confirmations of a LOADING slot (R172, R173). A transmit slot with a READY
partner also waits for JOURNALED (R439). `journalOk`: the journal write and read-back succeeded. -/
def execSlotLoadComplete (rx : Bool) (i k : Nat) (journalOk : Bool) (s : State) : Res :=
  let x := (s.assoc rx i).slot k
  if x.state ≠ .loading then .next s
  else if rx then .next (rxLoaded s i k)
  else if !s.dev.mcUp then .next s
  else if !journalOk then .next (loadFailed s i k)
  else if s.pair.partner = .ready ∧ !x.journaled then .next s
  else if s.pair.partner = .lost then .next s
  else .next (txLoaded s i k)

/-- SLOT_DRAIN_COMPLETE: a DRAINING slot with no frame in flight goes EMPTY, and AUTO_NEXT loads it (R172, R186). -/
def execSlotDrainComplete (i k : Nat) (s : State) : Res :=
  let x := (s.assoc false i).slot k
  if x.state = .draining ∧ x.inFlight = 0 then .next (autoNext (clearSlot s false i k) i) else .next s

/-- AUTO_NEXT_RETRY: a failed AUTO_NEXT derivation is tried again after 1 s (R186). -/
def execAutoNextRetry (i : Nat) (s : State) : Res :=
  if (s.assoc false i).retryDue then .next (autoNext s i) else .next s

/-- RX_RETIRE_TIMER_EXPIRY: the older receive slot goes EMPTY (R192). -/
def execRxRetireTimerExpiry (i : Nat) (s : State) : Res :=
  let a := s.assoc true i
  match a.retiring with
  | some k => .next (clearSlot (s.setAssoc true i { a with retiring := none }) true i k)
  | none => .next s

/-- FOLLOW_CANDIDATE_READY: the candidate key of a slot in PROBATION has been derived (R173, R193). -/
def execFollowCandidateReady (i k : Nat) (s : State) : Res :=
  let a := s.assoc true i
  let x := a.slot k
  if x.state = .probation ∧ !x.candidate then
    match rootKey s a.record.root with
    | .ok root =>
      let m := deriveKey root a.record 0 x.gen
      .next (putSlot s true i k { x with candidate := true, key := m.take (keyBytes a.record.suite), salt := m.drop (keyBytes a.record.suite) })
    | .error _ => .next (clearSlot (saAlarm s i F.SA_ALARM_FOLLOW_FAIL) true i k)
  else .next s

/-- ASSOC_REMOVE_DRAIN_COMPLETE: the last frame of a removed association has left merge (R195). -/
def execAssocRemoveDrainComplete (rx : Bool) (i : Nat) (s : State) : Res :=
  if (s.assoc rx i).draining ∧ !assocBusy s rx i then .next (drainAssoc s rx i) else .next s

end Sys2Proof.Machine
end

