-- ==== Sys2Proof/Machine/Cipher.lean ====
section
/-! DEFINITION. What a rill makes of a whole frame: MACsec and ESP encapsulation and decapsulation, and stomping
(R203 to R209, R218). -/

namespace Sys2Proof.Machine

/-- A frame's bytes without its FCS. -/
def bodyOf (b : List Byte) : List Byte := b.take (b.length - 4)

/-- A body with its true FCS, and with a stomped one: the complement of the CRC (R218). -/
def withFcs (b : List Byte) : List Byte := b ++ fcsOf b
def stompedFcs (b : List Byte) : List Byte := b ++ (fcsOf b).map (~~~ ·)

/-- Zero bytes up to 60 bytes in all (R205, R208). -/
def pad60 (b : List Byte) : List Byte := b ++ List.replicate (60 - b.length) 0

/-! ### MACsec (R203 to R205) -/

/-- The IV of a MACsec frame (R204). -/
def macsecIv (r : AssocRec) (salt : List Byte) (pn : Nat) : List Byte :=
  if r.suite < 2 then be 8 r.sci ++ be 4 pn else xorBytes (be 4 r.ssci ++ be 8 pn) salt

/-- The SecTAG of an outbound frame with `n` bytes of secure data (R203). -/
def secTagBytes (r : AssocRec) (an pn n : Nat) : List Byte :=
  be 2 0x88E5 ++ be 1 (64 * b2n r.es + 32 * b2n r.sciEn + 12 * b2n r.encrypt + an) ++ be 1 (if n < 48 then n else 0) ++
  be 4 pn ++ (if r.sciEn then be 8 r.sci else [])

/-- A client frame's body as it leaves on a transmit SC, without the FCS (R203, R204). -/
def macsecSeal (r : AssocRec) (an pn : Nat) (key salt body : List Byte) : List Byte :=
  let head := body.take 12
  let secure := body.drop 12
  let tag := secTagBytes r an pn secure.length
  let c := if r.encrypt then min r.confOffset secure.length else secure.length
  let iv := macsecIv r salt pn
  let ct := gcmCrypt key iv (secure.drop c)
  let aad := head ++ tag ++ secure.take c
  aad ++ ct ++ gcmTagOf key iv aad ct

/-- What decapsulation comes to: the output body, and the counter of what failed, if anything. `icv` tells that only
the ICV failed. -/
structure Opened where
  body : List Byte
  fault : Option Nat
  icv : Bool
  deriving DecidableEq, Repr

/-- A received MACsec frame opened (R205). -/
def macsecOpen (r : AssocRec) (pn : Nat) (key salt body : List Byte) : Opened :=
  match parseSecTag body with
  | none => { body := body, fault := some 5, icv := false }
  | some t =>
    let head := body.take 12
    let n := body.length - (t.size + 16)
    let secure := slice body t.size n
    let icv := body.drop (t.size + n)
    let c := if bit t.tci 3 then min r.confOffset n else n
    let iv := macsecIv r salt pn
    let aad := body.take (t.size + c)
    let ct := secure.drop c
    let clear := secure.take c ++ gcmCrypt key iv ct
    let out := pad60 (head ++ clear)
    if body.length < t.size + 16 ∨ (if t.sl = 0 then n < 48 else t.sl ≠ n ∨ 48 ≤ n) then { body := out, fault := some 5, icv := false }
    else if gcmTagOf key iv aad ct = icv then { body := out, fault := none, icv := false }
    else { body := out, fault := some 2, icv := true }

/-! ### ESP (R206 to R208) -/

/-- Flags of a TEP entry (R209). -/
def tepFamily (e : List Byte) : Nat := beAt e 0 1
def tepFlag (e : List Byte) (i : Nat) : Bool := bit (beAt e 1 1) i

/-- h of R206: bytes before the SPI. -/
def espHead (e : List Byte) (natT : Bool) : Nat :=
  14 + (if tepFlag e 0 then 4 else 0) + (if tepFamily e = 4 then 20 else 40) + (if natT then 8 else 0)

/-- The inner length N of a client frame, from its header (R207): none where it is not IP or an IPv6 length is 0. -/
def innerLength (b : List Byte) (x : Parsed) : Option Nat :=
  if x.etype = 0x0800 then some (beAt b (x.off + 2) 2)
  else if x.etype = 0x86DD then (if beAt b (x.off + 4) 2 = 0 then none else some (beAt b (x.off + 4) 2 + 40))
  else none

/-- The pad p of R206. -/
def espPad (n : Nat) : Nat := (4 - (n + 2) % 4) % 4

/-- Length of the outbound ESP frame, DA to FCS (R206). -/
def espLength (e : List Byte) (natT : Bool) (n : Nat) : Nat := espHead e natT + 38 + n + espPad n

/-- The outer IP header, the IPv4 checksum computed (R206). `len` is the length after it. -/
def outerIp (e : List Byte) (natT : Bool) (ident len tos : Nat) : List Byte :=
  let proto := if natT then 17 else 50
  if tepFamily e = 4 then
    let h (c : Nat) : List Byte := be 1 0x45 ++ be 1 tos ++ be 2 (20 + len) ++ be 2 ident ++ be 2 (if tepFlag e 1 then 0x4000 else 0) ++
      be 1 (beAt e 3 1) ++ be 1 proto ++ be 2 c ++ slice e 32 4 ++ slice e 48 4
    h (0xFFFF - onesSum (h 0))
  else
    be 4 (6 * 2 ^ 28 + tos * 2 ^ 20 + beAt e 24 4 % 2 ^ 20) ++ be 2 len ++ be 1 proto ++ be 1 (beAt e 3 1) ++ slice e 32 16 ++ slice e 48 16

/-- A client frame's body as it leaves on an ESP association, without the FCS (R206). -/
def espSeal (r : AssocRec) (e : List Byte) (spi ident pn : Nat) (key salt body : List Byte) : List Byte :=
  let x := parseFrame body none
  let n := (innerLength body x).getD 0
  let inner := slice body x.off n
  let tosIn := if x.etype = 0x0800 then beAt inner 1 1 else beAt inner 0 2 / 16 % 256
  let tos := (if tepFlag e 2 then tosIn / 4 else beAt e 2 1 % 64) * 4 + tosIn % 4
  let p := espPad n
  let pt := inner ++ (List.range p).map (fun i => BitVec.ofNat 8 (i + 1)) ++ be 1 p ++ be 1 (if x.etype = 0x0800 then 4 else 41)
  let iv := be 8 pn
  let aad := be 4 spi ++ be 8 pn
  let ct := gcmCrypt key (salt ++ iv) pt
  let esp := be 4 spi ++ be 4 pn ++ iv ++ ct ++ gcmTagOf key (salt ++ iv) aad ct
  let udp := if r.natT then slice e 6 2 ++ slice e 20 2 ++ be 2 (8 + esp.length) ++ be 2 0 else []
  slice e 8 12 ++ (if tepFlag e 0 then be 2 0x8100 ++ slice e 4 2 else []) ++ be 2 (if tepFamily e = 4 then 0x0800 else 0x86DD) ++
    outerIp e r.natT ident (udp.length + esp.length) tos ++ udp ++ esp

/-- DA, SA and VLAN tag of a pairing's DECAP entry (R231). -/
def decapHead (s : State) (p : Nat) : List Byte :=
  let w1 := (s.reg (R.DECAP_1_p p)).toNat
  let w3 := (s.reg (R.DECAP_3_p p)).toNat
  wordBytes (s.reg (R.DECAP_0_p p)) ++ [BitVec.ofNat 8 w1, BitVec.ofNat 8 (w1 / 256)] ++
  [BitVec.ofNat 8 (w1 / 65536), BitVec.ofNat 8 (w1 / 2 ^ 24)] ++ wordBytes (s.reg (R.DECAP_2_p p)) ++
  (if bit w3 31 then be 2 0x8100 ++ be 2 (w3 % 65536) else [])

/-- The ESP packet of a received frame: offset of the ESP header, ciphertext length P, and end of the outer packet
(R208). -/
def espLayout (b : List Byte) (x : Parsed) : Nat × Nat × Nat :=
  let tail := x.off + (if x.family = 4 then beAt b (x.off + 2) 2 else 40 + beAt b (x.off + 4) 2)
  (x.espOff, tail - (x.espOff + 16 + 16), tail)

/-- The inner packet's version and length N, from its first bytes. -/
def innerOf (pt : List Byte) : Nat × Nat :=
  let v := beAt pt 0 1 / 16
  (v, if v = 4 then beAt pt 2 2 else beAt pt 4 2 + 40)

/-- The checks of R208 that are made on the first beat: does one fail? -/
def espFirst (r : AssocRec) (key salt : List Byte) (b : List Byte) : Bool :=
  let x := parseFrame b none
  let (o, p, _) := espLayout b x
  let frag := decide (x.family = 4) && decide (beAt b (x.off + 6) 2 % 0x4000 ≠ 0)
  let encap := decide (x.natWord ≠ 0 ∧ x.espOff ≠ 0 ∧ x.udp.isSome)
  let pt := gcmCrypt key (salt ++ slice b (o + 8) 8) (slice b (o + 16) 40)
  let (v, n) := innerOf pt
  frag || (encap != r.natT) || (v ≠ 4 && v ≠ 6) || decide (n < (if v = 4 then 20 else 40)) || decide (p < n + 2)

/-- A received ESP frame opened (R208), for port pairing `q`. DEDUCED: the next header agrees with the inner version. -/
def espOpen (s : State) (q pn spi : Nat) (key salt body : List Byte) : Opened :=
  let x := parseFrame body none
  let (o, p, tail) := espLayout body x
  let iv := salt ++ slice body (o + 8) 8
  let ct := slice body (o + 16) p
  let pt := gcmCrypt key iv ct
  let (v, n) := innerOf pt
  let out := pad60 (decapHead s q ++ be 2 (if v = 4 then 0x0800 else 0x86DD) ++ pt.take n)
  let next := beAt pt (p - 1) 1
  if body.length < tail then { body := out, fault := some 7, icv := false }
  else if beAt pt (p - 2) 1 ≠ p - n - 2 ∨ next ≠ (if v = 4 then 4 else 41) then { body := out, fault := some 7, icv := false }
  else if gcmTagOf key iv (be 4 spi ++ be 8 pn) ct = slice body (o + 16 + p) 16 then { body := out, fault := none, icv := false }
  else { body := out, fault := some 2, icv := true }

end Sys2Proof.Machine
end

