-- ==== Sys2Proof/Machine/Ports.lean ====
section
/-! DEFINITION. Ports, lanes, sleep and in-service lane sparing (04_ports_and_lanes.md). -/

namespace Sys2Proof.Machine

/-! ### Plans and what they make of lanes -/

/-- The lanes of port P, as L of R79 (R90, R117); none for a port without a plan. -/
def lanesOfPort (s : State) (p : Nat) : List Nat :=
  if s.fld (aPORT_CFG p) F.PORT_CFG_SPEED = 0 then []
  else (List.range (2 ^ s.fld (aPORT_LANES p) F.PORT_LANES_WIDTH)).map
    (fun i => (if p < 16 then 0 else 18) + s.fld (aPORT_LANES p) F.PORT_LANES_FIRST_LANE + i)

/-- The line lanes of trunk `t` (R295, R320). -/
def lanesOfTrunk (s : State) (t : Nat) : List Nat :=
  if s.flag (R.CAS_CFG t) F.CAS_CFG_ENABLE then
    (List.range (s.fld (R.CAS_CFG t) F.CAS_CFG_WIDTH)).map (fun i => 18 + s.fld (R.CAS_CFG t) F.CAS_CFG_FIRST_LANE + i)
  else []

/-- The port (P) or trunk (64 + t) that a lane carries. -/
def carrierOf (s : State) (l : Nat) : Option Nat :=
  match (List.range 32).find? (fun p => decide (l ∈ lanesOfPort s p)) with
  | some p => some p
  | none => ((List.range 4).find? (fun t => decide (l ∈ lanesOfTrunk s t))).map (64 + ·)

/-- Sparing mode of a lane's side (R108): 0 off, 1 coordinated, 2 commanded. -/
def spareMode (s : State) (side : Nat) : Nat := s.fld (aSPARE_CFG side) F.SPARE_CFG_MODE

/-- Side of a lane: 0 client, 1 line. -/
def sideOf (l : Nat) : Nat := if l < 18 then 0 else 1

/-- Spare `k` (0 or 1) of a side, as L of R79. -/
def spareLane (side k : Nat) : Nat := 18 * side + 16 + k

/-- Does SPARE_CFG put a spare in its side's pool (R125)? -/
def pooled (s : State) (l : Nat) : Bool :=
  s.flag (aSPARE_CFG (sideOf l)) (if l % 18 = 16 then F.SPARE_CFG_POOL_16 else F.SPARE_CFG_POOL_17)

/-- A spare is faulted until its condition has cleared and its fault bits are cleared too; meanwhile it is out of the pool (R107). -/
def spareFaulted (s : State) (k : Nat) : Bool :=
  decide ((s.lane k).conditions ≠ []) || decide (s.reg (aLANE_FAULT k) &&& 0xBF ≠ 0)

/-- Is a spare in the pool, not out of it by a fault? -/
def inPool (s : State) (l : Nat) : Bool := pooled s l && !spareFaulted s l

/-- Is a spare free of every use and fault (R107)? -/
def spareIdle (s : State) (l : Nat) : Bool :=
  (s.spare l).tx = .idle && (s.spare l).rx = .idle && !spareFaulted s l

/-- A spare stands in only for a lane of its own rate (R87). -/
def sameRate (s : State) (a b : Nat) : Bool := s.fld (aLANE_CFG a) F.LANE_CFG_RATE = s.fld (aLANE_CFG b) F.LANE_CFG_RATE

/-- The lane plan assigns a lane (R91, R107). -/
def assigned (s : State) (l : Nat) : Bool := decide (s.fld (aLANE_CFG l) F.LANE_CFG_RATE ≠ 0)

/-- The spares of a lane's side, 16 before 17. -/
def sparesOf (l : Nat) : List Nat := [spareLane (sideOf l) 0, spareLane (sideOf l) 1]

/-- LANE_FAULT bits of transmit faults (R124). -/
def isTxFault (kind : Nat) : Bool := decide (kind ≤ 2)

/-- The spare whose receive side carries lane `l` (R111), and the one whose transmit side does. -/
def carriedRx (s : State) (l : Nat) : Option Nat := (sparesOf l).find? (fun k => (s.spare k).rx = .carrying l)
def carriedTx (s : State) (l : Nat) : Option Nat := (sparesOf l).find? (fun k => (s.spare k).tx = .carrying l)

/-- The spare that stands in for lane `l` (R107, R123). -/
def replacedBy (s : State) (l : Nat) : Option Nat := (carriedRx s l).orElse (fun _ => carriedTx s l)

/-- A spare carries data of lane `l`: in its place, or bridged for the partner (R119). -/
def spared (s : State) (l : Nat) : Bool := (replacedBy s l).isSome || (sparesOf l).any (fun k => (s.spare k).tx = .bridging l)

/-- The state of a lane (R107): faulted while a side of it is faulted that no spare carries, and after a fault until it locks again. -/
def laneState (s : State) (l : Nat) : LaneState :=
  let x := s.lane l
  if !assigned s l then .unused
  else if ((carriedRx s l).isNone && x.conditions.any (fun c => !isTxFault c)) || ((carriedTx s l).isNone && x.conditions.any isTxFault) then .faulted
  else if (carriedRx s l).isNone && !x.locked then (if x.hurt then .faulted else .training)
  else if (replacedBy s l).isSome then .replaced
  else .up

/-- LANE_STATUS.STATE (R107, R123). -/
def laneCode (s : State) (l : Nat) : Nat :=
  if 16 ≤ l % 18 then
    if !assigned s l then 0 else if spareFaulted s l then 7 else if spareIdle s l then 5 else 6
  else match laneState s l with
    | .unused => 0 | .training => 1 | .up => 2 | .faulted => 3 | .replaced => 4

/-- A lane that carries its share of a port: up, or replaced (R100, R107). -/
def laneUp (s : State) (l : Nat) : Bool := laneState s l = .up || laneState s l = .replaced

/-! ### What a port is and transmits (R100) -/

/-- A tributary is failed by a reported defect (R327). -/
def tribFailed (s : State) (t i : Nat) : Bool :=
  decide (s.fld (R.CAS_DEF t) F.CAS_DEF_DEF ≠ 0) || (s.reg (R.CAS_TDEF_LOD t)).getLsbD i ||
  (!s.flag (R.CAS_TRIB_t_0 t i) F.CAS_TRIB_t_0_TYPE && (s.reg (R.CAS_TDEF_RFAIL t)).getLsbD i)

/-- The frame-mapped tributaries that client port `p` carries. -/
def tribsOfClient (s : State) (p : Nat) : List (Nat × Nat) :=
  ((List.range 4).flatMap (fun t => (List.range 32).map (fun i => (t, i)))).filter (fun x =>
    s.flag (R.CAS_CFG x.1) F.CAS_CFG_ENABLE && s.flag (R.CAS_TRIB_t_0 x.1 x.2) F.CAS_TRIB_t_0_VALID &&
    !s.flag (R.CAS_TRIB_t_0 x.1 x.2) F.CAS_TRIB_t_0_TYPE && s.fld (R.CAS_TRIB_t_0 x.1 x.2) F.CAS_TRIB_t_0_CLIENT = p)

/-- The row "held closed" of R100: such a port sends local fault, whatever it receives. -/
def heldClosed (s : State) (p : Nat) : Bool :=
  s.dev.state = .maintenance || decide (3 ≤ s.tmp.inForce) || s.pers (p % 16) = .none || (s.port p).changing || (s.port p).held ||
  (decide (p < 16) && (tribsOfClient s p).length ≠ 0 && (tribsOfClient s p).all (fun x => tribFailed s x.1 x.2))

/-- A port could carry frames: a plan, every lane up, the PCS aligned, no fault received, not held closed. -/
def linkOk (s : State) (p : Nat) : Bool :=
  decide (s.fld (aPORT_CFG p) F.PORT_CFG_SPEED ≠ 0) && (lanesOfPort s p).all (laneUp s) && (s.port p).aligned && !(s.port p).lf &&
  !(s.port p).rf && !heldClosed s p && (s.dev.state = .active || s.dev.state = .standby)

/-- A port is up: it could carry frames and is awake (R100, R119). -/
def portUp (s : State) (p : Nat) : Bool := linkOk s p && (s.port p).sleep = .awake

/-- A trunk takes frames: enabled, and no lane of it is faulted (R106, R304). -/
def trunkUp (s : State) (t : Nat) : Bool :=
  s.flag (R.CAS_CFG t) F.CAS_CFG_ENABLE && (lanesOfTrunk s t).all (fun l => laneState s l ≠ .faulted)

/-- What a port or a lane transmits (R35, R100). -/
inductive PortTx where
  | nothing | trainingPatterns | idles | cascadeFill | localFault | remoteFault | framesAndIdles
  deriving DecidableEq, Repr

/-- What the lanes of an Ethernet port P of R79 send, or those of trunk 64 + t: nothing in the squelched states of R35, training
patterns from start step 7 on; else the first row of R100 that applies. A trunk sends Cascade frames in Active, which R304 fills, and
Cascade fill in Standby. -/
def portTx (s : State) (p : Nat) : PortTx :=
  if !s.dev.power ∨ s.dev.coldReset then .nothing
  else match s.dev.state with
    | .wellOnly => .nothing
    | .minimal => .nothing
    | .halt => .nothing
    | .start => if 7 ≤ s.dev.step then .trainingPatterns else .nothing
    | .standby => if 64 ≤ p then .cascadeFill else if (s.port p).sleep = .asleep ∨ (s.port p).sleep = .entering then .nothing else .idles
    | d =>
      if 64 ≤ p then (if d = .active then .framesAndIdles else .cascadeFill)
      else if (s.port p).sleep = .asleep ∨ (s.port p).sleep = .entering then .nothing
      else if heldClosed s p then .localFault
      else if !(s.port p).aligned ∨ (s.port p).lf ∨ !(lanesOfPort s p).all (laneUp s) then .remoteFault
      else if (s.port p).rf then .idles
      else if portUp s p then .framesAndIdles
      else .idles

/-- What one lane sends: nothing while its driver is disabled (R100, R106) or while it carries no port, else what its port sends. -/
def laneTx (s : State) (l : Nat) : PortTx :=
  if (s.lane l).txDisabled then .nothing
  else match carrierOf s l with
    | some p => portTx s p
    | none => .nothing

/-- PORT_STATUS.STATE (R119). -/
def portCode (s : State) (p : Nat) : Nat :=
  if s.fld (aPORT_CFG p) F.PORT_CFG_SPEED = 0 then 0
  else match (s.port p).sleep with
    | .entering => 5
    | .asleep => 6
    | .waking => 7
    | .awake =>
      if (lanesOfPort s p).any (fun l => laneState s l = .faulted) then 4
      else if (lanesOfPort s p).any (fun l => laneState s l = .training || laneState s l = .unused) then 2
      else if portUp s p then 3 else 1

/-- PORT_STATUS.PREEMPT (R101, R119). -/
def preemptCode (s : State) (p : Nat) : Nat :=
  if s.flag (aPORT_CFG p) F.PORT_CFG_PREEMPT_EN then
    match (s.port p).verify with
    | .verifying => 1 | .active => 2 | .failed => 3
  else 0

/-- Changes of state `k` may take port `p` down: if they do, its scheduler node closes, its queued frames are dropped
and counted (R106), and its verify exchange starts over (R101). -/
def portEdge (s : State) (p : Nat) (k : State) : State :=
  if portUp s p && !portUp k p then
    (k.dropQueued p (.port p 22)).setPort p { k.port p with verify := .verifying }
  else k

def State.trunk (s : State) (t : Nat) : Trunk := kget {} s.trunks t
def State.setTrunk (s : State) (t : Nat) (x : Trunk) : State := { s with trunks := kset {} s.trunks t x }

/-- The valid tributaries of a trunk. -/
def tribsOf (s : State) (t : Nat) : List Nat := (List.range 32).filter (fun i => s.flag (R.CAS_TRIB_t_0 t i) F.CAS_TRIB_t_0_VALID)

/-- Is a tributary transparent? -/
def transparent (s : State) (t i : Nat) : Bool := s.flag (R.CAS_TRIB_t_0 t i) F.CAS_TRIB_t_0_TYPE

/-- The trunk-level defects present, dLOS first (R324). -/
def presentDefects (s : State) (t : Nat) : List Bool :=
  let x := s.trunk t
  let l := lanesOfTrunk s t
  [l.any (fun l => (s.lane l).conditions.contains 4 && (carriedRx s l).isNone), !l.all (laneUp s) || !x.deskewed,
    decide (x.fa ≠ 3), x.lom, x.auth, x.epochDef]

/-- A list of bits as a number, bit 0 first. -/
def bitsNat : List Bool → Nat
  | [] => 0
  | b :: r => b2n b + 2 * bitsNat r

/-- Only the highest-ranked defect present is reported (R326). -/
def firstOnly : List Bool → List Bool
  | [] => []
  | true :: r => true :: r.map (fun _ => false)
  | false :: r => false :: firstOnly r

/-- The tributaries of a trunk with a condition, as a mask. -/
def tribMask (s : State) (t : Nat) (f : Nat → Trib → Bool) : Nat :=
  ((tribsOf s t).map (fun i => if f i (kget {} (s.trunk t).tribs i) then 2 ^ i else 0)).sum

/-- Changes of state `k` may take client port `p` down through the failure of its tributaries: its queued frames are
dropped as egress-down (R327). -/
def tribEdge (s k : State) (p : Nat) : State :=
  if portUp s p && !portUp k p then (k.dropQueued p (.port p 19)).setPort p { k.port p with verify := .verifying } else k

/-- The defect registers, latches and consequent actions of trunk `t`, from what is present now (R324 to R327, R336,
R337); the second that runs takes note of them (R333). -/
def updateDefects (s : State) (t : Nat) : State :=
  if !s.flag (R.CAS_CFG t) F.CAS_CFG_ENABLE then s
  else
    let x := s.trunk t
    let raw := presentDefects s t
    let d := bitsNat (firstOnly raw)
    let clear := decide (d = 0)
    let lod := if clear then tribMask s t (fun i y => !transparent s t i && y.lod) else 0
    let slip := if clear then tribMask s t (fun i y => transparent s t i && y.slip) else 0
    let rfail := if clear then tribMask s t (fun _ y => y.rfail) else 0
    let trib := Nat.lor (Nat.lor lod slip) rfail
    let rise (now : Nat) (a : Nat) : Word := BitVec.ofNat 32 now &&& ~~~ s.reg a
    let risen := rise lod (R.CAS_TDEF_LOD t) ||| rise slip (R.CAS_TDEF_SLIP t) ||| rise rfail (R.CAS_TDEF_RFAIL t)
    let def9 := d + 64 * b2n (decide (trib ≠ 0)) + 256 * b2n (clear && x.rdi) + 512 * b2n (clear && x.rdiEpoch)
    let k := s.setReg (R.CAS_DEF t) (BitVec.ofNat 32 (def9 + 2 ^ 16 * bitsNat raw))
    let k := k.setReg (R.CAS_DEF_LATCH t) (k.reg (R.CAS_DEF_LATCH t) ||| BitVec.ofNat 32 def9)
    let k := ((k.setReg (R.CAS_TDEF_LOD t) (BitVec.ofNat 32 lod)).setReg (R.CAS_TDEF_SLIP t) (BitVec.ofNat 32 slip)).setReg (R.CAS_TDEF_RFAIL t) (BitVec.ofNat 32 rfail)
    let k := k.setReg (R.CAS_TDEF_LATCH t) (k.reg (R.CAS_TDEF_LATCH t) ||| risen)
    let k := k.setTrunk t { x with anyDef := x.anyDef || !clear, severe := x.severe || raw.getD 0 false || raw.getD 1 false || raw.getD 2 false }
    (List.range 16).foldl (fun u p => tribEdge s u p) k

/-- Alignment is lost (R317, R318, R324). -/
def loseAlignment (x : Trunk) : Trunk :=
  { x with fa := 0, faCount := 0, mfSync := false, mfLast := none, mfWrong := 0, lom := false, auth := false, epochDef := false, refused := 0, tagAmong := false, accepted := 0 }

/-- The lanes of a trunk after a change: deskewed once all are up, if their skew allows; a lane that has lost training
sends alignment back to HUNT (R299, R317, R321). -/
def trunkLanes (k : State) (t : Nat) (skewOk : Bool) : State :=
  let x := k.trunk t
  let up := (lanesOfTrunk k t).all (laneUp k)
  let k := if up && !x.deskewed && !skewOk then k.alarm (R.CAS_ALARM t) F.CAS_ALARM_DESKEW else k
  updateDefects (k.setTrunk t (if up then { x with deskewed := x.deskewed || skewOk } else { loseAlignment x with deskewed := false })) t

/-- A trunk that a change takes down loses the frames queued for it, as a port does (R106). -/
def trunkEdge (s : State) (t : Nat) (k : State) : State :=
  if trunkUp s t && !trunkUp k t then k.dropQueued (64 + t) (.port (16 + k.fld (R.CAS_CFG t) F.CAS_CFG_FIRST_LANE) 22) else k

/-- The same for the carrier of a lane; a trunk's alignment and defects follow its lanes (R317, R324). -/
def laneEdge (s : State) (l : Nat) (k : State) (skewOk : Bool := true) : State :=
  match carrierOf s l with
  | some p => if p < 32 then portEdge s p k else trunkEdge s (p - 64) (trunkLanes k (p - 64) skewOk)
  | none => k

/-! ### Steering blocks (R109) -/

/-- One bit of CRC-16 with polynomial 0x1021, most significant bit first. -/
def crc16Bit (c : BitVec 16) : BitVec 16 := if c.getLsbD 15 then (c <<< 1) ^^^ 0x1021#16 else c <<< 1

/-- CRC-16, polynomial 0x1021, initial value 0xFFFF (R109). -/
def crc16 (l : List Byte) : BitVec 16 :=
  l.foldl (fun (c : BitVec 16) (b : Byte) => crc16Bit (crc16Bit (crc16Bit (crc16Bit (crc16Bit (crc16Bit (crc16Bit (crc16Bit
    (c ^^^ (b.setWidth 16 <<< (8 : Nat))))))))))) 0xFFFF#16

/-- A steering block and its complement (R109). -/
def steerBlock (cmd lane spare seq pos : Nat) : List Byte :=
  let h := be 4 0x4B535452 ++ be 1 cmd ++ be 1 lane ++ be 1 spare ++ be 1 seq ++ be 4 pos
  let b := h ++ be 2 (crc16 h).toNat ++ be 2 0
  b ++ b.map (~~~ ·)

/-- A block is good when its marker, CRC and complement check (R109). -/
def steerGood (b : List Byte) : Bool :=
  b.length = 32 && slice b 16 16 = (slice b 0 16).map (~~~ ·) && beAt b 0 4 = 0x4B535452 &&
  beAt b 12 2 = (crc16 (slice b 0 12)).toNat

/-- A command put on the transmit spare `k` with a new SEQ (R109). -/
def sendSteer (s : State) (k cmd lane pos : Nat) : State :=
  let x := s.spare k
  let s := s.setSpare k { x with seq := (x.seq + 1) % 256 }
  s.emit (.steer k (steerBlock cmd lane (k % 18) ((x.seq + 1) % 256) pos))

/-- The transmit side of spare `k` is idle: on a coordinated side it sends IDLE blocks from now on, of which the first is shown (R109);
elsewhere it is squelched (R115). -/
def goIdle (s : State) (k : Nat) : State :=
  let s := s.setSpare k { s.spare k with tx := .idle }
  if spareMode s (sideOf k) = 1 then sendSteer s k 0 0xFF 0 else s

/-- Bits per lane rate code and tick of 1.25 ns, in 1/32 bit: 53.125, 106.25 and 212.5 Gb/s (R89, R111). -/
def laneUnits (s : State) (l : Nat) : Nat :=
  match s.fld (aLANE_CFG l) F.LANE_CFG_RATE with
  | 1 => 2125 | 2 => 4250 | 3 => 8500 | _ => 0

/-- The bit counts of every locked lane go on by one tick (R111). -/
def tickLanes (s : State) : State :=
  { s with lanes := s.lanes.map (fun e =>
      if e.2.locked then (e.1, { e.2 with sent := (e.2.sent + laneUnits s e.1) % 2 ^ 37, got := (e.2.got + laneUnits s e.1) % 2 ^ 37 }) else e) }

/-- MOVE(L) at least 8 times, one SYNC of the same SEQ, then the data of L on spare `k`, whose transmit side is then as `use` says
(R110). POSITION is the count of bits sent on the lane (R111). -/
def moveOnto (s : State) (k l : Nat) (use : SpareTx) : State :=
  let x := s.spare k
  let q := (x.seq + 1) % 256
  let s := s.setSpare k { x with seq := q, tx := use }
  let s := (List.replicate 8 (Out.steer k (steerBlock 2 (l % 18) (k % 18) q 0))).foldl State.emit s
  s.emit (.steer k (steerBlock 3 (l % 18) (k % 18) q ((s.lane l).sent / 32)))

/-- The first idle spare of the lane's side in the pool with the lane's rate, 16 before 17 (R113); `ask` asks for PARTNER_OK too, which
an exchange of one's own needs (R110). -/
def freeSpare (s : State) (l : Nat) (ask : Bool) : Option Nat :=
  (sparesOf l).find? (fun k => inPool s k && spareIdle s k && (!ask || (s.spare k).partnerOk) && sameRate s k l)

/-- Sparing requested for a receive lane: ASK(L) on an idle spare (R110). -/
def askSpare (s : State) (l : Nat) (second : Bool) : State :=
  match freeSpare s l true with
  | some k =>
    let s := sendSteer s k 1 (l % 18) 0
    s.setSpare k { s.spare k with tx := .asking l second }
  | none => s

/-- Sparing requested for a transmit lane: MOVE, SYNC and data without an ASK (R110). -/
def ownMove (s : State) (l : Nat) : State :=
  match freeSpare s l true with
  | some k => moveOnto s k l (.carrying l)
  | none => s

/-- Sparing requested for lane `l` after a fault of LANE_FAULT bit `kind`, if its side is coordinated and it carries a
port or trunk that is not asleep (R105, R107, R108). -/
def requestSparing (s : State) (l kind : Nat) : State :=
  match carrierOf s l with
  | none => s
  | some p =>
    if spareMode s (sideOf l) = 1 ∧ (32 ≤ p ∨ (s.port p).sleep = .awake) then
      if isTxFault kind then laneEdge s l (ownMove s l) else askSpare s l false
    else s

/-! ### Lanes -/

/-- A lane marker. -/
def laneMarker (lane width trunk mcnt : Nat) : List Byte :=
  let h := be 4 0xC4A39E17 ++ be 1 lane ++ be 1 width ++ be 1 trunk ++ be 1 mcnt
  let b := h ++ be 2 (crc16 h).toNat ++ be 22 0
  b ++ b.map (fun (x : Byte) => ~~~ x)

/-- The trunk lane that a marker identifies, if it is a good one of trunk `t` with its configured width (R299). -/
def markerLane (s : State) (t : Nat) (m : List Byte) : Option Nat :=
  let i := beAt m 4 1
  let w := s.fld (R.CAS_CFG t) F.CAS_CFG_WIDTH
  if m = laneMarker i w t (beAt m 7 1) ∧ beAt m 7 1 < 240 ∧ i < w then some i else none

/-- The position that a marker gives a lane: that of the PCS for an Ethernet port's, LANE for a trunk's; none, where a trunk's marker does
not match the configuration (R96, R299). -/
def foundLane (s : State) (l portLane : Nat) (marker : List Byte) : Option Nat :=
  match carrierOf s l with
  | some p => if p < 64 then some (portLane % 16) else markerLane s (p - 64) marker
  | none => some (portLane % 16)

/-- The position that the configuration plans for a lane. -/
def plannedLane (s : State) (l found : Nat) : Nat :=
  match carrierOf s l with
  | some p => if p < 32 then l % 18 - s.fld (aPORT_LANES p) F.PORT_LANES_FIRST_LANE else l % 18 - s.fld (R.CAS_CFG (p - 64)) F.CAS_CFG_FIRST_LANE
  | none => found

/-- LANE_MARKER_LOCK: a lane that trains, or retrains after its condition cleared, locks its PCS or Cascade marker; on a spare that a
command has steered its receive side to, the markers lock there (R97, R107, R115). The polarity and position found are shown (R96,
R123), and the bit counts begin anew (R111). `marker`: the marker found on a trunk's lane (R298); `skewOk`: the lanes of its trunk are
within 200 ns (R299). -/
def execLaneMarkerLock (l : Nat) (polInv : Bool) (portLane : Nat) (marker : List Byte) (skewOk : Bool) (s : State) : Res :=
  let x := s.lane l
  let on := (sparesOf l).find? (fun k => (s.spare k).rx = .steered l)
  match foundLane s l portLane marker with
  | none => .next s
  | some n =>
    if l % 18 < 16 ∧ l < 36 ∧ assigned s l ∧ (on.isSome ∨ (!x.locked ∧ x.conditions.all (· = 7))) then
      let inPlace := decide (plannedLane s l n = n)
      let found (y : Lane) : Lane := { y with signal := true, cdrLock := true, polInv := polInv, portLane := n, reversed := !inPlace }
      let t := match on with
        | some k => ((s.setSpare k { s.spare k with rx := .carrying l }).setLane k { found (s.lane k) with locked := true }).setLane l { x with sent := 0, got := 0 }
        | none => s.setLane l { found x with locked := true, hurt := false, conditions := [], txDisabled := false, sent := 0, got := 0 }
      .next (laneEdge s l (if inPlace then t else t.setFld (aLANE_FAULT l) F.LANE_FAULT_LANE_REV 1) skewOk)
    else .next s

/-- What a fault of LANE_FAULT bit `kind` does to a lane: a shorted driver is disabled, a receive fault loses the lock (R106). -/
def hurtLane (x : Lane) (kind : Nat) : Lane :=
  { x with
    hurt := true
    locked := x.locked && isTxFault kind
    conditions := if kind ∈ x.conditions then x.conditions else kind :: x.conditions
    txDisabled := x.txDisabled || decide (kind ≤ 1)
    signal := x.signal && decide (kind ≠ 4 ∧ kind ≠ 3)
    cdrLock := x.cdrLock && decide (kind ≠ 5 ∧ kind ≠ 4) }

/-- A lane loses the spare that carried it: it must lock by itself again, and sparing is requested anew for a condition that is
present (R107, R113). -/
def loseSpare (t : State) (m : Nat) : State :=
  let t := laneEdge t m (t.setLane m { t.lane m with locked := false, hurt := true })
  match (t.lane m).conditions.find? (fun c => decide (c ≠ 7)) with
  | some c => requestSparing t m c
  | none => t

/-- A fault of R106 other than DEGRADE: bit `kind` of LANE_FAULT set, the lane faulted, its port down, and sparing
requested for a lane that trained or was up (R106, R107). A receive fault ends the sleep of a sleeping port with
WAKE_CAUSE 5 (R105). A faulted spare leaves its port without the lane, whose sparing starts over (R107). -/
def faultLane (s : State) (l kind : Nat) : State :=
  let was := laneState s l
  let t := (s.setFld (aLANE_FAULT l) ⟨kind, 1⟩ 1).setLane l (hurtLane (s.lane l) kind)
  if l % 18 < 16 then
    let t := match carrierOf t l with
      | some p => if p < 32 ∧ (t.port p).sleep = .asleep ∧ !isTxFault kind then
          t.setPort p { t.port p with sleep := .awake, wakeCause := 5 } else t
      | none => t
    let t := laneEdge s l t
    if was = .up ∨ was = .training then requestSparing t l kind else t
  else
    let served := (List.range 36).filter (fun m => (s.spare l).rx = .carrying m || (s.spare l).tx = .carrying m)
    let t := served.foldl (fun u m => laneEdge s m u) (t.setSpare l { t.spare l with tx := .idle, rx := .idle, partnerOk := false })
    served.foldl loseSpare t

/-- TRAIN_TIMEOUT: a lane not locked within 1.5 s of the start of its training, or of the end of its fault condition, sets
TRAIN_FAIL and is a lane fault (R97). -/
def execTrainTimeout (l : Nat) (s : State) : Res :=
  if l < 36 ∧ l % 18 < 16 ∧ assigned s l ∧ !(s.lane l).locked ∧ (s.lane l).conditions = [] then .next (faultLane s l 7) else .next s

/-- LANE_FAULT: a fault of R106, numbered as LANE_FAULT bits 0 to 5, is detected. -/
def execLaneFault (l kind : Nat) (s : State) : Res :=
  if l < 36 ∧ kind ≤ 5 then .next (faultLane s l kind) else .next s

/-- LANE_DEGRADE: the pre-FEC error ratio of an Up lane, or of a spare that carries a lane, is above the threshold: the alarm bit;
sparing only of a lane and only if ON_DEGRADE is 1; the lane keeps carrying data (R106, R107). -/
def execLaneDegrade (l : Nat) (s : State) : Res :=
  let carries := match (s.spare l).rx with
    | .carrying _ => true
    | _ => false
  if l < 36 ∧ (if l % 18 < 16 then decide (laneState s l = .up) else carries) then
    let t := (s.setFld (aLANE_FAULT l) F.LANE_FAULT_DEGRADE 1).setLane l { s.lane l with degraded := true }
    .next (if l % 18 < 16 ∧ s.flag (aSPARE_CFG (sideOf l)) F.SPARE_CFG_ON_DEGRADE then requestSparing t l 6 else t)
  else .next s

/-- LANE_FAULT_CLEAR: the condition of a lane clears: it retrains, and stays Faulted until it locks; its fault bit stays set (R97,
R107). A lane whose transmit condition clears while a spare carries it does not retrain. A spare becomes usable again once its bit is
cleared too. -/
def execLaneFaultClear (l : Nat) (s : State) : Res :=
  if l < 36 then
    let x := s.lane l
    let signal := x.signal || x.conditions.any (fun c => c = 3 || c = 4)
    let y : Lane := { x with conditions := [], degraded := false, txDisabled := false, signal := signal }
    if x.conditions = [] then .next (s.setLane l y)
    else if 16 ≤ l % 18 then .next (s.setLane l { y with hurt := false, cdrLock := signal })
    else
      let stays := (replacedBy s l).isSome && x.conditions.all isTxFault
      .next (laneEdge s l (s.setLane l { y with locked := x.locked && stays }))
  else .next s

/-! ### The steering exchange (R109 to R115) -/

/-- The spare of a side whose use is as `f` says. -/
def spareWith (s : State) (side : Nat) (f : Spare → Bool) : Option Nat :=
  [spareLane side 0, spareLane side 1].find? (fun k => f (s.spare k))

/-- A receive side that waits for the SYNC of lane `l`, or holds it. -/
def SpareRx.awaits (r : SpareRx) (l : Nat) : Bool :=
  match r with
  | .moveSeen m _ => decide (m = l)
  | .synced m _ => decide (m = l)
  | _ => false

/-- A receive side of lane `l` in any way. -/
def SpareRx.serves (r : SpareRx) (l : Nat) : Bool := r.awaits l || decide (r = .carrying l) || decide (r = .steered l)

/-- A transmit side of lane `l` in any way. -/
def SpareTx.serves (x : SpareTx) (l : Nat) : Bool := decide (x = .asking l false) || decide (x = .asking l true) || decide (x = .bridging l) || decide (x = .carrying l)

/-- A lane whose spare is released trains, unless it has locked already (R107, R114). -/
def laneFreed (s : State) (l : Nat) (k : State) : State := laneEdge s l (k.setLane l { k.lane l with hurt := decide ((k.lane l).conditions ≠ []) })

/-- RELEASE(L) accepted: the mover's spare returns to IDLE, and the receiver's to the pool (R110). -/
def releaseAccepted (s : State) (side l : Nat) : State :=
  let t := match spareWith s side (fun x => x.tx = .bridging l || x.tx = .carrying l) with
    | some m => goIdle s m
    | none => s
  let t := match spareWith t side (fun x => x.rx.serves l) with
    | some m => t.setSpare m { t.spare m with rx := .idle }
    | none => t
  laneFreed s l t

/-- STEERING_BLOCK_ACCEPT: three agreeing good blocks on receive spare `k` are accepted (R109, R110); accepted IDLE blocks set
PARTNER_OK. SYNC must follow directly on MOVE: any other block ends the wait for it, a bad one too. -/
def execSteeringBlockAccept (k : Nat) (block : List Byte) (s : State) : Res :=
  if k < 36 ∧ 16 ≤ k % 18 ∧ spareMode s (sideOf k) = 1 then
    let waiting := (s.spare k).rx
    let s := match waiting with
      | .moveSeen _ _ => s.setSpare k { s.spare k with rx := .idle }
      | _ => s
    if !steerGood block then .next s
    else
      let cmd := beAt block 4 1
      let l := 18 * sideOf k + beAt block 5 1
      let q := beAt block 7 1
      let s := s.setLane k { s.lane k with signal := true, cdrLock := true }
      if cmd = 0 then .next (s.setSpare k { s.spare k with partnerOk := true })
      else if 16 ≤ beAt block 5 1 then .next s
      else if cmd = 1 then
        if (carrierOf s l).isNone then
          .next { s with askIgnored := kset 0 s.askIgnored (sideOf k) (kget 0 s.askIgnored (sideOf k) + 1) }
        else if (spareWith s (sideOf k) (fun x => x.tx = .bridging l || x.tx = .carrying l)).isSome then .next s
        else match freeSpare s l false with
          | some m => .next (moveOnto s m l (.bridging l))
          | none => .next s
      else if cmd = 2 then
        .next (if (s.spare k).rx = .idle then s.setSpare k { s.spare k with rx := .moveSeen l q } else s)
      else if cmd = 3 then
        if waiting = .moveSeen l q then
          let s := s.setSpare k { s.spare k with rx := .synced l (beAt block 8 4) }
          match spareWith s (sideOf k) (fun x => x.tx = .asking l false || x.tx = .asking l true) with
          | some m => .next (goIdle s m)
          | none => .next s
        else .next s
      else if cmd = 4 then .next (releaseAccepted s (sideOf k) l)
      else .next s
  else .next s

/-- PARTNER_OK_TIMEOUT: 1 ms without a good block clears PARTNER_OK (R109). -/
def execPartnerOkTimeout (k : Nat) (s : State) : Res :=
  .next (s.setSpare k { s.spare k with partnerOk := false })

/-- SPARE_ALIGN: the spare's data is held until the count of lane L equals POSITION, or as many leading bits are discarded as the count
has passed it by; the data then takes L's place in the deskew output, and the lane is Replaced (R107, R111). -/
def execSpareAlign (k : Nat) (s : State) : Res :=
  match (s.spare k).rx with
  | .synced l pos =>
    let passed := ((s.lane l).got / 32 + 2 ^ 32 - pos % 2 ^ 32) % 2 ^ 32
    let late := decide (passed < 2 ^ 31)
    let t := s.setSpare k { s.spare k with rx := .carrying l, discarded := if late then passed else 0 }
    .next (laneEdge s l (if late then t else t.setLane l { t.lane l with got := pos % 2 ^ 32 * 32 }))
  | _ => .next s

/-- ASK_TIMEOUT: no SYNC within 16 us of the first ASK: RELEASE(L), the port stays down, the timeout is counted, what had begun on a
receive spare ends, and one new exchange is tried at once on the other spare if it is idle (R107, R113). -/
def execAskTimeout (k : Nat) (s : State) : Res :=
  match (s.spare k).tx with
  | .asking l second =>
    let s := goIdle (sendSteer s k 4 (l % 18) 0) k
    let s := match spareWith s (sideOf k) (fun x => x.rx.awaits l) with
      | some m => s.setSpare m { s.spare m with rx := .idle }
      | none => s
    let a := aSPARE_STATUS (sideOf k)
    let s := s.setFld a F.SPARE_STATUS_ASK_TIMEOUTS (min 0xFFFF (s.fld a F.SPARE_STATUS_ASK_TIMEOUTS + 1))
    let o := spareLane (sideOf k) (if k % 18 = 16 then 1 else 0)
    if !second ∧ inPool s o ∧ spareIdle s o ∧ (s.spare o).partnerOk ∧ sameRate s o l then
      let s := sendSteer s o 1 (l % 18) 0
      .next (s.setSpare o { s.spare o with tx := .asking l true })
    else .next s
  | _ => .next s

/-- SPARE_STATUS.CMD_STATUS of a side. -/
def spareStatus (s : State) (side : Nat) (x : Status) : State :=
  s.setFld (aSPARE_STATUS side) F.SPARE_STATUS_CMD_STATUS x.code

/-- May spare `k` be given further uses of lane `l`: each side asked for is idle, and the spare serves no other lane (R115)? -/
def spareOpen (s : State) (k l : Nat) (tx rx : Bool) : Bool :=
  let x := s.spare k
  (x.tx = .idle || (!tx && x.tx = .carrying l)) && (x.rx = .idle || (!rx && (x.rx = .carrying l || x.rx = .steered l)))

/-- The checks of SPARE_CMD OP 1 to 3 in commanded mode (R115, R127), in the order in which R127 lists the codes; a spare of another
rate than the lane's is INVALID (DESIGN CHOICE: log entry 225). -/
def steerCheck (s : State) (side k l : Nat) (tx rx : Bool) : Status :=
  if spareMode s side ≠ 2 then .invalid
  else if !inPool s k then .denied
  else if !spareOpen s k l tx rx then .full
  else if (carrierOf s l).isNone then .notFound
  else if !sameRate s k l then .invalid
  else .ok

/-- Spare `k` is given uses of lane `l` in commanded mode (R115): with its receive side, the lane's port relocks by its alignment
markers, or by its lane markers on a trunk. -/
def steerTo (s : State) (k l : Nat) (tx rx : Bool) : State :=
  let x := s.spare k
  let t := s.setSpare k { x with tx := if tx then .carrying l else x.tx, rx := if rx then .steered l else x.rx }
  let t := if rx then t.setLane l { t.lane l with locked := false } else t
  let t := match carrierOf s l with
    | some p => if rx ∧ p < 32 then t.setPort p { t.port p with aligned := false } else t
    | none => t
  laneEdge s l t

/-- A SPARE_CMD of a side: BUSY, and nothing else, while one runs (R126). -/
def spareCommand (s : State) (side : Nat) (k : State → State) : State :=
  s.access (aSPARE_CMD side) (fun s => if (kget none s.releasing side).isSome then spareStatus s side .busy else k s)

/-- SPARE_CMD OP 1 to 3 on a side: `k` 0 lane 16, 1 lane 17; side-local lane. -/
def steerCmd (s : State) (side k l : Nat) (tx rx : Bool) : State :=
  spareCommand s side (fun s =>
    let c := steerCheck s side (spareLane side k) (18 * side + l) tx rx
    let s := spareStatus s side c
    if c = .ok then steerTo s (spareLane side k) (18 * side + l) tx rx else s)

/-- The number of a side. -/
def sideNum (x : Side) : Nat := if x = .client then 0 else 1

/-- STEER_TRANSMIT: SPARE_CMD OP 1 (R115, R126). -/
def execSteerTransmit (side : Side) (k l : Nat) (s : State) : Res := .next (steerCmd s (sideNum side) (k % 2) (l % 16) true false)

/-- STEER_RECEIVE: SPARE_CMD OP 2 (R115, R126). -/
def execSteerReceive (side : Side) (k l : Nat) (s : State) : Res := .next (steerCmd s (sideNum side) (k % 2) (l % 16) false true)

/-- STEER_BOTH: SPARE_CMD OP 3 (R115, R126). -/
def execSteerBoth (side : Side) (k l : Nat) (s : State) : Res := .next (steerCmd s (sideNum side) (k % 2) (l % 16) true true)

/-- Spare `k` gives up every use of lane `l` and returns to the pool; the lane it replaced trains, or is up at once when it was
repaired and has locked (R107, R114). -/
def freeOf (s : State) (k l : Nat) : State :=
  let t := if (s.spare k).rx.serves l then s.setSpare k { s.spare k with rx := .idle } else s
  laneFreed s l (if (t.spare k).tx.serves l then goIdle t k else t)

/-- Does spare `k` serve lane `l`? -/
def spareServes (s : State) (k l : Nat) : Bool := (s.spare k).rx.serves l || (s.spare k).tx.serves l

/-- A release of spare `k` of lane `l`: in coordinated mode RELEASE(L) goes out (R110, R114). -/
def releaseSpare (s : State) (k l : Nat) : State :=
  freeOf (if spareMode s (sideOf k) = 1 then sendSteer s k 4 (l % 18) 0 else s) k l

/-- SPARE_RELEASE: SPARE_CMD OP 4 releases the spare of lane L (R114, R126). NOT_FOUND also for a spare that does not serve L (DESIGN
CHOICE: log entry 226). In coordinated mode RELEASE(L) goes out and the command runs until the exchange is reversed, at the next cycle
in which no command waits (log entry 82). -/
def execSpareRelease (side : Side) (k l : Nat) (s : State) : Res :=
  let n := sideNum side
  .next (spareCommand s n (fun s =>
    let m := spareLane n (k % 2)
    let l := 18 * n + l % 16
    if !inPool s m then spareStatus s n .denied
    else if (carrierOf s l).isNone ∨ !spareServes s m l then spareStatus s n .notFound
    else if spareMode s n = 1 then { sendSteer (spareStatus s n .busy) m 4 (l % 18) 0 with releasing := kset none s.releasing n (some (m, l)) }
    else freeOf (spareStatus s n .ok) m l))

/-- The release that runs on a side is done (R114). -/
def finishRelease (s : State) (side : Nat) : State :=
  match kget none s.releasing side with
  | some (k, l) => freeOf (spareStatus { s with releasing := kset none s.releasing side none } side .ok) k l
  | none => s

/-! ### Port commands and events -/

/-- PORT_UP: PORT_CTRL.UP ends the hold of a port left down by UP_AT_START 0; no effect on any other port (R93, R118). -/
def execPortUp (p : Nat) (s : State) : Res :=
  .next (s.access (aPORT_CTRL (p % 32)) (fun s => s.setPort (p % 32) { s.port (p % 32) with held := false }))

/-- PORT_SLEEP: PORT_CTRL.SLEEP closes the node and begins sleep entry, or sets SLEEP_DENIED (R103, R118). -/
def execPortSleep (p : Nat) (s : State) : Res :=
  .next (s.access (aPORT_CTRL (p % 32)) (fun s =>
    if s.flag (aPORT_CFG (p % 32)) F.PORT_CFG_SLEEP_OK then
      if (s.port (p % 32)).sleep = .awake then
        (s.dropQueued (p % 32) (.port (p % 32) 21)).setPort (p % 32) { s.port (p % 32) with sleep := .entering }
      else s
    else s.setFld (aPORT_ERR (p % 32)) F.PORT_ERR_SLEEP_DENIED 1))

/-- A dispatched frame of egress `e` has not left yet. -/
def inFlightTo (s : State) (e : Nat) : Bool := s.jobs.any (fun x => x.2.egress = e && x.2.stage = .dispatched && !x.2.merged)

/-- SLEEP_REACHED: the port's dispatched frames have left and its transmit side powers down (R103). -/
def execSleepReached (p : Nat) (s : State) : Res :=
  if (s.port p).sleep = .entering ∧ !inFlightTo s p then .next (s.setPort p { s.port p with sleep := .asleep }) else .next s

/-- A wake event of cause `c`: the port begins to wake (R104). -/
def wakePort (s : State) (p c : Nat) : State :=
  if (s.port p).sleep = .asleep then s.setPort p { s.port p with sleep := .waking, wakeCause := c } else s

/-- PORT_WAKE: PORT_CTRL.WAKE wakes a sleeping port (R104, R118). -/
def execPortWake (p : Nat) (s : State) : Res :=
  .next (s.access (aPORT_CTRL (p % 32)) (fun s => wakePort s (p % 32) 1))

/-- Byte `i` of wake pattern `k` of port `p`, and of its mask: word w holds bytes 4w to 4w + 3 (R121). -/
def wakeByte (s : State) (p k i : Nat) (mask : Bool) : Byte :=
  (wordBytes (s.reg (portBase p + (if mask then 0x440 else 0x400) + 0x80 * k + 4 * (i / 4))))[i % 4]?.getD 0

/-- Does pattern `k` match a frame: all 64 masked bytes agree, and the mask is not all zero (R104, R105)? -/
def wakeMatch (s : State) (p k : Nat) (f : List Byte) : Bool :=
  s.fld (aWAKE_CTRL p) ⟨k, 1⟩ = 1 &&
  (List.range 64).all (fun i => (slice f i 1).headD 0 &&& wakeByte s p k i true = wakeByte s p k i false &&& wakeByte s p k i true) &&
  (List.range 64).any (fun i => wakeByte s p k i true ≠ 0)

/-- A frame dropped while the port wakes (R104, R120). -/
def wakeDrop (s : State) (p : Nat) : State := (s.count (.port p 10)).setFld (aPORT_ERR p) F.PORT_ERR_WAKE_DROP 1

/-- WAKE_PATTERN_MATCH: a received frame matches an enabled pattern: the sleeping port wakes, and the frame is dropped
and counted as a wake drop (R104). A frame that matches nothing wakes nothing. MATCH takes the lowest of several matching patterns
(DESIGN CHOICE: log entry 224). -/
def execWakePatternMatch (p : Nat) (f : List Byte) (s : State) : Res :=
  if p < 32 ∧ (s.port p).sleep = .asleep then
    match (List.range 4).find? (fun k => wakeMatch s p k f) with
    | some k =>
      let s := wakePort s p 2
      .next (wakeDrop (s.setPort p { s.port p with matched := k }) p)
    | none => .next s
  else .next s

/-- LINK_CHANGE_WAKE: the receive PCS of a sleeping port changes; between lost and aligned, or from receiving remote fault to idles, it
wakes the port where WAKE_CTRL.LINK is 1 (R104). The new state is kept in any case (R119). -/
def execLinkChangeWake (p : Nat) (aligned lf rf : Bool) (s : State) : Res :=
  if p < 32 ∧ (s.port p).sleep = .asleep then
    let x := s.port p
    let t := s.setPort p { x with aligned := aligned, lf := lf, rf := rf }
    if s.flag (aWAKE_CTRL p) F.WAKE_CTRL_LINK ∧ (x.aligned ≠ aligned ∨ (x.rf ∧ !rf ∧ !lf)) then .next (wakePort t p 3) else .next t
  else .next s

/-- WAKE_COMPLETE: a waking port is up again (R104). -/
def execWakeComplete (p : Nat) (s : State) : Res :=
  if (s.port p).sleep = .waking then .next (s.setPort p { s.port p with sleep := .awake }) else .next s

/-- PREEMPT_VERIFY: the verify exchange of a port with PREEMPT_EN ends (R101). -/
def execPreemptVerify (p : Nat) (ok : Bool) (s : State) : Res :=
  if p < 32 ∧ s.flag (aPORT_CFG p) F.PORT_CFG_PREEMPT_EN then
    .next (s.setPort p { s.port p with verify := if ok then .active else .failed })
  else .next s

/-- RECEIVE_PCS_CHANGE: the receive PCS of a port that is not asleep gains or loses alignment, or begins or stops receiving local
or remote fault: the port goes up or down and changes what it transmits (R100, R119); going down closes its node (R106). -/
def execReceivePcsChange (p : Nat) (aligned lf rf : Bool) (s : State) : Res :=
  if p < 32 ∧ (s.port p).sleep ≠ .asleep then
    .next (portEdge s p (s.setPort p { s.port p with aligned := aligned, lf := lf, rf := rf }))
  else .next s

end Sys2Proof.Machine
end

