-- ==== Sys2Proof/Machine/Tables.lean ====
section
/-! DEFINITION. The exact-match table, the LPM prefixes, learning, ageing, and the table commands
(05_classification.md, R136 to R153). -/

namespace Sys2Proof.Machine

/-! ### The exact-match table (R136 to R139) -/

/-- The slot and entry with a key; two entries with equal keys cannot coexist (R136). -/
def emFind (t : KMap EmEntry) (key : List Byte) : Option (Nat × EmEntry) := t.find? (fun e => e.2.key = key)

/-- The candidate slots of a key: 4 banks, 4 slots of one bucket of 8192 each, bank 0 first (R137). -/
def emCandidates (key : List Byte) : List Nat :=
  (List.range 4).flatMap (fun b => (List.range 4).map (fun w => b * 32768 + Config.bankHash b key % 8192 * 4 + w))

/-- The lowest number not in a rising list, from `n` on. -/
def lowestFree : List Nat → Nat → Nat
  | [], n => n
  | k :: r, n => if k < n then lowestFree r n else if k = n then lowestFree r (n + 1) else n

/-- An insertion by relocations (R137): entry `e` takes a free slot of its candidates, bank 0 first; else it displaces the resident of
one of them, which is placed in the same way, at most `fuel` times. `ctr` numbers the insertion: which slot a displacement takes is
not stated. -/
def emWalk (ctr : Nat) : Nat → KMap EmEntry → EmEntry → Option (KMap EmEntry)
  | 0, t, e => ((emCandidates e.key).find? (fun k => decide (kget {} t k = {}))).map (fun k => kset {} t k e)
  | fuel + 1, t, e =>
    match (emCandidates e.key).find? (fun k => decide (kget {} t k = {})) with
    | some k => some (kset {} t k e)
    | none =>
      let k := (emCandidates e.key).getD (Config.relocate ctr fuel % 16) 0
      emWalk ctr fuel (kset {} t k e) (kget {} t k)

/-- A table with entry `e` inserted, with at most 64 relocations (R137). Up to 124518 entries held it always succeeds; where the walk
of the model does not, the entry takes the lowest free slot. Above, that is FULL. -/
def emPlace (t : KMap EmEntry) (e : EmEntry) (ctr : Nat) : Option (KMap EmEntry) :=
  match emWalk ctr 64 t e with
  | some u => some u
  | none => if t.length ≤ 124518 then some (kset {} t (lowestFree (t.map Prod.fst) 0) e) else none

/-- Instance `g`'s table changed by `f`. -/
def State.modEm (s : State) (g : Nat) (f : KMap EmEntry → KMap EmEntry) : State :=
  s.setCls g { s.clsOf g with em := f (s.clsOf g).em }

/-- Insertion of a new entry: its slot and the state, or FULL (R137). -/
def emInsert (s : State) (g : Nat) (e : EmEntry) : Option (Nat × State) :=
  (emPlace (s.clsOf g).em e s.freeCtr).map (fun u => (((emFind u e.key).map Prod.fst).getD 0, s.useFree.modEm g (fun _ => u)))

/-! ### LPM prefixes (R148) -/

/-- The prefixes of a family, by prefix slot. -/
def State.lpm (s : State) (family : Nat) : KMap LpmEntry := if family = 4 then s.lpm4 else s.lpm6
def State.setLpm (s : State) (family : Nat) (m : KMap LpmEntry) : State :=
  if family = 4 then { s with lpm4 := m } else { s with lpm6 := m }

/-- The prefixes of a family as the replica of instance `g` holds them: the old ones until it has swapped (R149). -/
def State.lpmView (s : State) (g family : Nat) : KMap LpmEntry :=
  match (s.clsOf g).lpmOld with
  | some (f, m) => if f = family then m else s.lpm family
  | none => s.lpm family

/-- Every replica keeps the prefixes of a family as they stand until its swap (R149). -/
def keepOld (s : State) (family : Nat) (m : KMap LpmEntry) : State :=
  [0, 1, 2, 3].foldl (fun (t : State) g => t.setCls g { t.clsOf g with lpmOld := some (family, m) }) s

/-- The lowest-numbered instance that has not swapped does so (R149). -/
def swapReplica (s : State) : State :=
  match [0, 1, 2, 3].find? (fun g => (s.clsOf g).lpmOld.isSome) with
  | some g => s.setCls g { s.clsOf g with lpmOld := none }
  | none => s

/-- Prefix limit and node pool of a family (R148). -/
def lpmLimit (family : Nat) : Nat := if family = 4 then 131072 else 65536
def lpmPool (family : Nat) : Nat := if family = 4 then 4096 else 8192

/-- The prefix lengths at which a family's trie has nodes (R148). -/
def lpmLevels (family : Nat) : List Nat := if family = 4 then [16, 24] else (List.range 14).map (fun i => 16 + 8 * i)

/-- The nodes that a set of prefixes needs: one for each distinct pair (L, first L bits) for which some prefix is
longer than L (R148). -/
def lpmNodes (family : Nat) (m : KMap LpmEntry) : Nat :=
  ((lpmLevels family).map (fun l =>
    (((m.filter (fun e => decide (l < e.2.length))).map (fun e => beVal e.2.prefix16 / 2 ^ (128 - l))).eraseDups).length)).sum

/-- Does a prefix cover an address (left-aligned in 128 bits)? -/
def lpmCovers (e : LpmEntry) (addr : Nat) : Bool := beVal e.prefix16 / 2 ^ (128 - e.length) = addr / 2 ^ (128 - e.length)

/-- The longest stored prefix that covers an address (R148). -/
def lpmLookup (m : KMap LpmEntry) (addr : Nat) : Option (Nat × LpmEntry) :=
  m.foldl (fun best e =>
    if lpmCovers e.2 addr then
      match best with
      | some b => if b.2.length < e.2.length then some e else some b
      | none => some e
    else best) none

/-- The prefix with the prefix and length of `e`. -/
def lpmFind (m : KMap LpmEntry) (e : LpmEntry) : Option (Nat × LpmEntry) :=
  m.find? (fun x => x.2.prefix16 = e.prefix16 && x.2.length = e.length)

/-! ### Learning (R140 to R143) -/

/-- A learn request joins the queue of 256, or is discarded and counted (R141). -/
def learnRequest (s : State) (g : Nat) (r : Learn) : State :=
  let c := s.clsOf g
  if c.learnQ.length < 256 then s.setCls g { c with learnQ := c.learnQ ++ [r] }
  else (s.count (.cls g 13)).alarm (R.CLS_ALARM g) F.CLS_ALARM_LEARN_QFULL

/-- A station move of a dynamic entry (R142). -/
def stationMove (s : State) (g k : Nat) (e : EmEntry) (r : Result) : State :=
  let n := min 0xFFFF (e.moves + 1)
  let pin := decide (s.fld (R.CLS_MOVE g) F.CLS_MOVE_LIMIT < n)
  let s := (s.modEm g (fun t => kset {} t k { e with res := r, hit := true, moves := n, pinned := pin })).count (.cls g 11)
  if pin then s.alarm (R.CLS_ALARM g) F.CLS_ALARM_MOVE_PIN else s

/-- LEARN_APPLY: the learn queue of instance `g` applies its oldest request (R141 to R143): a new entry, HIT, a station
move, nothing on a pinned entry, a counted conflict with a static one, or a refusal for a full table. -/
def execLearnApply (g : Nat) (s : State) : Res :=
  let c := s.clsOf g
  match c.learnQ with
  | [] => .next s
  | r :: rest =>
    let s := s.setCls g { c with learnQ := rest }
    match emFind c.em r.key with
    | none =>
      match emInsert s g { key := r.key, res := r.res, hit := true } with
      | some (_, t) => .next (t.count (.cls g 15))
      | none => .next ((s.useFree.count (.cls g 14)).alarm (R.CLS_ALARM g) F.CLS_ALARM_LEARN_FULL)
    | some (k, e) =>
      if e.res = r.res then .next (s.modEm g (fun t => kset {} t k { e with hit := true }))
      else if e.static then
        let s := (s.count (.cls g 12)).alarm (R.CLS_ALARM g) F.CLS_ALARM_STATIC_CONFLICT
        if s.flag (R.DOMAIN_CFG_d g (beAt r.key 2 1)) F.DOMAIN_CFG_d_STATIC_DROP then .next (s.cutFrame r.frame)
        else .next s
      else if e.pinned then .next s
      else .next (stationMove s g k e r.res)

/-- PIN_HOLD_EXPIRY: PIN_HOLD_S after the move that set it, a pin of station moves ends (R142). -/
def execPinHoldExpiry (g k : Nat) (s : State) : Res :=
  let e := kget {} (s.clsOf g).em k
  if e.pinned ∧ !e.pinSw ∧ s.fld (R.CLS_MOVE g) F.CLS_MOVE_PIN_HOLD_S ≠ 0 then
    .next (s.modEm g (fun t => kset {} t k { e with pinned := false, pinSw := false }))
  else .next s

/-- MOVE_WINDOW_RESTART: every MOVES field of the instance reads 0 in the new window (R142). -/
def execMoveWindowRestart (g : Nat) (s : State) : Res :=
  .next (s.modEm g (fun t => t.map (fun e => (e.1, { e.2 with moves := 0 }))))

/-- A visit of the sweeper to a slot: static and pinned entries are skipped (R144). `hit`: a lookup matches the entry on the same
cycle, which leaves HIT set and SWEPT clear (R145). -/
def sweepVisit (s : State) (g k : Nat) (hit : Bool) : State :=
  let e := kget {} (s.clsOf g).em k
  if e = {} then s
  else if hit then s.modEm g (fun t => kset {} t k { e with hit := true, swept := if e.static ∨ e.pinned then e.swept else false })
  else if e.static ∨ e.pinned then s
  else if e.hit then s.modEm g (fun t => kset {} t k { e with hit := false, swept := false })
  else if !e.swept then s.modEm g (fun t => kset {} t k { e with swept := true })
  else (s.modEm g (fun t => kset {} t k {})).count (.cls g 16)

/-- AGEING_SWEEP_VISIT: the sweeper visits slot `k` of instance `g`, if it is not stopped (R144). -/
def execAgeingSweepVisit (g k : Nat) (hit : Bool) (s : State) : Res :=
  if s.fld (R.CLS_AGE g) F.CLS_AGE_PERIOD_S = 0 then .next s else .next (sweepVisit s g k hit)

/-- TRIE_WORD_REPAIR: the damaged trie word of instance `g` is rewritten from the next replica (R150). -/
def execTrieWordRepair (g : Nat) (s : State) : Res := .next (s.setCls g { s.clsOf g with trieBad := false })

/-! ### Table commands (R151, R152) -/

/-- What a table command comes to: its status, and the index and data it will leave. -/
structure TblAnswer where
  state : State
  status : Status
  index : Option Nat := none
  data : Option (List Byte) := none

/-- Another page runs a command that changes an LPM table (R152). -/
def lpmBusy (s : State) (g : Nat) : Bool :=
  (List.range 4).any (fun h => h ≠ g && (match (s.clsOf h).pending with
    | some p => p.lpmChange
    | none => false))

/-- PREFIXES and NODES_FREE of a family (R160). -/
def lpmWord (family : Nat) (m : KMap LpmEntry) : Word := BitVec.ofNat 32 ((lpmPool family - lpmNodes family m) * 2 ^ 18 + m.length)

/-- CLS_OCC (0), CLS_LPM4 (4) and CLS_LPM6 (6) of instance `g` (R160); while its page is BUSY, as before the command (R152). -/
def occWord (s : State) (g n : Nat) : Word :=
  let now : Word := if n = 0 then BitVec.ofNat 32 (s.clsOf g).em.length else lpmWord n (s.lpmView g n)
  match (s.clsOf g).pending with
  | some p => ((p.before.find? (fun x => x.1 = n)).map Prod.snd).getD now
  | none => now

/-- A TBL_CMD write with GO 1 on page `g`: ignored while BUSY; otherwise BUSY is set, the operation acts on the table,
and what it reports waits for TBL_CMD_DONE (R152). `change` names the family of an operation that changes an LPM table, which the
replicas take over one by one (R149); one issued while another page's runs ends at once with BUSY. -/
def tblIssue (s : State) (g : Nat) (change : Option Nat) (op : State → TblAnswer) : State :=
  s.access (R.TBL_CMD g) (fun s =>
    if s.flag (R.TBL_STATUS g) F.TBL_STATUS_BUSY then s
    else if change.isSome ∧ lpmBusy s g then s.setFld (R.TBL_STATUS g) F.TBL_STATUS_STATUS Status.busy.code
    else
      let a := op s
      let t := match change with
        | some f => keepOld a.state f (s.lpm f)
        | none => a.state
      (t.setCls g { t.clsOf g with pending := some { status := a.status, index := a.index, data := a.data, lpmChange := change.isSome, before := [0, 4, 6].map (fun n => (n, occWord s g n)) } }).setFld
        (R.TBL_STATUS g) F.TBL_STATUS_BUSY 1)

/-- The 32 bytes of TBL_DATA (R159). -/
def tblData (s : State) (g : Nat) : List Byte := s.winBytes (R.TBL_DATA_n g 0) 8

/-- The family of TABLE 1 or 2. -/
def tableFamily (table : Nat) : Nat := if table = 1 then 4 else 6

/-- The LPM table that a WRITE, INSERT, DELETE or FLUSH changes (R152). -/
def lpmTable (table : Nat) : Option Nat := if table = 1 ∨ table = 2 then some (tableFamily table) else none

/-- Does a BYPASS result scoped to a port lack the permission of its pairing (R151)? -/
def bypassDenied (s : State) (b : List Byte) : Bool :=
  decide (beAt b 16 1 = 4) && decide (beAt b 1 1 ≠ 0) && !bit s.bypassPermit (beAt b 2 1 % 16)

/-- The rules of R133 and R136 for an entry to be written, for instance `g`. -/
def emEntryOk (s : State) (g : Nat) (b : List Byte) : Bool :=
  emKeyOk g b && resultOk (slice b 16 8) && decide (beAt b 24 1 < 32) && decide (beAt b 25 1 = 0) && allZero (slice b 28 4) &&
  (decide (beAt b 1 1 ≠ 1) || decide (s.pers (beAt b 2 1 % 16) ≠ .channelMacsec) || decide (beAt b 16 1 ≠ 1) ||
   decide (beAt b 18 1 = 255) || decide (beAt b 18 1 = 128 + beAt b 2 1))

/-- READ (R151). -/
def tblReadOp (g table : Nat) (s : State) : TblAnswer :=
  let i := s.fld (R.TBL_INDEX g) F.TBL_INDEX_INDEX
  if table = 0 then
    if i < 131072 then
      let e := kget {} (s.clsOf g).em i
      { state := s, status := .ok, data := some (if e = {} then be 32 0 else e.bytes) }
    else { state := s, status := .invalid }
  else if table ≤ 2 then
    let fam := tableFamily table
    if i < lpmLimit fam then
      let e := kget {} (s.lpmView g fam) i
      { state := s, status := .ok, data := some (if e = {} then be 32 0 else e.bytes) }
    else { state := s, status := .invalid }
  else { state := s, status := .invalid }

/-- WRITE (R151): RESULT, STATIC and PINNED of the entry with the key. -/
def tblWriteOp (g table : Nat) (s : State) : TblAnswer :=
  let b := tblData s g
  if table = 0 then
    if !emEntryOk s g b then { state := s, status := .invalid }
    else if bypassDenied s b then { state := s, status := .denied }
    else match emFind (s.clsOf g).em (slice b 0 16) with
      | some (k, e) =>
        let n := emEntryOf b
        { state := s.modEm g (fun t => kset {} t k { e with res := n.res, static := n.static, pinned := n.pinned, pinSw := n.pinSw }), status := .ok }
      | none => { state := s, status := .notFound }
  else if table ≤ 2 then
    let fam := tableFamily table
    if !(lpmOk fam b && resultOk (slice b 16 8)) then { state := s, status := .invalid }
    else match lpmFind (s.lpm fam) (lpmEntryOf b) with
      | some (k, _) => { state := s.setLpm fam (kset {} (s.lpm fam) k (lpmEntryOf b)), status := .ok }
      | none => { state := s, status := .notFound }
  else { state := s, status := .invalid }

/-- INSERT (R137, R148, R151). -/
def tblInsertOp (g table : Nat) (b : List Byte) (s : State) : TblAnswer :=
  if table = 0 then
    if !emEntryOk s g b then { state := s, status := .invalid }
    else if bypassDenied s b then { state := s, status := .denied }
    else match emFind (s.clsOf g).em (slice b 0 16) with
      | some (k, _) => { state := s, status := .conflict, index := some k }
      | none =>
        match emInsert s g (emEntryOf b) with
        | some (k, t) => { state := t, status := .ok, index := some k }
        | none => { state := s.useFree, status := .full }
  else if table ≤ 2 then
    let fam := tableFamily table
    if !(lpmOk fam b && resultOk (slice b 16 8)) then { state := s, status := .invalid }
    else match lpmFind (s.lpm fam) (lpmEntryOf b) with
      | some (k, _) => { state := s, status := .conflict, index := some k }
      | none =>
        let k := lowestFree ((s.lpm fam).map Prod.fst) 0
        let m := kset {} (s.lpm fam) k (lpmEntryOf b)
        if lpmLimit fam ≤ (s.lpm fam).length ∨ lpmPool fam < lpmNodes fam m then { state := s, status := .full }
        else { state := s.setLpm fam m, status := .ok, index := some k }
  else { state := s, status := .invalid }

/-- DELETE (R151). -/
def tblDeleteOp (g table : Nat) (b : List Byte) (s : State) : TblAnswer :=
  if table = 0 then
    if !emKeyOk g b then { state := s, status := .invalid }
    else match emFind (s.clsOf g).em (slice b 0 16) with
      | some (k, _) => { state := s.modEm g (fun t => kset {} t k {}), status := .ok }
      | none => { state := s, status := .notFound }
  else if table ≤ 2 then
    let fam := tableFamily table
    if !lpmOk fam b then { state := s, status := .invalid }
    else match lpmFind (s.lpm fam) (lpmEntryOf b) with
      | some (k, _) => { state := s.setLpm fam (kset {} (s.lpm fam) k {}), status := .ok }
      | none => { state := s, status := .notFound }
  else { state := s, status := .invalid }

/-- SEARCH (R151). -/
def tblSearchOp (g table : Nat) (s : State) : TblAnswer :=
  let b := tblData s g
  if table = 0 then
    if !emKeyOk g b then { state := s, status := .invalid }
    else match emFind (s.clsOf g).em (slice b 0 16) with
      | some (k, e) => { state := s, status := .ok, index := some k, data := some e.bytes }
      | none => { state := s, status := .notFound }
  else if table ≤ 2 then
    let fam := tableFamily table
    if beAt b 24 1 ≠ fam then { state := s, status := .invalid }
    else match lpmLookup (s.lpmView g fam) (beAt b 0 16) with
      | some (k, e) => { state := s, status := .ok, index := some k, data := some e.bytes }
      | none => { state := s, status := .notFound }
  else { state := s, status := .invalid }

/-- Does an entry match a FLUSH filter FLT with the fields of TBL_DATA (R157)? -/
def fltMatch (flt : Nat) (b : List Byte) (e : EmEntry) : Bool :=
  (!bit flt 0 || !e.static) && (!bit flt 1 || slice e.key 1 2 = slice b 1 2) &&
  (!bit flt 2 || e.res.egress = beAt b 18 1) && (!bit flt 3 || e.res.assoc = beAt b 20 2)

/-- FLUSH (R151, R157). -/
def tblFlushOp (g table flt : Nat) (s : State) : TblAnswer :=
  let b := tblData s g
  if table = 0 then
    let t := (s.clsOf g).em
    let keep := t.filter (fun e => !fltMatch flt b e.2)
    { state := s.modEm g (fun _ => keep), status := .ok, index := some (t.length - keep.length) }
  else if table ≤ 2 then
    let fam := tableFamily table
    if beAt b 24 1 ≠ fam then { state := s, status := .invalid }
    else { state := s.setLpm fam [], status := .ok, index := some (s.lpm fam).length }
  else { state := s, status := .invalid }

/-- AGE (R144, R151): one visit of every slot; EM only. -/
def tblAgeOp (g table : Nat) (s : State) : TblAnswer :=
  if table = 0 then { state := ((s.clsOf g).em.map Prod.fst).foldl (fun s k => sweepVisit s g k false) s, status := .ok }
  else { state := s, status := .invalid }

/-- TBL_READ: TBL_CMD READ on page `g` for TABLE. -/
def execTblRead (g table : Nat) (s : State) : Res := .next (tblIssue s (g % 4) none (tblReadOp (g % 4) table))

/-- TBL_WRITE: TBL_CMD WRITE. -/
def execTblWrite (g table : Nat) (s : State) : Res := .next (tblIssue s (g % 4) (lpmTable table) (tblWriteOp (g % 4) table))

/-- TBL_INSERT: TBL_CMD INSERT. -/
def execTblInsert (g table : Nat) (s : State) : Res :=
  .next (tblIssue s (g % 4) (lpmTable table) (fun s => tblInsertOp (g % 4) table (tblData s (g % 4)) s))

/-- TBL_DELETE: TBL_CMD DELETE. -/
def execTblDelete (g table : Nat) (s : State) : Res :=
  .next (tblIssue s (g % 4) (lpmTable table) (fun s => tblDeleteOp (g % 4) table (tblData s (g % 4)) s))

/-- TBL_SEARCH: TBL_CMD SEARCH. -/
def execTblSearch (g table : Nat) (s : State) : Res := .next (tblIssue s (g % 4) none (tblSearchOp (g % 4) table))

/-- TBL_FLUSH: TBL_CMD FLUSH with filter FLT. -/
def execTblFlush (g table flt : Nat) (s : State) : Res := .next (tblIssue s (g % 4) (lpmTable table) (tblFlushOp (g % 4) table flt))

/-- TBL_AGE: TBL_CMD AGE. -/
def execTblAge (g table : Nat) (s : State) : Res := .next (tblIssue s (g % 4) none (tblAgeOp (g % 4) table))

/-- TBL_CMD_DONE: the table command of page `g` completes: BUSY clears, and STATUS, TBL_INDEX and TBL_DATA are written
(R151, R152, R158). -/
def execTblCmdDone (g : Nat) (s : State) : Res :=
  match (s.clsOf g).pending with
  | none => .next s
  | some p =>
    let s := s.setCls g { s.clsOf g with pending := none }
    let s := if p.lpmChange then [0, 1, 2, 3].foldl (fun (t : State) h => t.setCls h { t.clsOf h with lpmOld := none }) s else s
    let s := (s.setFld (R.TBL_STATUS g) F.TBL_STATUS_BUSY 0).setFld (R.TBL_STATUS g) F.TBL_STATUS_STATUS p.status.code
    let s := match p.index with
      | some i => s.setFld (R.TBL_INDEX g) F.TBL_INDEX_INDEX i
      | none => s
    match p.data with
    | some d => .next (s.setWin (R.TBL_DATA_n g 0) d 8)
    | none => .next s

end Sys2Proof.Machine
end

