-- ==== Sys2Proof/Machine/Classify.lean ====
section
/-! DEFINITION. The receive MAC, the forebay and the classifier (R16, R19 to R21, R98 to R102, R128 to R135, R140,
R145, R146). -/

namespace Sys2Proof.Machine

/-! ### The forebay (R19, R276) -/

/-- The owner code (R65) of frames of an ingress: port group + 1, or 5 for the host port. -/
def ownerOf (s : State) (ingress : Nat) : Nat :=
  if ingress < 32 then ingress % 16 / 4 + 1
  else if ingress = 32 then 5
  else s.fld (R.CAS_CFG (ingress - 64)) F.CAS_CFG_FIRST_LANE / 4 + 1

/-- Cells of an owner's partitions: 1024 each (R19). -/
def cellCapacity (s : State) (owner : Nat) : Nat := 1024 * kcount (· = owner) s.partition

/-- Cells of 256 bytes a frame takes; the MAC allocates none before 64 bytes have arrived, so a runt takes none (R98). -/
def cellsOf (f : Frame) : Nat := if f.ingress < 32 ∧ !f.complete ∧ f.bytes.length < 64 then 0 else (f.bytes.length + 255) / 256

/-- The owner of a frame: a slice's frames lie in the host pool; TRIB of a host frame is its slice + 1 (R65, R456). -/
def frameOwner (s : State) (f : Frame) : Nat := if f.ingress = 32 ∧ f.trib ≠ 0 then 6 else ownerOf s f.ingress

/-- Cells in use by an owner's frames that are not in the cistern. -/
def cellsUsed (s : State) (owner : Nat) : Nat :=
  ((s.frames.filter (fun e => frameOwner s e.2 = owner && !e.2.spilled)).map (fun e => cellsOf e.2)).sum

/-- The capacity that counts for a frame, in cells, and its use: its slice's one partition (R456), or all of its owner's. -/
def frameCapacity (s : State) (f : Frame) : Nat := if frameOwner s f = 6 then 1024 else cellCapacity s (frameOwner s f)
def frameUsed (s : State) (f : Frame) : Nat :=
  if frameOwner s f = 6 then ((s.frames.filter (fun e => e.2.ingress = 32 && e.2.trib = f.trib && !e.2.spilled)).map (fun e => cellsOf e.2)).sum
  else cellsUsed s (frameOwner s f)

/-- The classifier instance of an ingress (R13, R128): the port group of the port, or of the trunk's lowest line port. -/
def instanceOf (s : State) (ingress : Nat) : Nat :=
  if ingress < 32 then ingress % 16 / 4 else s.fld (R.CAS_CFG (ingress - 64)) F.CAS_CFG_FIRST_LANE / 4 % 4

/-- Header records of one side of an instance that wait in the crossing to the classifier (R15, R16). -/
def recordsWaiting (s : State) (p : Nat) : Nat :=
  kcount (fun f => f.ingress < 32 && f.ingress / 16 = p / 16 && f.ingress % 16 / 4 = p % 16 / 4 && !f.classified) s.frames

/-- FRAME_ARRIVAL: start-of-frame at port `p`, with the header record (the first bytes that arrive). The MAC drops a frame
with a preamble error, one that meets a full crossing (overrun) or finds no free cell (a runt needs none); a port that
wakes drops it; a port that is not up takes nothing (R16, R21, R36, R98, R104, R276). -/
def execFrameArrival (p : Nat) (header : List Byte) (preambleOk : Bool) (s : State) : Res :=
  if (s.port p).sleep = .waking then .next (wakeDrop s p)
  else if !portUp s p then .next s
  else if !preambleOk then .next (s.count (.port p 5))
  else if 32 ≤ recordsWaiting s p then .next ((s.count (.port p 6)).setFld (aPORT_ERR p) F.PORT_ERR_OVERRUN 1)
  else if 64 ≤ header.length ∧ cellCapacity s (ownerOf s p) ≤ cellsUsed s (ownerOf s p) then .next (s.count (.port p 11))
  else
    let s := if portUnlocked s p then s.count (.port p 30) else s
    .next { s.setFrame s.nextFrame { ingress := p, bytes := header, ts := s.rxStamps p, unlocked := portUnlocked s p } with nextFrame := s.nextFrame + 1 }

/-! ### The end of a frame (R98, R99, R102) -/

/-- What the MAC finds at a frame's end. -/
inductive FrameCheck where
  | good | runt | oversize | fcs | stomped | reassembly | truncated | macControl
  deriving DecidableEq, Repr

/-- The checks of R98 on a whole frame: DA to FCS; `codewords` and `reassembled` are what the PCS and the MAC Merge
sublayer report, `arrived` that the tail arrived. -/
def checkFrame (s : State) (p : Nat) (b : List Byte) (codewords reassembled arrived : Bool) : FrameCheck :=
  let n := b.length
  let body := b.take (n - 4)
  let fcs := b.drop (n - 4)
  if !arrived then .truncated
  else if !reassembled then .reassembly
  else if n < 64 then .runt
  else if s.fld (aPORT_CFG p) F.PORT_CFG_MAX_FRAME < n then .oversize
  else if !codewords then .fcs
  else if fcs = fcsOf body then (if beAt b 12 2 = 0x8808 then .macControl else .good)
  else if fcs = (fcsOf body).map (~~~ ·) then .stomped
  else .fcs

/-- How a queue entry ends when its frame fails (R98): before dispatch it is removed; once dispatched with no beat fed,
it is skipped; once a beat has entered a rill, it is stomped. -/
def failJobs (s : State) (h : Nat) : List Nat → State
  | [] => s
  | j :: r =>
    let t := failJobs s h r
    let x := t.job j
    if x.frame ≠ h then t
    else if x.stage ≠ .dispatched then t.dropJob j
    else if x.fed = 0 then t.setJob j { x with skip := true }
    else t.setJob j { x with stomp := true }

/-- A failed frame: its queue entries end as `failJobs` says, its cells go when the last of them is done. -/
def failFrame (s : State) (h : Nat) : State :=
  let f := s.frame h
  let s := s.setFrame h { f with bad := true, learn := none }
  let s := failJobs s h (s.jobs.map Prod.fst)
  if (s.frame h).copies = 0 then s.setFrame h {} else s

/-- A frame known good: counted, and a client frame's learn request is released (R140). -/
def goodFrame (s : State) (h : Nat) (b : List Byte) : State :=
  let f := s.frame h
  let p := f.ingress
  let s := (s.count (.port p 0)).countN (.port p 1) b.length
  let s := s.setFrame h { f with bytes := b, complete := true, learn := if p < 16 then none else f.learn }
  let s := match f.learn with
    | some r => if p < 16 then learnRequest s (p % 16 / 4) r else s
    | none => s
  if f.classified ∧ f.copies = 0 then s.setFrame h {} else s

/-- The owner's partitions hold the cells that the whole frame `b` of `h` takes, written up to MAX_FRAME + 1 bytes (R98, R276). -/
def tailFits (s : State) (h : Nat) (b : List Byte) : Bool :=
  let f := s.frame h
  let n := min b.length (s.fld (aPORT_CFG f.ingress) F.PORT_CFG_MAX_FRAME + 1)
  decide (n < 64) || decide (cellsUsed s (ownerOf s f.ingress) + (n + 255) / 256 ≤ cellCapacity s (ownerOf s f.ingress) + cellsOf f)

/-- A frame of an ESP tunnel pairing whose IPv4 total length proves to be larger than the frame, and which was classified before its
end: dropped as malformed while nothing of it is dispatched (R130). -/
def lateMalformed (s : State) (h : Nat) (b : List Byte) : State :=
  let f := s.frame h
  let p := f.ingress
  if f.classified ∧ s.pers (p % 16) = .espTunnel ∧ (parseFrame b (some b.length)).malformed ∧
      0 < f.copies ∧ s.jobs.all (fun e => e.2.frame ≠ h || e.2.stage.waits) then
    (s.count (.cls (p % 16 / 4) 0)).cutFrame h
  else s

/-- FRAME_END: the tail of frame `h` arrives, and the MAC checks length, codewords and FCS (R98). A MAC Control frame is
consumed and counted (R99). A frame whose tail finds no free cell is truncated (R276). -/
def execFrameEnd (h : Nat) (tail : List Byte) (codewords reassembled arrived : Bool) (s : State) : Res :=
  let f := s.frame h
  let p := f.ingress
  if f = {} ∨ f.complete ∨ f.bad ∨ 32 ≤ p then .next s
  else
    let b := f.bytes ++ tail
    match checkFrame s p b codewords reassembled (arrived && tailFits s h b) with
    | .good => .next (goodFrame (lateMalformed s h b) h b)
    | .macControl => .next (failFrame (s.count (.port p 7)) h)
    | .runt => .next (failFrame ((s.count (.port p 2)).setFld (aPORT_ERR p) F.PORT_ERR_RUNT 1) h)
    | .oversize =>
      .next (failFrame (((s.count (.port p 4)).setFld (aPORT_ERR p) F.PORT_ERR_OVERSIZE 1).setFrame h
        { f with bytes := b.take (s.fld (aPORT_CFG p) F.PORT_CFG_MAX_FRAME + 1) }) h)
    | .fcs => .next (failFrame (((s.count (.port p 3)).setFld (aPORT_ERR p) F.PORT_ERR_FCS 1).setFrame h { f with bytes := b }) h)
    | .stomped =>
      .next (failFrame ((((s.count (.port p 3)).count (.port p 8)).setFld (aPORT_ERR p) F.PORT_ERR_FCS 1).setFrame h { f with bytes := b }) h)
    | .reassembly => .next (failFrame ((s.count (.port p 9)).setFld (aPORT_ERR p) F.PORT_ERR_REASM 1) h)
    | .truncated => .next (failFrame (s.count (.port p 12)) h)

/-! ### Choosing a result (R131, R132) -/

/-- PPOL registers of port `p`: client port 4g + i is index i, line port 4g + i index 4 + i (R153). -/
def ppolIdx (p : Nat) : Nat := if p < 16 then p % 4 else p % 4 + 4
def ppolA (s : State) (p : Nat) (f : Fld) : Nat := s.fld (R.PPOL_A_i (p % 16 / 4) (ppolIdx p)) f
def ppolB (s : State) (p : Nat) (f : Fld) : Nat := s.fld (R.PPOL_B_i (p % 16 / 4) (ppolIdx p)) f

/-- The port's default result; EGRESS is the other port of the pairing (R132, R162). -/
def defaultResult (s : State) (p : Nat) : Result :=
  { action := ppolA s p F.PPOL_A_i_ACTION, cls := ppolA s p F.PPOL_A_i_CLASS, egress := if p < 16 then 128 + p else p % 16,
    assoc := ppolB s p F.PPOL_B_i_ASSOC, sub := ppolB s p F.PPOL_B_i_SUBSCRIBER }

/-- The enabled punt class that a frame meets (R131). -/
def puntClass (s : State) (g : Nat) (pers : Personality) (x : Parsed) : Option Nat :=
  let en := s.fld (R.CLS_PUNT g) F.CLS_PUNT_EN
  let udpTo (n : Nat) : Bool := match x.udp with
    | some (_, d) => d = n
    | none => false
  if bit en 0 ∧ x.etype = 0x888E then some 0
  else if bit en 1 ∧ pers = .espTunnel ∧ (udpTo 500 ∨ (udpTo 4500 ∧ x.natWord = 0)) then some 1
  else if bit en 2 ∧ (x.etype = 0x88F7 ∨ udpTo 319 ∨ udpTo 320) then some 2
  else if bit en 3 ∧ (x.etype = 0x0806 ∨ x.icmp6 = some 135 ∨ x.icmp6 = some 136) then some 3
  else none

/-- The port (P) that an EGRESS byte names; 0xFF is the other port of the ingress's pairing (R133, R134). -/
def egressOf (p e : Nat) : Nat :=
  if e = 255 then (if p < 16 then 16 + p else p % 16) else if 128 ≤ e then 16 + e % 16 else e % 16

/-- What classification comes to: a drop counted under a counter, one result, or a flood to one side's members. -/
inductive Verdict where
  | drop (c : Ctr)
  | one (r : Result)
  /-- Flood to the line members (outbound), or to the client members with the action and association of a result (inbound). -/
  | flood (via : Option Result)
  deriving DecidableEq, Repr

/-- The VLAN field of a key: the VID, or UNTAGGED (R136). -/
def vlanKey (x : Parsed) : Nat :=
  match x.tag with
  | some (_, vid) => vid
  | none => 4096

/-- A lookup's answer: the entry, and the state with HIT set (R144). An uncorrectable error in the entry makes it absent
and removes it; a corrected one is counted (R139). `ecc`: 0 none, 1 corrected, 2 uncorrectable. -/
def emLookup (s : State) (g : Nat) (key : List Byte) (ecc : Nat) : Option EmEntry × State :=
  match emFind (s.clsOf g).em key with
  | some (k, e) =>
    if ecc = 2 then (none, ((s.modEm g (fun t => kset {} t k {})).count (.cls g 18)).alarm (R.CLS_ALARM g) F.CLS_ALARM_TABLE_ECC)
    else
      let s := if ecc = 1 then s.count (.cls g 17) else s
      (some e, s.modEm g (fun t => kset {} t k { e with hit := true }))
  | none => (none, s)

/-- The key of an address in bridge domain `d` (R140, R145): UNTAGGED when the domain shares one learning space. -/
def domainKey (s : State) (g d vlan mac : Nat) : List Byte :=
  emKey 1 0 d (if s.flag (R.DOMAIN_CFG_d g d) F.DOMAIN_CFG_d_SHARED_VLAN then 4096 else vlan) mac

/-- The learn request of a bridged frame, if its domain learns (R140). -/
def learnOf (s : State) (g d vlan sa h : Nat) (r : Result) : Option Learn :=
  if s.flag (R.DOMAIN_CFG_d g d) F.DOMAIN_CFG_d_VALID ∧ s.flag (R.DOMAIN_CFG_d g d) F.DOMAIN_CFG_d_LEARN_EN then
    some { key := domainKey s g d vlan sa, res := r, frame := h }
  else none

/-- Two results name the same source: a client port, or a line port and its SC (R140, R142). EGRESS 0xFF names the port itself. -/
def sameSource (e r : Result) : Bool := e.action = r.action && (e.egress = 255 || e.egress = r.egress) && (e.action ≠ 1 || e.assoc = r.assoc)

/-- A source address whose entry is pinned and names another port or SC (R142). -/
def pinnedSource (s : State) (g d vlan sa : Nat) (r : Result) : Bool :=
  match emFind (s.clsOf g).em (domainKey s g d vlan sa) with
  | some (_, e) => e.pinned && !sameSource e.res r
  | none => false

/-- An inbound frame without protection: NOPROT decides (R132, R162). -/
def nonprot (s : State) (p : Nat) : Verdict :=
  .one { defaultResult s p with action := ppolA s p F.PPOL_A_i_NOPROT }

/-- Outbound classification of a client frame (R132): the verdict, the learn request it holds, and the state. -/
def classifyOut (s : State) (p h : Nat) (x : Parsed) (ecc : Nat) : Verdict × Option Learn × State :=
  let g := p / 4
  let dft := defaultResult s p
  match s.pers p with
  | .none => (.drop (.cls g 3), none, s)
  | .portMacsec => (.one dft, none, s)
  | .espTunnel =>
    if x.family = 0 then (.one dft, none, s)
    else if ecc = 2 then
      (.drop (.cls g 19), none, (s.setCls g { s.clsOf g with trieBad := true }).alarm (R.CLS_ALARM g) F.CLS_ALARM_TABLE_ECC)
    else
      let s := if ecc = 1 then s.count (.cls g 17) else s
      match lpmLookup (s.lpmView g x.family) x.dst with
      | some (_, e) => (.one e.res, none, s)
      | none => (.one dft, none, s)
  | .bridgedMacsec =>
    let d := ppolA s p F.PPOL_A_i_DOMAIN
    let r : Result := { action := 7, cls := 8, egress := p, assoc := 0, sub := ppolB s p F.PPOL_B_i_SUBSCRIBER }
    let l := learnOf s g d (vlanKey x) x.sa h r
    if pinnedSource s g d (vlanKey x) x.sa r then (.drop (.cls g 8), none, s)
    else if x.da / 2 ^ 40 % 2 = 1 then (.flood none, l, s)
    else match emLookup s g (domainKey s g d (vlanKey x) x.da) ecc with
      | (some e, t) => (.one e.res, l, t)
      | (none, t) => (.flood none, l, t)
  | _ =>
    match emLookup s g (emKey 1 1 p (vlanKey x) x.da) ecc with
    | (some e, t) => (.one e.res, none, t)
    | (none, t) => (.one dft, none, t)

/-- The VLAN that an inbound bridged lookup may use: the outer VLAN left in clear by a confidentiality offset of 30 or
50 of the receive SC, otherwise UNTAGGED (R145). -/
def clearVlan (s : State) (e : Result) (f : List Byte) (t : SecTag) : Nat :=
  if e.action ≠ 3 ∨ (s.assoc true e.assoc).record.confOffset = 0 then 4096
  else if isTpid (beAt f t.size 2) then beAt f (t.size + 2) 2 % 4096 else 4096

/-- A miss of an SCI or SPI (R132): counted per instance, and in the legacy block per port (R485). -/
def unknownSci (s : State) (g p : Nat) : Verdict × Option Learn × State := (.drop (.cls g 7), none, s.addLegacy 1 (208 + p % 16))

/-- The bridge step for an inbound frame whose result `e` is to DECRYPT or FORWARD it (R132, R140, R145): its egress from the
destination's entry, or a flood. A destination entry that is not FORWARD to a client port drops the frame as local-dest: R134 names
that outcome for ENCRYPT_SC and line egress only, for the others it is the model's choice. Without a receive SC nothing is learned. -/
def bridgeIn (s : State) (g p h : Nat) (f : List Byte) (t : SecTag) (x : Parsed) (e : Result) (ecc : Nat) : Verdict × Option Learn × State :=
  let d := ppolA s p F.PPOL_A_i_DOMAIN
  let v := clearVlan s e f t
  let tx := if e.action = 3 then (s.assoc true e.assoc).record.paired else 0xFFFF
  let r : Result := { action := 1, cls := 8, egress := 128 + p % 16, assoc := tx, sub := ppolB s p F.PPOL_B_i_SUBSCRIBER }
  let l := if tx = 0xFFFF then none else learnOf s g d v x.sa h r
  if pinnedSource s g d v x.sa r then (.drop (.cls g 8), none, s)
  else if x.da / 2 ^ 40 % 2 = 1 then (.flood (some e), l, s)
  else match emLookup s g (domainKey s g d v x.da) ecc with
    | (some b, u) =>
      if b.res.action = 7 ∧ egressOf p b.res.egress < 16 then (.one { e with egress := egressOf p b.res.egress }, l, u)
      else (.drop (.cls g 6), l, u)
    | (none, u) => (.flood (some e), l, u)

/-- Inbound classification of a line frame (R132). A pairing without a personality, and an Ethernet frame on a line port of a Cascade
pairing, have no step in R132: a policy drop, the model's choice. `ecc2` is what the bridge lookup's ECC finds. -/
def classifyIn (s : State) (p h : Nat) (f : List Byte) (x : Parsed) (ecc ecc2 : Nat) : Verdict × Option Learn × State :=
  let g := p % 16 / 4
  match s.pers (p % 16) with
  | .none => (.drop (.cls g 3), none, s)
  | .cascade => (.drop (.cls g 3), none, s)
  | .espTunnel =>
    match x.spi with
    | some spi =>
      match emLookup s g (emKey 3 2 (p % 16) 0 spi) ecc with
      | (some e, t) => (.one e.res, none, t)
      | (none, t) => unknownSci t g p
    | none => (nonprot s p, none, s)
  | pers =>
    match parseSecTag f with
    | none => (nonprot s p, none, s)
    | some t =>
      let bridged (s : State) (e : Result) : Verdict × Option Learn × State :=
        if pers = .bridgedMacsec ∧ (e.action = 3 ∨ e.action = 7) then bridgeIn s g p h f t x e ecc2 else (.one e, none, s)
      match (match t.sci with
        | some v => some v
        | none => if bit t.tci 6 then some (x.sa * 65536 + 1) else none) with
      | none => bridged s (defaultResult s p)
      | some v =>
        match emLookup s g (emKey 2 2 (p % 16) 0 v) ecc with
        | (none, u) => unknownSci u g p
        | (some e, u) => bridged u e.res

/-! ### Checks of the action, and queue entries (R134, R135, R146) -/

/-- The class that a class code chooses (R133, R135). -/
def classOf (code : Nat) (x : Parsed) : Nat :=
  if code < 8 then code
  else if code = 8 then (match x.tag with
    | some (pcp, _) => pcp
    | none => 0)
  else if x.family = 0 then 0 else x.dscp / 8

/-- A result of ingress `p` checked by R134: the queue entry it makes, or the counter of its drop. The local-dest check
comes before the checks of the table; the derived egress of DECRYPT is not subject to it. -/
def actionCheck (s : State) (g p h : Nat) (x : Parsed) (r : Result) : Job ⊕ Ctr :=
  let e := egressOf p r.egress
  let j : Job := { stage := .classified, frame := h, action := r.action, assoc := r.assoc, egress := e, sub := r.sub, cls := classOf r.cls x }
  let out := decide (p < 16)
  match r.action with
  | 0 => .inr (.cls g 3)
  | 1 =>
    if !out ∨ e < 16 then .inr (.cls g 6)
    else
      let a := s.assoc false r.assoc
      if a.valid ∧ a.record.kind = 0 ∧ 16 + a.record.port = e then .inl j else .inr (.cls g 4)
  | 2 =>
    if !out ∨ e < 16 then .inr (.cls g 6)
    else
      let a := s.assoc false r.assoc
      if a.valid ∧ a.record.kind = 1 ∧ 16 + a.record.port = e ∧ a.record.port = p then .inl j else .inr (.cls g 4)
  | 3 =>
    let a := s.assoc true r.assoc
    if a.valid ∧ 16 + a.record.port = p then .inl { j with egress := if s.pers (p % 16) = .bridgedMacsec ∧ e < 16 then e else p % 16 } else .inr (.cls g 4)
  | 4 =>
    let e := if p < 16 then 16 + p else p % 16
    if bit s.bypassPermit (p % 16) then .inl { j with egress := e } else .inr (.cls g 5)
  | 5 =>
    let t := r.assoc / 32 % 4
    let i := r.assoc % 32
    if s.flag (R.CAS_CFG t) F.CAS_CFG_ENABLE ∧ s.flag (R.CAS_TRIB_t_0 t i) F.CAS_TRIB_t_0_VALID ∧ !s.flag (R.CAS_TRIB_t_0 t i) F.CAS_TRIB_t_0_TYPE then
      .inl { j with egress := 64 + t, trib := i }
    else .inr (.cls g 4)
  | 6 => .inl { j with egress := 32, assoc := 0, punt := r.assoc, sub := s.fld R.HIF_SUB F.HIF_SUB_PUNT_SUB, cls := classOf (ppolA s p F.PPOL_A_i_CLASS) x }
  | 7 => if out ∨ 16 ≤ e then .inr (.cls g 6) else .inl j
  | _ => .inr (.cls g 3)

/-- The flood members of domain `d` on a side (1 line, 0 client) other than ingress `p`, as results (R146): encrypted on the member's
SC, or as the result `via` says. -/
def floodMembers (s : State) (g d side p : Nat) (via : Option Result) : List Result :=
  ((List.range 16).filter (fun m =>
    s.flag (R.FLOOD_d_m g d m) F.FLOOD_d_m_VALID && s.fld (R.FLOOD_d_m g d m) F.FLOOD_d_m_SIDE = side &&
    16 * side + s.fld (R.FLOOD_d_m g d m) F.FLOOD_d_m_PORT ≠ p)).map (fun m =>
    { action := (via.map Result.action).getD 1
      cls := s.fld (R.DOMAIN_CFG_d g d) F.DOMAIN_CFG_d_FLOOD_CLASS
      egress := 128 * side + s.fld (R.FLOOD_d_m g d m) F.FLOOD_d_m_PORT
      assoc := (via.map Result.assoc).getD (s.fld (R.FLOOD_d_m g d m) F.FLOOD_d_m_ASSOC)
      sub := s.fld (R.DOMAIN_CFG_d g d) F.DOMAIN_CFG_d_FLOOD_SUB })

/-- One result made into a queue entry, or its drop counted. -/
def placeResult (g p h : Nat) (x : Parsed) (s : State) (r : Result) : State :=
  match actionCheck s g p h x r with
  | .inl j => s.addJob j
  | .inr c => s.count c

/-- A verdict carried out (R134, R146, R147): queue entries, flood copies counted, or a drop counted. -/
def placeVerdict (s : State) (g p h : Nat) (x : Parsed) (v : Verdict) : State :=
  match v with
  | .drop c => s.count c
  | .one r => placeResult g p h x s r
  | .flood a =>
    let d := ppolA s p F.PPOL_A_i_DOMAIN
    let ms := if s.flag (R.DOMAIN_CFG_d g d) F.DOMAIN_CFG_d_VALID then floodMembers s g d (if p < 16 then 1 else 0) p a else []
    if ms = [] then s.count (.cls g 9) else ms.foldl (placeResult g p h x) (s.countN (.cls g 10) ms.length)

/-- The learn request kept with the frame, or released at once when the client frame is already known good (R140). -/
def keepLearn (s : State) (g h : Nat) (l : Option Learn) : State :=
  let f := s.frame h
  match l with
  | none => s
  | some r => if f.ingress < 16 ∧ f.complete then learnRequest s g r else s.setFrame h { f with learn := l }

/-- The header record of a frame holds what the parser reads: the whole frame, or 256 bytes, or, from 64 bytes on, all its headers
(R21, R129). -/
def recordReady (f : Frame) : Bool :=
  f.complete || decide (256 ≤ f.bytes.length) || (decide (64 ≤ f.bytes.length) && !(parseFrame f.bytes none).deep)

/-- Classification of a port's frame (R132), from the parse to its queue entries; a SecTAG with a bad TCI drops the frame on any line
port (R130). -/
def classifyPort (s : State) (h ecc ecc2 : Nat) : State :=
  let f := s.frame h
  let p := f.ingress
  let g := p % 16 / 4
  let pers := s.pers (p % 16)
  let x := parseFrame f.bytes (if f.complete then some f.bytes.length else none)
  let s := if x.deep then s.count (.cls g 1) else s
  let badTag : Bool := match parseSecTag f.bytes with
    | some t => decide (16 ≤ p) && secTagBad t
    | none => false
  if badTag then s.count (.cls g 2)
  else if x.malformed ∧ pers = .espTunnel then s.count (.cls g 0)
  else match puntClass s g pers x with
    | some k => placeResult g p h x (s.count (.cls g (20 + k))) { action := 6, assoc := k }
    | none =>
      let (v, l, t) := if p < 16 then classifyOut s p h x ecc else classifyIn s p h f.bytes x ecc ecc2
      keepLearn (placeVerdict t g p h x v) g h l

/-- A frame of a frame-mapped tributary goes to the tributary's client port, if no punt class matches (R131, R132). The client port's
PPOL gives subscriber and class, the model's choice: a trunk has none of its own. -/
def classifyTrib (s : State) (h : Nat) : State :=
  let f := s.frame h
  let g := instanceOf s f.ingress
  let c := s.fld (R.CAS_TRIB_t_0 (f.ingress - 64) f.trib) F.CAS_TRIB_t_0_CLIENT
  let x := parseFrame f.bytes (some f.bytes.length)
  let s := if x.deep then s.count (.cls g 1) else s
  match puntClass s g .cascade x with
  | some k => placeResult g c h x (s.count (.cls g (20 + k))) { action := 6, assoc := k }
  | none => s.addJob { stage := .classified, frame := h, action := 7, egress := c, sub := ppolB s c F.PPOL_B_i_SUBSCRIBER, cls := classOf (ppolA s c F.PPOL_A_i_CLASS) x }

/-- Queue entries of an instance that wait in the crossing of 64 to the scheduler (R15, R16). -/
def entriesWaiting (s : State) (g : Nat) : Nat :=
  kcount (fun x => x.stage = .classified && (s.frame x.frame).ingress ≠ 32 && instanceOf s (s.frame x.frame).ingress = g) s.jobs

/-- HEADER_RECORD_CLASSIFY: the classifier decides the result of frame `h` from its header record (R128 to R135), unless the crossing to
the scheduler is full (R16). A MAC Control frame never reaches it (R99). `ecc` and `ecc2` are what the table's ECC finds in the first
lookup and in that of the bridge step: 0 none, 1 corrected, 2 uncorrectable. -/
def execHeaderRecordClassify (h ecc ecc2 : Nat) (s : State) : Res :=
  let f := s.frame h
  if f = {} ∨ f.classified ∨ f.ingress = 32 ∨ f.bad ∨ !recordReady f ∨ 64 ≤ entriesWaiting s (instanceOf s f.ingress) then .next s
  else if f.ingress < 32 ∧ beAt f.bytes 12 2 = 0x8808 then .next s
  else
    let t := if f.ingress < 32 then classifyPort (s.setFrame h { f with classified := true }) h ecc ecc2
      else classifyTrib (s.setFrame h { f with classified := true }) h
    .next (if (t.frame h).complete ∧ (t.frame h).copies = 0 then t.setFrame h {} else t)

end Sys2Proof.Machine
end

