-- ==== Sys2Proof/Machine/Rills.lean ====
section
/-! DEFINITION. Dispatch with packet numbers and replay checks, the rills' beats and verdicts, fences and the spare, and
the tunnel endpoint table (R181 to R193, R199 to R230). -/

namespace Sys2Proof.Machine

/-! ### Directions, nodes and rills -/

/-- A frame that leaves on a client port or on `HP` is inbound (R200). -/
def inboundTo (e : Nat) : Bool := e < 16 || e = 32

/-- The port that counts for an egress: the port itself, or a trunk's lowest line port (R265). -/
def nodePort (s : State) (e : Nat) : Nat := if 64 ≤ e then 16 + s.fld (R.CAS_CFG (e - 64)) F.CAS_CFG_FIRST_LANE else e

/-- An event of an egress's port counters; the host port has none (R477). -/
def egressCount (s : State) (e j : Nat) : State := if e = 32 then s else s.count (.port (nodePort s e) j)

/-- The egress node is open: the device carries traffic, the port or trunk is up, and an asleep or entering port's node is
closed (R36, R103, R106, R444). -/
def nodeOpen (s : State) (e : Nat) : Bool :=
  s.dev.state = .active && !s.pair.givingUp && (if e = 32 then true else if 64 ≤ e then trunkUp s (e - 64) else portUp s e)

/-- Frames may leave on egress `e` (R36, R103, R214, R444): in Active, its port or trunk up, or its port entering sleep; a frame that
has begun leaves in Standby too, as giving up ends. -/
def egressOpen (s : State) (e : Nat) (begun : Bool) : Bool :=
  (s.dev.state = .active || (begun && s.dev.state = .standby)) &&
  (if e = 32 then true else if 64 ≤ e then trunkUp s (e - 64) else linkOk s e && ((s.port e).sleep = .awake || (s.port e).sleep = .entering))

/-- The counter of a drop at a closed egress node: a sleep drop at a port that sleeps or is entering sleep (R103), else
node-closed (R276). -/
def closedCount (s : State) (e : Nat) : State :=
  egressCount s e (if e < 32 ∧ (s.port e).sleep ≠ .awake then 21 else 22)

/-- Rills of a direction that take new frames (R219). -/
def serving (s : State) (inb : Bool) : List Nat :=
  (List.range 9).filter (fun r => (s.rill r).state = .inService && (s.rill r).inbound = inb)

/-- Beats of a frame that have arrived and can be fed; its last one only when the frame has ended, which tells that it is the last
(R199, R212). -/
def beatsOf (f : Frame) : Nat := if f.complete ∨ f.bad then (f.bytes.length + 127) / 128 else (f.bytes.length - 1) / 128

/-- Is a queue entry in progress in rill `r`: dispatched, and its completion not reported? -/
def inRill (r : Nat) (x : Job) : Bool := x.stage = .dispatched && x.rill = r && !x.completed

/-- Frames in progress in a rill (R225). -/
def rillFrames (s : State) (r : Nat) : Nat := kcount (inRill r) s.jobs

/-- Beats queued or in progress in a rill (R211). -/
def rillLoad (s : State) (r : Nat) : Nat :=
  ((s.jobs.filter (fun e => inRill r e.2)).map (fun e => beatsOf (s.frame e.2.frame) - e.2.left)).sum

/-- The rill of the direction with a free frame position and the fewest beats; ties go to the lowest (R211, R212). -/
def chooseRill (s : State) (inb : Bool) : Option Nat :=
  ((serving s inb).filter (fun r => decide (rillFrames s r < 48))).foldl (fun (best : Option Nat) r =>
    match best with
    | some b => if rillLoad s r < rillLoad s b then some r else some b
    | none => some r) none

/-- Reorder contexts of a direction that are not FREE (R213, R229). -/
def contextsUsed (s : State) (inb : Bool) : Nat :=
  kcount (fun x => (x.stage = .dispatched || x.stage = .lost) && !x.merged && inboundTo x.egress = inb) s.jobs

/-! ### The outbound allocator (R181, R182, R184) -/

/-- The trigger of an association is met at a dispatch (R184). -/
def triggerMet (s : State) (a : Assoc) : Bool :=
  match a.current with
  | none => false
  | some c =>
    a.met || (a.record.trig = 1 && decide (a.record.swThresh * 2 ^ 24 ≤ (a.slot c).pn)) ||
    (a.record.trig = 2 && (match a.armed with
      | some t => (s.localNow 10 a.record.trigTb).ge t
      | none => false))

/-- A met trigger makes the READY slot CURRENT, or stays met with SWITCH_LATE until there is one (R184). -/
def autoSwitch (s : State) (i : Nat) : State :=
  let a := s.assoc false i
  if triggerMet s a then
    if a.ready.isSome then switchSlot s i
    else if a.met then s
    else saAlarm (s.setAssoc false i { a with met := true }) i F.SA_ALARM_SWITCH_LATE
  else s

/-- What the allocator answers (R181). -/
inductive Alloc where
  | noKey | exhausted | stall
  | pn (slot pn : Nat)
  deriving DecidableEq, Repr

/-- The allocator on transmit association `i` after its triggers were judged (R181). -/
def allocate (s : State) (i : Nat) : Alloc :=
  let a := s.assoc false i
  match a.current with
  | none => .noKey
  | some k =>
    if (a.slot k).state = .exhausted then .exhausted
    else if (a.slot k).pn = (a.slot k).resEnd then .stall
    else .pn k (a.slot k).pn

/-- The PN of slot `k` given out: NEXT_PN advances, a boundary is requested half a block ahead, and the slot is exhausted
after PN_MAX (R181, R182). -/
def takePn (s : State) (i k : Nat) : State :=
  let a := s.assoc false i
  let x := a.slot k
  let ask := decide (x.pn + 1 + 2 ^ 23 = x.resEnd) && x.resReq.isNone
  let y := { x with pn := x.pn + 1, inFlight := x.inFlight + 1, resReq := if ask then some (x.resEnd + 2 ^ 24) else x.resReq }
  let s := if x.pn = pnMax a.record.kind a.record.suite then
      saAlarm (changeSlot s false i k { y with state := .exhausted }) i F.SA_ALARM_PN_EXHAUST
    else putSlot s false i k y
  if ask then mirror s (pnResRec i k x.gen (x.resEnd + 2 ^ 24)) else s

/-- A stall of an association at its reservation (R182, R427). -/
def stallAlarm (s : State) (i : Nat) : State :=
  let s := saAlarm s i F.SA_ALARM_STALL
  if s.pair.partner = .lost then s.alarm R.PAI_ALARM F.PAI_ALARM_CAP else s

/-- RESERVATION_BOUNDARY_RECORD: a requested boundary of slot `k` is recorded and RES_END raised: alone, or once a READY
partner has acknowledged it, or within B_ack + 2^25 while the partner is LOST (R182, R427). -/
def execReservationBoundaryRecord (i k : Nat) (s : State) : Res :=
  let x := (s.assoc false i).slot k
  match x.resReq with
  | none => .next s
  | some b =>
    let ok := match s.pair.partner with
      | .none => true
      | .syncing => true
      | .ousted => true
      | .ready => decide (b ≤ x.backed)
      | .lost => decide (b ≤ x.backed + 2 ^ 25)
      | .active => false
    if ok then .next (putSlot s false i k { x with resEnd := b, resReq := none }) else .next s

/-! ### Receive slot, PN and replay (R187 to R193) -/

/-- The full PN of an XPN frame from its 32 bits (R188; IEEE 802.1AE-2018 10.6.2), against the lowest acceptable PN. -/
def xpnRecover (low pn : Nat) : Nat :=
  (low / 2 ^ 32 + (if bit low 31 ∧ !bit pn 31 then 1 else 0)) % 2 ^ 32 * 2 ^ 32 + pn

/-- The full ESP sequence number from its 32 bits (R188; RFC 4303 Appendix A), against HIGH_PN and a window. -/
def esnRecover (high w seq : Nat) : Nat :=
  let th := high / 2 ^ 32
  let tl := high % 2 ^ 32
  let h := if w ≤ tl + 1 then (if tl + 1 ≤ seq + w then th else th + 1)
    else if tl + 1 + 2 ^ 32 ≤ seq + w then th + 2 ^ 32 - 1 else th
  h % 2 ^ 32 * 2 ^ 32 + seq

/-- The full PN of a frame that carries `pn` (R188). -/
def fullPn (r : AssocRec) (x : Slot) (pn : Nat) : Nat :=
  if r.kind = 1 then esnRecover x.pn (if r.replayEn then r.replayWin else 1024) pn
  else if r.suite < 2 then pn
  else xpnRecover (max 1 (x.pn + 1 - r.replayWin)) pn

/-- Is a PN accepted by the replay check (R189, R190)? -/
def replayOk (r : AssocRec) (x : Slot) (pn : Nat) : Bool :=
  if !r.replayEn then true
  else if r.kind = 0 then decide (lowestPn r x ≤ pn)
  else !(x.awaited.contains pn) && (decide (x.pn < pn) || (decide (x.pn < pn + r.replayWin) && !(x.seen.contains pn)))

/-- The AN, or the SPI, and the PN field of a received frame. -/
def rxTag (kind : Nat) (b : List Byte) : Nat × Nat :=
  if kind = 0 then
    match parseSecTag b with
    | some t => (t.tci % 4, t.pn)
    | none => (0, 0)
  else
    let x := parseFrame b none
    (x.spi.getD 0, beAt b (x.espOff + 4) 4)

/-- The slot that a frame selects (R187). -/
def rxSlot (a : Assoc) (id : Nat) : Option Nat :=
  let fits (x : Slot) : Bool :=
    if a.record.kind = 0 then (x.state = .accept || x.state = .probation) && x.an = id else x.state = .accept && x.spi = id
  if fits a.slot0 then some 0 else if fits a.slot1 then some 1 else none

/-- A FOLLOW probe starts (R193): the EMPTY slot derives the smallest generation above GEN_RX with G mod 4 = AN; not beside a slot
with that AN that is being loaded, since no two slots share an AN (R171). -/
def startProbe (s : State) (i an : Nat) : State :=
  let a := s.assoc true i
  let g := a.genRx + 1 + (an + 4 - (a.genRx + 1) % 4) % 4
  match a.emptySlot with
  | some k =>
    let y := a.slot (1 - k)
    if a.record.kind = 0 ∧ a.record.follow ∧ a.record.root ≠ 0 ∧ g ≤ 0xFFFFFFFF ∧ (y.state = .empty ∨ y.an ≠ an) then
      changeSlot s true i k { state := .probation, an := an, origin := 1, gen := g }
    else s
  | none => s

/-- The inbound dispatcher's judgement of DECRYPT frame `h`: its slot and PN, or the counter of its drop and the state (R187 to R190,
R193). An accepted ESP PN is marked. A further flood copy of an accepted frame is not judged again: it is the same frame (R146). -/
def rxCheck (s : State) (i h : Nat) (mayProbe : Bool) : (Nat × Nat × State) ⊕ (Ctr × State) :=
  let a := s.assoc true i
  let f := s.frame h
  let (id, pn) := rxTag a.record.kind f.bytes
  match rxSlot a id with
  | none => .inr (.rxsa i 4, if mayProbe then startProbe s i id else s)
  | some k =>
    let x := a.slot k
    if x.state = .probation ∧ !x.candidate then .inr (.rxsa i 4, s)
    else if pn = 0 then .inr (.rxsa i 5, s)
    else
      let full := fullPn a.record x pn
      let again : Option Nat := match f.rxOk with
        | some (k', n) => if k' = k then some n else none
        | none => none
      match again with
      | some n => .inl (k, n, s)
      | none =>
        if replayOk a.record x full then
          let s := s.setFrame h { f with rxOk := some (k, full) }
          .inl (k, full, if a.record.kind = 1 then putSlot s true i k { x with awaited := full :: x.awaited } else s)
        else .inr (.rxsa i 3, s)

/-! ### Dispatch (R207, R211) -/

/-- The dispatch checks for ESP (R207): do they drop the frame? -/
def espDrops (s : State) (r : AssocRec) (e : Nat) (b : List Byte) : Bool :=
  let x := parseFrame b none
  let t := s.tep r.tep
  match innerLength b x with
  | none => true
  | some n => decide (4096 ≤ r.tep) || decide (tepFamily t = 0) || (tepFamily t = 6 && r.natT) ||
      decide (s.fld (aPORT_CFG e) F.PORT_CFG_MAX_FRAME < espLength t r.natT n)

/-- A frame dropped at dispatch: counted, without tag or PN. -/
def dropAt (s : State) (j : Nat) (c : Ctr) (fate : Status × Nat) : State := (s.count c).endJob j fate

/-- A frame takes a reorder context, the next tag of its egress, and a rill (R211). -/
def takeContext (s : State) (j r slot pn : Nat) : State :=
  let x := s.job j
  let t := kget 0 s.nextTag x.egress
  let gen := match x.usesAssoc with
    | some (rx, i) => ((s.assoc rx i).slot slot).gen
    | none => 0
  let s := s.setJob j { x with stage := .dispatched, tag := t, rill := r, slot := slot, pn := pn, gen := gen }
  { s with nextTag := kset 0 s.nextTag x.egress ((t + 1) % 2 ^ 14) }.count (.ril r 0)

/-- The instance that counts no-assoc for a frame's ingress. -/
def noAssoc (s : State) (h : Nat) : Ctr := .cls ((s.frame h).ingress % 16 / 4) 4

/-- An association still serves a queue entry: valid, of the kind of the action, on the line port that the frame leaves by or came in
by (R134, R168). -/
def assocServes (s : State) (x : Job) (rx : Bool) (i : Nat) : Bool :=
  let a := s.assoc rx i
  a.valid && (if rx then decide (16 + a.record.port = (s.frame x.frame).ingress) else decide (a.record.kind + 1 = x.action) && decide (16 + a.record.port = x.egress))

/-- The last part of dispatch, with rill `r` free: PN or replay check, then the context (R168, R181, R189, R211). -/
def dispatchOn (s : State) (j r : Nat) (mayProbe : Bool) : State :=
  let x := s.job j
  match x.usesAssoc with
  | none => takeContext s j r 0 0
  | some (false, i) =>
    if !assocServes s x false i then dropAt s j (noAssoc s x.frame) (.notFound, 2)
    else
      let s := autoSwitch s i
      match allocate s i with
      | .noKey => dropAt s j (.txsa i 2) (.notFound, 2)
      | .exhausted => dropAt s j (.txsa i 3) (.exhausted, 0xB)
      | .stall => stallAlarm s i
      | .pn k pn => takeContext (takePn s i k) j r k pn
  | some (true, i) =>
    if !assocServes s x true i then dropAt s j (noAssoc s x.frame) (.notFound, 2)
    else match rxCheck s i x.frame mayProbe with
      | .inl (k, pn, t) => takeContext t j r k pn
      | .inr (c, t) => dropAt t j c (.aborted, 0)

/-- Frames of the association wait while the tunnel endpoint entry that it names is replaced (R210). -/
def tepHeld (s : State) (x : Job) : Bool :=
  match s.tepPending with
  | some (i, _) => decide (x.action = 2) && decide ((s.assoc false x.assoc).record.tep = i)
  | none => false

/-- DISPATCH: the dispatcher of the frame's direction handles queue entry `j` (R211). `mayProbe`: 100 us have passed
since the association's last FOLLOW probe (R193). A stall leaves the frame in its queue. -/
def execDispatch (j : Nat) (mayProbe : Bool) (s : State) : Res :=
  let x := s.job j
  if x.stage ≠ .selected then .next s
  else if !nodeOpen s x.egress then .next ((closedCount s x.egress).endJob j (.aborted, 5))
  else if tepHeld s x then .next s
  else if x.action = 2 ∧ (s.assoc false x.assoc).valid ∧ espDrops s (s.assoc false x.assoc).record x.egress (s.frame x.frame).bytes then
    .next (dropAt s j (.txsa x.assoc 4) (.aborted, 7))
  else if 8192 ≤ contextsUsed s (inboundTo x.egress) then .next s
  else match chooseRill s (inboundTo x.egress) with
    | none => .next s
    | some r => .next (dispatchOn s j r mayProbe)

/-! ### Beats (R199, R202, R212, R216) -/

/-- The key slot that a queue entry was dispatched under has been emptied before its first beat: its counter of a frame without a
slot (R187, R202). -/
def keyGone (s : State) (x : Job) : Option Ctr :=
  match x.usesAssoc with
  | none => none
  | some (rx, i) =>
    if ((s.assoc rx i).slot x.slot).state = .empty then some (if rx then .rxsa i 4 else .txsa i 2) else none

/-- The first beat reads the key-view entry and, for ESP, the tunnel endpoint entry (R202, R206, R210). -/
def readKey (s : State) (j : Nat) : State :=
  let x := s.job j
  match x.usesAssoc with
  | none => s
  | some (rx, i) =>
    let a := s.assoc rx i
    let k := a.slot x.slot
    let t := a.record.tep
    let s := s.setJob j { x with under := a.record, strict := k.state = .probation, key := k.key, salt := k.salt, an := k.an, spi := k.spi, tep := if x.action = 2 then s.tep t else [], ident := if x.action = 2 then kget 0 s.tepIdent t else 0 }
    if x.action = 2 then { s with tepIdent := kset 0 s.tepIdent t ((kget 0 s.tepIdent t + 1) % 65536) } else s

/-- A frame dispatched under a tunnel endpoint entry that has not read it (R210). -/
def tepWaits (s : State) (i : Nat) : Bool :=
  s.jobs.any (fun e => e.2.stage = .dispatched && e.2.action = 2 && !e.2.skip && decide (e.2.fed = 0) && decide ((s.assoc false e.2.assoc).record.tep = i))

/-- A TEP WRITE or CLEAR that no frame holds up any more is done in every copy, and the frames held are free (R210). -/
def settleTep (s : State) : State :=
  match s.tepPending with
  | none => s
  | some (i, e) =>
    if tepWaits s i then s
    else ({ s with teps := kset [] s.teps i e, tepPending := none }.setFld R.TEP_STATUS F.TEP_STATUS_BUSY 0).setFld R.TEP_STATUS F.TEP_STATUS_STATUS Status.ok.code

/-- The crossing of 16 beats to rill `r` is full, its 96 pipeline stages taken (R15, R16). -/
def feedStalled (s : State) (r : Nat) : Bool :=
  decide (112 ≤ ((s.jobs.filter (fun e => inRill r e.2 && !e.2.skip)).map (fun e => e.2.fed - e.2.left)).sum)

/-- BEAT_FEED: the next beat of queue entry `j` that has arrived in the forebay goes to its rill, unless the crossing is full (R16,
R212). `keyEcc` is what the key-view entry's ECC finds at the first beat, `cellEcc` what the forebay words' find: 0 none, 1
corrected, 2 not correctable: the frame that owns the cell is dropped, whichever copy met it (R20, R202). -/
def execBeatFeed (j keyEcc cellEcc : Nat) (s : State) : Res :=
  let x := s.job j
  let f := s.frame x.frame
  if x.stage ≠ .dispatched ∨ x.skip ∨ x.stomp ∨ beatsOf f ≤ x.fed ∨ f.spilled ∨ feedStalled s x.rill then .next s
  else if cellEcc = 2 then .next (settleTep ((s.count (.dev 2)).cutFrame x.frame))
  else
    let s := if cellEcc = 1 then s.count (.dev 1) else s
    let first := decide (x.fed = 0) && x.usesAssoc.isSome
    if first ∧ keyEcc = 2 then
      .next (settleTep (((s.setJob j { x with skip := true }).count (.ril x.rill 3)).alarm (R.RIL_ALARM x.rill) F.RIL_ALARM_KEY_ECC))
    else match (if first then keyGone s x else none) with
      | some c => .next (settleTep ((s.setJob j { x with skip := true }).count c))
      | none =>
        let s := if first ∧ keyEcc = 1 then (s.count (.ril x.rill 2)).count (.dev 3) else s
        let s := if x.fed = 0 then readKey s j else s
        let u := s.sluice
        let s := { s with sluice := if inboundTo x.egress then { u with beatsIn := u.beatsIn + 1 } else { u with beatsOut := u.beatsOut + 1 } }
        .next (settleTep ((s.setJob j { s.job j with fed := x.fed + 1 }).count (.ril x.rill 1)))

/-- The checks on the first beat of a received frame (R205, R208): the counter of the failure. -/
def firstBeatFault (x : Job) (b : List Byte) : Option Ctr :=
  if x.action ≠ 3 then none
  else
    if x.under.kind = 0 then
      match parseSecTag b with
      | some t => if bit t.tci 3 ∧ !bit t.tci 2 then some (.rxsa x.assoc 5) else none
      | none => some (.rxsa x.assoc 5)
    else if espFirst x.under x.key x.salt b then some (.rxsa x.assoc 6) else none

/-- A rill's output for a whole frame (R201): the bytes with FCS, whether all checks passed, whether it is stomped,
and the counter of what failed. -/
structure RillOut where
  bytes : List Byte
  pass : Bool
  stomp : Bool
  check : Bool := false
  fault : Option Ctr := none
  deriving DecidableEq, Repr

/-- The work on a frame that has ended (R201 to R208, R217), under the record and key latched at its first beat. A frame cut short is
worked on as far as its beats were fed, and no check of a later part is judged. -/
def rillOutput (s : State) (x : Job) (f : Frame) : RillOut :=
  let cut := f.bad || x.stomp
  let body := if x.stomp then f.bytes.take (128 * x.fed) else bodyOf f.bytes
  let i := x.assoc
  if x.action = 1 then
    let o := macsecSeal x.under x.an x.pn x.key x.salt body
    { bytes := if cut then stompedFcs o else withFcs o, pass := true, stomp := cut }
  else if x.action = 2 then
    let p := parseFrame body none
    let short := decide (body.length < p.off + (innerLength body p).getD 0)
    let o := espSeal x.under x.tep x.spi x.ident x.pn x.key x.salt body
    { bytes := if cut ∨ short then stompedFcs o else withFcs o, pass := true, stomp := cut || short, fault := if short ∧ !cut then some (.txsa i 5) else none }
  else if x.action = 3 then
    let o := if x.under.kind = 0 then macsecOpen x.under x.pn x.key x.salt body
      else espOpen s x.under.port x.pn x.spi x.key x.salt body
    let lenient := o.icv && x.under.kind = 0 && x.under.check && !x.strict
    let stomp := cut || (o.fault.isSome && !lenient)
    { bytes := if stomp then stompedFcs o.body else withFcs o.body, pass := !cut && o.fault.isNone, stomp := stomp, check := lenient, fault := if cut then none else o.fault.map (.rxsa i) }
  else { bytes := if cut then stompedFcs body else f.bytes, pass := true, stomp := cut }

/-- The frame leaves its rill whole, with `left` beats: output, verdict and completion go with the last (R215, R217). -/
def finishRill (s : State) (j left : Nat) : State :=
  let x := s.job j
  let f := s.frame x.frame
  let o := rillOutput s x f
  let s := s.setJob j { x with left := left, leftAt := some (s.now 0), output := o.bytes, verdict := some o.pass, stomp := o.stomp, checkFail := o.check, cut := f.bad || x.stomp }
  match o.fault with
  | some c => s.count c
  | none => s

/-- The lane group whose merge an egress's beats wait in; none for the host port (R17, R214). -/
def mergeGroup (s : State) (e : Nat) : Option Nat := if e = 32 then none else some (timeIsland s e)

/-- Beats that have left their rills for lane group `g` and wait for merge, all or those of one rill. -/
def waitingBeats (s : State) (g : Nat) (ok : Job → Bool) : Nat :=
  ((s.jobs.filter (fun e => e.2.stage = .dispatched && !e.2.merged && !e.2.skip && ok e.2 && mergeGroup s e.2.egress = some g)).map
    (fun e => e.2.left - e.2.released)).sum

/-- Merge of the lane group holds its 256 beats and the crossing of the rill its 32, so no beat leaves; the next beat that merge
expects is never held up (R15, R16, R214). -/
def exitStalled (s : State) (x : Job) : Bool :=
  match mergeGroup s x.egress with
  | none => false
  | some g => !(x.released = x.left && x.tag = kget 0 s.expTag x.egress) && decide (256 ≤ waitingBeats s g (fun _ => true)) &&
      decide (32 ≤ waitingBeats s g (fun y => y.rill = x.rill))

/-- A beat has left rill `r`: it is not stalled any more (R221, R226). -/
def flows (s : State) (r : Nat) : State := if (s.rill r).stalled then s.setRill r { s.rill r with stalled := false } else s

/-- RILL_BEAT_EXIT: a beat of queue entry `j` leaves its rill, 96 cycles after it entered (R199, R216), unless the way to merge is
full. A failure of the first-beat checks drops the frame without output, with a skip token; the last beat carries ICV, verdict and
completion (R205, R208, R214, R215); a frame to be stomped all of whose beats have left ends without a further one. -/
def execRillBeatExit (j : Nat) (s : State) : Res :=
  let x := s.job j
  let f := s.frame x.frame
  if x.stage ≠ .dispatched ∨ x.skip ∨ x.verdict.isSome ∨ x.fed = 0 then .next s
  else if x.fed ≤ x.left then (if x.stomp then .next (finishRill s j x.left) else .next s)
  else if exitStalled s x then .next s
  else match (if x.left = 0 then firstBeatFault x f.bytes else none) with
    | some c => .next ((s.setJob j { x with skip := true }).count c)
    | none =>
      if decide (x.left + 1 = x.fed) && (x.stomp || ((f.complete || f.bad) && decide (x.fed = beatsOf f))) then .next (flows (finishRill s j (x.left + 1)) x.rill)
      else .next (flows (s.setJob j { x with left := x.left + 1 }) x.rill)

/-! ### Completions (R172, R190 to R193, R213, R215) -/

/-- A queue entry that merge and the dispatcher are both done with goes; a host frame's waits for its completion
(R213, R461). -/
def settle (s : State) (j : Nat) : State :=
  let x := s.job j
  if x.merged ∧ x.completed then
    let s := s.releaseCopy x.frame
    s.setJob j (if x.host.isSome then { x with stage := .done } else {})
  else s

/-- A receive slot holds the load that queue entry `x` was decrypted under: its generation and key; a frame that was lost before its
first beat latched no key (R202). -/
def sameLoad (y : Slot) (x : Job) : Bool := decide (y.gen = x.gen) && (decide (x.fed = 0) || decide (y.key = x.key))

/-- A slot in PROBATION has moved on from the candidate of queue entry `x` (R193). -/
def laterCandidate (y : Slot) (x : Job) : Bool := y.state = .probation && y.an = x.an && decide (x.gen < y.gen)

/-- A frame passes under its slot (R173, R190, R192): HIGH_PN and bitmap, PROBATION confirmed with the frame's own candidate (R193),
the retire timer, the mark. The bitmap is kept whatever REPLAY_EN and REPLAY_WIN say now, at its full 1024. -/
def passOn (s : State) (i : Nat) (x : Job) : State :=
  let a := s.assoc true i
  let y := a.slot x.slot
  let high := max y.pn x.pn
  let seen := (x.pn :: y.seen).filter (fun (n : Nat) => decide (high < n + 1024))
  let confirm := decide (y.state = .probation)
  let move := decide (y.mark + 2 ^ 15 ≤ high) || confirm
  let z := { y with gen := x.gen, key := x.key, salt := x.salt, pn := high, seen := if a.record.kind = 1 then seen else [], awaited := y.awaited.filter (· ≠ x.pn), mark := if move then high else y.mark }
  let s := if confirm then changeSlot (s.setAssoc true i { a with genRx := max a.genRx x.gen }) true i x.slot { z with state := .accept }
    else putSlot s true i x.slot z
  let s := if move then mirror s (rxMarkRec i x.slot x.gen high) else s
  let a := s.assoc true i
  let o := a.slot (1 - x.slot)
  if o.state = .accept ∧ o.gen < x.gen ∧ a.retiring.isNone then
    if a.record.retireUs = 0 then clearSlot s true i (1 - x.slot) else s.setAssoc true i { a with retiring := some (1 - x.slot) }
  else s

/-- A frame fails under its slot (R190, R193): the pending mark goes; in PROBATION the next candidate is tried, or the slot
goes EMPTY. -/
def failOn (s : State) (i : Nat) (x : Job) : State :=
  let a := s.assoc true i
  let y := a.slot x.slot
  if y.state = .probation ∧ y.candidate then
    if a.record.span ≤ y.tried + 1 ∨ 0xFFFFFFFF < y.gen + 4 then clearSlot (saAlarm s i F.SA_ALARM_FOLLOW_FAIL) true i x.slot
    else putSlot s true i x.slot { y with gen := y.gen + 4, tried := y.tried + 1, candidate := false, key := [], salt := [] }
  else putSlot s true i x.slot { y with awaited := y.awaited.filter (· ≠ x.pn) }

/-- A verdict reaches the receive slot of its frame (R190, R193): only while the slot holds the load that the frame was read under,
and a pass of an earlier candidate confirms that one. -/
def judgeSlotPass (s : State) (i : Nat) (x : Job) (ok : Bool) : State :=
  let y := (s.assoc true i).slot x.slot
  if (y.state = .accept || y.state = .probation) && (sameLoad y x || (ok && laterCandidate y x)) then
    (if ok then passOn s i x else failOn s i x)
  else s

/-- The learn request of a decrypted frame that passed, released (R140); a failed frame's is dropped. -/
def releaseLearn (s : State) (h : Nat) (pass : Bool) : State :=
  let f := s.frame h
  match f.learn with
  | some r =>
    let s := s.setFrame h { f with learn := none }
    if pass then learnRequest s (f.ingress % 16 / 4) r else s
  | none => s

/-- The effect of a completion on the associations (R172, R190). -/
def completeAssoc (s : State) (x : Job) : State :=
  let ok := x.verdict = some true && !x.skip
  match x.usesAssoc with
  | none => s
  | some (false, i) =>
    let y := (s.assoc false i).slot x.slot
    let s := if y = {} then s else putSlot s false i x.slot { y with inFlight := y.inFlight - 1 }
    if ok ∧ !x.stomp then (s.count (.txsa i 0)).countN (.txsa i 1) x.output.length else s
  | some (true, i) =>
    let s := judgeSlotPass s i x ok
    let s := releaseLearn s x.frame (ok && !x.stomp)
    if ok then (s.count (.rxsa i 0)).countN (.rxsa i 1) x.output.length else s

/-- VERDICT_RETURN: the completion of queue entry `j` reaches its dispatcher (R190, R215). -/
def execVerdictReturn (j : Nat) (s : State) : Res :=
  let x := s.job j
  if x.stage = .dispatched ∧ !x.completed ∧ (x.skip ∨ x.verdict.isSome) then
    let s := completeAssoc (s.setJob j { x with completed := true }) x
    .next (settle s j)
  else .next s

/-! ### Fences and the spare (R219 to R224) -/

/-- A port of a direction is up (R12, R219, R223): the host port in Active, a trunk that takes frames. -/
def directionUsed (s : State) (inb : Bool) : Bool :=
  if inb then s.dev.state = .active || (List.range 16).any (fun p => portUp s p)
  else (List.range 16).any (fun p => portUp s (16 + p)) || (List.range 4).any (fun t => trunkUp s t)

/-- The spare is there to be claimed: SPARE, or in a test that began in SPARE (R221, R223). -/
def spareReady (s : State) : Bool :=
  let x := s.rill 8
  (x.state = .spare || (x.state = .test && (x.katRun.map Prod.fst) = some .spare)) && x.entering.isNone

/-- The spare is free to take the place of rill `r`. -/
def spareFree (s : State) (r : Nat) : Bool := decide (r ≠ 8) && spareReady s

/-- A fence of rill `r` starts (R221): it is LEAVING, and the spare is claimed for it if it is free; a test of the spare is abandoned
and does not count (R220). `same`: it begins on the scheduler cycle of the fence begun last, whose spare a lower-numbered rill takes
(R223). -/
def startFence (s : State) (r : Nat) (fault same : Bool) : State :=
  let s := s.setRill r { s.rill r with state := .leaving, fault := fault }
  let s := s.setFld R.RIL_STATUS F.RIL_STATUS_BUSY 1
  let won := same && r ≠ 8 && (s.rill 8).state = .spare && (match (s.rill 8).entering with
    | some l => decide (r < l) && decide (l ≠ 8)
    | none => false)
  if spareFree s r || won then s.setRill 8 { s.rill 8 with state := .spare, katRun := none, entering := some r } else s

/-- Answer of a RIL_CMD that starts no fence (R228). -/
def rilEnd (s : State) (st : Status) : State := s.setFld R.RIL_STATUS F.RIL_STATUS_STATUS st.code

/-- A RIL_CMD: GO is ignored while BUSY; a rill above 8 is INVALID (R228). -/
def rilCommand (r : Nat) (k : State → State) (s : State) : Res :=
  .next (s.access R.RIL_CMD (fun s =>
    if s.flag R.RIL_STATUS F.RIL_STATUS_BUSY then s else if 8 < r then rilEnd s .invalid else k s))

/-- RIL_WITHDRAW (R219, R221, R223): a GATED or WAKING rill goes OUT at once; one in service is fenced, unless it is the
last of a direction in use and the spare cannot take its place; a rill that is not in service is NOT_FOUND. -/
def execRilWithdraw (r : Nat) (same : Bool) (s : State) : Res :=
  rilCommand r (fun s =>
    let x := s.rill r
    match x.state with
    | .gated => rilEnd (s.setRill r { x with state := .out }) .ok
    | .waking => rilEnd (s.setRill r { x with state := .out }) .ok
    | .inService =>
      if directionUsed s x.inbound ∧ (serving s x.inbound).length ≤ 1 ∧ !spareFree s r then rilEnd s .denied
      else startFence (rilEnd s .ok) r false same
    | _ => rilEnd s .notFound) s

/-- RIL_RESTORE (R224). -/
def execRilRestore (r : Nat) (s : State) : Res :=
  rilCommand r (fun s =>
    let x := s.rill r
    if x.state = .faulted ∨ x.state = .out ∧ x.katOk ≠ some true then rilEnd s .denied
    else if x.state ≠ .out ∨ x.entering.isSome then rilEnd s .notFound
    else
      let s := s.setRill r { x with entering := some r }
      let sp := s.rill 8
      if r ≠ 8 ∧ sp.state = .inService ∧ sp.standsFor = some r then
        let s := startFence (rilEnd s .ok) 8 false false
        s.setRill 8 { s.rill 8 with toSpare := true }
      else rilEnd s .ok) s

/-- RILL_FAULT: a pipeline parity error (0), a second uncorrectable key-view error within 1 s (1), or a stall (2) sets its
alarm, and fences the rill if AUTO is 1 (R221). A stall lasts until a beat leaves the rill (R226). -/
def execRillFault (r kind : Nat) (same : Bool) (s : State) : Res :=
  let s := s.alarm (R.RIL_ALARM r) (if kind = 0 then F.RIL_ALARM_PIPE_PAR else if kind = 1 then F.RIL_ALARM_KEY_ECC else F.RIL_ALARM_STALL)
  let s := if 2 ≤ kind then s.setRill r { s.rill r with stalled := true } else s
  if s.flag R.RIL_SPARE F.RIL_SPARE_AUTO ∧ (s.rill r).state = .inService then .next (startFence s r true same) else .next s

/-- SPARE_IN_SERVICE: at F + 64 the claimed spare, or a restored rill, enters service; a restored `RL_8` becomes SPARE
(R221, R224). -/
def execSpareInService (r : Nat) (s : State) : Res :=
  let x := s.rill r
  match x.entering with
  | none => .next s
  | some l =>
    if r = 8 then
      if l = 8 then .next (s.setRill 8 { x with state := .spare, entering := none, standsFor := none, inbound := false })
      else .next (s.setRill 8 { x with state := .inService, entering := none, standsFor := some l, inbound := (s.rill l).inbound })
    else .next (s.setRill r { x with state := .inService, entering := none, inbound := decide (4 ≤ r) })

/-- Does rill `r`, now FAULTED, leave the device without a spare (R443): `RL_8` is FAULTED, or in service for another rill, or is itself
the one that was in service? -/
def spareGone (s : State) (r : Nat) : Bool :=
  let x := s.rill 8
  if r = 8 then x.standsFor.isSome else x.state = .faulted || (x.state = .inService && x.standsFor ≠ some r)

/-- Diagnosis RILL where a rill goes FAULTED with no spare left (R443). -/
def noteRill (s : State) (r : Nat) (k : State) : State := if spareGone s r then diagnose k 1 true else k

/-- The fence of rill `r` is complete (R221, R224): OUT, FAULTED, or SPARE; BUSY clears with the last fence. -/
def fenceDone (s : State) (r : Nat) : State :=
  let was := s
  let x := s.rill r
  let st := if x.fault then RillState.faulted else if x.toSpare then .spare else .out
  let keep := r ≠ 8
  let s := s.setRill r { x with state := st, fault := false, toSpare := false, standsFor := none, inbound := keep && x.inbound, stalled := false }
  let s := if (List.range 9).any (fun q => (s.rill q).state = .leaving) then s else s.setFld R.RIL_STATUS F.RIL_STATUS_BUSY 0
  if x.fault then noteRill was r s else s

/-- FENCE_COMPLETE: no frame of the leaving rill is outstanding (R221). -/
def execFenceComplete (r : Nat) (s : State) : Res :=
  if (s.rill r).state = .leaving ∧ rillFrames s r = 0 then .next (fenceDone s r) else .next s

/-- A frame without a completion becomes LOST (R222): counted, its PN consumed, a pending replay mark cleared. If merge
has released its last beat already, it counts as delivered. -/
def loseJob (s : State) (j : Nat) : State :=
  let x := s.job j
  if x.merged then settle (completeAssoc (s.setJob j { x with completed := true }) x) j
  else
    let s := s.setJob j { x with stage := .lost, completed := true, fate := some (.aborted, 9) }
    let s := (s.count (.ril x.rill 4)).alarm (R.RIL_ALARM x.rill) F.RIL_ALARM_FENCE_LOST
    match x.usesAssoc with
    | some (false, i) =>
      let y := (s.assoc false i).slot x.slot
      (if y = {} then s else putSlot s false i x.slot { y with inFlight := y.inFlight - 1 }).count (.txsa i 7)
    | some (true, i) => releaseLearn (judgeSlotPass s i x false) x.frame false
    | none => s

/-- FENCE_DEADLINE: at F + 2000 every frame of the leaving rill without a completion becomes LOST, and the fence ends
(R221, R222). -/
def execFenceDeadline (r : Nat) (s : State) : Res :=
  if (s.rill r).state = .leaving then
    .next (settleTep (fenceDone ((kkeys (inRill r) s.jobs).foldl loseJob s) r))
  else .next s

/-- KAT_RUN: the known-answer test of the rill in SPARE, or of a rill in OUT, begins (R220): the rill is in TEST until the next tick
of the block; `pass` is what the test will find. -/
def execKatRun (r : Nat) (pass : Bool) (s : State) : Res :=
  let x := s.rill r
  if s.flag R.RIL_SPARE F.RIL_SPARE_KAT_EN ∧ ((r = 8 ∧ x.state = .spare) ∨ x.state = .out) ∧ x.entering.isNone then
    .next (s.setRill r { x with state := .test, katRun := some (x.state, pass) })
  else .next s

/-- A test that runs ends (R220): passed, the rill returns to the state that it was tested in; failed, it is FAULTED. -/
def endKat (s : State) (r : Nat) : State :=
  let x := s.rill r
  match x.katRun with
  | none => s
  | some (was, pass) =>
    let a := R.RIL_KAT r
    if pass then (s.setRill r { x with katOk := some true, katRun := none, state := was }).setFld a F.RIL_KAT_PASSES (min 0xFFFF (s.fld a F.RIL_KAT_PASSES + 1))
    else noteRill s r (((s.setRill r { x with katOk := some false, katRun := none, state := .faulted }).setFld a F.RIL_KAT_FAILS
      (min 0xFFFF (s.fld a F.RIL_KAT_FAILS + 1))).alarm (R.RIL_ALARM r) F.RIL_ALARM_KAT_FAIL)

/-- What the rills do at a tick: tests end (R220), and a tunnel endpoint write that nothing holds up is done (R210). -/
def tickRills (s : State) : State := settleTep ((List.range 9).foldl endKat s)

/-- RILL_WAKE_COMPLETE: a woken rill becomes IN_SERVICE (R288). -/
def execRillWakeComplete (r : Nat) (s : State) : Res :=
  if (s.rill r).state = .waking then .next (s.setRill r { s.rill r with state := .inService }) else .next s

/-! ### Tunnel endpoints (R209, R210, R230) -/

/-- Is a TEP entry within R209? An empty one (FAMILY 0) has no TTL to be judged. -/
def tepOk (e : List Byte) : Bool :=
  let f := tepFamily e
  (f = 0 || f = 4 || f = 6) && decide (beAt e 1 1 < 8) && (f ≠ 6 || !tepFlag e 1) && decide (beAt e 2 1 < 64) && (f = 0 || decide (beAt e 3 1 ≠ 0)) &&
  decide (beAt e 22 2 = 0) && decide (beAt e 24 4 < 2 ^ 20) && (f ≠ 4 || decide (beAt e 24 4 = 0)) && allZero (slice e 28 4) &&
  (f ≠ 4 || (allZero (slice e 36 12) && allZero (slice e 52 12)))

/-- A TEP command: GO is ignored while BUSY (R230). -/
def tepCommand (k : State → State) (s : State) : Res :=
  .next (s.access R.TEP_CMD (fun s => if s.flag R.TEP_STATUS F.TEP_STATUS_BUSY then s else k s))

/-- The answer of a TEP command. -/
def tepEnd (s : State) (st : Status) : State := s.setFld R.TEP_STATUS F.TEP_STATUS_STATUS st.code

/-- An entry is replaced: BUSY while frames dispatched under the old one have not read it; frames of the entry are held meanwhile
(R210). -/
def replaceTep (s : State) (i : Nat) (e : List Byte) : State :=
  settleTep ({ s with tepPending := some (i % 4096, e) }.setFld R.TEP_STATUS F.TEP_STATUS_BUSY 1)

/-- TEP_READ (R230). -/
def execTepRead (i : Nat) (s : State) : Res :=
  tepCommand (fun s => tepEnd (s.setWin (R.TEP_DATA_n 0) (slice (s.tep (i % 4096)) 0 64) 16) .ok) s

/-- TEP_WRITE (R209, R210). An entry of zeros is the empty one. -/
def execTepWrite (i : Nat) (s : State) : Res :=
  tepCommand (fun s =>
    let e := s.winBytes (R.TEP_DATA_n 0) 16
    if tepOk e then replaceTep s i (if allZero e then [] else e) else tepEnd s .invalid) s

/-- TEP_CLEAR (R210). -/
def execTepClear (i : Nat) (s : State) : Res := tepCommand (fun s => replaceTep s i []) s

end Sys2Proof.Machine
end

