-- ==== Sys2Proof/Machine/Time.lean ====
section
/-! DEFINITION. Time bases, steps, comparators, PPS, captures, gate lists and launch (12_time.md, R340 to R364). -/

namespace Sys2Proof.Machine

/-! ### Bases and their rate (R340, R341) -/

/-- One 800 MHz tick: each base adds its increment (R340). -/
def tickBases (s : State) : State :=
  (List.range 4).foldl (fun t b => { t with bases := kset {} t.bases b ((t.now b).shift (t.reg (R.TB_INCR b)).toNat) }) s

/-- The counters of the islands in time-unlock go on at their last rate (R18). -/
def tickLocal (s : State) : State :=
  { s with localTime := s.localTime.map (fun e => (e.1, { e.2 with time := e.2.time.shift e.2.rate })) }

/-- What passes while no command waits: one tick of the bases and of what counts with it, while the time unit is out of reset; and a
release of a spare that runs ends (R111, R114, R340). -/
def idleTick (s : State) : State :=
  if s.dev.power && !s.dev.coldReset then swapReplica (tickRills (finishRelease (finishRelease (tickLanes (tickLocal (tickBases s))) 0) 1)) else s

/-- TB_INCR_WRITE (R341): a value out of range is ignored and sets INCR_RANGE. -/
def execTbIncrWrite (b : Nat) (v : Word) (s : State) : Res :=
  .next (s.access (R.TB_INCR b) (fun s =>
    if 0x013FD70A ≤ v.toNat ∧ v.toNat ≤ 0x014028F6 then s.setReg (R.TB_INCR b) v
    else s.alarm R.TIM_ALARM F.TIM_ALARM_INCR_RANGE))

/-! ### Steps (R342 to R344) -/

/-- The status of a TB_CMD; any TB_CMD other than ARM_FORCE disarms the override (R343). -/
def tbEnd (s : State) (b : Nat) (st : Status) : State :=
  (s.setFld (R.TB_STATUS b) F.TB_STATUS_STATUS st.code).setFld (R.TB_STATUS b) F.TB_STATUS_ARMED 0

/-- A step accepted: its instant is 2 us ahead of the base (R342). -/
def scheduleStep (s : State) (b : Nat) (d : Int) : State :=
  { s with steps := kset {} s.steps b { pending := true, amount := d, instant := (s.now b).shift (2000 * 2 ^ 24 : Nat) } }

/-- The step amount of a base (R342). -/
def stepAmount (s : State) (b : Nat) : Int := signed 64 (s.reg64 (R.TB_STEP_LO b) (R.TB_STEP_HI b))

/-- TB_STEP (R342 to R344). -/
def execTbStep (b : Nat) (s : State) : Res :=
  .next (s.access (R.TB_CMD b) (fun s =>
    let d := stepAmount s b
    if (kget {} s.steps b).pending ∨ (b = 0 ∧ s.txn.state = .applying) then tbEnd s b .busy
    else if !s.flag (R.TB_STATUS b) F.TB_STATUS_VALID then (tbEnd (scheduleStep s b d) b .ok).setFld (R.TB_STATUS b) F.TB_STATUS_VALID 1
    else if d.natAbs ≤ (s.reg (R.TB_JUMP b)).toNat then tbEnd (scheduleStep s b d) b .ok
    else if s.flag (R.TB_STATUS b) F.TB_STATUS_ARMED then tbEnd ((scheduleStep s b d).alarm R.TIM_ALARM F.TIM_ALARM_FORCED) b .ok
    else tbEnd (s.alarm R.TIM_ALARM F.TIM_ALARM_JUMP_REFUSED) b .denied))

/-- TB_ARM_FORCE (R343). -/
def execTbArmForce (b : Nat) (s : State) : Res :=
  .next (s.access (R.TB_CMD b) (fun s => (tbEnd s b .ok).setFld (R.TB_STATUS b) F.TB_STATUS_ARMED 1))

/-- ARM_FORCE_EXPIRY: the override disarms 10 ms after ARM_FORCE (R343). -/
def execArmForceExpiry (b : Nat) (s : State) : Res := .next (s.setFld (R.TB_STATUS b) F.TB_STATUS_ARMED 0)

/-! ### Comparators (R344, R357, R363) -/

/-- The target of a comparator. -/
def cmpTarget (s : State) (k : Nat) : TimeVal :=
  { sec := s.fld (R.CMP_TGT_SEC_HI k) F.CMP_TGT_SEC_HI_SEC * 2 ^ 32 + (s.reg (R.CMP_TGT_SEC_LO k)).toNat, ns := s.fld (R.CMP_TGT_NS k) F.CMP_TGT_NS_NS }

/-- A comparator's target registers given a time. -/
def setCmpTarget (s : State) (k : Nat) (t : TimeVal) : State :=
  ((s.setReg (R.CMP_TGT_NS k) (BitVec.ofNat 32 t.ns)).setReg (R.CMP_TGT_SEC_LO k) (BitVec.ofNat 32 t.sec)).setReg
    (R.CMP_TGT_SEC_HI k) (BitVec.ofNat 32 (t.sec / 2 ^ 32))

/-- The port whose gate list claims a comparator. -/
def gatePortOf (s : State) (k : Nat) : Option Nat :=
  (List.range 32).find? (fun p => s.flag (R.GATE_CFG p) F.GATE_CFG_EN && decide (s.fld (R.GATE_CFG p) F.GATE_CFG_CMP = k))

/-- The PPS output that claims a comparator. -/
def ppsOf (s : State) (k : Nat) : Option Nat :=
  (List.range 4).find? (fun n => s.flag (R.PPS_OUT_n n) F.PPS_OUT_n_EN && decide (s.fld (R.PPS_OUT_n n) F.PPS_OUT_n_CMP = k))

/-- The claim of a comparator (CMP_CFG.FUNC, R363). -/
def cmpFunc (s : State) (k : Nat) : Nat :=
  if (ppsOf s k).isSome then 1
  else if (gatePortOf s k).isSome then 2
  else if (List.range 8).any (fun j => s.flag (R.TIM_GPIO_j j) F.TIM_GPIO_j_EN && decide (s.fld (R.TIM_GPIO_j j) F.TIM_GPIO_j_CMP = k)) then 3
  else if s.flag R.CNT_BW F.CNT_BW_EN ∧ s.fld R.CNT_BW F.CNT_BW_CMP = k then 4
  else if (s.reg R.TIM_TIA).getLsbD k then 5
  else 0

/-- A comparator that will fire: armed, with a target to come (R357). -/
def cmpArmed (s : State) (k : Nat) : Bool := s.flag (R.CMP_CFG k) F.CMP_CFG_EN && !kget false s.cmpDone k

/-- After a firing a periodic comparator advances by its period; a one-shot one is done (R357). -/
def advanceCmp (s : State) (k : Nat) : State :=
  let p := (s.reg (R.CMP_PERIOD k)).toNat
  if p = 0 then { s with cmpDone := kset false s.cmpDone k true }
  else setCmpTarget s k ((cmpTarget s k).shift (p * 2 ^ 24 : Nat))

/-- The windows' octet counts of every port are latched (R483). -/
def latchWindows (s : State) : State :=
  (List.range 32).foldl (fun t p =>
    let r := kget 0 t.counters (Ctr.port p 1).index
    let x := kget 0 t.counters (Ctr.port p 17).index
    let t := t.setReg64 (R.CNT_BW_p_RX_LO p) (R.CNT_BW_p_RX_HI p) ((r + 2 ^ 64 - kget 0 t.bwRx p) % 2 ^ 64)
    let t := t.setReg64 (R.CNT_BW_p_TX_LO p) (R.CNT_BW_p_TX_HI p) ((x + 2 ^ 64 - kget 0 t.bwTx p) % 2 ^ 64)
    { t with bwRx := kset 0 t.bwRx p r, bwTx := kset 0 t.bwTx p x }) s

/-! ### Gate lists (R352 to R354) -/

/-- The list that a port's gate registers hold (R364). -/
def gateListOf (s : State) (p : Nat) : GateList where
  entries := (List.range (s.fld (R.GATE_LEN p) F.GATE_LEN_COUNT)).map (fun e =>
    (s.fld (R.GATE_ENTRY_e p e) F.GATE_ENTRY_e_GATES, s.fld (R.GATE_ENTRY_e p e) F.GATE_ENTRY_e_INTERVAL_NS))
  cycle := (s.reg (R.GATE_CYCLE p)).toNat
  base := { sec := s.fld (R.GATE_BASE_SEC_HI p) F.GATE_BASE_SEC_HI_SEC * 2 ^ 32 + (s.reg (R.GATE_BASE_SEC_LO p)).toNat, ns := s.fld (R.GATE_BASE_NS p) F.GATE_BASE_NS_NS }
  tb := s.fld (R.GATE_CFG p) F.GATE_CFG_TB

/-- The entries made to fill the cycle exactly: cut at its end, the last one drawn out to it (R352). -/
def fillCycle : List (Nat × Nat) → Nat → List (Nat × Nat)
  | [], n => [(255, n)]
  | [(g, _)], n => [(g, n)]
  | (g, d) :: r, n => if n ≤ d then [(g, n)] else (g, d) :: fillCycle r (n - d)

/-- The segments from position `t` (in ns) of a cycle on. -/
def fromPosition : List (Nat × Nat) → Nat → List (Nat × Nat)
  | [], _ => []
  | (g, d) :: r, t => if t < d then (g, d - t) :: r else fromPosition r (t - d)

/-- How long class `c` stays open from the start of a list of segments. -/
def openFor (c : Nat) : List (Nat × Nat) → Nat
  | [] => 0
  | (g, d) :: r => if bit g c then d + openFor c r else 0

/-- The value of base `b` on the counters of the island that holds the egress of port `p` (R17). -/
def egressNow (s : State) (p b : Nat) : TimeVal := s.localNow (timeIsland s p) b

/-- How long gate `c` of port `p` stays open from `ahead` ns after now, in ns: none without a list, before BASE, or where it never closes
(R352). -/
def gateOpenFor (s : State) (p c ahead : Nat) : Option Nat :=
  match (kget {} s.gates p).running with
  | none => none
  | some l =>
    let t := (egressNow s p l.tb).nanos + ahead
    let segs := fillCycle l.entries l.cycle
    if t < l.base.nanos ∨ l.cycle = 0 ∨ segs.all (fun x => bit x.1 c) then none
    else
      some (openFor c (fromPosition segs ((t - l.base.nanos) % l.cycle) ++ segs))

/-- The longest continuous opening of a class in the cycle, none without a list and where it never closes (R354). -/
def longestOpening (s : State) (p c : Nat) : Option Nat :=
  match (kget {} s.gates p).running with
  | none => none
  | some l =>
    let segs := fillCycle l.entries l.cycle
    if segs.all (fun x => bit x.1 c) then none else
    let starts := segs.foldl (fun (a : List Nat) x => (a.headD 0 + x.2) :: a) [0]
    some ((starts.map (fun t => openFor c (fromPosition segs t ++ segs))).foldl max 0)

/-- Port rate in Mb/s (R89). -/
def portRate (s : State) (p : Nat) : Nat :=
  match s.fld (aPORT_CFG p) F.PORT_CFG_SPEED with
  | 1 => 100000 | 2 => 200000 | 3 => 400000 | 4 => 800000 | 5 => 1600000 | _ => 0

/-- Trunk rate in Mb/s (R295). -/
def trunkRate (s : State) (t : Nat) : Nat :=
  match s.fld (R.CAS_CFG t) F.CAS_CFG_RATE with
  | 1 => 400000 | 2 => 800000 | 3 => 1600000 | 4 => 3200000 | _ => 0

/-- The signed LEN_ADJ of a node (R266, R279). -/
def lenAdj (s : State) (n : Nat) : Int := signed 8 (s.fld (R.PORT_n_1 n) F.PORT_n_1_LEN_ADJ)

/-- D of R353 in ns, rounded up: a scheduled length at the port's speed. -/
def sendTime (s : State) (p size : Nat) : Nat := if portRate s p = 0 then 0 else (size * 8000 + portRate s p - 1) / portRate s p

/-- A preemptable frame on a port where preemption is active (R101, R353). -/
def mayPreempt (s : State) (p c : Nat) : Bool :=
  s.flag (aPORT_CFG p) F.PORT_CFG_PREEMPT_EN && (s.port p).verify = .active && !bit (s.fld (aPORT_CFG p) F.PORT_CFG_EXPRESS_MASK) c

/-- Bytes of a minimum fragment on a port (R101). -/
def minFragment (s : State) (p : Nat) : Nat := (s.fld (aPORT_CFG p) F.PORT_CFG_ADD_FRAG + 1) * 64 - 4

/-- May a frame of class `c` and scheduled length `size` begin on port `p`, `ahead` ns from now (R353)? -/
def gateAdmits (s : State) (p c size ahead : Nat) : Bool :=
  match gateOpenFor s p c ahead with
  | none => true
  | some d => decide (sendTime s p size ≤ d) ||
      (mayPreempt s p c && decide (sendTime s p (minFragment s p) ≤ d))

/-- A frame that can never be admitted (R354). -/
def gateNever (s : State) (p c size : Nat) : Bool :=
  match longestOpening s p c with
  | none => false
  | some d => decide (d < sendTime s p size) && !mayPreempt s p c

/-- The first cycle start of a list at or after `t` ns. -/
def cycleStart (l : GateList) (t : Nat) : TimeVal :=
  let b := l.base.nanos
  timeOf ((if t ≤ b ∨ l.cycle = 0 then b else b + (t - b + l.cycle - 1) / l.cycle * l.cycle) * 2 ^ 24)

/-- A changed list of port `p` waits for its first cycle start, or gate lists end with EN 0 (R352). -/
def loadGates (s : State) (p : Nat) : State :=
  if s.flag (R.GATE_CFG p) F.GATE_CFG_EN then { s with gates := kset {} s.gates p { kget {} s.gates p with next := some (gateListOf s p) } }
  else { s with gates := kset {} s.gates p {} }

/-- A cycle of port `p` begins: a list that is due takes over, and the port's comparator marks the start (R352, R357). -/
def gateCycle (s : State) (p : Nat) : State :=
  let g := kget {} s.gates p
  let k := s.fld (R.GATE_CFG p) F.GATE_CFG_CMP
  let s := if cmpArmed s k then advanceCmp s k else s
  match g.next, g.running with
  | some l, _ => { s.reachIn (timeIsland s p) l.tb (cycleStart l (egressNow s p l.tb).nanos) with gates := kset {} s.gates p { g with running := some l, next := none } }
  | none, some l => s.reachIn (timeIsland s p) l.tb (cycleStart l ((egressNow s p l.tb).nanos + 1))
  | none, none => s

/-- GATE_CYCLE_START (R352). -/
def execGateCycleStart (p : Nat) (s : State) : Res := .next (gateCycle s p)

/-- The frame that is preempted on egress `e` and waits to resume; one at most (R101). -/
def parkedOf (s : State) (e : Nat) : Option Nat := (kkeys (fun (x : Job) => x.egress = e && x.parked && !x.merged) s.jobs).head?

/-- May the frame that port `p` is sending be preempted now (R101): preemptable, none preempted already, a minimum fragment sent, and
one left to send as far as its length is known? -/
def mayCut (s : State) (p : Nat) (x : Job) : Bool :=
  mayPreempt s p x.cls && (parkedOf s p).isNone && decide (0 < x.released) && decide (minFragment s p + x.cuts.headD 0 ≤ 128 * x.released) &&
  (decide (x.output = []) || decide (128 * x.released + minFragment s p ≤ x.output.length))

/-- Frame `j` is preempted behind the beats it has sent; merge goes on with the next tag (R101). -/
def park (s : State) (j : Nat) : State :=
  let x := s.job j
  { s.setJob j { x with parked := true, cuts := (128 * x.released) :: x.cuts } with expTag := kset 0 s.expTag x.egress ((kget 0 s.expTag x.egress + 1) % 2 ^ 14) }

/-- A frame of port `p` that has begun and whose gate has closed is preempted (R101, R353). -/
def preemptAtGate (s : State) (p : Nat) : State :=
  match (kkeys (fun (x : Job) => x.stage = .dispatched && x.egress = p && decide (0 < x.released) && !x.merged && !x.parked) s.jobs).head? with
  | some j => if mayCut s p (s.job j) ∧ gateOpenFor s p (s.job j).cls 0 = some 0 then park s j else s
  | none => s

/-- GATE_ENTRY_BOUNDARY: an entry of the running list ends within the cycle, and gates open or close (R352, R353). -/
def execGateEntryBoundary (p : Nat) (s : State) : Res :=
  match (kget {} s.gates p).running with
  | none => .next s
  | some l =>
    let t := (egressNow s p l.tb).nanos
    if t < l.base.nanos ∨ l.cycle = 0 then .next s
    else
      let rest := fromPosition (fillCycle l.entries l.cycle) ((t - l.base.nanos) % l.cycle)
      .next (preemptAtGate (s.reachIn (timeIsland s p) l.tb (timeOf ((t + (rest.headD (0, 0)).2) * 2 ^ 24))) p)

/-! ### Firing, PPS and captures (R344, R357, R358) -/

/-- What a firing comparator does for its feature (R357). A gate list's and a counter window's comparator advances
with its own event. -/
def cmpAct (s : State) (k : Nat) : State :=
  match cmpFunc s k with
  | 1 => advanceCmp (match ppsOf s k with
      | some n => { s with ppsHigh := kset false s.ppsHigh n true }
      | none => s) k
  | 2 => match gatePortOf s k with
      | some p => gateCycle s p
      | none => s
  | 4 => advanceCmp (latchWindows s) k
  | 5 => s.emit (.instant k)
  | _ => advanceCmp s k

/-- The island in which a comparator is evaluated comes to its target (R17, R357): that of the port for a gate list, the time unit
else. -/
def reachTarget (s : State) (k : Nat) : State :=
  let b := s.fld (R.CMP_CFG k) F.CMP_CFG_TB
  match gatePortOf s k with
  | some p => if cmpFunc s k = 2 then s.reachIn (timeIsland s p) b (cmpTarget s k) else s.reach b (cmpTarget s k)
  | none => s.reach b (cmpTarget s k)

/-- COMPARATOR_FIRE: comparator `k` reaches its target (R357). A time-instant comparator reaches the instant that an
association has armed, on the association's base (R185). -/
def execComparatorFire (k : Nat) (s : State) : Res :=
  if cmpFunc s k = 5 then
    match s.txAssocs.find? (fun e => e.2.valid && e.2.record.trig = 2 && e.2.record.comparator = k && e.2.armed.isSome) with
    | some e => .next (cmpAct (s.reachIn 10 e.2.record.trigTb (e.2.armed.getD {})) k)
    | none => .next s
  else if cmpArmed s k ∧ cmpFunc s k ≠ 3 then .next (cmpAct (reachTarget s k) k)
  else .next s

/-- PPS_OUT_PULSE_END: the pin falls WIDTH_US after its rising edge (R358). -/
def execPpsOutPulseEnd (n : Nat) (s : State) : Res := .next { s with ppsHigh := kset false s.ppsHigh n false }

/-- PPS_IN_EDGE: the rising edge is captured on all four bases, corrected by PPS_IN_DELAY (R79, R358). -/
def execPpsInEdge (s : State) : Res :=
  let s := (List.range 4).foldl (fun t b =>
    let v := (t.now b).shift (- delayUnits (t.cal 0x1C8))
    ((t.setReg (R.PPS_IN_b_NS b) (BitVec.ofNat 32 v.ns)).setReg (R.PPS_IN_b_SEC_LO b) (BitVec.ofNat 32 v.sec)).setReg
      (R.PPS_IN_b_SEC_HI b) (BitVec.ofNat 32 (v.sec / 2 ^ 32))) s
  .next (s.setFld R.PPS_IN_STAT F.PPS_IN_STAT_NEW 1)

/-- PPS_LOSS: no edge for 1.1 s (R358). -/
def execPpsLoss (s : State) : Res := .next (s.alarm R.TIM_ALARM F.TIM_ALARM_PPS_LOSS)

/-- GPIO_CAPTURE: an edge of the pin of capture `j` (rise or fall) latches the base of its comparator; a second one
before the value was read sets OVR (R357, R363). -/
def execGpioCapture (j : Nat) (rise : Bool) (s : State) : Res :=
  let a := R.TIM_GPIO_j j
  let e := s.fld a F.TIM_GPIO_j_EDGE
  let k := s.fld a F.TIM_GPIO_j_CMP
  if s.flag a F.TIM_GPIO_j_EN ∧ (e = 2 ∨ e = b2n (!rise)) ∧ s.flag (R.CMP_CFG k) F.CMP_CFG_EN then
    let s := if kget false s.captured k then s.setFld (R.CMP_CFG k) F.CMP_CFG_OVR 1 else s
    .next { setCmpTarget s k (s.now (s.fld (R.CMP_CFG k) F.CMP_CFG_TB)) with captured := kset false s.captured k true }
  else .next s

/-- BW_WINDOW_BOUNDARY: the bandwidth comparator fires and the window counts are latched (R483). -/
def execBwWindowBoundary (s : State) : Res :=
  let k := s.fld R.CNT_BW F.CNT_BW_CMP
  if s.flag R.CNT_BW F.CNT_BW_EN ∧ cmpArmed s k then
    .next (advanceCmp (latchWindows (s.reach (s.fld (R.CMP_CFG k) F.CMP_CFG_TB) (cmpTarget s k))) k)
  else .next s

/-! ### The step instant (R344) -/

/-- A step of base `b` carries the scheduler past the instant that an association has armed on comparator `k` (R185, R344). -/
def passesInstant (s : State) (b k : Nat) (old new : TimeVal) : Bool :=
  decide (cmpFunc s k = 5) && !s.unlockedIn 10 && s.txAssocs.any (fun e => e.2.valid && e.2.record.trig = 2 && e.2.record.comparator = k && e.2.record.trigTb = b &&
    decide (old.units < (e.2.armed.getD old).units) && decide ((e.2.armed.getD old).units ≤ new.units))

/-- A comparator on a stepped base whose targets lie in (before, after]: fires once, and the skipped points are counted
in CMP_MISSED; that of a gate list only marks; a time-instant action takes the instant armed for it (R344). -/
def stepCmp (s : State) (b k : Nat) (old new : TimeVal) : State :=
  let t := cmpTarget s k
  if passesInstant s b k old new then cmpAct s k
  else if cmpArmed s k ∧ cmpFunc s k ≠ 3 ∧ cmpFunc s k ≠ 5 ∧ s.fld (R.CMP_CFG k) F.CMP_CFG_TB = b ∧ old.units < t.units ∧ t.units ≤ new.units then
    let p := (s.reg (R.CMP_PERIOD k)).toNat
    if p = 0 ∧ cmpFunc s k ≠ 2 then cmpAct s k
    else if p = 0 then advanceCmp s k
    else
      let n := (new.units - t.units) / (p * 2 ^ 24)
      let s := setCmpTarget s k (t.shift (n * p * 2 ^ 24 : Nat))
      let m := R.CMP_MISSED k
      let s := s.setReg m (BitVec.ofNat 32 ((s.reg m).toNat + n))
      if cmpFunc s k = 2 then advanceCmp s k else cmpAct s k
  else s

/-- A gate list on a stepped base finds its position from the new time, and counts GATE_STEP; a changed list whose first cycle start the
step has passed takes over (R344, R352). -/
def stepGate (s : State) (b : Nat) (old new : TimeVal) (p : Nat) : State :=
  let g := kget {} s.gates p
  let due := match g.next with
    | some l => decide (l.tb = b) && new.ge (cycleStart l old.nanos)
    | none => false
  let g := if due then { g with running := g.next, next := none } else g
  match g.running with
  | some l => if l.tb = b then { s with gates := kset {} s.gates p { g with steps := g.steps + 1 } } else s
  | none => s

/-- Launch frames waiting on a base are released at once and counted (R344). -/
def stepLaunch (s : State) (b : Nat) : State :=
  (s.jobs.map Prod.fst).foldl (fun t j =>
    match (t.job j).launch with
    | some (c, _) =>
      if c = b ∧ (t.job j).stage ≠ .done then (t.setJob j { t.job j with launch := none, eligible := true }).count (.port (nodePort t (t.job j).egress) 27)
      else t
    | none => t) s

/-- The current bins of trunks that count seconds on a base are disturbed (R335, R344). -/
def stepBins (s : State) (b : Nat) : State :=
  { s with trunks := s.trunks.map (fun e =>
      if s.fld (R.CAS_PM_CFG e.1) F.CAS_PM_CFG_PM_TB = b then
        let mark : List Bin → List Bin
          | [] => []
          | x :: r => { x with disturbed := true } :: r
        (e.1, { e.2 with bins := mark e.2.bins, days := mark e.2.days })
      else e) }

/-- A base steps to `new`, with all that a step does (R344). -/
def takeStep (s : State) (b : Nat) (new : TimeVal) : State :=
  let old := s.now b
  let s := { s with bases := kset {} s.bases b new }
  let s := (List.range 32).foldl (fun t k => stepCmp t b k old new) s
  let s := (List.range 32).foldl (fun t p => stepGate t b old new p) s
  stepSnap (stepBins (stepLaunch s b) b) b old new

/-- The value of base `b` after a step of `ns` nanoseconds. -/
def State.steppedBy (s : State) (b : Nat) (ns : Int) : TimeVal := (s.now b).shift (ns * 2 ^ 24)

/-- STEP_INSTANT: the base reaches the instant of its pending step, and the step is applied (R342, R344). -/
def execStepInstant (b : Nat) (s : State) : Res :=
  let x := kget {} s.steps b
  if x.pending then
    let s := s.reach b x.instant
    .next (takeStep { s with steps := kset {} s.steps b {} } b (s.steppedBy b x.amount))
  else .next s

/-- TB_SNAP_FRAC_READ: the read latches the base into the four snapshot registers and returns the fraction (R361). -/
def execTbSnapFracRead (b : Nat) (s : State) : Res :=
  if !s.reachable then .next s
  else if !s.serves .tim then .next ((s.raiseErr F.GLB_ERR_STATE (R.TB_SNAP_FRAC b)).emit (.readData .pf (R.TB_SNAP_FRAC b) 0))
  else
    let v := s.now b
    let s := (((s.setReg (R.TB_SNAP_FRAC b) (BitVec.ofNat 32 v.frac)).setReg (R.TB_SNAP_NS b) (BitVec.ofNat 32 v.ns)).setReg
      (R.TB_SNAP_SEC_LO b) (BitVec.ofNat 32 v.sec)).setReg (R.TB_SNAP_SEC_HI b) (BitVec.ofNat 32 (v.sec / 2 ^ 32))
    .next (s.emit (.readData .pf (R.TB_SNAP_FRAC b) (BitVec.ofNat 32 v.frac)))

/-- The counters of island `i` part from the bases, each keeping its value and its rate (R18). -/
def partLocal (s : State) (i : Nat) : State :=
  (List.range 4).foldl (fun (t : State) b =>
    { t with localTime := kset {} t.localTime (4 * i + b) { time := t.now b, rate := (t.reg (R.TB_INCR b)).toNat } }) s

/-- The counters of island `i` are the bases again. -/
def joinLocal (s : State) (i : Nat) : State :=
  (List.range 4).foldl (fun (t : State) b => { t with localTime := kset {} t.localTime (4 * i + b) {} }) s

/-- TIME_UNLOCK: island `i` of TIM_UNLOCK (R362) loses the stream or its discipline, and its counters run free (R18, R345). -/
def execTimeUnlock (i : Nat) (s : State) : Res :=
  if i < 11 then
    .next (((if s.unlockedIn i then s else partLocal s i).setFld R.TIM_UNLOCK ⟨i, 1⟩ 1).alarm R.TIM_ALARM F.TIM_ALARM_UNLOCK)
  else .next s

/-- TIME_LOCK_REGAINED: the island's bit clears, and its counters follow the stream again (R18, R345). -/
def execTimeLockRegained (i : Nat) (s : State) : Res :=
  if i < 11 then .next ((joinLocal s i).setFld R.TIM_UNLOCK ⟨i, 1⟩ 0) else .next s

/-! ### Launch (R355, R356) -/

/-- LAUNCH_ELIGIBLE: the queue of frame `j` becomes eligible at L - LEAD_NS (R355). -/
def execLaunchEligible (j : Nat) (s : State) : Res :=
  let x := s.job j
  match x.launch with
  | some (b, l) =>
    if x.stage = .queued ∨ x.stage = .handoff then
      let lead := s.fld (R.LAUNCH_CFG x.egress) F.LAUNCH_CFG_LEAD_NS
      .next ((s.reachIn 10 b (timeOf ((l.nanos - lead) * 2 ^ 24))).setJob j { x with eligible := true })
    else .next s
  | none => .next s

/-- LAUNCH_RELEASE: the egress counter reaches L, and the first bit of a dispatched frame may leave (R355); a gate that is
closed keeps it. -/
def execLaunchRelease (j : Nat) (s : State) : Res :=
  let x := s.job j
  match x.launch with
  | some (b, l) =>
    let t := s.reachIn (timeIsland s x.egress) b l
    if x.stage = .dispatched ∧ gateAdmits t x.egress x.cls x.size 0 then
      .next ((if portUnlocked s x.egress then t.count (.port x.egress 30) else t).setJob j { x with launch := none, eligible := true })
    else .next t
  | none => .next s

/-- LAUNCH_LATE: the first bit has not left by L + 5 ns: sent late, or discarded by merge, as LATE_POLICY says
(R356). -/
def execLaunchLate (j : Nat) (s : State) : Res :=
  let x := s.job j
  match x.launch with
  | some (b, l) =>
    if x.stage = .none ∨ x.stage = .done then .next s
    else
      let s := s.reachIn (timeIsland s x.egress) b (timeOf ((l.nanos + 5) * 2 ^ 24))
      if s.flag (R.LAUNCH_CFG x.egress) F.LAUNCH_CFG_LATE_POLICY then
        .next ((s.setJob j { x with launch := none, eligible := true, late := true, discard := true }).count (.port x.egress 26))
      else
        let s := if portUnlocked s x.egress then s.count (.port x.egress 30) else s
        .next ((s.setJob j { x with launch := none, eligible := true, late := true }).count (.port x.egress 25))
  | none => .next s

end Sys2Proof.Machine
end

