-- ==== Sys2Proof/Machine/Cistern.lean ====
section
/-! DEFINITION. The cistern: cells, counters, encryption and tags, key IDs and regions (08_cistern.md, R233 to R263). -/

namespace Sys2Proof.Machine

/-! ### Addresses, counters and tags (R238 to R243) -/

/-- The key of a counter: level 0 for data blocks, k + 1 for nodes of level k. -/
def unitKey (level unit : Nat) : Nat := level * 2 ^ 32 + unit

/-- The counter of a unit: major and minor; the root's counters are plain (R239, R241). -/
def Cistern.counter (c : Cistern) (level unit : Nat) : Nat × Nat :=
  if level = 4 then (kget 0 c.root unit, 0) else (kget 0 c.major (unitKey level (unit / 64)), kget 0 c.minor (unitKey level unit))

/-- A counter block (R241). -/
def counterBlock (ctr : Nat × Nat) (domain unit level sub : Nat) : List Byte :=
  be 8 ctr.1 ++ be 1 ctr.2 ++ be 1 domain ++ be 4 unit ++ be 1 level ++ be 1 sub

/-- One step of multiplication by x in GF(2^64), polynomial x^64 + x^4 + x^3 + x + 1 (R242). -/
def gfDouble (v : BitVec 64) : BitVec 64 := if v.getLsbD 63 then (v <<< 1) ^^^ 0x1B#64 else v <<< 1

/-- Multiplication in GF(2^64) (R242), over the bits of `a` from the most significant one down. -/
def gfMul (a b : BitVec 64) : BitVec 64 :=
  (List.range 64).foldl (fun (r : BitVec 64) (i : Nat) => if a.getLsbD (63 - i) then gfDouble r ^^^ b else gfDouble r) 0

/-- The polynomial hash of 64 bytes (R242). -/
def blockHash (h : Nat) (l : List Byte) : Nat :=
  ((List.range 8).foldl (fun (r : BitVec 64) (i : Nat) => gfMul (r ^^^ BitVec.ofNat 64 (beAt l (8 * i) 8)) (BitVec.ofNat 64 h)) 0).toNat

/-- A tag: the hash and the mask (R242). -/
def tagOf (key : List Byte) (h : Nat) (mask l : List Byte) : Nat :=
  Nat.xor (blockHash h l) (beAt (aes key mask) 0 8)

/-- The 64 bytes of keystream of a data block (R242). -/
def blockStream (key : List Byte) (ctr : Nat × Nat) (b : Nat) : List Byte :=
  (List.range 4).flatMap (fun (sub : Nat) => aes key (counterBlock ctr 1 b 0xFF sub))

/-- The key ID of a block's region (R238). -/
def Cistern.keyOf (c : Cistern) (b : Nat) : KeyId := kget {} c.keyIds (kget {} c.regions (b / 262144)).keyId

/-- Block `b` encrypted and tagged under its counter (R242). -/
def sealBlock (c : Cistern) (b : Nat) (l : List Byte) : Cistern :=
  let k := c.keyOf b
  let ctr := c.counter 0 b
  let ct := xorBytes l (blockStream k.key ctr b)
  { c with stack := kset [] c.stack b (ct ++ be 8 (tagOf k.key k.hash (counterBlock ctr 2 b 0xFF 0) ct)) }

/-- Block `b` decrypted (R242, R244). -/
def openBlock (c : Cistern) (b : Nat) : List Byte :=
  xorBytes (slice (kget [] c.stack b) 0 64) (blockStream (c.keyOf b).key (c.counter 0 b) b)

/-- The 64 bytes of a node: MAJOR and the minors, packed most significant bit first (R239). -/
def nodeBytes (c : Cistern) (level n : Nat) : List Byte :=
  be 8 (kget 0 c.major (unitKey level n)) ++
  be 56 ((List.range 64).foldl (fun (v : Nat) (i : Nat) => v * 128 + kget 0 c.minor (unitKey level (64 * n + i))) 0)

/-- The tag of a node of level `k` under its counter in its parent (R242). -/
def tagOfNode (c : Cistern) (k n : Nat) : Nat := tagOf c.treeKey c.treeHash (counterBlock (c.counter (k + 1) n) 3 n k 0) (nodeBytes c k n)

/-- The tag that a node holds: the last one written, or that of the initialisation, of zeros under a zero counter (R255). -/
def nodeTag (c : Cistern) (k n : Nat) : Nat :=
  (kget none c.nodeTags (unitKey k n)).getD (tagOf c.treeKey c.treeHash (counterBlock (0, 0) 3 n k 0) (be 64 0))

/-- A node of level `k` tagged anew (R243). -/
def sealNode (c : Cistern) (k n : Nat) : Cistern := { c with nodeTags := kset none c.nodeTags (unitKey k n) (some (tagOfNode c k n)) }

/-- The minors of the 64 units of a node set to 0. -/
def zeroMinors (c : Cistern) (level n : Nat) : Cistern :=
  { c with minor := c.minor.filter (fun e => e.1 / 64 ≠ unitKey level (64 * n) / 64) }

/-- Does unit `unit` of node level `level` lie in the subtree of node `q`, a level and an index (R239)? -/
def inSubtree (q : Nat × Nat) (level n : Nat) : Bool := decide (level ≤ q.1) && decide (n / 64 ^ (q.1 - level) = q.2)

/-- Is a node in a quarantined subtree, its root among them (R251)? -/
def nodeQuarantined (c : Cistern) (k n : Nat) : Bool :=
  if k = 3 then c.lostTop.contains n else (kget {} c.regions (n / 64 ^ (2 - k))).quar.any (fun q => inSubtree q k n)

/-- What a counter overflow renews (R243): the data blocks in use of a leaf are re-encrypted under the new counters; the
children of a higher node are tagged anew. Nothing in a quarantined subtree is (R251). -/
def renew (old c : Cistern) (level n : Nat) : Cistern :=
  if level = 0 then
    (List.range 64).foldl (fun t i =>
      let b := 64 * n + i
      if kget 0 t.cells (b / 4) = 0 ∨ kget [] t.stack b = [] then t else sealBlock t b (openBlock old b)) c
  else (List.range 64).foldl (fun t i => if nodeQuarantined t (level - 1) (64 * n + i) then t else sealNode t (level - 1) (64 * n + i)) c

/-- The counter of a unit advances before a write, by the overflow rule (R243); `true` when it overflowed. -/
def advance (c : Cistern) (level unit : Nat) : Cistern × Bool :=
  if level = 4 then ({ c with root := kset 0 c.root unit (kget 0 c.root unit + 1) }, false)
  else
    let n := unit / 64
    let d := if c.dirty.contains (unitKey level n) then c.dirty else unitKey level n :: c.dirty
    let m := kget 0 c.minor (unitKey level unit)
    if m = 127 then
      let j := unitKey level n
      (renew c { zeroMinors { c with major := kset 0 c.major j (kget 0 c.major j + 1) } level n with dirty := d } level n, true)
    else ({ c with minor := kset 0 c.minor (unitKey level unit) (m + 1), dirty := d }, false)

/-! ### Cells and their allocation (R238, R249) -/

/-- The blocks that node `n` of level `k` covers: the first one and their number (R239). -/
def nodeSpan (k n : Nat) : Nat × Nat := (n * 64 ^ (k + 1), 64 ^ (k + 1))

/-- Is a cell in a quarantined subtree (R251)? -/
def cellQuarantined (c : Cistern) (cell : Nat) : Bool :=
  (kget {} c.regions (cell / 65536)).quar.any (fun q => decide ((nodeSpan q.1 q.2).1 ≤ 4 * cell + 3 ∧ 4 * cell < (nodeSpan q.1 q.2).1 + (nodeSpan q.1 q.2).2))

/-- Cells of a region that are allocated. -/
def regionCells (c : Cistern) (r : Nat) : Nat := (c.cells.filter (fun e => e.1 / 65536 = r)).length

/-- Cells allocated under a key ID (R262). -/
def keyCells (c : Cistern) (k : Nat) : Nat := (c.cells.filter (fun e => (kget {} c.regions (e.1 / 65536)).keyId = k)).length

/-- Those that keep it RETIRING: quarantined cells do not count (R247). -/
def soundCells (c : Cistern) (k : Nat) : Nat :=
  (c.cells.filter (fun e => (kget {} c.regions (e.1 / 65536)).keyId = k && !cellQuarantined c e.1)).length

/-- The first free cell of region `r` from position `p` on, round the region; `fuel` bounds the search. -/
def freeFrom (c : Cistern) (r p : Nat) : Nat → Nat
  | 0 => r * 65536 + p
  | fuel + 1 =>
    let cell := r * 65536 + p
    if kget 0 c.cells cell = 0 ∧ !c.outCells.contains cell then cell else freeFrom c r ((p + 1) % 65536) fuel

/-- The current key ID of an owner (R247). -/
def currentId (c : Cistern) (owner : Nat) : Option Nat := (kkeys (fun (k : KeyId) => k.state = .active && k.owner = owner) c.keyIds).head?

/-- The regions of an owner. -/
def regionsOf (c : Cistern) (owner : Nat) : List Nat := kkeys (fun (r : Region) => r.owner = owner && decide (owner ≠ 0)) c.regions

/-- Free cells of region `r`. -/
def freeIn (c : Cistern) (r : Nat) : Nat := 65536 - (regionCells c r + (c.outCells.filter (fun e => e / 65536 = r && kget 0 c.cells e = 0)).length)

/-- Does region `r` give cells to its owner: ACTIVE under the current ID (R249)? -/
def regionOpen (c : Cistern) (owner r : Nat) : Bool := (kget {} c.regions r).state = .active && currentId c owner = some (kget {} c.regions r).keyId

/-- The lowest ACTIVE region of an owner that holds its current ID and has a free cell (R249). -/
def openRegion (c : Cistern) (owner : Nat) : Option Nat := (regionsOf c owner).find? (fun r => regionOpen c owner r && decide (freeIn c r ≠ 0))

/-- Free cells of an owner under its current ID (R235). -/
def roomOf (c : Cistern) (owner : Nat) : Nat := (((regionsOf c owner).filter (regionOpen c owner)).map (freeIn c)).sum

/-- `n` cells for frame `h` of an owner, none when they do not fit. Which free cell of a region is taken is a free
value. -/
def allocCells (s : State) (owner h : Nat) : Nat → Option (List Nat × State)
  | 0 => some ([], s)
  | n + 1 =>
    match openRegion s.cistern owner with
    | none => none
    | some r =>
      let (p, s) := s.free 65536
      let cell := freeFrom s.cistern r p (regionCells s.cistern r + s.cistern.outCells.length)
      (allocCells { s with cistern := { s.cistern with cells := kset 0 s.cistern.cells cell h } } owner h n).map (fun x => (cell :: x.1, x.2))

/-! ### Key IDs and regions (R246 to R249, R255) -/

/-- A new key for an ID of an owner: K and H are free values, H not 0 (R240, R247). -/
def newKey (s : State) (k owner : Nat) : State :=
  let c := s.cistern
  let x : KeyId := { state := .active, owner := owner, serial := c.serial + 1, key := s.freeBytes 32, hash := Config.freeNat s.freeCtr % (2 ^ 64 - 1) + 1 }
  { s.useFree with cistern := { c with serial := c.serial + 1, keyIds := kset {} c.keyIds k x } }

/-- The region takes key ID `k` if R248 allows, else it goes to REINIT (R249). -/
def retag (c : Cistern) (r k : Nat) : Cistern :=
  let x := kget {} c.regions r
  { c with regions := kset {} c.regions r (if x.born ≤ (kget {} c.keyIds k).serial then { x with state := .active, keyId := k } else { x with state := .reinit }) }

/-- The lowest EMPTY key ID (R247). -/
def emptyId (c : Cistern) : Option Nat := (List.range 64).find? (fun k => (kget {} c.keyIds k).state = .empty)

/-- What a rotation makes of a region of its owner (R249). -/
def rotateRegion (c : Cistern) (k r : Nat) : Cistern :=
  let x := kget {} c.regions r
  match x.state with
  | .active => if regionCells c r = 0 then retag c r k else { c with regions := kset {} c.regions r { x with state := .draining } }
  | .reinit => retag c r k
  | _ => c

/-- A rotation of an owner (R247); none when no key ID is EMPTY. -/
def rotate (s : State) (owner : Nat) : Option State :=
  match emptyId s.cistern with
  | none => none
  | some k =>
    let s := match currentId s.cistern owner with
      | some j => { s with cistern := { s.cistern with keyIds := kset {} s.cistern.keyIds j { kget {} s.cistern.keyIds j with state := .retiring } } }
      | none => s
    let s := newKey s k owner
    some { s with cistern := (regionsOf s.cistern owner).foldl (fun c r => rotateRegion c k r) s.cistern }

/-- A region that belongs to an owner from now on: UNASSIGNED until it is tagged (R246, R249). One that is QUARANTINED or in REINIT stays
so: it leaves that state as R249 says. -/
def ownRegion (c : Cistern) (r owner : Nat) : Cistern :=
  let x := kget {} c.regions r
  let x := if x.state = .quarantined ∨ x.state = .reinit then { x with owner := owner } else { x with owner := owner, state := .unassigned, keyId := 0 }
  { c with regions := kset {} c.regions r x }

/-- The owner of region `r` by the basic parameters, in owner order from region 0 upward (R246). -/
def ownerFrom (counts : List Nat) (r : Nat) : Nat :=
  let rec go : List Nat → Nat → Nat → Nat
    | [], _, _ => 0
    | n :: l, o, r => if r < n then o else go l (o + 1) (r - n)
  go counts 1 r

/-- Every region given its owner by the basic parameters (R246). -/
def assignRegions (c : Cistern) (counts : List Nat) : Cistern :=
  (List.range 1792).foldl (fun c r => if (kget {} c.regions r).owner = ownerFrom counts r then c else ownRegion c r (ownerFrom counts r)) c

/-- The owners' regions that wait for a key ID, in owner order: an owner without a current ID takes the lowest EMPTY one, and its
untagged regions are tagged (R246, R249). -/
def tagRegions (s : State) : State :=
  [1, 2, 3, 4, 5, 6].foldl (fun s o =>
    let l := (regionsOf s.cistern o).filter (fun r => (kget {} s.cistern.regions r).state = .unassigned)
    if l = [] then s
    else
      let s := if (currentId s.cistern o).isSome then s else match emptyId s.cistern with
        | some k => newKey s k o
        | none => s
      match currentId s.cistern o with
      | some k => { s with cistern := l.foldl (fun c r => retag c r k) s.cistern }
      | none => s) s

/-- Frames that are being written to the cistern stay in the forebay instead, and their cells return (R252, R255). -/
def abortSpills (s : State) : State :=
  (kkeys (fun (f : Frame) => !decide (f.cells = []) && !f.spilled) s.frames).foldl (fun t h =>
    let t := t.freeCells h
    t.setFrame h { t.frame h with cells := [], staged := [], quarantined := false }) s

/-- The initialisation of R255: new keys, counters, BORN and region states; every counter node is zero with its tag; the owners of the
regions stay. -/
def initCistern (s : State) : State :=
  let s := abortSpills s
  let c := s.cistern
  let s := { s with cistern := {
    state := 1, serial := c.serial, treeKey := s.freeBytes 32, treeHash := Config.freeNat s.freeCtr % (2 ^ 64 - 1) + 1, outCells := c.outCells,
    repairs := c.repairs, failedRows := c.failedRows,
    regions := c.regions.filterMap (fun (e : Nat × Region) => if e.2.owner = 0 then none else some (e.1, ({ owner := e.2.owner } : Region))) } }
  tagRegions s.useFree

/-! ### Eligibility (R233, R234) -/

/-- Bytes of a queue that stand ahead of a queue entry. -/
def bytesAhead (s : State) (x : Job) : Nat :=
  ((s.jobs.filter (fun e => e.2.stage = .queued && e.2.sub = x.sub && e.2.cls = x.cls && decide (e.2.order < x.order))).map
    (fun e => (s.frame e.2.frame).bytes.length)).sum

/-- Bytes of a queue that the forebay holds. -/
def queueInForebay (s : State) (x : Job) : Nat :=
  ((s.jobs.filter (fun e => e.2.stage = .queued && e.2.sub = x.sub && e.2.cls = x.cls && !(s.frame e.2.frame).spilled)).map
    (fun e => (s.frame e.2.frame).bytes.length)).sum

/-- The queue entries of a frame. -/
def jobsOf (s : State) (h : Nat) : List Job := (s.jobs.filter (fun e => e.2.frame = h && decide (e.2.stage ≠ .done))).map Prod.snd

/-- PREFETCH_KIB in bytes. -/
def prefetchBytes (s : State) : Nat := 1024 * s.fld R.CIS_CFG F.CIS_CFG_PREFETCH_KIB

/-- Is the owner of a frame at the occupancy that makes frames spill (R233)? -/
def pressed (s : State) (f : Frame) : Bool :=
  let o := frameOwner s f
  decide (cellCapacity s o * s.fld R.CIS_CFG F.CIS_CFG_SPILL_HI ≤ 100 * cellsUsed s o)

/-- May frame `h` spill now (R233)? A frame with copies in several queues must stand far enough behind in each. -/
def maySpill (s : State) (h : Nat) : Bool :=
  let f := s.frame h
  let l := jobsOf s h
  f.complete && !f.bad && !f.spilled && f.cells = [] && !l.isEmpty && l.all (fun x => x.stage = .queued && decide (prefetchBytes s < bytesAhead s x)) &&
  !(regionsOf s.cistern (frameOwner s f)).isEmpty && s.cistern.state = 1 && s.flag R.CIS_CFG F.CIS_CFG_SPILL_EN &&
  (pressed s f || l.any (fun x => decide (1024 * s.fld R.CIS_CFG F.CIS_CFG_QSPILL_KIB < queueInForebay s x)))

/-- Cells that a frame takes in the cistern (R238). -/
def cisternCells (f : Frame) : Nat := (f.bytes.length + 255) / 256

/-- Does a frame that is due to spill find no room under its owner's current ID (R235)? -/
def spillFull (s : State) : Bool :=
  s.frames.any (fun e => maySpill s e.1 && decide (roomOf s.cistern (frameOwner s e.2) < cisternCells e.2))

/-- Frames held in the cistern. -/
def spilledFrames (s : State) : List Nat := kkeys (fun (f : Frame) => f.spilled) s.frames

/-- Frame `h` is dropped from every queue that it waits in, and counted once. -/
def dropSpilled (s : State) (c : Ctr) (h : Nat) : State := (s.count c).cutFrame h

/-- Every spilled frame is dropped. The spec names no counter for it (R252, R255): which of the cistern's drop counters
counts is a free value. -/
def dropAllSpilled (s : State) : State :=
  let (k, s) := s.free 4
  (spilledFrames s).foldl (fun t h => dropSpilled t (.cis (2 + k)) h) s

end Sys2Proof.Machine
end

