-- ==== Sys2Proof/Machine/Sched.lean ====
section
/-! DEFINITION. The hierarchical scheduler: entries, buckets, selection and admission (09_scheduler_and_sluice.md, R264 to
R281). -/

namespace Sys2Proof.Machine

/-! ### Entries (R274, R278 to R280) -/

/-- A subscriber as the scheduler sees it. -/
structure SubEntry where
  valid : Bool
  cir : Nat
  pir : Nat
  cbs : Nat
  pbs : Nat
  prof : Nat
  service : Nat
  deriving DecidableEq, Repr

/-- A service as the scheduler sees it. -/
structure SvcEntry where
  valid : Bool
  pir : Nat
  pbs : Nat
  eclass : Nat
  node : Nat
  weight : Nat
  deriving DecidableEq, Repr

/-- Is subscriber `u` one of the device's own host-pool subscribers (R274)? -/
def poolSub (s : State) (u : Nat) : Bool := s.slicesOn && decide (8064 ≤ u ∧ u < 8192)

/-- Is service `v` one of the device's own (R274)? -/
def poolSvc (s : State) (v : Nat) : Bool := s.slicesOn && decide (v = 1022 ∨ v = 1023)

/-- Subscriber `u` (R278); for a host-pool subscriber the fields that R274 leaves open are free constants. -/
def subEntry (s : State) (u : Nat) : SubEntry :=
  if poolSub s u then
    { valid := true, cir := 6250, pir := Config.hostPool 0 % 2 ^ 22, cbs := Config.hostPool 1 % 65535 + 1, pbs := Config.hostPool 2 % 65536, prof := Config.hostPool 3 % 16, service := if u < 8128 then 1022 else 1023 }
  else
    { valid := s.flag (R.SUB_u_3 u) F.SUB_u_3_VALID, cir := s.fld (R.SUB_u_0 u) F.SUB_u_0_CIR, pir := s.fld (R.SUB_u_1 u) F.SUB_u_1_PIR, cbs := s.fld (R.SUB_u_2 u) F.SUB_u_2_CBS, pbs := s.fld (R.SUB_u_2 u) F.SUB_u_2_PBS, prof := s.fld (R.SUB_u_3 u) F.SUB_u_3_PROF, service := s.fld (R.SUB_u_3 u) F.SUB_u_3_SERVICE }

/-- Service `v` (R279); the same of the host pool's services. -/
def svcEntry (s : State) (v : Nat) : SvcEntry :=
  if poolSvc s v then
    { valid := true, pir := Config.hostPool 4 % 2 ^ 22, pbs := Config.hostPool 5 % 65536, eclass := Config.hostPool 6 % 4, node := if v = 1022 then 33 else 32, weight := Config.hostPool 7 % 255 + 1 }
  else
    { valid := s.flag (R.SVC_s_3 v) F.SVC_s_3_VALID, pir := s.fld (R.SVC_s_0 v) F.SVC_s_0_PIR, pbs := s.fld (R.SVC_s_1 v) F.SVC_s_1_PBS, eclass := s.fld (R.SVC_s_3 v) F.SVC_s_3_ECLASS, node := s.fld (R.SVC_s_3 v) F.SVC_s_3_PORT, weight := s.fld (R.SVC_s_3 v) F.SVC_s_3_WEIGHT }

/-- A word of a host-pool entry as a read returns it: the value in effect (R270, R274). -/
def poolWord (s : State) (t : SchedTable) (i w : Nat) : Option Word :=
  match t with
  | .sub =>
    let x := subEntry s i
    if !poolSub s i then none
    else some (if w = 0 then F.SUB_u_0_CIR.put 0 x.cir else if w = 1 then F.SUB_u_1_PIR.put 0 x.pir else if w = 2 then F.SUB_u_2_CBS.put (F.SUB_u_2_PBS.put 0 x.pbs) x.cbs
      else F.SUB_u_3_VALID.put (F.SUB_u_3_PROF.put (F.SUB_u_3_SERVICE.put 0 x.service) x.prof) 1)
  | .svc =>
    let x := svcEntry s i
    if !poolSvc s i then none
    else some (if w = 0 then F.SVC_s_0_PIR.put 0 x.pir else if w = 1 then F.SVC_s_1_PBS.put 0 x.pbs else if w = 2 then 0
      else F.SVC_s_3_VALID.put (F.SVC_s_3_ECLASS.put (F.SVC_s_3_PORT.put (F.SVC_s_3_WEIGHT.put 0 x.weight) x.node) x.eclass) 1)
  | .port => none

/-- The node of a subscriber (R264). -/
def subNode (s : State) (u : Nat) : Nat := (svcEntry s (subEntry s u).service).node

/-- LIMIT of a class in a profile, in bytes; none for no limit (R280). -/
def queueLimit (s : State) (prof cls : Nat) : Option Nat :=
  let a := R.PROF_k_w prof (cls / 2)
  let l := s.fld a (if cls % 2 = 1 then F.PROF_k_w_LIMIT_HI else F.PROF_k_w_LIMIT_LO)
  if l = 0xFFFF then none else some (1024 * l)

/-- The quantum of a class 0 to 5 (R280). -/
def quantum (s : State) (cls : Nat) : Nat :=
  s.fld (R.SCH_DRR_j (cls / 2)) (if cls % 2 = 1 then F.SCH_DRR_j_Q_HI else F.SCH_DRR_j_Q_LO)

/-! ### Scheduled length (R266) -/

/-- Bytes, DA to FCS, that a queue entry will have as it leaves (R203, R205 to R208, R266). The inner length of a received
ESP packet is not known before it is decrypted; it is taken as its ciphertext less two bytes. -/
def leavingLength (s : State) (x : Job) : Nat :=
  let f := s.frame x.frame
  let b := f.bytes
  match x.action with
  | 1 => b.length + (if (s.assoc false x.assoc).record.sciEn then 32 else 24)
  | 2 =>
    let r := (s.assoc false x.assoc).record
    let p := parseFrame b none
    espLength (s.tep r.tep) r.natT ((innerLength b p).getD 0)
  | 3 =>
    let r := (s.assoc true x.assoc).record
    if r.kind = 0 then max 64 (b.length - (match parseSecTag b with
      | some t => t.size - 12 + 16
      | none => 0))
    else
      let (_, p, _) := espLayout b (parseFrame b none)
      max 64 ((decapHead s r.port).length + 2 + (p - 2) + 4)
  | _ => b.length

/-- The scheduled length at node `n`: with the node's signed LEN_ADJ (R266). -/
def schedLength (s : State) (n : Nat) (x : Job) : Nat := ((leavingLength s x : Int) + lenAdj s n).toNat

/-! ### Buckets (R268, R269, R284 to R286); units of 1/2000 byte -/

/-- Bytes as bucket units. -/
def units (bytes : Nat) : Int := 2000 * (bytes : Int)

/-- No bucket falls below -16 064 bytes (R268). -/
def debit (m : KMap Int) (k : Nat) (d : Int) : KMap Int := kset 0 m k (max (kget 0 m k - d) (-32128000))

/-- A refill by `add`, clipped at a burst in bytes (R269). -/
def refill (m : KMap Int) (k : Nat) (add : Int) (burst : Nat) : KMap Int := kset 0 m k (min (kget 0 m k + add) (units burst))

/-- Key of a ceiling bucket. -/
def ceilKey (inbound : Bool) (e : Nat) : Nat := 4 * b2n inbound + e

/-- Is a node in the inbound tree (R265)? -/
def nodeInbound (n : Nat) : Bool := decide (n < 16 ∨ n = 32)

/-- The sixteenths of ECL_MAX_e that a shed position leaves (R285). -/
def ceilSixteenths (p e : Nat) : Nat := min 16 (16 + 16 * (3 - e) - p)

/-- A peak rate that is unlimited (R278, R279). -/
def unlimited (rate : Nat) : Bool := rate = 0x3FFFFF

/-- P of a subscriber, S of a service: above 0, or unlimited (R267). -/
def peakOpen (s : State) (u : Nat) : Bool := unlimited (subEntry s u).pir || decide (0 < kget 0 s.sched.subP u)
def serviceOpen (s : State) (v : Nat) : Bool := unlimited (svcEntry s v).pir || decide (0 < kget 0 s.sched.svcS v)

/-- ECL_MAX of a class as the slow loop last converted it (R282). -/
def eclMax (s : State) (e : Nat) : Nat := (kget none s.sluice.ecl e).getD (s.fld (R.SLU_ECL_e e) F.SLU_ECL_e_ECL_MAX)

/-- Committed-eligible, excess-eligible (R267); at p = 64 no excess frame is selected (R285). -/
def committedOk (s : State) (u : Nat) : Bool := decide (0 < kget 0 s.sched.subC u)
def excessOk (s : State) (u : Nat) : Bool :=
  let v := (subEntry s u).service
  let e := svcEntry s v
  decide (s.sluice.p < 64) && decide (kget 0 s.sched.subC u ≤ 0) && peakOpen s u && serviceOpen s v &&
    decide (0 < kget 0 s.sched.ceil (ceilKey (nodeInbound e.node) e.eclass))

/-- The words of an entry that take effect: those held and the new word 3 (R270). -/
def heldWords (s : State) (a : Nat) (w3 : Word) : List (Nat × Word) :=
  ([a, a + 4, a + 8].map (fun (i : Nat) => (i, (kget none s.sched.held i).getD (s.reg i)))) ++ [(a + 12, w3)]

/-- Address of word 0 of a scheduler entry. -/
def entryAddr : SchedTable → Nat → Nat
  | .sub, i => R.SUB_u_0 i
  | .svc, i => R.SVC_s_0 i
  | .port, i => R.PORT_n_0 i

/-- The pending copies of an entry's words dropped. -/
def unhold (s : State) (a : Nat) : State :=
  { s with sched := { s.sched with held := [a, a + 4, a + 8].foldl (fun (m : KMap (Option Word)) (i : Nat) => kset none m i none) s.sched.held } }

/-- A service that becomes active takes its node's virtual time (R269). -/
def activate (s : State) (v : Nat) : State :=
  if s.jobs.any (fun e => e.2.stage = .queued && decide ((subEntry s e.2.sub).service = v)) then s
  else { s with sched := { s.sched with finish := kset 0 s.sched.finish v (kget 0 s.sched.vtime (svcEntry s v).node) } }

/-- A subscriber entry takes effect (R271): its words, and its tokens full or 0. Queues that it brings to another service make that one
active (R269). -/
def applySub (s : State) (u : Nat) (w3 : Word) : State :=
  let a := R.SUB_u_0 u
  let s := if s.jobs.any (fun e => e.2.stage = .queued && e.2.sub = u) then activate s (F.SUB_u_3_SERVICE.get w3) else s
  let s := unhold ((heldWords s a w3).foldl (fun (t : State) e => t.setReg e.1 (e.2 &&& ~~~ (if e.1 = a + 12 then F.SUB_u_3_FILL.mask else 0))) s) a
  let fill := F.SUB_u_3_FILL.get w3 = 1
  let x := subEntry s u
  { s with sched := { s.sched with
      subC := kset 0 s.sched.subC u (if fill then units (64 * x.cbs) else 0)
      subP := kset 0 s.sched.subP u (if fill then units (64 * x.pbs) else 0) } }

/-- A service or port entry waits for its node's next refill (R272). -/
def scheduleEntry (s : State) (a : Nat) (w3 : Word) : State :=
  let l := heldWords s a w3
  let s := unhold s a
  { s with sched := { s.sched with due := l.foldl (fun (m : KMap (Option Word)) e => kset none m e.1 (some e.2)) s.sched.due } }

/-- A write of word 3 of an entry makes the whole entry effective (R270 to R272). -/
def applyEntry (s : State) (t : SchedTable) (i : Nat) (w3 : Word) : State :=
  match t with
  | .sub => applySub s i w3
  | .svc => scheduleEntry s (R.SVC_s_0 i) w3
  | .port => scheduleEntry s (R.PORT_n_0 i) w3

/-- The words due of an entry take effect (R272). -/
def takeDue (s : State) (a : Nat) : State :=
  [a, a + 4, a + 8, a + 12].foldl (fun (t : State) (i : Nat) =>
    match kget none t.sched.due i with
    | some w => { t.setReg i w with sched := { t.sched with due := kset none t.sched.due i none } }
    | none => t) s

/-- The configuration with every word that is due in effect: what a later change is judged against (R72, R83, R272). -/
def settled (s : State) : State :=
  s.sched.due.foldl (fun (t : State) (e : Nat × Option Word) => match e.2 with
    | some w => t.setReg e.1 w
    | none => t) s

/-- The subscribers that can be valid: those whose word 3 is not at its reset value, in which VALID is 0 (R278), and the
host pool's (R274). -/
def usedSubs (s : State) : List Nat :=
  (s.regs.filterMap (fun (e : Nat × Word) =>
    if 0x620000 ≤ e.1 ∧ e.1 < 0x640000 ∧ e.1 % 16 = 12 then some ((e.1 - 0x620000) / 16) else none)).filter (fun u => !poolSub s u) ++
  (if s.slicesOn then (List.range 128).map (8064 + ·) else [])

/-- CIR sum of the valid subscribers of a node against its RATE (R273). -/
def overcommitted (s : State) (n : Nat) : Bool :=
  decide (s.fld (R.PORT_n_0 n) F.PORT_n_0_RATE <
    ((usedSubs s).map (fun u => if (subEntry s u).valid ∧ subNode s u = n then (subEntry s u).cir else 0)).sum)

/-- Nodes that expert writes have left overcommitted raise the alarm (R273). -/
def noteOvercommit (s : State) : State := if (List.range 34).any (overcommitted s) then s.alarm R.SCH_ALARM F.SCH_ALARM_OVERCOMMIT else s

/-- The words due of port node `n` take effect (R272). -/
def takePort (s : State) (n : Nat) : State :=
  if (kget none s.sched.due (R.PORT_n_0 n + 12)).isNone then s else noteOvercommit (takeDue s (R.PORT_n_0 n))

/-- The words due of service `v` take effect; on another node it takes that node's virtual time (R269, R272). -/
def takeService (s : State) (v : Nat) : State :=
  if (kget none s.sched.due (R.SVC_s_0 v + 12)).isNone then s
  else
    let t := noteOvercommit (takeDue s (R.SVC_s_0 v))
    let n := (svcEntry t v).node
    if (svcEntry s v).node = n then t else { t with sched := { t.sched with finish := kset 0 t.sched.finish v (kget 0 t.sched.vtime n) } }

/-- BUCKET_REFILL (R269, R271, R272, R285, R286): subscribers every 1024 ns, the others every 256 ns. -/
def execBucketRefill (b : Bucket) (s : State) : Res :=
  match b with
  | .sub u =>
    let x := subEntry s u
    .next { s with sched := { s.sched with
      subC := refill s.sched.subC u ((16 * x.cir * s.sluice.g : Nat) : Int) (64 * x.cbs)
      subP := refill s.sched.subP u ((256 * x.pir : Nat) : Int) (64 * x.pbs) } }
  | .svc v =>
    let s := takeService s v
    let x := svcEntry s v
    .next { s with sched := { s.sched with svcS := refill s.sched.svcS v ((64 * x.pir : Nat) : Int) (64 * x.pbs) } }
  | .port n =>
    let s := takePort s n
    .next { s with sched := { s.sched with nodeL := refill s.sched.nodeL n ((64 * s.fld (R.PORT_n_0 n) F.PORT_n_0_RATE : Nat) : Int) (64 * s.fld (R.PORT_n_1 n) F.PORT_n_1_BURST) } }
  | .ceiling inb e =>
    .next { s with sched := { s.sched with ceil := refill s.sched.ceil (ceilKey inb e) ((4 * eclMax s e * ceilSixteenths s.sluice.p e : Nat) : Int) 65536 } }

/-! ### Queues and their heads (R267, R275, R311, R353, R355) -/

/-- Do two queue entries wait in one queue? -/
def sameQueue (x y : Job) : Bool := x.stage = y.stage && x.sub = y.sub && x.cls = y.cls

/-- Is `x` the oldest of its queue? -/
def isHead (s : State) (x : Job) : Bool := !(s.jobs.any (fun e => sameQueue e.2 x && decide (e.2.order < x.order)))

/-- The heads of the queues below node `n`. -/
def queueHeads (s : State) (n : Nat) : List (Nat × Job) :=
  s.jobs.filter (fun e => e.2.stage = .queued && (subEntry s e.2.sub).valid && (svcEntry s (subEntry s e.2.sub).service).valid &&
    decide (subNode s e.2.sub = n) && isHead s e.2)

/-- The entries of the host handoff of line port `n`, oldest first (R275). -/
def handoffOf (s : State) (n : Nat) : List (Nat × Job) :=
  s.jobs.filter (fun e => e.2.stage = .handoff && decide (nodePort s e.2.egress = n))

/-- The head of a handoff. -/
def handoffHead (s : State) (n : Nat) : Option (Nat × Job) :=
  (handoffOf s n).find? (fun e => !((handoffOf s n).any (fun f => decide (f.2.order < e.2.order))))

/-- Bytes committed to a tributary's mapping buffer (R311): those in it, and LENGTH + 8 of every frame on its way to it. -/
def tribCommitted (s : State) (t i : Nat) : Nat :=
  (kget {} (kget {} s.trunks t).tribs i).buffer.length +
  ((s.jobs.filter (fun e => e.2.egress = 64 + t && e.2.trib = i && (e.2.stage = .selected || e.2.stage = .dispatched) && !e.2.merged)).map
    (fun e => e.2.length + 8)).sum

/-- Basin credit exists (R311). -/
def basinCredit (s : State) (x : Job) : Bool := decide (x.egress < 64) || decide (tribCommitted s (x.egress - 64) x.trib < 32768)

/-- The published gate state admits a frame at t + LEAD_NS (R353). -/
def gatePublished (s : State) (n : Nat) (x : Job) : Bool :=
  decide (32 ≤ n) || decide (64 ≤ x.egress) || gateAdmits s n x.cls (schedLength s n x) (s.fld (R.GATE_CFG n) F.GATE_CFG_LEAD_NS)

/-- Is the head of a queue below node `n` eligible (R234, R267, R311, R353, R355)? -/
def headEligible (s : State) (n : Nat) (x : Job) : Bool :=
  !(s.frame x.frame).spilled && (x.launch.isNone || x.eligible) && basinCredit s x && gatePublished s n x &&
  (decide (n ≠ 33) || decide ((handoffOf s (nodePort s x.egress)).length < 16))

/-- Does a frame hold the node: a launch frame selected and not released, or one held at its gate (R353, R355)? -/
def nodeHeld (s : State) (n : Nat) : Bool :=
  s.jobs.any (fun e => (e.2.stage = .selected || e.2.stage = .dispatched) && !e.2.merged && decide (nodePort s e.2.egress = n) &&
    (e.2.launch.isSome || e.2.gateHeld))

/-! ### Selection (R264, R267, R268) -/

/-- A candidate of a subscriber or service: queue entry, and the state after the choice among classes. -/
structure Pick where
  job : Nat
  entry : Job
  sub : Nat
  after : Sched
  deriving DecidableEq, Repr

/-- Deficit round robin over classes 5 to 0 of subscriber `u` (R264, R268); `fuel` bounds the turns. -/
def drrPick (s : State) (n u : Nat) (heads : List (Nat × Job)) (c : Sched) : Nat → Option Pick
  | 0 => none
  | fuel + 1 =>
    let turn := kget 0 c.drrTurn u
    let cls := 5 - turn
    let pass : Sched := { c with drrTurn := kset 0 c.drrTurn u ((turn + 1) % 6), drrFed := kset false c.drrFed u false }
    match heads.find? (fun e => e.2.cls = cls) with
    | none => drrPick s n u heads pass fuel
    | some e =>
      let q := 8 * u + cls
      let d := kget 0 c.deficit q + (if kget false c.drrFed u then 0 else (quantum s cls : Int))
      let len := schedLength s n e.2
      if (len : Int) ≤ d then
        some { job := e.1, entry := e.2, sub := u, after := { c with deficit := kset 0 c.deficit q (d - len), drrFed := kset false c.drrFed u true } }
      else drrPick s n u heads { pass with deficit := kset 0 c.deficit q d } fuel

/-- A subscriber's choice: class 7, class 6, then DRR (R267). Some class has a head whenever `heads` is not empty. -/
def pickClass (s : State) (n u : Nat) (heads : List (Nat × Job)) : Option Pick :=
  match heads.find? (fun e => e.2.cls = 7), heads.find? (fun e => e.2.cls = 6) with
  | some e, _ => some { job := e.1, entry := e.2, sub := u, after := s.sched }
  | none, some e => some { job := e.1, entry := e.2, sub := u, after := s.sched }
  | none, none => if heads = [] then none else drrPick s n u heads s.sched 4096

/-- The next of a rising list after `last`, round robin. -/
def nextRound (l : List Nat) (last : Nat) : Option Nat :=
  match l.filter (fun u => decide (last < u)) with
  | u :: _ => some u
  | [] => l.head?

/-- A service's choice in a pass: round robin over its eligible subscribers (R264). -/
def pickService (s : State) (n v : Nat) (heads : List (Nat × Job)) (committed : Bool) : Option Pick :=
  let ok (u : Nat) : Bool := if committed then committedOk s u else excessOk s u
  let subs := (List.range 8192).filter (fun u => heads.any (fun e => decide (e.2.sub = u)) && decide ((subEntry s u).service = v) && ok u)
  let last := if committed then kget 0 s.sched.lastC v else kget 0 s.sched.lastE v
  match nextRound subs last with
  | some u => pickClass s n u (heads.filter (fun e => decide (e.2.sub = u)))
  | none => none

/-- Finish tag of a service or handoff at its choice (R264, R269). -/
def finishTag (s : State) (key weight len : Nat) : Nat := kget 0 s.sched.finish key + len * 2 ^ 32 / weight

/-- What a node selects in a pass: the choice of the service, or the handoff head, with the lowest finish tag. -/
def pickNode (s : State) (n : Nat) (committed : Bool) : Option (Nat × Nat × Pick) :=
  let heads := (queueHeads s n).filter (fun e => headEligible s n e.2)
  let services := (heads.map (fun e => (subEntry s e.2.sub).service)).eraseDups
  let cands := services.filterMap (fun v =>
    let w := (svcEntry s v).weight
    if w = 0 then none else (pickService s n v heads committed).map (fun (p : Pick) => (v, finishTag s v w (schedLength s n p.entry), p)))
  let hw := s.fld (R.PORT_n_3 n) F.PORT_n_3_HOST_WEIGHT
  let hand := if 16 ≤ n ∧ n < 32 ∧ hw ≠ 0 then
      match handoffHead s n with
      | some e => if e.2.committed = committed ∧ (committed ∨ s.sluice.p < 64) ∧ gatePublished s n e.2 then
          [(1024 + n, finishTag s (1024 + n) hw (schedLength s n e.2), ({ job := e.1, entry := e.2, sub := e.2.sub, after := s.sched } : Pick))] else []
      | none => []
    else []
  (cands ++ hand).foldl (fun (best : Option (Nat × Nat × Pick)) x =>
    match best with
    | none => some x
    | some b => if x.2.1 < b.2.1 ∨ x.2.1 = b.2.1 ∧ x.1 < b.1 then some x else some b) none

/-- The debits of a selection (R268). A handoff head was debited at node 33; it is debited at the line port's node. -/
def debitFor (s : State) (n v len : Nat) (u : Nat) (committed : Bool) : State :=
  let c := s.sched
  let d := units len
  let c := { c with nodeL := debit c.nodeL n d }
  if 1024 ≤ v then { s with sched := c }
  else
    let e := svcEntry s v
    let c := { c with subP := debit c.subP u d, svcS := debit c.svcS v d }
    let c := if committed then { c with subC := debit c.subC u d, lastC := kset 0 c.lastC v u }
      else { c with ceil := debit c.ceil (ceilKey (nodeInbound n) e.eclass) d, lastE := kset 0 c.lastE v u }
    { s with sched := c }.countN (.sch u (if committed then 0 else 1)) len

/-- A selected entry leaves its queue: for its dispatcher, or from node 33 for its line port's handoff (R275). -/
def selectEntry (s : State) (n v tag : Nat) (p : Pick) (committed : Bool) : State :=
  let len := schedLength s n p.entry
  let s := debitFor { s with sched := { p.after with finish := kset 0 p.after.finish v tag, vtime := kset 0 p.after.vtime n tag } } n v len p.sub committed
  let x := { p.entry with committed := committed, size := len, length := leavingLength s p.entry }
  if n = 33 then
    let e := nodePort s x.egress
    let idle := (handoffOf s e).isEmpty
    let c := s.sched
    let c := if idle then { c with finish := kset 0 c.finish (1024 + e) (kget 0 c.vtime e) } else c
    { s.setJob p.job { x with stage := .handoff, order := c.order } with sched := { c with order := c.order + 1 } }.emptied p.sub x.cls
  else
    let s := s.setJob p.job { x with stage := .selected }
    if 1024 ≤ v then s else s.emptied p.sub x.cls

/-- Frames of a node that no gate list can ever admit are dropped at selection (R354). -/
def dropNever (s : State) (n : Nat) : State :=
  if 32 ≤ n then s
  else
    let heads := queueHeads s n ++ (handoffHead s n).toList
    heads.foldl (fun t e =>
      if e.2.egress = n ∧ gateNever t n e.2.cls (schedLength t n e.2) then (t.count (.port n 24)).endJob e.1 (.aborted, 6) else t) s

/-- One selection of a node, committed pass first (R267): the state and whether a frame was selected. -/
def selectOne (s : State) (n : Nat) : State × Bool :=
  if nodeHeld s n ∨ kget 0 s.sched.nodeL n ≤ 0 then (s, false)
  else match pickNode s n true with
    | some (v, t, p) => (selectEntry s n v t p true, true)
    | none => match pickNode s n false with
      | some (v, t, p) => (selectEntry s n v t p false, true)
      | none => (s, false)

/-- Up to `k` selections of a node, and how many it made. -/
def selectNode (s : State) (n : Nat) : Nat → State × Nat
  | 0 => (s, 0)
  | k + 1 =>
    let (s, ok) := selectOne s n
    if ok then
      let (t, m) := selectNode s n k
      (t, m + 1)
    else (s, 0)

/-- Frames of a direction that hold a reorder context or are about to take one; with 8192 the dispatcher stalls, and frames wait in
their queues (R22). -/
def contextsClaimed (s : State) (inb : Bool) : Nat :=
  contextsUsed s inb + kcount (fun x => x.stage = .selected && inboundTo x.egress = inb) s.jobs

/-- Selections that a cycle may make in a tree (R22, R267). -/
def cycleQuota (s : State) (inb : Bool) : Nat := min 6 (8192 - contextsClaimed s inb)

/-- A cycle of the scheduler over a list of nodes: at most 3 selections a node and 6 a tree (R267). -/
def selectCycle (s : State) (inLeft outLeft : Nat) : List Nat → State
  | [] => s
  | n :: r =>
    let s := dropNever s n
    if nodeInbound n then
      let (t, m) := selectNode s n (min 3 inLeft)
      selectCycle t (inLeft - m) outLeft r
    else
      let (t, m) := selectNode s n (min 3 outLeft)
      selectCycle t inLeft (outLeft - m) r

/-- SCHEDULER_SELECT: one scheduler cycle (R267). The nodes named choose first, in that order; the others follow by
number. -/
def execSchedulerSelect (first : List Nat) (s : State) : Res :=
  let l := (first.filter (fun n => decide (n < 34))).eraseDups
  .next (selectCycle s (cycleQuota s true) (cycleQuota s false) (l ++ (List.range 34).filter (fun n => !l.contains n)))

/-! ### Admission (R276) -/

/-- Does the partition rule of R276 keep the frame out: its owner's partitions are full to ADMIT_PCT, it cannot spill, and
its class is 0 to 5? -/
def pressure (s : State) (x : Job) : Bool :=
  let f := s.frame x.frame
  let o := frameOwner s f
  let canSpill := s.flag R.CIS_CFG F.CIS_CFG_SPILL_EN && s.cistern.state = 1 && (openRegion s.cistern o).isSome &&
    (s.frame x.frame).complete && decide (prefetchBytes s < ((s.jobs.filter (fun e => e.2.stage = .queued && e.2.sub = x.sub && e.2.cls = x.cls)).map (fun e => (s.frame e.2.frame).bytes.length)).sum)
  decide (x.cls < 6) && !canSpill && decide (frameCapacity s f * s.fld (R.SCH_ADMIT_o (o - 1)) F.SCH_ADMIT_o_ADMIT_PCT ≤ 100 * frameUsed s f)

/-- Bytes that a queue holds, forebay and cistern. -/
def queueBytes (s : State) (u cls : Nat) : Nat :=
  ((s.jobs.filter (fun e => e.2.stage = .queued && e.2.sub = u && e.2.cls = cls)).map (fun e => (s.frame e.2.frame).bytes.length)).sum

/-- A DECRYPT result on an association in a slice's range leaves on `HP` to the slice (R459): the slice and the entry. -/
def toSlice (s : State) (x : Job) : Option Nat × Job :=
  if x.action = 3 ∧ x.host.isNone then
    match sliceOfAssoc s x.assoc with
    | some k => (some k, { x with egress := 32, sub := 8128 + k })
    | none => (none, x)
  else (none, x)

/-- QUEUE_ADMISSION: a classified frame is judged in the order of R276, and enqueued; a frame for a slice that is not
ACTIVE is dropped first (R459). -/
def execQueueAdmission (j : Nat) (s : State) : Res :=
  if (s.job j).stage ≠ .classified then .next s
  else
    let (k, x) := toSlice s (s.job j)
    let s := s.setJob j x
    let e := subEntry s x.sub
    let shut : Bool := match k with
      | some n => decide ((kget {} s.slices n).state ≠ .active)
      | none => false
    if shut then .next (((s.count (.host 7)).count (.slice (k.getD 0) 7)).endJob j (.aborted, 5))
    else if !e.valid then .next ((s.count (.dev 0)).endJob j (.aborted, 5))
    else if !nodeOpen s x.egress then .next ((closedCount s x.egress).endJob j (.aborted, 5))
    else if (match queueLimit s e.prof x.cls with
      | some l => decide (l < queueBytes s x.sub x.cls + (s.frame x.frame).bytes.length)
      | none => false) then .next ((s.count (.sch x.sub 2)).endJob j (.full, 4))
    else if pressure s x then .next (((s.count (.sch x.sub 3)).alarm R.SCH_ALARM F.SCH_ALARM_PRESSURE).endJob j (.full, 4))
    else
      let s := activate s e.service
      .next { s.setJob j { x with stage := .queued, order := s.sched.order } with sched := { s.sched with order := s.sched.order + 1 } }

end Sys2Proof.Machine
end

