-- ==== Sys2Proof/Machine/Sluice.lean ====
section
/-! DEFINITION. The Sluice governor: its hardware loop, rill gating and slow loop (09_scheduler_and_sluice.md, R282 to
R290). Temperatures are in 0.125 C, power in mW. -/

namespace Sys2Proof.Machine

/-! ### Measurements (R283) -/

/-- Is sensor `i` in service? -/
def sensorOn (s : State) (i : Nat) : Bool := s.flag R.SLU_SENSOR ⟨i, 1⟩

/-- Sensor `i` taken out of service (R283). -/
def sensorOut (s : State) (i : Nat) : State := (s.alarm R.SLU_ALARM F.SLU_ALARM_SENSOR).setFld R.SLU_SENSOR ⟨i, 1⟩ 0

/-- A list with a number put in its place. -/
def insertInt (v : Int) : List Int → List Int
  | [] => [v]
  | x :: r => if v ≤ x then v :: x :: r else x :: insertInt v r

/-- Twice the median of 24 readings. -/
def median2 (l : List Int) : Int :=
  let m := l.foldl (fun (a : List Int) v => insertInt v a) []
  m.getD ((l.length - 1) / 2) 0 + m.getD (l.length / 2) 0

/-- What a tick reads of the sensors: the readings, and how long each has differed by more than 10 C from the median (R283). -/
def readSensors (s : State) (l : List Int) : State :=
  let m := median2 l
  let n := l.zipIdx.foldl (fun (d : KMap Nat) (e : Int × Nat) => kset 0 d e.2 (if 160 < (2 * e.1 - m).natAbs then kget 0 d e.2 + 1 else 0)) s.sluice.deviant
  { s with sluice := { s.sluice with readings := l, deviant := n } }

/-- The health check of the slow loop (R282, R283): a sensor that reads out of range, or has differed from the median for 1 ms, leaves
service. -/
def checkSensors (s : State) : State :=
  s.sluice.readings.zipIdx.foldl (fun (t : State) (e : Int × Nat) =>
    if sensorOn t e.2 ∧ (e.1 < -480 ∨ 1200 < e.1 ∨ 1000 ≤ kget 0 s.sluice.deviant e.2) then sensorOut t e.2 else t) s

/-- P in mW (R283): the sum over the three rails of voltage in mV times regulator current in mA, the HBM estimate, and 4 W for I/O. -/
def powerOf (rails : List (Nat × Nat)) (hbm : Nat) : Nat := ((rails.take 3).map (fun e => e.1 * e.2)).sum / 1000 + hbm + 4000

/-- The largest of a list, none when it is empty. -/
def maxInt : List Int → Option Int
  | [] => none
  | v :: r => match maxInt r with
    | some m => some (max v m)
    | none => some v

/-- T of R283 from the readings, with THERM_OFFSET (R79). -/
def tMax (s : State) (l : List Int) : Int :=
  let on := l.zipIdx.filter (fun (e : Int × Nat) => sensorOn s e.2)
  let m := maxInt (on.map (fun (e : Int × Nat) => e.1 + s.cal (0x180 + e.2)))
  let floor : Int := 8 * (s.fld R.SLU_THERM F.SLU_THERM_SOFT + 1 : Nat)
  match m with
  | some v => if on.length < 20 then max v floor else v
  | none => floor

/-! ### The hardware loop (R284) -/

/-- Shed position and quiet time after a tick. -/
def stepP (s : State) (t : Int) (pw : Nat) (u : Sluice) : Sluice :=
  let hard : Int := 8 * s.fld R.SLU_THERM F.SLU_THERM_HARD
  let soft : Int := 8 * s.fld R.SLU_THERM F.SLU_THERM_SOFT
  let hyst : Int := 8 * s.fld R.SLU_THERM F.SLU_THERM_T_HYST
  let budget := 250 * s.fld R.SLU_BUDGET F.SLU_BUDGET_BUDGET
  let band := 250 * s.fld R.SLU_BUDGET F.SLU_BUDGET_HYST
  if hard ≤ t then { u with p := 64, hardOn := true }
  else
    let u := { u with hardOn := false }
    if budget < pw ∨ soft < t then { u with p := min (u.p + 1) 64, quiet := 0 }
    else if pw + band ≤ budget ∧ t ≤ soft - hyst then
      if s.fld R.SLU_LOOP F.SLU_LOOP_RELEASE_US ≤ u.quiet + 1 then { u with p := u.p - 1, quiet := 0 } else { u with quiet := u.quiet + 1 }
    else { u with quiet := 0 }

/-- The committed factor after a tick: one step down every HARD_STEP_US, one step up every 100 us. -/
def stepG (s : State) (t : Int) (u : Sluice) : Sluice :=
  let hard : Int := 8 * s.fld R.SLU_THERM F.SLU_THERM_HARD
  let hyst : Int := 8 * s.fld R.SLU_THERM F.SLU_THERM_T_HYST
  if u.hardOn then
    if s.fld R.SLU_LOOP F.SLU_LOOP_HARD_STEP_US ≤ u.sinceFall + 1 then { u with g := max (u.g - 1) (s.fld R.SLU_LOOP F.SLU_LOOP_COMMIT_FLOOR), sinceFall := 0, sinceRise := 0 }
    else { u with sinceFall := u.sinceFall + 1, sinceRise := 0 }
  else if t ≤ hard - hyst then
    if 100 ≤ u.sinceRise + 1 then { u with g := min (u.g + 1) 16, sinceRise := 0, sinceFall := 0 } else { u with sinceRise := u.sinceRise + 1, sinceFall := 0 }
  else { u with sinceFall := 0, sinceRise := 0 }

/-- Alarms of a tick's result (R293). -/
def sluiceAlarms (s : State) : State :=
  let u := s.sluice
  let s := if 0 < u.p then s.alarm R.SLU_ALARM F.SLU_ALARM_SHED else s
  let s := if 48 < u.p then s.alarm R.SLU_ALARM F.SLU_ALARM_CLASS0_SHED else s
  let s := if u.g < 16 then s.alarm R.SLU_ALARM F.SLU_ALARM_COMMIT_CUT else s
  if u.blind then s.alarm R.SLU_ALARM F.SLU_ALARM_TELEMETRY else s

/-! ### Rill gating (R219, R288) -/

/-- The direction of a rill: `RL_8`'s is the one it stands in. -/
def rillInbound (s : State) (r : Nat) : Bool := if r = 8 then (s.rill 8).inbound else decide (4 ≤ r)

/-- The number a rill counts as: `RL_8` counts as the rill it stands for. -/
def rillNumber (s : State) (r : Nat) : Nat := if r = 8 then (s.rill 8).standsFor.getD 8 else r

/-- The rills of a direction in a state. -/
def rillsIn (s : State) (inb : Bool) (st : RillState) : List Nat :=
  (List.range 9).filter (fun r => (s.rill r).state = st && rillInbound s r = inb)

/-- B of R288: bytes in the forebay in queues of the direction that are eligible under R267. -/
def eligibleBytes (s : State) (inb : Bool) : Nat :=
  ((s.jobs.filter (fun e =>
    let n := subNode s e.2.sub
    e.2.stage = .queued && nodeInbound n = inb && !(s.frame e.2.frame).spilled && (committedOk s e.2.sub || excessOk s e.2.sub) &&
      (queueHeads s n).any (fun h => decide (h.2.sub = e.2.sub ∧ h.2.cls = e.2.cls) && headEligible s n h.2))).map
    (fun e => (s.frame e.2.frame).bytes.length)).sum

/-- The lowest-numbered of a list of rills; the highest-numbered. -/
def lowestRill (s : State) (l : List Nat) : Option Nat :=
  l.foldl (fun (b : Option Nat) r => match b with
    | some x => if rillNumber s r < rillNumber s x then some r else some x
    | none => some r) none
def highestRill (s : State) (l : List Nat) : Option Nat :=
  l.foldl (fun (b : Option Nat) r => match b with
    | some x => if rillNumber s x < rillNumber s r then some r else some x
    | none => some r) none

/-- The target N of a direction (R288); all four rills while gating is not permitted. -/
def rillTarget (s : State) (inb : Bool) (beats : Nat) : Nat :=
  if s.flag R.SLU_GATE F.SLU_GATE_GATE_EN then
    min 4 (max (s.fld R.SLU_GATE F.SLU_GATE_MIN_RILLS + 1)
      ((beats + 899) / 900 + b2n (decide (1024 * s.fld R.SLU_GATE F.SLU_GATE_WAKE_KIB ≤ eligibleBytes s inb))))
  else 4

/-- A tick's gating of a direction: the state, and the ticks in a row that the target has been low. -/
def gateRills (s : State) (inb : Bool) (beats low : Nat) : State × Nat :=
  let n := rillTarget s inb beats
  let serv := rillsIn s inb .inService
  let s' := match lowestRill s (rillsIn s inb .gated) with
    | some r => if serv.length + (rillsIn s inb .waking).length < n then s.setRill r { s.rill r with state := .waking } else s
    | none => s
  if n < serv.length then
    if s.fld R.SLU_GATE F.SLU_GATE_HOLD_US ≤ low + 1 then
      match highestRill s (serv.filter (fun r => rillFrames s r = 0)) with
      | some r => (s'.setRill r { s'.rill r with state := .gated }, 0)
      | none => (s', low + 1)
    else (s', low + 1)
  else (s', 0)

/-- SLUICE_TICK: one pass of the hardware loop (R283, R284, R288). `rails` gives voltage and current of `VDD_CORE`, `VDD_SRAM` and
`VDDA_SER`, none while telemetry is lost; `hbm` is the estimate from access counts, in mW. -/
def execSluiceTick (readings : List Int) (rails : Option (List (Nat × Nat))) (hbm : Nat) (s : State) : Res :=
  let l := readings.take 24
  let s := readSensors s l
  let t := tMax s l
  let pw := (rails.map (fun r => powerOf r hbm)).getD (250 * s.fld R.SLU_BUDGET F.SLU_BUDGET_BUDGET + 1000)
  let s := (s.setFld R.SLU_MEAS F.SLU_MEAS_TMAX (unsigned 12 t)).setFld R.SLU_MEAS F.SLU_MEAS_POWER (min 1023 (pw / 250))
  let u := stepG s t (stepP s t pw s.sluice)
  let s := sluiceAlarms { s with sluice := { u with blind := rails.isNone, pMax := max u.pMax u.p, hardSeen := u.hardSeen || u.hardOn } }
  let (s, lowOut) := gateRills s false s.sluice.beatsOut s.sluice.lowOut
  let (s, lowIn) := gateRills s true s.sluice.beatsIn s.sluice.lowIn
  .next { s with sluice := { s.sluice with beatsOut := 0, beatsIn := 0, lowOut := lowOut, lowIn := lowIn } }

/-! ### The slow loop (R282, R290) -/

/-- SLOW_LOOP: every 10 ms, and after a change of SLU or port configuration, the MC converts ECL_MAX_e to refill increments, paces PKE and
scrub from the highest p seen, and checks the sensors; it does not run during an MC restart (R31, R282, R290). A change of g governs every
refill after its tick (R284), so no conversion of it shows. -/
def execSlowLoop (s : State) : Res :=
  if !s.dev.mcUp then .next s
  else
    let s := checkSensors s
    let u := s.sluice
    let duty := if u.hardSeen then 3 else if u.pMax < 16 then 0 else if u.pMax < 48 then 1 else 2
    let scrub := if u.hardSeen then 2 else if u.pMax < 16 then 0 else if u.pMax < 48 then 1 else 2
    let ecl := [0, 1, 2, 3].map (fun (e : Nat) => (e, some (s.fld (R.SLU_ECL_e e) F.SLU_ECL_e_ECL_MAX)))
    let s := (s.setFld R.SLU_STATUS F.SLU_STATUS_PKE_DUTY duty).setFld R.SLU_STATUS F.SLU_STATUS_SCRUB_X scrub
    .next { s with sluice := { u with ecl := ecl, pMax := u.p, hardSeen := u.hardOn } }

end Sys2Proof.Machine
end

