-- ==== Sys2Proof/Machine/Trunkline.lean ====
section
/-! DEFINITION. From the frame stream of a trunk to its line lanes: markers, scrambling, RS(544,514) and PAM4 (R297). -/

namespace Sys2Proof.Machine

/-! ### RS(544,514) of IEEE 802.3 Clause 119 (R297, step 4) -/

/-- Multiplication in GF(2^10), polynomial x^10 + x^3 + 1. -/
def gf10Mul (a b : BitVec 10) : BitVec 10 :=
  (List.range 10).foldl (fun (r : BitVec 10) (i : Nat) =>
    let d := if r.getLsbD 9 then (r <<< 1) ^^^ 9#10 else r <<< 1
    if a.getLsbD (9 - i) then d ^^^ b else d) 0

/-- The generator: the product of x + α^j for j from 0 to 29, without its leading 1, highest degree first. -/
def rsGenerator : List (BitVec 10) :=
  ((List.range 30).foldl (fun (g : List (BitVec 10) × BitVec 10) _ =>
    (List.zipWith (· ^^^ ·) (g.1 ++ [0]) ((0 : BitVec 10) :: g.1.map (gf10Mul g.2)), gf10Mul 2#10 g.2)) ([1#10], 1#10)).1.drop 1

/-- The 30 parity symbols of 514 message symbols. -/
def rsParity (l : List (BitVec 10)) : List (BitVec 10) :=
  l.foldl (fun (r : List (BitVec 10)) (m : BitVec 10) =>
    let f := m ^^^ r.headD 0
    List.zipWith (· ^^^ ·) (r.drop 1 ++ [0]) (rsGenerator.map (gf10Mul f))) (List.replicate 30 0)

/-- A symbol of 10 bits, the first one sent in bit 0, and back. -/
def symbolOf (l : List Bool) : BitVec 10 := BitVec.ofNat 10 (bitsNat (l.take 10))
def symbolBits (x : BitVec 10) : List Bool := (List.range 10).map x.getLsbD

/-- `n` symbols of a lane's bits. -/
def symbolsOf (n : Nat) (l : List Bool) : List (BitVec 10) := (List.range n).map (fun i => symbolOf (l.drop (10 * i)))

/-- Two lists merged by turns, the first one first. -/
def byTurns {α : Type} : List α → List α → List α
  | a :: l, b :: r => a :: b :: byTurns l r
  | l, [] => l
  | [], r => r

/-- The symbols at even positions. -/
def evens {α : Type} : List α → List α
  | [] => []
  | [a] => [a]
  | a :: _ :: r => a :: evens r

/-- The codeword of a FEC pair from 257 symbols of each lane, as the two lanes send it: even positions, odd positions. -/
def codeword (a b : List (BitVec 10)) : List (BitVec 10) × List (BitVec 10) :=
  let m := byTurns a b
  let c := m ++ rsParity m
  (evens c, evens (c.drop 1))

/-! ### PAM4 (R297, step 5) -/

/-- Bits Gray-coded onto PAM4 levels, the first bit of two the more significant one. -/
def pam4 : List Bool → List Nat
  | a :: b :: r => (match a, b with
      | false, false => 0
      | false, true => 1
      | true, true => 2
      | true, false => 3) :: pam4 r
  | _ => []

/-! ### The lanes of a trunk -/

/-- Coders for the lanes of a trunk. What their scramblers hold at first is a free value: the spec states none. -/
def newCoders (s : State) : Nat → List Coder × State
  | 0 => ([], s)
  | n + 1 =>
    let (v, s) := s.free (2 ^ 58)
    let (l, s) := newCoders s n
    ({ scr := BitVec.ofNat 58 v } :: l, s)

/-- A chunk goes to its lane (R297, steps 1 to 3): before chunk j with j ≡ 0 mod 256 W, every lane takes its marker, past the
scrambler. -/
def sendChunk (t : Nat) (x : Trunk) (chunk : List Byte) : Trunk :=
  let w := x.coders.length
  let x := if x.chunk = 0 then
      { x with mcnt := (x.mcnt + 1) % 240, coders := x.coders.zipIdx.map (fun (e : Coder × Nat) => { e.1 with bits := e.1.bits ++ bitsOfBytes (laneMarker e.2 w t x.mcnt) }) }
    else x
  let i := x.chunk % w
  let c := x.coders.getD i {}
  let (scr, l) := scramble c.scr (bitsOfBytes chunk)
  { x with coders := x.coders.set i { scr := scr, bits := c.bits ++ l }, chunk := (x.chunk + 1) % (256 * w) }

/-- The codewords that are whole in the two lanes of a FEC pair, as PAM4 levels of each, and the coders after them (R297, steps 4 and
5); `fuel` bounds their number. -/
def drainPair (a b : Coder) : Nat → (Coder × Coder) × (List Nat × List Nat)
  | 0 => ((a, b), [], [])
  | fuel + 1 =>
    if a.bits.length < 2570 ∨ b.bits.length < 2570 then ((a, b), [], [])
    else
      let c := codeword (symbolsOf 257 a.bits) (symbolsOf 257 b.bits)
      let (k, l) := drainPair { a with bits := a.bits.drop 2570 } { b with bits := b.bits.drop 2570 } fuel
      (k, pam4 (c.1.flatMap symbolBits) ++ l.1, pam4 (c.2.flatMap symbolBits) ++ l.2)

/-- The codewords of all pairs. -/
def drainLanes : List Coder → List Coder × List (List Nat)
  | a :: b :: r =>
    let ((a, b), l) := drainPair a b 128
    let (k, m) := drainLanes r
    (a :: b :: k, l.1 :: l.2 :: m)
  | l => (l, [])

/-- 16 384 bytes of the frame stream leave on the line lanes of trunk `t` (R297). -/
def sendStream (s : State) (t : Nat) (l : List Byte) : State :=
  let w := s.fld (R.CAS_CFG t) F.CAS_CFG_WIDTH
  let (k, s) := if (s.trunk t).coders.length = w then ((s.trunk t).coders, s) else newCoders s w
  let x := if (s.trunk t).coders.length = w then s.trunk t else { s.trunk t with coders := k, chunk := 0, mcnt := 0 }
  let x := (List.range 256).foldl (fun (x : Trunk) j => sendChunk t x (slice l (64 * j) 64)) x
  let (k, levels) := drainLanes x.coders
  (s.setTrunk t { x with coders := k }).emit (.trunkLanes t levels)

end Sys2Proof.Machine
end

