-- ==== Sys2Proof/Machine/Cascade.lean ====
section
/-! DEFINITION. Cascade trunks: frames, keys and epochs, maps, tributaries, alignment and the operations channel
(10_cascade_format.md, R295 to R322; R323 to R331 of 11_cascade_maintenance.md). -/

namespace Sys2Proof.Machine

/-! ### Configuration and keys (R303, R304, R320) -/

/-- TX_TAG and RX_TAG of a trunk. -/
def txTag (s : State) (t : Nat) : Nat := s.reg64 (R.CAS_TXTAG_LO t) (R.CAS_TXTAG_HI t)
def rxTagOf (s : State) (t : Nat) : Nat := s.reg64 (R.CAS_RXTAG_LO t) (R.CAS_RXTAG_HI t)

/-- The master handle of a trunk, and its key if it is held and its destination is Cascade (R303, R367). -/
def masterHandle (s : State) (t : Nat) : Nat := (s.reg (R.CAS_MASTER t)).toNat
def masterKey (s : State) (t : Nat) : Option (List Byte) :=
  match s.ownerKey (masterHandle s t) with
  | some k => if bit k.dest 2 then some k.material else none
  | none => none

/-- The key of an epoch for a sender's tag (R303). -/
def epochKey (master : List Byte) (tag epoch : Nat) : List Byte :=
  kdf master (ascii "MELSAR CASCADE EPOCH") (be 8 tag ++ be 4 epoch) 32

/-- Is the trunk in use, by an Active device that is not isolated (R35, R416)? -/
def trunkLive (s : State) (t : Nat) : Bool := s.flag (R.CAS_CFG t) F.CAS_CFG_ENABLE && s.dev.state = .active && decide (s.tmp.inForce < 3)

/-- Byte `k` of map `m` (R308). -/
def mapByte (s : State) (t m k : Nat) : Nat :=
  if 254 ≤ k then 255 else beAt (wordBytes (s.reg (if m = 0 then R.CAS_MAP_0_w t (k / 4) else R.CAS_MAP_1_w t (k / 4)))) (k % 4) 1

/-- The basins of a tributary in a map, rising (R308). -/
def basinsOf (s : State) (t m i : Nat) : List Nat := (List.range 254).filter (fun k => mapByte s t m k = i)

/-- FIXED of a transparent tributary (R313, R320). -/
def fixedOf (s : State) (t i : Nat) : Nat := s.fld (R.CAS_TRIB_t_1 t i) F.CAS_TRIB_t_1_FIXED

/-! ### Epochs (R304, R306) -/

/-- An epoch is asked for: the one above GEN_HIGH of (MASTER, TX_TAG); the partner is told (R304, R437). -/
def askEpoch (s : State) (t : Nat) : Option State :=
  let e := s.genHighOf (masterHandle s t) (txTag s t) + 1
  if 0xFFFFFFFF < e then none
  else
    let s := s.setTrunk t { s.trunk t with asked := some e, recPos := s.nextPos, journaled := false, retryDue := false }
    some (mirror s (be 1 5 ++ be 1 t ++ be 2 0 ++ be 4 e))

/-- GEN_HIGH is at its end: the trunk keeps its epoch (R304). -/
def epochExhausted (s : State) (t : Nat) : State := s.alarm (R.CAS_ALARM t) F.CAS_ALARM_EPOCH_EXHAUST

/-- A trunk starts (R304): alignment from HUNT, FC 0, the transmit map of TX_MAP_SEL, and an epoch asked for. Its
performance data stays, and the bins of now are disturbed (R335). -/
def startTrunk (s : State) (t : Nat) : State :=
  let x := s.trunk t
  let mark (l : List Bin) : List Bin := l.map (fun (b : Bin) => { b with disturbed := true })
  let y : Trunk := { txMap := s.fld (R.CAS_CFG t) F.CAS_CFG_TX_MAP_SEL, feEf := x.feEf, ef := x.ef, uncorr := x.uncorr, anyDef := true, severe := true, second := (s.localNow (timeIsland s (64 + t)) (s.fld (R.CAS_PM_CFG t) F.CAS_PM_CFG_PM_TB)).sec, held := x.held, unavail := x.unavail, bins := mark (x.bins.take 1) ++ x.bins.drop 1, days := mark (x.days.take 1) ++ x.days.drop 1, frozen := x.frozen, coders := x.coders, chunk := x.chunk, mcnt := x.mcnt }
  let s := s.setTrunk t y
  let s := trunkLanes s t true
  (askEpoch s t).getD (epochExhausted s t)

/-- A switch is requested (R306): none while one runs, for a trunk that is not enabled, or when epochs are exhausted. -/
def epochSwitch (s : State) (t : Nat) : State × Status :=
  let x := s.trunk t
  if !s.flag (R.CAS_CFG t) F.CAS_CFG_ENABLE then (s, .denied)
  else if x.asked.isSome ∨ x.nextEpoch ≠ 0 then (s, .busy)
  else match askEpoch s t with
    | some u => (u, .ok)
    | none => (epochExhausted s t, .exhausted)

/-- A CAS_CMD: its status in CAS_CMDST; commands are accepted at once, so BUSY always reads 0 (R321). -/
def casCommand (t : Nat) (k : State → State × Status) (s : State) : Res :=
  .next (s.access (R.CAS_CMD t) (fun s =>
    let (u, st) := k s
    u.setFld (R.CAS_CMDST t) F.CAS_CMDST_STATUS st.code))

/-- EPOCH_SWITCH (R306, R321). -/
def execEpochSwitch (t : Nat) (s : State) : Res := casCommand (t % 4) (fun s => epochSwitch s (t % 4)) s

/-- EPOCH_PERIOD_EXPIRY: the EPOCH_PERIOD_S timer starts a switch unless one runs (R306). -/
def execEpochPeriodExpiry (t : Nat) (s : State) : Res :=
  if s.reg (R.CAS_EPER (t % 4)) = 0 then .next s else .next (epochSwitch s (t % 4)).1

/-- EPOCH_CONFIRMED: the journal record of the epoch asked for, and a READY partner's JOURNALED, are confirmed: the trunk
sends under it from FC 0, or announces it (R304, R306). A standby tells its partner JOURNALED (R439). A failed write is
tried again after 1 s. Epochs are deferred while the partner is LOST (R427). -/
def execEpochConfirmed (t : Nat) (journalOk : Bool) (s : State) : Res :=
  let x := s.trunk t
  match x.asked with
  | none => .next s
  | some e =>
    if !s.dev.mcUp ∨ s.pair.partner = .lost ∨ (s.pair.partner = .ready ∧ !x.journaled) then .next s
    else if !journalOk then .next (journalFault ((s.alarm (R.CAS_ALARM t) F.CAS_ALARM_JOURNAL).setTrunk t { x with asked := none, retryDue := true }))
    else
      let (n, s) := s.free 65536
      let s := journalGen s n (masterHandle s t) (txTag s t) e
      if s.pair.partner = .active then
        .next (becomeReady (sendRec (s.setTrunk t { x with asked := none }) (be 1 0xC ++ be 3 0 ++ be 4 x.recPos)))
      else match masterKey s t with
        | none => .next (s.setTrunk t { x with asked := none })
        | some k =>
          if x.running then .next (s.setTrunk t { x with asked := none, nextEpoch := e, countdown := 17 })
          else .next (s.setTrunk t { x with asked := none, running := true, txEpoch := e, txKey := epochKey k (txTag s t) e, txFc := 0 })

/-- EPOCH_JOURNAL_RETRY: 1 s after a failed write the epoch is asked for again (R304). -/
def execEpochJournalRetry (t : Nat) (s : State) : Res :=
  if (s.trunk t).retryDue then .next ((askEpoch s t).getD (epochExhausted (s.setTrunk t { s.trunk t with retryDue := false }) t)) else .next s

/-! ### Map switch and realignment (R309, R317, R321) -/

/-- MAP_SWITCH (R309): BUSY while one runs. -/
def execMapSwitch (t : Nat) (s : State) : Res :=
  let t := t % 4
  casCommand t (fun s =>
    if !s.flag (R.CAS_CFG t) F.CAS_CFG_ENABLE then (s, .denied)
    else if (s.trunk t).mapPend ≠ 0 then (s, .busy)
    else (s.setTrunk t { s.trunk t with mapPend := 1 }, .ok)) s

/-- REALIGN: frame alignment returns to HUNT (R317). -/
def execRealign (t : Nat) (s : State) : Res :=
  let t := t % 4
  casCommand t (fun s =>
    if !s.flag (R.CAS_CFG t) F.CAS_CFG_ENABLE then (s, .denied)
    else (updateDefects (s.setTrunk t (loseAlignment (s.trunk t))) t, .ok)) s

/-! ### Sending (R300 to R305, R310, R313, R314, R329 to R331) -/

/-- The bytes of bits, most significant first. -/
def bytesOfBits : Nat → List Bool → List Byte
  | 0, _ => []
  | n + 1, l => BitVec.ofNat 8 ((l.take 8).foldl (fun (v : Nat) b => 2 * v + b2n b) 0 * 2 ^ (8 - (l.take 8).length)) :: bytesOfBits n (l.drop 8)

/-- A delimiter (R310). -/
def delimiter (length : Nat) (errored : Bool) : List Byte :=
  let h := be 2 length ++ be 1 (128 * b2n errored) ++ be 3 0
  h ++ be 2 (crc16 h).toNat

/-- The next `n` bytes of a frame-mapped tributary's stream, with idle delimiters where nothing waits, and what is left
(R310). -/
def tribShare (x : Trib) (n : Nat) : List Byte × Trib :=
  let ahead := x.idle ++ x.buffer
  if n ≤ ahead.length then
    (ahead.take n, { x with idle := x.idle.drop n, buffer := x.buffer.drop (n - x.idle.length) })
  else
    let k := (n - ahead.length + 7) / 8
    let fill := (List.replicate k (delimiter 0 false)).flatten
    (ahead ++ fill.take (n - ahead.length), { x with idle := fill.drop (n - ahead.length), buffer := [] })

/-- Is the client port of a tributary up (R329)? A frame-mapped one's port sends local fault while the trunk fails it. -/
def clientUp (s : State) (t i : Nat) : Bool := portUp s (s.fld (R.CAS_TRIB_t_0 t i) F.CAS_TRIB_t_0_CLIENT)

/-- The `n` bits of a transparent tributary's share (R313): fixed stuff, J stuff bits, data. -/
def clearShare (fixed j n : Nat) (data : List Bool) : List Bool :=
  let l := List.replicate (fixed + j) false ++ data
  (l ++ List.replicate (n - l.length) false).take n

/-- The local-fault block of R328, 66 bits as they are sent: sync header 10, block type 0x4B, and 56 bits that begin with O code 0. -/
def faultBlock : List Bool := [true, false] ++ bitsOfBytes (be 1 0x4B ++ be 7 0x00000001000000)

/-- Marker blocks, and the blocks of their period, in the stream of a client speed (R89, IEEE 802.3 Clauses 82 and 119). -/
def markersOf (speed : Nat) : Nat × Nat := match speed with
  | 1 => (20, 327680) | 2 => (16, 327680) | _ => (32, 655360)

/-- `n` bits of the replacement pattern (R328) from position `pos` of a stream on, whose first block lies at block `phase` of the marker
period: the markers where they stand, local-fault blocks elsewhere. -/
def replacement (speed phase pos n : Nat) : List Bool :=
  let m := markersOf speed
  (List.range n).map (fun i =>
    let k := (66 * phase + pos + i) % (66 * m.2)
    if k < 66 * m.1 then Config.markerBit speed k else faultBlock.getD (k % 66) false)

/-- SPEED of a tributary's client port, and its stream's position moved on by `n` bits. -/
def clientSpeed (s : State) (t i : Nat) : Nat := s.fld (aPORT_CFG (s.fld (R.CAS_TRIB_t_0 t i) F.CAS_TRIB_t_0_CLIENT)) F.PORT_CFG_SPEED
def moveOn (s : State) (t i pos n : Nat) : Nat := (pos + n) % (66 * (markersOf (clientSpeed s t i)).2)

/-- What the client of a transparent tributary brings for a frame: J and its data bits; the pattern at J = 128 while the
client port is not up (R314, R329). -/
def clientBits (s : State) (t i bits : Nat) (clients : List (Nat × Nat × List Bool)) : Nat × List Bool :=
  if clientUp s t i then
    match clients.find? (fun c => c.1 = i) with
    | some c => (c.2.1 % 256, c.2.2)
    | none => (128, [])
  else (128, replacement (clientSpeed s t i) (Config.markerPhase false t i) (kget {} (s.trunk t).tribs i).bitsSent (bits - fixedOf s t i - 128))

/-- One tributary's share put into its basins. -/
def laySharesStep (s : State) (t m : Nat) (clients : List (Nat × Nat × List Bool)) (acc : List Byte × State × List (Nat × Nat)) (i : Nat) :
    List Byte × State × List (Nat × Nat) :=
  let (plain, u, js) := acc
  let b := basinsOf s t m i
  let n := 64 * b.length
  let lay (share : List Byte) : List Byte := b.zipIdx.foldl (fun (p : List Byte) (e : Nat × Nat) => overlay p (64 * e.1) (slice share (64 * e.2) 64)) plain
  if transparent s t i then
    let (j, data) := clientBits s t i (8 * n) clients
    let x := u.trunk t
    let y := kget {} x.tribs i
    (lay (bytesOfBits n (clearShare (fixedOf s t i) j (8 * n) data)),
      u.setTrunk t { x with tribs := kset {} x.tribs i { y with bitsSent := moveOn s t i y.bitsSent (8 * n - fixedOf s t i - j) } },
      (s.fld (R.CAS_TRIB_t_0 t i) F.CAS_TRIB_t_0_JSLOT, j) :: js)
  else
    let x := u.trunk t
    let (share, y) := tribShare (kget {} x.tribs i) n
    (lay share, u.setTrunk t { x with tribs := kset {} x.tribs i y }, js)

/-- The fragment of OPS in a frame, and the trunk after it (R330, R331). -/
def opsFragment (x : Trunk) : List Byte × Trunk :=
  if x.opsOut = [] then (List.replicate 32 0, x)
  else
    let d := x.opsOut.take 28
    let rest := x.opsOut.drop 28
    (be 1 (128 * b2n (!x.opsBegun) + 64 * b2n (decide (rest = [])) + d.length) ++ be 1 (x.opsSeq % 256) ++ be 2 0 ++ slice d 0 28,
      { x with opsOut := rest, opsSeq := (x.opsSeq + 1) % 256, opsBegun := decide (rest ≠ []) })

/-- What a multiframe boundary does to a sender (R306, R309): the announcement counts down, the new epoch and the new map
take over. -/
def txBoundary (s : State) (t : Nat) (x : Trunk) : Trunk :=
  let x := if x.nextEpoch = 0 then x
    else if 1 < x.countdown then { x with countdown := x.countdown - 1 }
    else { x with txEpoch := x.nextEpoch, txKey := (match masterKey s t with
        | some k => epochKey k (txTag s t) x.nextEpoch
        | none => []), nextEpoch := 0, countdown := 0 }
  if x.mapPend = 1 then { x with mapPend := 2 }
  else if x.mapPend = 2 then { x with txMap := 1 - x.txMap, mapPend := 0 }
  else x

/-- The frame alignment word (R301). -/
def faw : List Byte := be 8 0xF6F6F6282828C3A5

/-- TRIB_FAIL (R329). -/
def tribFailMask (s : State) (t : Nat) : Nat := ((tribsOf s t).map (fun i => if clientUp s t i then 0 else 2 ^ i)).sum

/-- RDI and RDI_EPOCH that a reported defect sends (R327). -/
def indOf (s : State) (t : Nat) : Nat :=
  let d := s.fld (R.CAS_DEF t) F.CAS_DEF_DEF
  if d = 0 then 0 else if bit d 5 then 192 else 128

/-- JC: the J of slot s three times (R314). -/
def jcBytes (js : List (Nat × Nat)) : List Byte :=
  (List.range 8).flatMap (fun (i : Nat) => List.replicate 3 (BitVec.ofNat 8 (((js.find? (fun e => e.1 = i)).map Prod.snd).getD 0)))

/-- The next Cascade frame of trunk `t` (R300 to R305, R329, R330). `clients`: J and the data bits that each transparent tributary
brings. -/
def nextFrame (t : Nat) (clients : List (Nat × Nat × List Bool)) (s : State) : List Byte × State :=
  let x := s.trunk t
  let x := if x.txFc % 256 = 0 then txBoundary s t x else x
  let (ops, x) := opsFragment x
  let s := s.setTrunk t x
  let (plain, s, js) := (tribsOf s t).foldl (laySharesStep s t x.txMap clients) (List.replicate 16256 (0 : Byte), s, [])
  let x := s.trunk t
  let mapNext := if x.mapPend = 2 then 1 - x.txMap else x.txMap
  let ep := if x.nextEpoch ≠ 0 ∧ x.countdown ≤ 16 then x.nextEpoch else x.txEpoch
  let cd := if x.countdown ≤ 16 then x.countdown else 0
  let head := faw ++ be 8 x.txFc ++ be 4 x.txEpoch ++ be 4 ep ++ be 1 cd ++ be 1 (128 * x.txMap + 64 * mapNext) ++ be 1 (indOf s t) ++
    be 1 (min 255 x.rei) ++ be 4 (tribFailMask s t) ++ jcBytes js ++ be 8 0 ++ ops ++ be 8 (txTag s t) ++ be 8 0
  let iv := be 4 x.txEpoch ++ be 8 x.txFc
  let ct := gcmCrypt x.txKey iv plain
  let s := s.setTrunk t { x with txFc := x.txFc + 1, rei := 0 }
  let s := if x.opsOut = [] then s.setFld (R.CAS_OPS_STATUS t) F.CAS_OPS_STATUS_TX_BUSY 0 else s
  (head ++ gcmTagOf x.txKey iv head ct ++ ct, s.useFree.count (.cas t 9))

/-- Do the lanes of trunk `t` send the stream: where its transmitters send frames or Cascade fill (R35)? -/
def trunkSends (s : State) (t : Nat) : Bool :=
  s.flag (R.CAS_CFG t) F.CAS_CFG_ENABLE && (portTx s (64 + t) = .framesAndIdles || portTx s (64 + t) = .cascadeFill)

/-- CASCADE_FRAME_SEND: one frame period of trunk `t` leaves on its lanes (R297): the next frame, or, before the first epoch is confirmed
and in every state but Active, the fill of zero chunks between the markers (R35, R304, R447). -/
def execCascadeFrameSend (t : Nat) (clients : List (Nat × Nat × List Bool)) (s : State) : Res :=
  if !trunkSends s t then .next s
  else if trunkLive s t ∧ (s.trunk t).running then
    let (frame, s) := nextFrame t clients s
    .next (sendStream (s.emit (.cascade t frame)) t frame)
  else .next (sendStream s t (List.replicate 16384 0))

/-- OPS_SEND: CAS_OPS_CTRL.SEND with a LEN (R331, R339). -/
def execOpsSend (t len : Nat) (s : State) : Res :=
  let t := t % 4
  .next (s.access (R.CAS_OPS_CTRL t) (fun s =>
    let a := R.CAS_OPS_STATUS t
    let st (u : State) (x : Status) : State := u.setFld a F.CAS_OPS_STATUS_STATUS x.code
    if s.flag a F.CAS_OPS_STATUS_TX_BUSY then st s .busy
    else
      let s := s.setFld (R.CAS_OPS_CTRL t) F.CAS_OPS_CTRL_LEN len
      let n := s.fld (R.CAS_OPS_CTRL t) F.CAS_OPS_CTRL_LEN
      if !s.flag (R.CAS_CFG t) F.CAS_CFG_ENABLE then st s .denied
      else if n = 0 ∨ 4096 < n then st s .invalid
      else
        let m := (s.winBytes (R.CAS_OPS_TXBUF t 0) ((n + 3) / 4)).take n
        (st (s.setTrunk t { s.trunk t with opsOut := m, opsBegun := false }) .ok).setFld a F.CAS_OPS_STATUS_TX_BUSY 1))

/-! ### Delineation (R312) -/

/-- The LENGTH and ERRORED of a valid delimiter at the head of a stream. -/
def delimOf (l : List Byte) : Option (Nat × Bool) :=
  let n := beAt l 0 2
  if beAt l 6 2 = (crc16 (slice l 0 6)).toNat ∧ (n = 0 ∨ 64 ≤ n ∧ n ≤ 16000) then some (n, bit (beAt l 2 1) 7) else none

/-- Delineation over the bytes at hand, with the frames it delivers, newest first; `fuel` bounds its steps. -/
def delineate (d : Delin) (l : List Byte) (out : List (List Byte × Bool)) : Nat → Delin × List Byte × List (List Byte × Bool)
  | 0 => (d, l, out)
  | fuel + 1 =>
    if l.length < 8 then (d, l, out)
    else match delimOf l, d with
      | none, _ => delineate .hunt (l.drop 1) out fuel
      | some _, .hunt => delineate .presync l out fuel
      | some (n, _), .presync =>
        if l.length < 16 + n then (.presync, l, out)
        else if (delimOf (l.drop (8 + n))).isSome then delineate .sync (l.drop (8 + n)) out fuel
        else delineate .hunt (l.drop 1) out fuel
      | some (n, e), .sync =>
        if l.length < 8 + n then (.sync, l, out)
        else delineate .sync (l.drop (8 + n)) (if n = 0 then out else (slice l 8 n, e) :: out) fuel

/-- A frame of a tributary goes to the forebay as a frame of the trunk, without timestamps (R347), or is dropped for want of a cell (R27, R276). -/
def deliverTrib (s : State) (t i : Nat) (b : List Byte) : State :=
  let p := nodePort s (64 + t)
  let s := s.count (.cas t (32 + 4 * i))
  if cellCapacity s (ownerOf s (64 + t)) < cellsUsed s (ownerOf s (64 + t)) + (b.length + 255) / 256 then s.count (.port p 11)
  else { s.setFrame s.nextFrame { ingress := 64 + t, trib := i, bytes := b, complete := true } with nextFrame := s.nextFrame + 1 }

/-- A frame-mapped tributary's share of an accepted frame (R312, R325). -/
def receiveFramed (s : State) (t i : Nat) (share : List Byte) : State :=
  let x := s.trunk t
  let y := kget {} x.tribs i
  let l := y.rest ++ share
  let (d, rest, out) := delineate y.delin l [] (2 * l.length + 2)
  let n := if d = .sync then 0 else y.outOfSync + 1
  let s := s.setTrunk t { x with tribs := kset {} x.tribs i { y with delin := d, rest := rest, outOfSync := n, lod := decide (8 ≤ n) } }
  out.reverse.foldl (fun u (e : List Byte × Bool) => if e.2 then u.count (.cas t (32 + 4 * i + 1)) else deliverTrib u t i e.1) s

/-! ### Transparent tributaries (R313 to R316) -/

/-- J by majority of three copies (R315); none when all differ. -/
def voteJ (a b c : Nat) : Option Nat := if a = b ∨ a = c then some a else if b = c then some b else none

/-- A transparent tributary's share of a frame of `bits` bits (R313, R315, R316): its data bits, or as many bits of the
replacement pattern. -/
def receiveClear (s : State) (t i : Nat) (jc : List Byte) (share : Option (List Byte)) (bits : Nat) : State :=
  let x := s.trunk t
  let y := kget {} x.tribs i
  let slot := s.fld (R.CAS_TRIB_t_0 t i) F.CAS_TRIB_t_0_JSLOT
  let vote := voteJ (beAt jc (3 * slot) 1) (beAt jc (3 * slot + 1) 1) (beAt jc (3 * slot + 2) 1)
  let j := vote.getD y.lastJ
  let n := bits - fixedOf s t i - j
  let s := if vote.isNone then (s.alarm (R.CAS_ALARM t) F.CAS_ALARM_JC_VOTE).count (.cas t 7) else s
  let s := s.setTrunk t { x with tribs := kset {} x.tribs i { y with lastJ := j, bitsGot := moveOn s t i y.bitsGot n } }
  match share, vote with
  | some b, some _ =>
    (s.emit (.tributary t i ((bitsOfBytes b).drop (fixedOf s t i + j)))).countN (.cas t (32 + 4 * i)) ((y.bitsGot % 66 + n) / 66)
  | _, _ =>
    (s.emit (.pattern t i (replacement (clientSpeed s t i) (Config.markerPhase true t i) y.bitsGot n))).count (.cas t (32 + 4 * i + 3))

/-! ### Receiving: kinds of frames (R307, R323) -/

/-- What a delineated frame is (R307, R323). -/
inductive CasKind where
  | accepted | tagFail | replay | stale | keyWait
  deriving DecidableEq, Repr

/-- The receiver's epoch floor (R323). -/
def epochFloor (s : State) (t : Nat) : Nat :=
  if (s.trunk t).rxAny then (s.trunk t).rxEpoch else s.genHighOf (masterHandle s t) (rxTagOf s t)

/-- The key of an epoch that the receiver holds. -/
def heldKey (x : Trunk) (e : Nat) : Option (List Byte) := (x.rxKeys.find? (fun k => k.1 = e)).map Prod.snd

/-- Derivation of an epoch's key begins, unless the key is held, another is being derived, or MASTER is not there (R307). -/
def wantKey (s : State) (t e : Nat) : State :=
  let x := s.trunk t
  if (heldKey x e).isSome ∨ x.pendingKey.isSome ∨ (masterKey s t).isNone then s else s.setTrunk t { x with pendingKey := some e }

/-- The judgement of a frame (R307, R323), with the plaintext of its basins. -/
def judge (s : State) (t : Nat) (f : List Byte) : CasKind × List Byte :=
  let x := s.trunk t
  let fc := beAt f 8 8
  let e := beAt f 16 4
  if e < epochFloor s t then (.stale, [])
  else match heldKey x e with
    | none => (if (masterKey s t).isNone then .stale else .keyWait, [])
    | some k =>
      let iv := be 4 e ++ be 8 fc
      let ct := slice f 128 16256
      if gcmTagOf k iv (slice f 0 112) ct ≠ slice f 112 16 then (.tagFail, [])
      else if x.rxAny ∧ !(decide (x.rxEpoch < e) || (decide (x.rxEpoch = e) && decide (x.rxFc < fc))) then (.replay, [])
      else (.accepted, gcmCrypt k iv ct)

/-- EPOCH_KEY_DERIVED: the key of a higher epoch is held (R307). -/
def execEpochKeyDerived (t : Nat) (s : State) : Res :=
  let x := s.trunk t
  match x.pendingKey, masterKey s t with
  | some e, some k => .next (s.setTrunk t { x with pendingKey := none, rxKeys := (e, epochKey k (rxTagOf s t) e) :: x.rxKeys })
  | _, _ => .next (s.setTrunk t { x with pendingKey := none })

/-! ### Receiving: alignment, order, maps, indications (R307, R309, R317, R318, R326) -/

/-- Bits in which a frame's FAW differs (R317). -/
def fawErrors (f : List Byte) : Nat :=
  ((bitsOfBytes (slice f 0 8)).zip (bitsOfBytes faw)).countP (fun (e : Bool × Bool) => e.1 != e.2)

/-- Multiframe alignment (R318). -/
def stepMf (x : Trunk) (mfc : Nat) : Trunk :=
  match x.mfLast with
  | none => { x with mfLast := some mfc }
  | some e =>
    let want := (e + 1) % 256
    if x.mfSync then
      if mfc = want then { x with mfLast := some want, mfWrong := 0 }
      else if 5 ≤ x.mfWrong + 1 then { x with mfSync := false, mfLast := some mfc, mfWrong := 0, lom := x.lom || decide (x.fa = 3) }
      else { x with mfLast := some want, mfWrong := x.mfWrong + 1 }
    else if mfc = want then
      if 1 ≤ x.mfWrong then { x with mfSync := true, mfLast := some mfc, mfWrong := 0, lom := false } else { x with mfLast := some mfc, mfWrong := 1 }
    else { x with mfLast := some mfc, mfWrong := 0 }

/-- The last accepted pair, keys of older epochs retired, a new epoch journaled, the marks to the partner (R307, R441). -/
def acceptPair (s : State) (t e fc : Nat) : State :=
  let x := s.trunk t
  let new := !x.rxAny || decide (x.rxEpoch < e)
  let mark := new || decide (x.fcMark + 2 ^ 15 ≤ fc)
  let s := s.setTrunk t { x with rxAny := true, rxEpoch := e, rxFc := fc, rxKeys := x.rxKeys.filter (fun k => decide (e ≤ k.1)), fcMark := if mark then fc else x.fcMark }
  let s := if new ∧ s.genHighOf (masterHandle s t) (rxTagOf s t) < e then
      let (n, s) := s.free 65536
      journalGen s n (masterHandle s t) (rxTagOf s t) e
    else s
  if mark then mirror s (be 1 6 ++ be 1 t ++ be 2 0 ++ be 4 e ++ be 8 fc) else s

/-- MAP_SEL and MAP_NEXT of an accepted frame (R309). -/
def acceptMap (s : State) (t mfc byte : Nat) : State :=
  let x := s.trunk t
  let sel := b2n (bit byte 7)
  let (now, last) := if mfc = 0 then (([] : List Nat), x.mapNextNow) else (x.mapNextNow, x.mapNextLast)
  let bad := x.rxAny && decide (sel ≠ x.rxMap) && (decide (mfc ≠ 0) || decide (last = []) || last.any (fun n => decide (n ≠ sel)))
  let s := s.setTrunk t { x with rxMap := sel, mapNextNow := b2n (bit byte 6) :: now, mapNextLast := last }
  if bad then (s.alarm (R.CAS_ALARM t) F.CAS_ALARM_MAP_ERR).count (.cas t 8) else s

/-- Remote indications: set and cleared after 3 accepted frames in a row (R326). -/
def acceptInd (x : Trunk) (ind : Nat) : Trunk :=
  let a := bit ind 7
  let b := bit ind 6
  let s1 := if a then x.rdiSet + 1 else 0
  let c1 := if a then 0 else x.rdiClear + 1
  let s2 := if b then x.rdiEpochSet + 1 else 0
  let c2 := if b then 0 else x.rdiEpochClear + 1
  { x with rdiSet := s1, rdiClear := c1, rdiEpochSet := s2, rdiEpochClear := c2, rdi := decide (3 ≤ s1) || (x.rdi && decide (c1 < 3)), rdiEpoch := decide (3 ≤ s2) || (x.rdiEpoch && decide (c2 < 3)) }

/-- rFAIL of each tributary (R325). -/
def acceptFail (s : State) (t mask : Nat) : State :=
  (tribsOf s t).foldl (fun (u : State) i =>
    let x := u.trunk t
    let y := kget {} x.tribs i
    let a := bit mask i
    let f := if a then y.failSet + 1 else 0
    let c := if a then 0 else y.failClear + 1
    u.setTrunk t { x with tribs := kset {} x.tribs i { y with failSet := f, failClear := c, rfail := decide (3 ≤ f) || (y.rfail && decide (c < 3)) } }) s

/-- The message in progress is discarded for a gap (R331). -/
def opsGap (s : State) (t : Nat) : State :=
  let a := R.CAS_OPS_STATUS t
  (s.setFld a F.CAS_OPS_STATUS_RX_GAP (min 255 (s.fld a F.CAS_OPS_STATUS_RX_GAP + 1))).setTrunk t { s.trunk t with opsIn := [], opsInOpen := false }

/-- A free receive buffer, 0 first. -/
def opsFree (s : State) (t : Nat) : Option Nat := [0, 1].find? (fun n => !s.flag (R.CAS_OPS_RX_n t n) F.CAS_OPS_RX_n_FULL)

/-- A message whose SOM finds both buffers full is discarded (R331). -/
def opsOverflow (s : State) (t : Nat) : State :=
  let a := R.CAS_OPS_STATUS t
  s.setFld a F.CAS_OPS_STATUS_RX_OVF (min 255 (s.fld a F.CAS_OPS_STATUS_RX_OVF + 1))

/-- A message that has ended goes to a free receive buffer (R331). -/
def opsDeliver (s : State) (t : Nat) : State :=
  match opsFree s t with
  | none => opsOverflow (s.setTrunk t { s.trunk t with opsIn := [], opsInOpen := false }) t
  | some n =>
    let m := (s.trunk t).opsIn
    let s := s.setWin (R.CAS_OPS_RXBUF_n t n 0) m ((m.length + 3) / 4)
    let s := s.setReg (R.CAS_OPS_RX_n t n) (BitVec.ofNat 32 (2 ^ 31 + m.length % 8192))
    s.setTrunk t { s.trunk t with opsIn := [], opsInOpen := false }

/-- The OPS fragment of an accepted frame (R330, R331). -/
def acceptOps (s : State) (t : Nat) (o : List Byte) : State :=
  let ctl := beAt o 0 1
  let len := min 28 (ctl % 64)
  if len = 0 then s
  else
    let x := s.trunk t
    let q := beAt o 1 1
    let som := bit ctl 7
    let gap := decide (x.opsInSeq < 256) && decide (q ≠ (x.opsInSeq + 1) % 256)
    let s := if x.opsInOpen && (gap || som) then opsGap s t else s
    let s := s.setTrunk t { s.trunk t with opsInSeq := q }
    let s := if som then
        (if (opsFree s t).isNone then opsOverflow s t else s.setTrunk t { s.trunk t with opsInOpen := true, opsIn := [] })
      else s
    if (s.trunk t).opsInOpen then
      let s := s.setTrunk t { s.trunk t with opsIn := ((s.trunk t).opsIn ++ slice o 4 len).take 4096 }
      if bit ctl 6 then opsDeliver s t else s
    else s

/-- The basins of an accepted frame delivered by the map of its MAP_SEL (R309, R312, R315); a failed transparent tributary's client gets
the replacement pattern in place of them (R327). -/
def deliver (s : State) (t : Nat) (f plain : List Byte) : State :=
  let m := b2n (bit (beAt f 25 1) 7)
  (tribsOf s t).foldl (fun (u : State) i =>
    let b := basinsOf u t m i
    let share := b.flatMap (fun k => slice plain (64 * k) 64)
    if transparent u t i then receiveClear u t i (slice f 32 24) (if tribFailed u t i then none else some share) (512 * b.length) else receiveFramed u t i share) s

/-- The basins of a frame that is not accepted (R312, R316). -/
def discard (s : State) (t : Nat) (f : List Byte) : State :=
  (tribsOf s t).foldl (fun (u : State) i =>
    if transparent u t i then receiveClear u t i (slice f 32 24) none (512 * (basinsOf u t (u.trunk t).rxMap i).length)
    else
      let x := u.trunk t
      u.setTrunk t { x with tribs := kset {} x.tribs i { kget {} x.tribs i with delin := .hunt, rest := [] } }) s

/-- Counts of dAUTH and dEPOCH (R324). -/
def defectCounts (x : Trunk) (k : CasKind) : Trunk :=
  match k with
  | .keyWait => x
  | .accepted =>
    let n := x.accepted + 1
    { x with refused := 0, tagAmong := false, accepted := n, auth := x.auth && decide (n < 8), epochDef := x.epochDef && decide (n < 8) }
  | _ =>
    let tag := x.tagAmong || decide (k ≠ .stale)
    let n := x.refused + 1
    { x with refused := n, tagAmong := tag, accepted := 0, auth := x.auth || (decide (8 ≤ n) && tag), epochDef := x.epochDef || (decide (8 ≤ n) && !tag) }

/-- The counter of a frame's kind (R477). -/
def CasKind.counter : CasKind → Nat
  | .accepted => 0 | .tagFail => 1 | .replay => 2 | .stale => 3 | .keyWait => 4

/-- Frame alignment after a judged frame in CONFIRM or ALIGNED (R317). -/
def stepAlign (s : State) (t : Nat) (k : CasKind) (errors : Nat) : State :=
  let x := s.trunk t
  if x.fa = 2 then
    match k with
    | .keyWait => s
    | .accepted => s.setTrunk t (if 1 ≤ x.faCount then { x with fa := 3, faCount := 0 } else { x with faCount := 1 })
    | _ => (s.setFld (R.CAS_ALIGN t) F.CAS_ALIGN_CAND_FAIL (min 0xFFFF (s.fld (R.CAS_ALIGN t) F.CAS_ALIGN_CAND_FAIL + 1))).setTrunk t (loseAlignment x)
  else if 3 < errors then
    (if 5 ≤ x.faCount + 1 then s.setTrunk t (loseAlignment x) else s.setTrunk t { x with faCount := x.faCount + 1 })
  else s.setTrunk t { x with faCount := 0 }

/-- A frame that the receiver has delineated, in CONFIRM or ALIGNED (R307, R316, R323 to R329). -/
def receiveJudged (s : State) (t : Nat) (f : List Byte) (errored : Bool) : State :=
  let (k, plain) := judge s t f
  let aligned := decide ((s.trunk t).fa = 3)
  let s := s.count (.cas t k.counter)
  let s := if k = .replay then s.alarm (R.CAS_ALARM t) F.CAS_ALARM_REPLAY else s
  let s := if k = .keyWait then wantKey s t (beAt f 16 4) else s
  let x := defectCounts (s.trunk t) k
  let x := if k = .accepted then x else { x with rei := x.rei + 1 }
  let x := if k ≠ .accepted ∨ errored then { x with ef := x.ef + 1 } else x
  let s := s.setTrunk t (stepMf x (beAt f 15 1))
  let s := if k = .accepted then
      let s := acceptMap s t (beAt f 15 1) (beAt f 25 1)
      let s := acceptPair s t (beAt f 16 4) (beAt f 8 8)
      let s := if beAt f 16 4 < beAt f 20 4 then wantKey s t (beAt f 20 4) else s
      let s := s.setTrunk t { acceptInd (s.trunk t) (beAt f 26 1) with feEf := ((s.trunk t).feEf + beAt f 27 1) % 2 ^ 64 }
      let s := acceptOps (acceptFail s t (beAt f 28 4)) t (slice f 64 32)
      if aligned then deliver s t f plain else s
    else if aligned then discard s t f else s
  stepAlign s t k (fawErrors f)

/-- CASCADE_FRAME_RECEIVE: 16 384 bytes of the reassembled stream of trunk `t` at the position that alignment looks at
(R317). `errored`: a chunk is marked errored (R299); `uncorr` and `corr`: FEC codewords found in them. -/
def execCascadeFrameReceive (t : Nat) (frame : List Byte) (errored : Bool) (uncorr corr : Nat) (s : State) : Res :=
  let x := s.trunk t
  if !trunkLive s t ∨ !x.deskewed then .next s
  else
    let f := slice frame 0 16384
    let s := (s.countN (.cas t 5) uncorr).countN (.cas t 6) corr
    let s := if uncorr = 0 then s else s.setTrunk t { x with uncorr := true }
    let x := s.trunk t
    let exact := decide (fawErrors f = 0)
    let s := match x.fa with
      | 0 => if exact then s.setTrunk t { x with fa := 1, faCount := 1 } else s
      | 1 =>
        if exact then s.setTrunk t (if 3 ≤ x.faCount + 1 then { x with fa := 2, faCount := 0 } else { x with faCount := x.faCount + 1 })
        else s.setTrunk t (loseAlignment x)
      | _ => receiveJudged s t f errored
    .next (updateDefects s t)

end Sys2Proof.Machine
end

