-- ==== Sys2Proof/Machine/CascadeMaint.lean ====
section
/-! DEFINITION. Cascade trunks: slips and performance monitoring (11_cascade_maintenance.md, R325, R333 to R338). -/

namespace Sys2Proof.Machine

/-! ### Slips (R325) -/

/-- dSLIP of a tributary set or cleared. -/
def setSlip (s : State) (t i : Nat) (b : Bool) : State :=
  let x := s.trunk t
  updateDefects (s.setTrunk t { x with tribs := kset {} x.tribs i { kget {} x.tribs i with slip := b } }) t

/-- TRIB_BUFFER_SLIP: the output buffer of a transparent tributary empties or overflows (R325). -/
def execTribBufferSlip (t i : Nat) (s : State) : Res :=
  if trunkLive s t ∧ i ∈ tribsOf s t ∧ transparent s t i then .next (setSlip (s.count (.cas t (32 + 4 * i + 2))) t i true) else .next s

/-- DSLIP_CLEAR: 10 ms have passed without a further slip (R325). -/
def execDslipClear (t i : Nat) (s : State) : Res := .next (setSlip s (t % 4) (i % 32) false)

/-! ### Seconds and bins (R333 to R335) -/

/-- The SES threshold of a trunk rate (R333). -/
def sesThreshold (s : State) (t : Nat) : Nat :=
  match s.fld (R.CAS_CFG t) F.CAS_CFG_RATE with
  | 1 => 457764 | 2 => 915528 | 3 => 1831055 | _ => 3662110

/-- A second added to the bin of its own start time among bins of `n` seconds, newest first (R335). -/
def addSecond (n : Nat) (l : List Bin) (x : HeldSec) (uas : Bool) : List Bin :=
  let start := x.start / n * n
  let add (b : Bin) : Bin := { b with es := b.es + b2n (!uas && x.es), ses := b.ses + b2n (!uas && x.ses), uas := b.uas + b2n uas, seconds := b.seconds + 1, valid := true }
  if l.any (fun b => decide (b.start = start)) then l.map (fun b => if b.start = start then add b else b)
  else add { start := start } :: l

/-- A second committed (R334, R335): the current and 96 past 15-minute bins, the current and the previous 24 hours; the
bin after the newest one may have begun while an older one still waits for its last seconds. -/
def commitSecond (x : Trunk) (h : HeldSec) (uas : Bool) : Trunk :=
  { x with bins := (addSecond 900 x.bins h uas).take 98, days := (addSecond 86400 x.days h uas).take 3 }

/-- Availability at the end of a second (R334). -/
def judgeSecond (x : Trunk) (h : HeldSec) : Trunk :=
  if !x.unavail then
    if h.ses then
      let l := x.held ++ [h]
      if 10 ≤ l.length then { l.foldl (fun y e => commitSecond y e true) x with held := [], unavail := true } else { x with held := l }
    else
      { commitSecond (x.held.foldl (fun y e => commitSecond y e false) x) h false with held := [] }
  else if !h.ses then
    let l := x.held ++ [h]
    if 10 ≤ l.length then { l.foldl (fun y e => commitSecond y e false) x with held := [], unavail := false } else { x with held := l }
  else { commitSecond (x.held.foldl (fun y e => commitSecond y e true) x) h true with held := [] }

/-- PM_SECOND_BOUNDARY: a second of trunk `t` ends on PM_TB; the new one takes the defects present (R333, R334). -/
def execPmSecondBoundary (t : Nat) (s : State) : Res :=
  if !s.flag (R.CAS_PM_CFG t) F.CAS_PM_CFG_PM_EN ∨ !s.flag (R.CAS_CFG t) F.CAS_CFG_ENABLE then .next s
  else
    let b := s.fld (R.CAS_PM_CFG t) F.CAS_PM_CFG_PM_TB
    let x := s.trunk t
    let i := timeIsland s (64 + t)
    let now := (s.localNow i b).sec
    let s := if x.second < now then s else s.reachIn i b { sec := now + 1 }
    let ses := decide (sesThreshold s t ≤ x.ef) || x.severe
    let h : HeldSec := { start := x.second, es := decide (0 < x.ef) || x.uncorr || x.anyDef, ses := ses }
    let d := presentDefects s t
    let y := judgeSecond x h
    .next (s.setTrunk t { y with second := (s.localNow i b).sec, ef := 0, uncorr := false, anyDef := d.any id, severe := d.getD 0 false || d.getD 1 false || d.getD 2 false })

/-! ### The PM registers (R338) -/

/-- The bins that are past at a second: those whose end lies 10 s back (R335). -/
def pastBins (n now : Nat) (l : List Bin) : List Bin := l.filter (fun b => decide (b.start + n + 10 ≤ now))

/-- The current bin: the oldest one that is not past. -/
def currentBin (n now : Nat) (l : List Bin) : Bin := ((l.filter (fun b => !decide (b.start + n + 10 ≤ now))).getLast?).getD {}

/-- SUSPECT of a bin (R335): a past bin without all its seconds; the current bin once a cause has occurred. -/
def suspect (n now : Nat) (b : Bin) : Bool := if b.start + n + 10 ≤ now then decide (b.seconds ≠ n) else b.disturbed

/-- The bin that BIN selects, and its SUSPECT (R338). -/
def selectBin (s : State) (t k : Nat) : Bin × Bool :=
  let x := s.trunk t
  let now := x.second
  if k = 0 then (currentBin 900 now x.bins, suspect 900 now (currentBin 900 now x.bins))
  else if k ≤ 96 then let b := (pastBins 900 now x.bins).getD (k - 1) {}; (b, b.valid && suspect 900 now b)
  else if k = 97 then (currentBin 86400 now x.days, suspect 86400 now (currentBin 86400 now x.days))
  else if k = 98 then let b := (pastBins 86400 now x.days).getD 0 {}; (b, b.valid && suspect 86400 now b)
  else ({}, false)

/-- The PM registers as a selection of bin `k` gives them (R338). -/
def loadPm (s : State) (t k : Nat) : State :=
  let (b, su) := selectBin s t k
  let s := ((s.setReg (R.CAS_PM_ES t) (BitVec.ofNat 32 b.es)).setReg (R.CAS_PM_SES t) (BitVec.ofNat 32 b.ses)).setReg (R.CAS_PM_UAS t) (BitVec.ofNat 32 b.uas)
  let s := (s.setReg (R.CAS_PM_START_LO t) (BitVec.ofNat 32 b.start)).setReg (R.CAS_PM_START_HI t)
    (BitVec.ofNat 32 (2 ^ 31 * b2n b.valid + 2 ^ 30 * b2n su + b.start / 2 ^ 32 % 65536))
  s.setReg (R.CAS_PM_STATE t) (BitVec.ofNat 32 (2 * (s.trunk t).held.length + b2n (s.trunk t).unavail))

/-- CAS_PM_SEL_WRITE: the bin is selected, and the PM registers keep its values until the next write (R338). -/
def execCasPmSelWrite (t : Nat) (v : Word) (s : State) : Res :=
  let t := t % 4
  .next (s.access (R.CAS_PM_SEL t) (fun s =>
    let s := s.setFld (R.CAS_PM_SEL t) F.CAS_PM_SEL_BIN v.toNat
    let s := loadPm s t (s.fld (R.CAS_PM_SEL t) F.CAS_PM_SEL_BIN)
    s.setTrunk t { s.trunk t with frozen := true }))

end Sys2Proof.Machine
end

