-- ==== Sys2Proof/Machine/HostIf.lean ====
section
/-! DEFINITION. The host interface: ring pairs, descriptors, completions and slices (17_host_and_slices.md, R453 to
R475). -/

namespace Sys2Proof.Machine

/-! ### Rings (R461, R475) -/

/-- Base of the registers of ring pair `r` of a function. -/
def ringBase (fn : Fn) (r : Nat) : Nat :=
  match fn with
  | .pf => R.TXQ_BASE_LO r
  | .vf k => R.SL_TXQ_BASE_LO k r

/-- Key of a ring pair in the state: the physical function's at 0 to 15, slice s's from 16 (s + 1). -/
def ringKey (fn : Fn) (r : Nat) : Nat :=
  match fn with
  | .pf => r
  | .vf k => 16 * (k + 1) + r

/-- Registers of a ring pair. -/
def aTxBase (fn : Fn) (r : Nat) : Nat := ringBase fn r
def aTxCfg (fn : Fn) (r : Nat) : Nat := ringBase fn r + 0x8
def aTxTail (fn : Fn) (r : Nat) : Nat := ringBase fn r + 0xC
def aTxHead (fn : Fn) (r : Nat) : Nat := ringBase fn r + 0x10
def aTxcBase (fn : Fn) (r : Nat) : Nat := ringBase fn r + 0x14
def aRxBase (fn : Fn) (r : Nat) : Nat := ringBase fn r + 0x20
def aRxCfg (fn : Fn) (r : Nat) : Nat := ringBase fn r + 0x28
def aRxTail (fn : Fn) (r : Nat) : Nat := ringBase fn r + 0x2C
def aRxHead (fn : Fn) (r : Nat) : Nat := ringBase fn r + 0x30
def aRxcBase (fn : Fn) (r : Nat) : Nat := ringBase fn r + 0x34
def aIrqCoal (fn : Fn) (r : Nat) : Nat := ringBase fn r + 0x3C

/-- Ring pairs of a function: PF_RINGS of the physical one, 16 of a slice. -/
def ringCount (s : State) (fn : Fn) : Nat :=
  match fn with
  | .pf => s.fld R.HIF_CFG F.HIF_CFG_PF_RINGS
  | .vf _ => 16

/-- Entries of a queue. -/
def entriesOf (s : State) (cfg : Nat) : Nat := 2 ^ (6 + s.fld cfg F.TXQ_CFG_SIZE)

/-- A slice. -/
def State.slice (s : State) (k : Nat) : HostSlice := kget {} s.slices k
def State.setSlice (s : State) (k : Nat) (x : HostSlice) : State := { s with slices := kset {} s.slices k x }

/-- A slice that makes no memory request (R469). -/
def silentFn (s : State) (fn : Fn) : Bool :=
  match fn with
  | .pf => false
  | .vf k => (s.slice k).silent

/-- An SL_ALARM bit set; it raises the slice's vector 16 when it was 0 (R464, R474). -/
def slAlarm (s : State) (k : Nat) (f : Fld) : State :=
  if s.flag (R.SL_ALARM k) f then s else (s.setFld (R.SL_ALARM k) f 1).interrupt (.vf k) 16

/-- An alarm and a counter of a function's slice; nothing for the physical function. -/
def slNote (s : State) (fn : Fn) (f : Fld) (j : Nat) : State :=
  match fn with
  | .pf => s
  | .vf k => slAlarm (s.count (.slice k j)) k f

/-- An event of a slice's counters. -/
def slCountN (s : State) (fn : Fn) (j n : Nat) : State :=
  match fn with
  | .pf => s
  | .vf k => s.countN (.slice k j) n

/-- A doorbell (R461, R467): `tail`, `head` and `cfg` are its registers. One that breaks the bound is ignored; one of a
slice that is not ACTIVE is dropped. -/
def doorbell (fn : Fn) (tail head cfg v : Nat) (s : State) : State :=
  s.access tail (fun s =>
    let open_ : Bool := match fn with
      | .pf => true
      | .vf k => decide ((s.slice k).state = .active)
    if open_ then
      let n := (v + 65536 - s.fld head F.TXQ_HEAD_HEAD) % 65536
      if !s.flag cfg F.TXQ_CFG_EN ∨ n ≤ entriesOf s cfg then s.setFld tail F.TXQ_TAIL_TAIL v
      else slNote s fn F.SL_ALARM_DB_BAD 9
    else slNote s fn F.SL_ALARM_DB_DROPPED 8)

/-- TXQ_DOORBELL (R461). -/
def execTxqDoorbell (fn : Fn) (r v : Nat) (s : State) : Res :=
  .next (doorbell fn (aTxTail fn r) (aTxHead fn r) (aTxCfg fn r) (v % 65536) s)

/-- RXQ_DOORBELL (R461). -/
def execRxqDoorbell (fn : Fn) (r v : Nat) (s : State) : Res :=
  .next (doorbell fn (aRxTail fn r) (aRxHead fn r) (aRxCfg fn r) (v % 65536) s)

/-! ### Interrupt coalescing and completions (R461, R464, R465) -/

/-- The vector of a ring pair. -/
def ringVector (fn : Fn) (r : Nat) : Nat :=
  match fn with
  | .pf => 8 + r
  | .vf _ => r

/-- One more completion of a ring pair is written (R465). -/
def signalRing (s : State) (fn : Fn) (r : Nat) : State :=
  let a := aIrqCoal fn r
  let x := kget {} s.rings (ringKey fn r)
  let n := x.unsignalled + 1
  let c := s.fld a F.IRQ_COAL_COUNT
  if c ≠ 0 ∧ (c ≤ n ∨ s.fld a F.IRQ_COAL_USEC = 0) then
    { s with rings := kset {} s.rings (ringKey fn r) { x with unsignalled := 0 } }.interrupt fn (ringVector fn r)
  else { s with rings := kset {} s.rings (ringKey fn r) { x with unsignalled := n } }

/-- INTERRUPT_COALESCE_EXPIRY: USEC after the first completion not signalled (R465). -/
def execInterruptCoalesceExpiry (fn : Fn) (r : Nat) (s : State) : Res :=
  let x := kget {} s.rings (ringKey fn r)
  if 0 < x.unsignalled ∧ s.fld (aIrqCoal fn r) F.IRQ_COAL_COUNT ≠ 0 then
    .next ({ s with rings := kset {} s.rings (ringKey fn r) { x with unsignalled := 0 } }.interrupt fn (ringVector fn r))
  else .next s

/-- PHASE of the completion of index `i` of a queue enabled at index `start`: 1 on the first pass (R461). -/
def phase (start i entries : Nat) : Nat := if ((i + 65536 - start) % 65536 + start % entries) / entries % 2 = 0 then 128 else 0

/-- Host address of entry `i` of a completion ring. -/
def completionAddr (s : State) (base entries i : Nat) : Nat := s.reg64 base (base + 4) + 32 * (i % entries)

/-- Host address of entry `i` of a descriptor ring with entries of `size` bytes; `cfg` is its queue's (R461 to R463, R475). -/
def descAddr (s : State) (base cfg size i : Nat) : Nat := s.reg64 base (base + 4) + size * (i % entriesOf s cfg)

/-- Time in the layout of completion bytes 16 to 28 (R462). -/
def stampBytes (t : TimeVal) : List Byte := be 6 t.sec ++ be 4 t.ns ++ be 3 t.frac

/-- The 32 bytes of a transmit completion (R462). -/
def txCompletion (x : Job) (st : Status × Nat) (ph : Nat) : List Byte :=
  let stamp := x.txTs.isSome && (x.tsCapture || x.oneStep) && st.1 = .ok
  slice x.cookie 0 4 ++ be 1 st.1.code ++ be 1 st.2 ++ be 1 (b2n stamp + 2 * b2n (stamp && x.unlocked) + 4 * b2n (x.late && st.1 = .ok) + ph) ++ be 1 0 ++
  be 8 x.pn ++ (if stamp then stampBytes (x.txTs.getD {}) else be 13 0) ++ be 3 0

/-- The queue entry of a descriptor whose fate is known. -/
def doneJob (s : State) (fn : Fn) (r i : Nat) : Option (Nat × Job) :=
  s.jobs.find? (fun e => e.2.stage = .done && e.2.host = some (fn, r, i))

/-- TX_COMPLETION_WRITE: the next completion of a transmit queue in descriptor order, once its frame's fate is known
(R461, R462); none is written for a slice that is silent (R469). -/
def execTxCompletionWrite (fn : Fn) (r : Nat) (s : State) : Res :=
  let x := kget {} s.rings (ringKey fn r)
  match doneJob s fn r x.txDone with
  | none => .next s
  | some (j, y) =>
    let st := y.fate.getD (.ok, 0)
    let s := { s.setJob j {} with rings := kset {} s.rings (ringKey fn r) { x with txDone := (x.txDone + 1) % 65536 } }
    if silentFn s fn then .next s
    else
      let n := entriesOf s (aTxCfg fn r)
      let s := s.emit (s.dmaWrite fn false (completionAddr s (aTxcBase fn r) n x.txDone) (txCompletion y st (phase x.txStart x.txDone n)))
      let s := slCountN s fn (if st.1 = .ok then 0 else 2) 1
      .next (signalRing s fn r)

/-! ### Transmit descriptors (R458, R462) -/

/-- The absolute index of an ASSOC field; none out of range (R462). -/
def descAssoc (s : State) (fn : Fn) (v : Nat) : Option Nat :=
  match fn with
  | .pf => if v < (if s.slicesOn then 12288 else 16384) then some v else none
  | .vf k => if v < 64 then some (12288 + 64 * k + v) else none

/-- Are the fields of a descriptor within R462? -/
def descOk (s : State) (fn : Fn) (d : List Byte) : Bool :=
  let len := beAt d 8 2
  let act := beAt d 10 1
  let fl := beAt d 11 1
  decide (60 ≤ len ∧ len ≤ 15996) && (act = 1 || act = 4) && !bit fl 3 && decide (fl < 64) && decide (beAt d 14 1 = 0) && decide (beAt d 26 2 = 0) &&
  (!bit fl 2 || decide (beAt d 22 4 < 1000000000)) &&
  (if act = 1 then (descAssoc s fn (beAt d 12 2)).isSome && decide (beAt d 15 1 = 0) else decide (beAt d 12 2 = 0) && decide (beAt d 15 1 < 16))

/-- May a function bypass to line port `p` (R41, R457, R462)? -/
def bypassOk (s : State) (fn : Fn) (p : Nat) : Bool :=
  bit s.bypassPermit p && (match fn with
    | .pf => true
    | .vf k => s.flag (R.HIF_SLICE_s_0 k) F.HIF_SLICE_s_0_BYPASS_OK && bit (s.fld (R.HIF_SLICE_s_0 k) F.HIF_SLICE_s_0_PORT_MASK) p)

/-- The queue entry that a descriptor makes, or the fate of the descriptor (R458, R462). A frame of the physical function whose TX_SUB
lies on a service of another node than 33 waits there, and that node selects it (DESIGN CHOICE: log entry 223). -/
def descJob (s : State) (fn : Fn) (r i : Nat) (d : List Byte) : Job ⊕ (Status × Nat) :=
  let fl := beAt d 11 1
  let x : Job := {
    stage := .classified, host := some (fn, r, i), cookie := slice d 28 4, cls := s.fld (aTxCfg fn r) F.TXQ_CFG_CLASS
    sub := (match fn with
      | .pf => s.fld R.HIF_SUB F.HIF_SUB_TX_SUB
      | .vf k => 8064 + k)
    tsCapture := bit fl 0, oneStep := bit fl 1, tsBase := fl / 16 % 4
    launch := if bit fl 2 then some (fl / 16 % 4, { sec := beAt d 16 6, ns := beAt d 22 4 }) else none }
  if !descOk s fn d then .inr (.invalid, 1)
  else if beAt d 10 1 = 1 then
    let a := (descAssoc s fn (beAt d 12 2)).getD 0
    let y := s.assoc false a
    if !y.valid then .inr (.notFound, 2)
    else .inl { x with action := if y.record.kind = 0 then 1 else 2, assoc := a, egress := 16 + y.record.port }
  else if bypassOk s fn (beAt d 15 1) then .inl { x with action := 4, egress := 16 + beAt d 15 1 }
  else .inr (.denied, 3)

/-- A descriptor that makes no frame: its completion waits for its turn. -/
def failDesc (s : State) (fn : Fn) (r i : Nat) (cookie : List Byte) (st : Status × Nat) : State :=
  { s.setJob s.nextJob { stage := .done, host := some (fn, r, i), cookie := cookie, fate := some st } with nextJob := s.nextJob + 1 }

/-- A DMA read that failed (R462, R474). -/
def dmaError (s : State) (fn : Fn) : State := slNote (s.count (.host 8)) fn F.SL_ALARM_DMA_ERR 10

/-- DESCRIPTOR_FETCH: the next descriptor of a transmit queue is fetched while the partition has room, and its frame is
read into the forebay (R458, R468). `desc` and `frame` are what the DMA reads bring; the COOKIE of a descriptor that
could not be read is a free value. -/
def execDescriptorFetch (fn : Fn) (r : Nat) (desc frame : HostRead) (s : State) : Res :=
  let i := s.fld (aTxHead fn r) F.TXQ_HEAD_HEAD
  let live := match fn with
    | .pf => true
    | .vf k => ((s.slice k).state = .active || (s.slice k).state = .fenced) && !(s.slice k).silent
  if !live ∨ ringCount s fn ≤ r ∨ !s.flag (aTxCfg fn r) F.TXQ_CFG_EN ∨ i = s.fld (aTxTail fn r) F.TXQ_TAIL_TAIL then .next s
  else
    let go (s : State) : State := (s.emit (s.dmaRead fn (descAddr s (aTxBase fn r) (aTxCfg fn r) 32 i) 32)).setFld (aTxHead fn r) F.TXQ_HEAD_HEAD (i + 1)
    match desc with
    | .error => .next (failDesc (dmaError (go s).useFree fn) fn r i (s.freeBytes 4) (.aborted, 0xA))
    | .data d =>
      match descJob s fn r i d with
      | .inr st => .next (failDesc (go s) fn r i (slice d 28 4) st)
      | .inl x =>
        let owner : Frame := { ingress := 32, trib := (match fn with
          | .pf => 0
          | .vf k => k + 1) }
        if frameCapacity s owner < frameUsed s owner + (beAt d 8 2 + 4 + 255) / 256 then .next s
        else
          let s := (go s).emit (s.dmaRead fn (beAt d 0 8) (beAt d 8 2))
          match frame with
          | .error => .next (failDesc (dmaError s fn) fn r i x.cookie (.aborted, 0xA))
          | .data b =>
            let b := withFcs (slice b 0 (beAt d 8 2))
            let s := (s.count (.host 0)).countN (.host 1) b.length
            let s := { s.setFrame s.nextFrame { owner with bytes := b, complete := true, classified := true } with nextFrame := s.nextFrame + 1 }
            .next (s.addJob { x with frame := s.nextFrame - 1 })

/-! ### Slices (R457, R467 to R470, R473) -/

/-- Frames of a slice that the device holds (R468). -/
def sliceFrames (s : State) (k : Nat) : Nat :=
  kcount (fun x => decide (x.stage ≠ .done) && decide (x.stage ≠ .none) && ((match x.host with
    | some (.vf n, _, _) => decide (n = k)
    | _ => false) || (x.egress = 32 && x.sub = 8128 + k && x.action = 3))) s.jobs

/-- Descriptors between HEAD and TAIL of a slice's enabled transmit queues (R468). -/
def sliceDescs (s : State) (k : Nat) : Nat :=
  ((List.range 16).map (fun r => if s.flag (aTxCfg (.vf k) r) F.TXQ_CFG_EN then
    (s.fld (aTxTail (.vf k) r) F.TXQ_TAIL_TAIL + 65536 - s.fld (aTxHead (.vf k) r) F.TXQ_HEAD_HEAD) % 65536 else 0)).sum

/-- IN_FLIGHT (R468). -/
def inFlight (s : State) (k : Nat) : Nat := sliceDescs s k + sliceFrames s k

/-- A status that the spec does not choose: one of a list. -/
def freeStatus (s : State) (l : List Status) : Status × State := (l.getD (Config.freeNat s.freeCtr % l.length) .invalid, s.useFree)

/-- The codes of HIF_SLCMDST (R472). -/
def sliceCodes : List Status := [.ok, .denied, .conflict, .invalid, .quiesceRequired]

/-- An HIF_SLCMD: its status in HIF_SLCMDST; commands end at once, so BUSY always reads 0 (R472). -/
def sliceCommand (f : State → State × Status) (s : State) : Res :=
  .next (s.access R.HIF_SLCMD (fun s =>
    let (u, st) := f s
    u.setFld R.HIF_SLCMDST F.HIF_SLCMDST_STATUS st.code))

/-- A status in a state of R467 for which the table names no outcome: free, and nothing changes. -/
def sliceOpen (s : State) : State × Status := let (st, u) := freeStatus s sliceCodes; (u, st)

/-- The same for RESET, which R8 accepts on a quiesced slice only: any of the codes but OK. -/
def sliceUnbound (s : State) : State × Status := let (st, u) := freeStatus s (sliceCodes.drop 1); (u, st)

/-- Every queue of a slice disabled, with HEAD = TAIL = 0 (R470). -/
def clearRings (s : State) (k : Nat) : State :=
  (List.range 16).foldl (fun u r =>
    let f := Fn.vf k
    let u := ((u.setFld (aTxCfg f r) F.TXQ_CFG_EN 0).setFld (aTxTail f r) F.TXQ_TAIL_TAIL 0).setFld (aTxHead f r) F.TXQ_HEAD_HEAD 0
    let u := ((u.setFld (aRxCfg f r) F.RXQ_CFG_EN 0).setFld (aRxTail f r) F.RXQ_TAIL_TAIL 0).setFld (aRxHead f r) F.RXQ_HEAD_HEAD 0
    { u with rings := kset {} u.rings (ringKey f r) {} }) s

/-- The completions of a slice that were never written are given up. -/
def dropDone (s : State) (k : Nat) : State :=
  { s with jobs := s.jobs.filter (fun e => !(e.2.stage = .done && (match e.2.host with
      | some (.vf n, _, _) => decide (n = k)
      | _ => false))) }

/-- The counters of a slice and of its 128 associations cleared, with their wrap bits (R476). -/
def clearSliceCtrs (s : State) (k : Nat) : State :=
  ((s.clearCtrs (Ctr.slice k 0).index 16).clearCtrs (Ctr.txsa (12288 + 64 * k) 0).index 512).clearCtrs (Ctr.rxsa (12288 + 64 * k) 0).index 512

/-- SLICE_BIND (R457, R467). `vfOn`: VF s + 1 is enabled; `pasidOn`: PASID Enable of the physical function. -/
def execSliceBind (k : Nat) (vfOn pasidOn : Bool) (s : State) : Res :=
  sliceCommand (fun s =>
    let k := k % 64
    let p := s.fld R.HIF_SLARG F.HIF_SLARG_PASID
    if (s.slice k).state ≠ .unbound then (s, .quiesceRequired)
    else if !s.slicesOn ∨ !vfOn ∨ !pasidOn then (s, .denied)
    else if (List.range 64).any (fun n => decide (n ≠ k) && decide ((s.slice n).state ≠ .unbound) && decide ((s.slice n).pasid = p)) then (s, .conflict)
    else ((clearSliceCtrs (clearRings s k) k).setSlice k { state := .active, pasid := p }, .ok)) s

/-- SLICE_FENCE (R467). -/
def execSliceFence (k : Nat) (s : State) : Res :=
  sliceCommand (fun s =>
    let x := s.slice (k % 64)
    if x.state = .active then (s.setSlice (k % 64) { x with state := .fenced }, .ok) else sliceOpen s) s

/-- SLICE_RESUME (R467). -/
def execSliceResume (k : Nat) (s : State) : Res :=
  sliceCommand (fun s =>
    let x := s.slice (k % 64)
    if x.state = .quiesced then (s.setSlice (k % 64) { x with state := .active, silent := false }, .ok) else sliceOpen s) s

/-- RESET of a slice (R470). -/
def resetSlice (s : State) (k : Nat) : State :=
  let remove (u : State) (rx : Bool) (i : Nat) : State :=
    if (u.assoc rx (12288 + 64 * k + i)).valid then removeAssoc u rx (12288 + 64 * k + i) else u
  let s := (List.range 64).foldl (fun u i => remove (remove u false i) true i) s
  let s := dropDone (clearRings s k) k
  clearSliceCtrs ((s.setReg (R.SL_RXMAP k) (resetVal (R.SL_RXMAP k))).setReg (R.SL_ALARM k) 0) k

/-- SLICE_RESET (R467, R470). -/
def execSliceReset (k : Nat) (s : State) : Res :=
  sliceCommand (fun s =>
    match (s.slice (k % 64)).state with
    | .quiesced => (resetSlice s (k % 64), .ok)
    | .unbound => sliceUnbound s
    | _ => (s, .quiesceRequired)) s

/-- SLICE_UNBIND (R467, R470): RESET, the binding cleared, and vector 6 (R464). -/
def execSliceUnbind (k : Nat) (s : State) : Res :=
  sliceCommand (fun s =>
    match (s.slice (k % 64)).state with
    | .quiesced => (((resetSlice s (k % 64)).setSlice (k % 64) {}).interrupt .pf 6, .ok)
    | .unbound => sliceOpen s
    | _ => (s, .quiesceRequired)) s

/-- Is a queue entry a slice's, and not yet dispatched? -/
def sliceWaiting (k : Nat) (x : Job) : Bool :=
  (x.stage = .classified || x.stage = .queued || x.stage = .handoff || x.stage = .selected) && ((match x.host with
    | some (.vf n, _, _) => decide (n = k)
    | _ => false) || (x.egress = 32 && x.sub = 8128 + k && x.action = 3))

/-- FLR, Bus Master Enable or VF Enable of a slice's function (R467, R469): it is fenced and silent, descriptors not yet
fetched are discarded, and frames not yet dispatched are dropped and counted as slice-closed. -/
def silenceSlice (s : State) (k : Nat) : State :=
  if (s.slice k).state ≠ .active ∧ (s.slice k).state ≠ .fenced then s
  else
    let s := s.setSlice k { s.slice k with state := .fenced, silent := true }
    let s := (List.range 16).foldl (fun u r => u.setFld (aTxHead (.vf k) r) F.TXQ_HEAD_HEAD (u.fld (aTxTail (.vf k) r) F.TXQ_TAIL_TAIL)) s
    (kkeys (sliceWaiting k) s.jobs).foldl (fun u j => ((u.count (.host 7)).count (.slice k 7)).dropJob j) s

/-- The MSI-X table and pending bits of a slice's function as at reset (R52). -/
def clearMsix (s : State) (k : Nat) : State :=
  { s with regs := s.regs.filter (fun (e : Nat × Word) => !decide (0x10008000 + 0x200000 * k ≤ e.1 ∧ e.1 < 0x10009008 + 0x200000 * k)) }

/-- VF_FLR (R52, R469). -/
def execVfFlr (k : Nat) (s : State) : Res := .next (clearMsix (silenceSlice s (k % 64)) (k % 64))

/-- VF_BUS_MASTER_CLEAR (R469). -/
def execVfBusMasterClear (k : Nat) (s : State) : Res := .next (silenceSlice s (k % 64))

/-- SLICE_QUIESCED: IN_FLIGHT of a FENCED slice has reached 0 (R467). A silent slice's completions are given up, and its
queues stand at their heads. -/
def execSliceQuiesced (k : Nat) (s : State) : Res :=
  if (s.slice k).state = .fenced ∧ inFlight s k = 0 then
    let done (u : State) (r : Nat) : State :=
      let g := kget {} u.rings (ringKey (.vf k) r)
      { u with rings := kset {} u.rings (ringKey (.vf k) r) { g with txDone := u.fld (aTxHead (.vf k) r) F.TXQ_HEAD_HEAD } }
    let t := if (s.slice k).silent then (List.range 16).foldl done (dropDone s k) else s
    .next ((t.setSlice k { t.slice k with state := .quiesced }).interrupt .pf 6)
  else .next s

/-- Entry to Maintenance and resets: every slice is UNBOUND (R467). -/
def unbindAll (s : State) : State :=
  (List.range 64).foldl (fun u k => if (u.slice k).state = .unbound then u else ((resetSlice u k).setSlice k {}).interrupt .pf 6) s

end Sys2Proof.Machine
end

