-- ==== Sys2Proof/Machine/Merge.lean ====
section
/-! DEFINITION. Merge, the egress MAC, PTP edits and the write of to-host frames (R214, R217, R218, R345 to R351, R353,
R459, R460, R463). -/

namespace Sys2Proof.Machine

/-! ### PTP (R348 to R351) -/

/-- A recognised PTP message: the offset of its header in the frame, the offset of its UDP header, and the IP family
(0 for Ethernet). -/
structure Ptp where
  off : Nat
  udp : Nat
  family : Nat
  deriving DecidableEq, Repr

/-- Is a plaintext frame PTP: EtherType 0x88F7, or UDP to port 319 or 320 (R348)? -/
def findPtp (b : List Byte) : Option Ptp :=
  let x := parseFrame b none
  if x.etype = 0x88F7 then some { off := x.off, udp := 0, family := 0 }
  else match x.udp with
    | some (_, d) =>
      if d = 319 ∨ d = 320 then
        let u := if x.family = 4 then x.off + 4 * (beAt b x.off 1 % 16) else ((ipv6Chain b (beAt b (x.off + 6) 1) (x.off + 40) 4).getD (0, 0)).2
        some { off := u + 8, udp := u, family := x.family }
      else none
    | none => none

/-- messageType: 0 Sync, 1 Delay_Req, 2 Pdelay_Req, 3 Pdelay_Resp are the event messages. -/
def ptpType (b : List Byte) (p : Ptp) : Nat := beAt b p.off 1 % 16

/-- The base of a message's domain: the first valid TIM_DOMAIN_d that matches (R349). -/
def domainBase (s : State) (b : List Byte) (p : Ptp) : Option Nat :=
  ((List.range 4).find? (fun d => s.flag (R.TIM_DOMAIN_d d) F.TIM_DOMAIN_d_VALID &&
    decide (s.fld (R.TIM_DOMAIN_d d) F.TIM_DOMAIN_d_DOMAIN = beAt b (p.off + 4) 1))).map (fun d => s.fld (R.TIM_DOMAIN_d d) F.TIM_DOMAIN_d_TB)

/-- An edit: the offset of a field in the plaintext frame, and its new bytes. -/
abbrev Edit := Nat × List Byte

/-- correctionField plus a number of 2^-16 ns (R350). -/
def addCorrection (b : List Byte) (p : Ptp) (v : Int) : Edit := (p.off + 8, be 8 (unsigned 64 ((beAt b (p.off + 8) 8 : Int) + v)))

/-- The UDP checksum after edits (R350): 0 over IPv4, updated over IPv6 as RFC 1624 says. -/
def checksumEdit (b : List Byte) (p : Ptp) (l : List Edit) : List Edit :=
  if p.family = 4 then [(p.udp + 6, be 2 0)]
  else if p.family = 6 then
    let old := l.flatMap (fun (e : Edit) => (slice b e.1 e.2.length).map (~~~ ·))
    let new := l.flatMap (fun (e : Edit) => e.2)
    [(p.udp + 6, be 2 (0xFFFF - onesSum (be 2 (0xFFFF - beAt b (p.udp + 6) 2) ++ old ++ new)))]
  else []

/-- The edits due to a frame with plaintext `b` that leaves on Ethernet port `e` (R350): one-step insertion for a host
frame, transparent correction for another. -/
def ptpEdits (s : State) (x : Job) (f : Frame) (e : Nat) (b : List Byte) (p : Ptp) (base : Nat) : List Edit :=
  let tx := s.txStamp e base
  let k := ptpType b p
  if x.host.isSome then
    if x.oneStep ∧ s.flag (R.PTP_CFG e) F.PTP_CFG_ONESTEP_EN then
      if k = 0 then [(p.off + 34, be 6 tx.sec ++ be 4 tx.ns), addCorrection b p (tx.frac / 2 ^ 8 : Nat)]
      else if k = 3 then [addCorrection b p (tx.units / 2 ^ 8 : Nat)]
      else []
    else []
  else
    let rx := f.ts.getD base {}
    let d : Int := ((tx.units : Int) - rx.units) / 2 ^ 8
    match s.fld (R.PTP_CFG e) F.PTP_CFG_TC_MODE with
    | 1 => if f.ts ≠ [] ∧ (k = 0 ∨ k = 1) then [addCorrection b p d] else []
    | 2 => if f.ts ≠ [] ∧ k = 0 then [addCorrection b p (d + (s.reg (R.PORT_PDELAY f.ingress)).toNat * 2 ^ 8)] else []
    | _ => []

/-- A link-local message that a peer-to-peer transparent clock does not forward (R350). -/
def ptpLinkLocal (s : State) (x : Job) (e : Nat) (b : List Byte) : Bool :=
  x.host.isNone && decide (e < 32) && s.fld (R.PTP_CFG e) F.PTP_CFG_TC_MODE = 2 &&
  (match findPtp b with
    | some p => ptpType b p = 2 || ptpType b p = 3
    | none => false)

/-- The GHASH block that byte `o` of the plaintext frame enters (R351): none for bytes that are in no sealed part. -/
def ghashBlock (x : Job) (b : List Byte) (o : Nat) : Nat :=
  let r := x.under
  if x.action = 1 then
    let c := if r.encrypt then r.confOffset else b.length
    let head := 12 + (if r.sciEn then 16 else 8)
    if o < 12 then o / 16
    else if o - 12 < c then (head + (o - 12)) / 16
    else (head + c + 15) / 16 + (o - 12 - c) / 16
  else 1 + (o - (parseFrame b none).off) / 16

/-- The sealed blocks that edits touch, each once. -/
def touchedBlocks (x : Job) (b : List Byte) (l : List Edit) : List Nat :=
  (l.flatMap (fun (e : Edit) => (List.range e.2.length).map (fun i => ghashBlock x b (e.1 + i)))).eraseDups

/-- What the egress MAC makes of a finished frame on Ethernet port `e` (R349 to R351): its bytes, and the state with its
counts. An edited frame is exactly the one that sealing the edited plaintext would give. -/
def editFrame (s : State) (x : Job) (f : Frame) (e : Nat) : List Byte × State :=
  let sealing := decide (x.action = 1 ∨ x.action = 2)
  let b := if sealing then bodyOf f.bytes else bodyOf x.output
  match findPtp b with
  | none => (x.output, s)
  | some p =>
    let wants := ptpType b p < 4 && (if x.host.isSome then x.oneStep && s.flag (R.PTP_CFG e) F.PTP_CFG_ONESTEP_EN else decide (0 < s.fld (R.PTP_CFG e) F.PTP_CFG_TC_MODE))
    if !wants ∨ x.stomp then (x.output, s)
    else match domainBase s b p with
      | none => (x.output, s.count (.port e 29))
      | some base =>
        let l := ptpEdits s x f e b p base
        if l = [] then (x.output, s)
        else
          let l := l ++ checksumEdit b p l
          let last := (l.map (fun (d : Edit) => d.1 + d.2.length)).foldl max (p.off + 34)
          if 192 < last ∨ (sealing ∧ 4 < (touchedBlocks x b l).length) then (x.output, s.count (.port e 28))
          else
            let b' := l.foldl (fun (v : List Byte) (d : Edit) => overlay v d.1 d.2) b
            let s := if portUnlocked s e then s.count (.port e 30) else s
            (if sealing then (rillOutput s x { f with bytes := withFcs b' }).bytes else withFcs b', s)

/-! ### To-host frames (R459, R460, R463) -/

/-- The ring pair of a to-host frame: the punt ring, or the slice's ring of its class (R459). -/
def rxRing (s : State) (x : Job) : Fn × Nat :=
  if x.action = 6 then (.pf, 0) else (.vf (x.sub - 8128), (s.reg (R.SL_RXMAP (x.sub - 8128))).toNat / 16 ^ x.cls % 16)

/-- A receive buffer is posted (R460, R461). -/
def bufferPosted (s : State) (fn : Fn) (r : Nat) : Bool :=
  s.flag (aRxCfg fn r) F.RXQ_CFG_EN && decide (s.fld (aRxHead fn r) F.RXQ_HEAD_HEAD ≠ s.fld (aRxTail fn r) F.RXQ_TAIL_TAIL)

/-- A frame that finds no buffer (R460): discarded and counted. -/
def noBuffer (s : State) (fn : Fn) : State :=
  match fn with
  | .pf => s.count (.host 5)
  | .vf _ => slNote (s.count (.host 6)) fn F.SL_ALARM_NO_BUFFER 6

/-- The 32 bytes of a receive completion (R463). -/
def rxCompletion (s : State) (fn : Fn) (r : Nat) (x : Job) (f : Frame) (cookie : List Byte) (st : Status) (len ph : Nat) : List Byte :=
  let t := s.fld (aRxCfg fn r) F.RXQ_CFG_TB
  let a := if x.action = 3 then (match fn with
    | .pf => x.assoc
    | .vf k => x.assoc - (12288 + 64 * k)) else 0xFFFF
  let stamped := decide (t < f.ts.length)
  slice cookie 0 4 ++ be 1 st.code ++ be 1 (if x.action = 6 then x.punt else 0) ++
    be 1 (b2n stamped + 2 * b2n (stamped && f.unlocked) + 4 * b2n (x.action = 6) + 8 * b2n x.checkFail + ph) ++
    be 1 (128 * b2n (16 ≤ f.ingress) + f.ingress % 16) ++ be 2 len ++ be 2 a ++ be 4 0 ++ (if stamped then stampBytes (f.ts.getD t {}) else be 13 0) ++ be 3 0

/-- A to-host frame of output `b` written to the next posted buffer (R460, R463); `desc` is what the read of its receive
descriptor brought. -/
def writeToHost (s : State) (x : Job) (b : List Byte) (desc : HostRead) : State :=
  let f := s.frame x.frame
  let (fn, r) := rxRing s x
  if silentFn s fn then s
  else if !bufferPosted s fn r then noBuffer s fn
  else
    let i := s.fld (aRxHead fn r) F.RXQ_HEAD_HEAD
    let g := kget {} s.rings (ringKey fn r)
    let n := entriesOf s (aRxCfg fn r)
    let s := s.emit (s.dmaRead fn (descAddr s (aRxBase fn r) (aRxCfg fn r) 16 i) 16)
    let complete (s : State) (cookie : List Byte) (st : Status) (len : Nat) : State :=
      let ph := phase g.rxStart i n
      let c := rxCompletion s fn r x f cookie st len ph
      let s := s.emit (s.dmaWrite fn false (completionAddr s (aRxcBase fn r) n i) c)
      signalRing (s.setFld (aRxHead fn r) F.RXQ_HEAD_HEAD (i + 1)) fn r
    match desc with
    | .error => complete (dmaError s fn).useFree (s.freeBytes 4) .aborted 0
    | .data d =>
      let body := bodyOf b
      let room := 64 * s.fld (aRxCfg fn r) F.RXQ_CFG_BUF_LEN
      let long := decide (room < body.length)
      let st : Status := if long ∨ x.cut ∨ x.stage = .lost then .aborted else if x.stomp then .integrity else .ok
      let s := s.emit (s.dmaWrite fn true (beAt d 0 8) (body.take room))
      let s := if long then slNote s fn F.SL_ALARM_RX_OVERSIZE 16 else s
      let s := ((s.count (.host 2)).countN (.host 3) b.length)
      let s := if x.action = 6 then s.count (.host 4) else s
      let s := slCountN (slCountN s fn 3 1) fn 4 b.length
      let s := if st = .integrity then slCountN s fn 5 1 else s
      (complete s (slice d 12 4) st (min room body.length)).emit (.toHost fn body (decide (st = .ok)))

/-! ### Merge (R212 to R214, R217, R218) -/

/-- The queue entry of the next expected tag of egress `e`. -/
def mergeHead (s : State) (e : Nat) : Option Nat :=
  (s.jobs.find? (fun c => c.2.egress = e && (c.2.stage = .dispatched || c.2.stage = .lost) && !c.2.merged && !c.2.parked &&
    decide (c.2.tag = kget 0 s.expTag e))).map Prod.fst

/-- Merge is done with queue entry `j`: its context is free and the next tag is expected (R213, R214); past a preempted frame it is
expected already. -/
def mergeDone (s : State) (j : Nat) (fate : Status × Nat) : State :=
  let x := s.job j
  let s := if x.parked then s else { s with expTag := kset 0 s.expTag x.egress ((kget 0 s.expTag x.egress + 1) % 2 ^ 14) }
  settle (s.setJob j { x with merged := true, fate := if x.fate.isSome then x.fate else some fate }) j

/-- A slice's frame that leaves good on the wire counts its octets (R477). -/
def countSent (s : State) (x : Job) (n : Nat) : State :=
  match x.host with
  | some (fn, _, _) => slCountN s fn 1 n
  | none => s

/-- The mCRC of a fragment that ends after the bytes `b` of its frame (R101): their CRC-32 with the last two of its bytes inverted. -/
def mCrc (b : List Byte) : List Byte := (fcsOf b).take 2 ++ ((fcsOf b).drop 2).map (~~~ ·)

/-- What leaves of a frame that was cut at the positions `l`, rising: its fragments, each with its mCRC, the last with the FCS. -/
def fragments (b : List Byte) (start : Nat) : List Nat → List (List Byte)
  | [] => [b.drop start]
  | c :: r => if c < b.length then (slice b start (c - start) ++ mCrc (b.take c)) :: fragments b c r else [b.drop start]

/-- A finished frame leaves on Ethernet port `e` (R217, R218): edited, cut to MAX_FRAME + 1 bytes, counted, stamped. -/
def sendPort (s : State) (j e : Nat) : State :=
  let x := s.job j
  let (b, s) := editFrame s x (s.frame x.frame) e
  let m := s.fld (aPORT_CFG e) F.PORT_CFG_MAX_FRAME
  let long := decide (m < b.length)
  let s := if long then s.count (.port e 20) else s
  let b := if long then stompedFcs (b.take (m + 1)) else b
  let s := s.emit (if x.cuts = [] then .frame e b (!long && !x.stomp) else .fragments e (fragments b 0 x.cuts.reverse) (!long && !x.stomp))
  if long ∨ x.stomp then mergeDone (s.count (.port e 18)) j (.aborted, 8)
  else
    let s := countSent ((s.count (.port e 16)).countN (.port e 17) b.length) x b.length
    let stamp := x.host.isSome && (x.tsCapture || x.oneStep)
    let off := portUnlocked s e
    let s := if stamp ∧ off then s.count (.port e 30) else s
    mergeDone (s.setJob j { x with txTs := if stamp then some (s.txStamp e x.tsBase) else none, unlocked := stamp && off }) j (.ok, 0)

/-- A finished frame enters the mapping buffer of a frame-mapped tributary (R218, R310). -/
def sendTrib (s : State) (j t : Nat) : State :=
  let x := s.job j
  let k := s.trunk t
  let y := kget {} k.tribs x.trib
  let y := { y with buffer := y.buffer ++ delimiter x.output.length x.stomp ++ x.output }
  let s := s.setTrunk t { k with tribs := kset {} k.tribs x.trib y }
  let s := if x.stomp then egressCount s x.egress 18 else (egressCount s x.egress 16).countN (.port (nodePort s x.egress) 17) x.output.length
  mergeDone s j (if x.stomp then (.aborted, 8) else (.ok, 0))

/-- A finished frame goes where its egress says. -/
def sendFinished (s : State) (j : Nat) (desc : HostRead) : State :=
  let x := s.job j
  if x.egress = 32 then mergeDone (writeToHost s x x.output desc) j (if x.stomp then (.aborted, 8) else (.ok, 0))
  else if 64 ≤ x.egress then sendTrib s j (x.egress - 64)
  else if ptpLinkLocal s x x.egress (if x.action = 1 ∨ x.action = 2 then bodyOf (s.frame x.frame).bytes else bodyOf x.output) then
    mergeDone (s.count (.port (s.frame x.frame).ingress 13)) j (.aborted, 8)
  else sendPort s j x.egress

/-- A frame stomped after its last beat left the rill carries the stomp in its FCS. -/
def markStomp (s : State) (j : Nat) : State :=
  let x := s.job j
  if x.stomp then s.setJob j { x with output := stompedFcs (bodyOf x.output) } else s

/-- A LOST frame: a skip token, or, with beats released already, an end by stomping (R213, R222). -/
def endLost (s : State) (j : Nat) (desc : HostRead) : State :=
  let x := s.job j
  if x.released = 0 then mergeDone s j (.aborted, 9)
  else
    let o := stompedFcs ((rillOutput s { x with stomp := true } (s.frame x.frame)).bytes.take (128 * x.released))
    sendFinished (s.setJob j { x with output := o, stomp := true }) j desc

/-- The checks before a frame's first beat leaves merge: no buffer is posted; it waits for its launch; a gate holds it. None when the
beat may leave. -/
def holdFirst (s : State) (j : Nat) : Option State :=
  let x := s.job j
  let e := x.egress
  if e = 32 ∧ !silentFn s (rxRing s x).1 ∧ !bufferPosted s (rxRing s x).1 (rxRing s x).2 then some (mergeDone (noBuffer s (rxRing s x).1) j (.aborted, 0))
  else if x.launch.isSome then some s
  else if e < 32 ∧ !gateAdmits s e x.cls x.size 0 then
    some (if x.gateHeld then s else (s.count (.port e 23)).setJob j { x with gateHeld := true })
  else none

/-- The next beat of queue entry `j` leaves merge; the frame leaves with the last, once the verdict is there (R214, R217). -/
def releaseBeat (s : State) (j : Nat) (desc : HostRead) : State :=
  let x := s.job j
  let n := if x.released < x.left then x.released + 1 else x.released
  let s := s.setJob j { x with released := n }
  if n = x.left ∧ x.verdict.isSome then sendFinished (markStomp s j) j desc else s

/-- A frame that merge has taken up: a skip token, a discard for its launch time or a hand-over, the end of a LOST one, a frame of a
closed egress discarded (R36, R214, R356, R444); else its next beat. -/
def mergeStep (s : State) (e j : Nat) (desc : HostRead) : State :=
  let x := s.job j
  if x.skip then mergeDone (s.count (.ril x.rill 5)) j (.aborted, 8)
  else if x.discard then mergeDone s j (.expired, 0xC)
  else if x.stage = .lost then endLost s j desc
  else if !egressOpen s e (0 < x.released) then mergeDone (egressCount s e 19) j (.aborted, 5)
  else match (if x.released = 0 ∧ 0 < x.left then holdFirst s j else none) with
    | some t => t
    | none => releaseBeat s j desc

/-- A departing frame is express on a port with preemption active (R101). -/
def express (s : State) (e : Nat) (x : Job) : Bool :=
  decide (e < 32) && s.flag (aPORT_CFG e) F.PORT_CFG_PREEMPT_EN && (s.port e).verify = .active && bit (s.fld (aPORT_CFG e) F.PORT_CFG_EXPRESS_MASK) x.cls

/-- Does an express frame with a beat at hand stand behind frame `x` that egress `e` is sending (R101)? -/
def overtaken (s : State) (e : Nat) (x : Job) : Bool :=
  s.jobs.any (fun c => c.2.egress = e && c.2.stage = .dispatched && !c.2.merged && !c.2.skip && !c.2.discard && decide (c.2.released < c.2.left) &&
    decide (c.2.tag = (x.tag + 1) % 2 ^ 14) && express s e c.2 && c.2.launch.isNone && gateAdmits s e c.2.cls c.2.size 0)

/-- MERGE_RELEASE: merge of egress `e` handles the frame of its expected tag (R214): a skip token, or the next beat that
has left the rill; with the last beat the frame leaves. `desc` is what the read of a receive descriptor brings. On a port with
preemption active an express frame overtakes the preemptable one that is being sent, which resumes once no express frame is being
sent and its gate is open; a further preemptable frame waits until it has gone (R101, R353). -/
def execMergeRelease (e : Nat) (desc : HostRead) (s : State) : Res :=
  match parkedOf s e, mergeHead s e with
  | none, none => .next s
  | none, some j =>
    let x := s.job j
    if e < 32 ∧ mayCut s e x ∧ x.stage = .dispatched ∧ !x.skip ∧ overtaken s e x then .next (park s j) else .next (mergeStep s e j desc)
  | some q, some j =>
    let x := s.job j
    if x.skip ∨ x.discard ∨ x.stage = .lost ∨ 0 < x.released ∨ (express s e x ∧ x.released < x.left) then .next (mergeStep s e j desc)
    else if gateOpenFor s e (s.job q).cls 0 = some 0 then .next s
    else .next (mergeStep s e q desc)
  | some q, none => if gateOpenFor s e (s.job q).cls 0 = some 0 then .next s else .next (mergeStep s e q desc)

end Sys2Proof.Machine
end

