-- ==== Sys2Proof/Machine/Pair.lean ====
section
/-! DEFINITION. The redundant pair and the Aqueduct: training, records, resynchronisation, giving up and taking over
(16_pair_and_aqueduct.md, R426 to R452). -/

namespace Sys2Proof.Machine

/-! ### Registers and roles -/

/-- ROLE as records and PAI_STATUS give it (R437, R452). -/
def Role.code : Role → Nat
  | .none => 0 | .active => 1 | .syncing => 2 | .ready => 3

/-- PARTNER of PAI_STATUS (R452). -/
def Partner.code : Partner → Nat
  | .none => 0 | .syncing => 1 | .ready => 2 | .lost => 3 | .ousted => 4 | .active => 5

/-- DEV_STATE (R54). -/
def DevState.code : DevState → Nat
  | .wellOnly => 0 | .start => 1 | .minimal => 2 | .maintenance => 3 | .active => 4 | .standby => 5 | .halt => 6

/-- PAI_DIAG, and HEALTH of HB records (R443). -/
def healthBits (s : State) : Nat := ((List.range 8).map (fun i => if i ≠ 5 ∧ s.pair.faults.contains i then 2 ^ i else 0)).sum

/-- Every key slot of both directions goes EMPTY (R416, R440). -/
def clearAllSlots (s : State) : State :=
  let f (rx : Bool) (u : State) (i : Nat) : State := clearSlot (clearSlot u rx i 0) rx i 1
  (s.rxAssocs.map Prod.fst).foldl (f true) ((s.txAssocs.map Prod.fst).foldl (f false) s)

/-- A trunk without keys and epochs. -/
def Trunk.unkeyed (x : Trunk) : Trunk :=
  { x with running := false, txEpoch := 0, txKey := [], txFc := 0, asked := none, journaled := false, retryDue := false, nextEpoch := 0, countdown := 0, rxEpoch := 0, rxFc := 0, rxAny := false, fcMark := 0, rxKeys := [], pendingKey := none }

/-- Mirrored and allocator state discarded (R428, R440). -/
def discardMirrored (s : State) : State :=
  let s := clearAllSlots s
  { s with trunks := s.trunks.map (fun e => (e.1, e.2.unkeyed)), pair := { s.pair with snapping := false, synced := false } }

/-- The device enters Standby (R38, R440, R444). -/
def enterStandby (s : State) : State :=
  discardMirrored { s with
    dev := { s.dev with state := .standby }
    pair := { s.pair with role := .syncing, partner := .active, activeOut := false, givingUp := false, taking := false, wasDetached := false, detached := false, heldKeys := [] } }

/-! ### Resynchronisation (R437, R440) -/

/-- The TB record of a base (R437). -/
def tbRec (s : State) (b : Nat) : List Byte :=
  let t := s.now b
  be 1 7 ++ be 1 b ++ be 2 0 ++ be 4 (s.reg (R.TB_INCR b)).toNat ++ be 6 t.sec ++ be 4 t.ns ++ be 3 t.frac ++ be 1 (b2n (s.flag (R.TB_STATUS b) F.TB_STATUS_VALID))

/-- The slots of a direction that are not EMPTY: association and slot. -/
def liveSlots (s : State) (rx : Bool) : List (Nat × Nat) :=
  (s.assocs rx).flatMap (fun e => ([0, 1].filter (fun k => (e.2.slot k).state ≠ .empty)).map (fun k => (e.1, k)))

/-- One SLOT record of the resynchronisation; a load on its way waits for the JOURNALED of this record. -/
def resyncSlot (rx : Bool) (s : State) (c : Nat × Nat) : State :=
  let x := (s.assoc rx c.1).slot c.2
  let s := if x.state = .loading then putSlot s rx c.1 c.2 { x with recPos := s.nextPos } else s
  sendRec s (slotRec rx c.1 c.2 (s.assoc rx c.1))

/-- One PN_RES record of the resynchronisation. -/
def resyncRes (s : State) (c : Nat × Nat) : State :=
  let x := (s.assoc false c.1).slot c.2
  sendRec s (pnResRec c.1 c.2 x.gen (x.resReq.getD x.resEnd))

/-- One RX_MARK record of the resynchronisation, of a slot in ACCEPT. -/
def resyncMark (s : State) (c : Nat × Nat) : State :=
  let x := (s.assoc true c.1).slot c.2
  if x.state = .accept then sendRec (putSlot s true c.1 c.2 { x with mark := x.pn }) (rxMarkRec c.1 c.2 x.gen x.pn) else s

/-- CAS_TX and CAS_RX of an enabled trunk. -/
def resyncTrunk (s : State) (t : Nat) : State :=
  if s.flag (R.CAS_CFG t) F.CAS_CFG_ENABLE then
    let x := s.trunk t
    let s := s.setTrunk t { x with recPos := s.nextPos, fcMark := x.rxFc }
    sendRec (sendRec s (be 1 5 ++ be 1 t ++ be 2 0 ++ be 4 (x.asked.getD (max x.txEpoch x.nextEpoch)))) (be 1 6 ++ be 1 t ++ be 2 0 ++ be 4 x.rxEpoch ++ be 8 x.rxFc)
  else s

/-- The active device resynchronises its partner (R440). -/
def resync (s : State) : State :=
  let s := sendRec (s.modPair (fun p => { p with partner := .syncing })) (be 1 0xA)
  let s := (liveSlots s true).foldl (resyncSlot true) ((liveSlots s false).foldl (resyncSlot false) s)
  let s := (liveSlots s true).foldl resyncMark ((liveSlots s false).foldl resyncRes s)
  let s := (List.range 4).foldl resyncTrunk s
  let s := (List.range 4).foldl (fun u b => sendRec u (tbRec u b)) s
  sendRec s (be 1 0xB)

/-! ### Commands of the pair and the end of giving up (R443, R444) -/

/-- Giving up because another device transmits (R448; "When both devices are Active"): whatever the partner's state. -/
def ousted (s : State) : State := if mayGiveUp s then startGiveUp s 0x12 else s

/-- A PAI_CMD (R452). -/
def paiCommand (k : State → State × Status) (s : State) : Res :=
  .next (s.access R.PAI_CMD (fun s =>
    let (u, st) := k s
    u.setFld R.PAI_CMDST F.PAI_CMDST_STATUS st.code))

/-- GIVE_UP (R443, R444). -/
def execGiveUp (s : State) : Res := paiCommand (fun s => tryGiveUp s 0x10) s

/-- A dispatched frame whose first bit has not left is to be discarded by merge as egress-down (R444). -/
def discardUnbegun (s : State) (j : Nat) : State :=
  let x := s.job j
  if (x.stage = .dispatched ∨ x.stage = .lost) ∧ x.released = 0 ∧ !x.merged ∧ !x.discard then
    egressCount (s.setJob j { x with discard := true, fate := some (.aborted, 5) }) x.egress 19
  else s

/-- GIVE_UP_DISCARD_DEADLINE: at H + 1.5 us frames not begun are discarded, and the device enters Standby (R444). -/
def execGiveUpDiscardDeadline (s : State) : Res :=
  if s.pair.givingUp then
    let s := (s.jobs.map Prod.fst).foldl discardUnbegun s
    .next (if s.dev.state = .active then enterStandby s else s.modPair (fun p => { p with givingUp := false }))
  else .next s

/-- DIAGNOSIS_FAULT: a diagnosis begins or ends (R443). -/
def execDiagnosisFault (n : Nat) (present : Bool) (s : State) : Res := .next (diagnose s n present)

/-! ### Taking over (R441, R445, R446) -/

/-- A trigger of R445: a device in STANDBY_READY starts to take over. -/
def trigger (s : State) : State :=
  if s.dev.state = .standby ∧ s.pair.role = .ready ∧ !s.pair.taking then s.modPair (fun p => { p with taking := true }) else s

/-- TAKE_OVER (R445). -/
def execTakeOver (s : State) : Res :=
  paiCommand (fun s => if s.dev.state = .standby ∧ s.pair.role = .ready then (trigger s, .ok) else (s, .denied)) s

/-- A transmit slot starts at B + 2^25 and records its first boundary alone (R183, R446). A slot that is still LOADING takes that PN when
it has loaded, for the device that had the slot before may have used it; its boundary is at least that of every load. -/
def takeTx (r : AssocRec) (x : Slot) : Slot :=
  if x.state = .empty then x
  else if x.state = .loading then { x with pn := max (2 ^ 24) x.resEnd + 2 ^ 25 }
  else
    let b := x.resEnd + 2 ^ 25
    if pnMax r.kind r.suite < b then { x with state := .exhausted, pn := b, resEnd := b, resReq := none, inFlight := 0 }
    else { x with pn := b, resEnd := b + 2 ^ 24, resReq := none, backed := b + 2 ^ 24, inFlight := 0 }

/-- A receive slot resumes at MARK + delta; an ESP slot marks its whole window as received (R441). -/
def takeRx (r : AssocRec) (delta : Nat) (x : Slot) : Slot :=
  if x.state = .accept then
    let h := x.mark + delta
    { x with pn := h, mark := h, awaited := [], seen := if r.kind = 1 ∧ r.replayEn then (List.range (min r.replayWin h)).map (fun i => h - i) else [] }
  else x

/-- A trunk starts above every journaled epoch, and resumes reception at its mark (R304, R441, R446). -/
def takeTrunk (delta : Nat) (s : State) (t : Nat) : State :=
  if s.flag (R.CAS_CFG t) F.CAS_CFG_ENABLE then
    let x := s.trunk t
    let s := startTrunk s t
    s.setTrunk t { s.trunk t with rxEpoch := x.rxEpoch, rxFc := x.fcMark + delta, fcMark := x.fcMark + delta, rxAny := x.rxAny }
  else s

/-- TAKE_OVER_COMPLETE: the 256 cycles of a take-over have passed (R446). -/
def execTakeOverComplete (s : State) : Res :=
  if !s.pair.taking then .next s
  else
    let delta := if s.flag R.PAI_CFG F.PAI_CFG_RX_RESUME then 0 else 2 ^ 16
    let s := { s with
      txAssocs := s.txAssocs.map (fun e => (e.1, { e.2 with slot0 := takeTx e.2.record e.2.slot0, slot1 := takeTx e.2.record e.2.slot1 }))
      rxAssocs := s.rxAssocs.map (fun e => (e.1, { e.2 with slot0 := takeRx e.2.record delta e.2.slot0, slot1 := takeRx e.2.record delta e.2.slot1 }))
      sched := { s.sched with subC := [], subP := [], svcS := [], nodeL := [], ceil := [] }
      dev := { s.dev with state := .active }
      pair := { s.pair with taking := false, role := .active, partner := .ousted, activeOut := true, takeGen := (s.pair.takeGen + 1) % 2 ^ 32, synced := false } }
    let s := (List.range 4).foldl (takeTrunk delta) s
    .next (sendUrgent (s.count (.dev 8)) (be 1 9 ++ be 3 0 ++ be 4 s.pair.takeGen))

/-! ### Commands and signals (R426, R428, R445, R448) -/

/-- PARTNER_GONE (R428). -/
def execPartnerGone (s : State) : Res :=
  paiCommand (fun s =>
    if s.dev.state ≠ .active ∨ s.pair.peerActive then (s, .denied)
    else match s.pair.partner with
      | .none => (s, .ok)
      | .lost => (s.modPair (fun p => { p with partner := .none }), .ok)
      | .syncing => (s.modPair (fun p => { p with partner := .none, detached := true }), .ok)
      | .ready => (s.modPair (fun p => { p with partner := .none, detached := true }), .ok)
      | _ => (s, .denied)) s

/-- PEER_ACTIVE_CHANGE: the filtered input changes; an Active device that sees it high gives up (R426, R448). -/
def execPeerActiveChange (level : Bool) (s : State) : Res :=
  let s := s.modPair (fun p => { p with peerActive := level })
  .next (if level then ousted s else s)

/-- PEER_HANDOVER_RISE (R426, R445). -/
def execPeerHandoverRise (s : State) : Res :=
  let s := s.modPair (fun p => { p with peerHandover := true })
  .next (if pairOn s then trigger s else s)

/-- HB_LOSS: no HB record has been applied for HB_LOSS_NS (R427, R445). -/
def execHbLoss (s : State) : Res :=
  if s.dev.state = .active ∧ s.pair.partner = .ready then
    .next ((s.alarm R.PAI_ALARM F.PAI_ALARM_HB_LOSS).modPair (fun p => { p with partner := .lost }))
  else if s.dev.state = .standby ∧ s.pair.role = .ready then
    let s := s.alarm R.PAI_ALARM F.PAI_ALARM_HB_LOSS
    .next (if s.flag R.PAI_CFG F.PAI_CFG_HB_TAKE then trigger s else s)
  else .next s

/-- HEARTBEAT_SEND: the HB record, and with it the samples of the bases to a partner that follows (R437). -/
def execHeartbeatSend (s : State) : Res :=
  if pairOn s ∧ s.linkUp then
    let s := s.modPair (fun p => { p with hbCount := (p.hbCount + 1) % 2 ^ 32 })
    let role := if s.pair.givingUp then 0 else s.pair.role.code
    let s := sendRec s (be 1 1 ++ be 1 role ++ be 2 (healthBits s) ++ be 4 s.pair.takeGen ++ be 4 s.pair.hbCount ++ be 1 (b2n s.pair.detached))
    .next (if s.mirrors then (List.range 4).foldl (fun u b => sendRec u (tbRec u b)) s else s)
  else .next s

/-! ### Start's negotiation (R429) -/

/-- Step 8 ends with a role (R38): the start is complete and the success timer runs, and an Active device starts its
trunks (R304); the time it took is not modelled and free (R59). -/
def finishStart (s : State) (standby : Bool) : State :=
  let s := { s with dev := { s.dev with step := 15, rolePending := false, timing := true } }
  let s := (s.setReg R.START_TIME (BitVec.ofNat 32 (Config.freeNat s.freeCtr))).useFree
  if standby then enterStandby s
  else
    let s := { s with dev := { s.dev with state := .active }, pair := { s.pair with role := if pairOn s then .active else .none, partner := .none, activeOut := true } }
    ((List.range 4).filter (fun t => s.flag (R.CAS_CFG t) F.CAS_CFG_ENABLE)).foldl startTrunk s

/-- The role that negotiation over a trained link gives (R429): true for Standby. -/
def negotiated (s : State) : Bool :=
  let own := s.fld R.PAI_CFG F.PAI_CFG_PREFER
  if s.pair.peerState = 4 ∨ s.pair.peerRole = 1 ∨ s.pair.peerActive then true
  else if own ≠ s.pair.peerPrefer then decide (own = 1)
  else decide (beVal s.pair.peerId < beVal identityDigest)

/-- NEG_WAIT_TIMEOUT: no trained link within NEG_WAIT_MS of the start of step 8 (R429). -/
def execNegWaitTimeout (s : State) : Res :=
  if s.dev.state = .start ∧ s.dev.rolePending ∧ !s.linkUp then .next (finishStart s false) else .next s

/-! ### Training (R432 to R434) -/

/-- Training state changed. -/
def setTrain (s : State) (t : Train) : State := s.modPair (fun p => { p with train := t })

/-- From DOWN training starts at once while AQD_CFG.EN is 1 (R434). -/
def linkDown (s : State) : State :=
  s.modPair (fun p => { p with train := if s.flag R.AQD_CFG F.AQD_CFG_EN then .clock else .down, keyTx := [], keyRx := [], queue := [], sent := 0, txSleep := false, rxSleep := false, lanes := 0, agreeing := 0, line := [], place := 0 })

/-- A changed AQD_CFG takes effect: the session ends and the link trains again (R428, R434). -/
def applyAqd (s : State) : State := linkDown s

/-- AQD_CLOCK_DETECT (R434). -/
def execAqdClockDetect (s : State) : Res := .next (if s.pair.train = .clock then setTrain s .deskew else s)

/-- The CONFIG frame (R432). -/
def configFrame (s : State) : List Byte :=
  linkHead 2 0 0 0 0 ++ slice (identityDigest.take 48 ++ s.pair.nonce ++ be 1 (s.fld R.AQD_CFG F.AQD_CFG_WIDTH) ++
    be 1 (s.fld R.AQD_CFG F.AQD_CFG_CODING) ++ be 1 (s.fld R.PAI_CFG F.PAI_CFG_PREFER) ++ be 1 s.dev.state.code) 0 224 ++ be 16 0

/-- AQD_DESKEW_LOCK: the lanes are locked and CONFIG frames with a fresh nonce begin (R432, R434). -/
def execAqdDeskewLock (s : State) : Res :=
  if s.pair.train = .deskew then
    let s := (s.modPair (fun p => { p with train := .config, nonce := s.freeBytes 32, agreeing := 0, lastConfig := [], lanes := 2 ^ aqdLanes s - 1 })).useFree
    let (l, s) := newLine s (aqdLanes s)
    .next (sendLink (s.modPair (fun p => { p with line := l, place := 0 })) (configFrame s))
  else .next s

/-- The session keys: sent with, received with (R433); none without a pairing key. -/
def sessionKeys (s : State) : Option (List Byte × List Byte) :=
  match s.ownerKey s.pair.pairKey with
  | none => none
  | some k =>
    if !bit k.dest 7 then none
    else
      let p := s.pair
      let low := decide (beVal identityDigest < beVal p.peerId)
      let own := slice identityDigest 0 48 ++ slice p.nonce 0 32
      let peer := slice p.peerId 0 48 ++ slice p.peerNonce 0 32
      let o := kdf k.material (ascii "MELSAR AQUEDUCT") (if low then own ++ peer else peer ++ own) 64
      some (if low then (o.take 32, o.drop 32) else (o.drop 32, o.take 32))

/-- CONFIG_FRAME_RECEIVE: a partner's CONFIG frame in training (R432, R434). -/
def execConfigFrameReceive (frame : List Byte) (s : State) : Res :=
  let c := slice frame 24 224
  if s.pair.train ≠ .config ∨ beAt frame 0 4 ≠ 0xA9C35E17 ∨ beAt frame 4 1 ≠ 2 then .next s
  else
    let shape := decide (beAt c 80 1 = s.fld R.AQD_CFG F.AQD_CFG_WIDTH ∧ beAt c 81 1 = s.fld R.AQD_CFG F.AQD_CFG_CODING)
    let ident := decide (slice c 0 48 = slice s.pair.partnerId 0 48)
    if !shape ∨ !ident then
      let s := if shape then s else s.alarm R.AQD_ALARM F.AQD_ALARM_CONFIG
      .next (setTrain (if ident then s else s.alarm R.AQD_ALARM F.AQD_ALARM_ID_MISMATCH) .failed)
    else
      let n := if c = s.pair.lastConfig then s.pair.agreeing + 1 else 1
      let s := s.modPair (fun p => { p with agreeing := n, lastConfig := c, peerId := slice c 0 48, peerNonce := slice c 48 32, peerPrefer := beAt c 82 1, peerState := beAt c 83 1 })
      if n < 3 then .next s
      else match sessionKeys s with
        | none => .next s
        | some (tx, rx) =>
          .next (sendLink (s.modPair (fun p => { p with train := .auth, keyTx := tx, keyRx := rx })) (linkFrame tx 3 0 0 0 0 []))

/-- Does a sealed frame's tag verify under the partner's key (R432)? -/
def tagOk (s : State) (frame : List Byte) : Bool :=
  gcmTagOf s.pair.keyRx (linkIv (beAt frame 8 8)) (slice frame 0 24) (slice frame 24 224) = slice frame 248 16

/-- The link is UP (R429, R434, R440): a new session, and with it a role, or a resynchronisation. -/
def linkCameUp (s : State) (rtt : Nat) : State :=
  let s := s.modPair (fun p => { p with train := .up, seqTx := 1, tagFails := 0, base := 0, queue := [], sent := 0, expected := 0, rtt := rtt, detached := false, wasDetached := false, peerRole := 0 })
  if s.dev.state = .start ∧ s.dev.rolePending then finishStart s (negotiated s)
  else if s.dev.state = .active ∧ s.pair.peerState = 5 then resync s
  else if s.dev.state = .standby ∧ s.pair.peerState = 4 then s.modPair (fun p => { p with partner := .active })
  else s

/-- AUTH_FRAME_RECEIVE: the partner's AUTH frame; `rtt` is the round trip measured (R434, R435). -/
def execAuthFrameReceive (frame : List Byte) (rtt : Nat) (s : State) : Res :=
  if s.pair.train ≠ .auth ∨ beAt frame 4 1 ≠ 3 then .next s
  else if tagOk s frame then .next (linkCameUp s (rtt % 65536))
  else .next (setTrain (s.alarm R.AQD_ALARM F.AQD_ALARM_AUTH_FAIL) .failed)

/-- AQD_TRAINING_TIMEOUT: a state before UP has timed out (R434). -/
def execAqdTrainingTimeout (s : State) : Res :=
  let t := s.pair.train
  .next (if t = .clock ∨ t = .deskew ∨ t = .config ∨ t = .auth then setTrain (s.alarm R.AQD_ALARM F.AQD_ALARM_TRAIN_FAIL) .failed else s)

/-- AQD_FAILED_RETRY: 10 ms after FAILED (R434). -/
def execAqdFailedRetry (s : State) : Res := .next (if s.pair.train = .failed then linkDown s else s)

/-- AQD_LINK_DOWN: the clock or a lane is lost while UP (R434); the end by tag failures is DATA_FRAME_RECEIVE's. -/
def execAqdLinkDown (s : State) : Res :=
  .next (if s.pair.train = .up then linkDown (s.alarm R.AQD_ALARM F.AQD_ALARM_LANE_FAIL) else s)

/-! ### Received records (R437, R439 to R442) -/

/-- A SLOT record on a standby that names a key the slot does not hold: the slot is loaded from the standby's own root, or
from an installed key that has reached it (R439). -/
def loadMirrored (s : State) (rx : Bool) (i k : Nat) (x : Slot) : State :=
  let a := s.assoc rx i
  let missing := s.alarm R.PAI_ALARM F.PAI_ALARM_KEY_MISSING
  if x.origin = 2 then
    match s.pair.heldKeys.find? (fun h => h.rx = rx && h.assoc = i && h.gen = x.gen && h.an = x.an && h.spi = x.spi) with
    | some h => putSlot s rx i k { x with state := .loading, key := h.key, salt := h.salt }
    | none => putSlot missing rx i k {}
  else match rootKey s a.record.root with
    | .ok root =>
      let m := deriveKey root a.record x.spi x.gen
      putSlot s rx i k { x with state := .loading, key := m.take (keyBytes a.record.suite), salt := m.drop (keyBytes a.record.suite) }
    | .error _ => putSlot missing rx i k {}

/-- A SLOT record applied (R439); `pos` is its position in the stream. -/
def applySlot (s : State) (pos : Nat) (b : List Byte) : State :=
  let rx := bit (beAt b 1 1) 0
  let k := beAt b 1 1 / 2 % 2
  let i := beAt b 2 2
  let st := beAt b 4 1
  let x := (s.assoc rx i).slot k
  if !(s.assoc rx i).valid then s
  else if st = 0 then putSlot s rx i k {}
  else
    let y : Slot := { an := beAt b 5 1, origin := beAt b 6 1, gen := beAt b 8 4, spi := beAt b 12 4, goal := st, recPos := pos }
    if x.key ≠ [] ∧ x.gen = y.gen ∧ x.an = y.an ∧ x.spi = y.spi ∧ x.origin = y.origin then
      putSlot s rx i k (if x.state = .loading then { x with goal := st } else { x with goal := st, state := if rx then .accept else goalState st })
    else if st = 6 then putSlot s rx i k { y with state := .probation }
    else loadMirrored s rx i k { y with mark := if x.gen = y.gen then x.mark else 0, resEnd := if x.gen = y.gen then x.resEnd else 0 }

/-- A PN_RES record applied: the boundary last recorded for the slot (R183, R437). -/
def applyRes (s : State) (b : List Byte) : State :=
  let x := (s.assoc false (beAt b 2 2)).slot (beAt b 1 1)
  if x.state ≠ .empty ∧ x.gen = beAt b 4 4 then putSlot s false (beAt b 2 2) (beAt b 1 1) { x with resEnd := max x.resEnd (beAt b 8 8) } else s

/-- An RX_MARK record applied (R441). -/
def applyMark (s : State) (b : List Byte) : State :=
  let x := (s.assoc true (beAt b 2 2)).slot (beAt b 1 1)
  if x.state ≠ .empty ∧ x.gen = beAt b 4 4 then putSlot s true (beAt b 2 2) (beAt b 1 1) { x with mark := beAt b 8 8 } else s

/-- A TB record applied (R442): the base steps to the sample and half the round trip when it differs by more than 100 ns, with what
R344 gives every step; within that a correction of its rate, whose size the spec leaves open, takes away a free part. -/
def applyTb (s : State) (b : List Byte) : State :=
  let n := beAt b 1 1 % 4
  let t : TimeVal := { sec := beAt b 8 6, ns := beAt b 14 4, frac := beAt b 18 3 }
  let t := t.shift (delayUnits (s.pair.rtt : Int) / 2)
  let d : Int := (t.units : Int) - (s.now n).units
  let s := s.setFld (R.TB_STATUS n) F.TB_STATUS_VALID (b2n (bit (beAt b 21 1) 0))
  let s := s.setReg (R.TB_INCR n) (BitVec.ofNat 32 (beAt b 4 4))
  if 100 * 2 ^ 24 < d.natAbs then takeStep s n t
  else
    let (f, s) := s.free (2 ^ 16)
    { s with bases := kset {} s.bases n ((s.now n).shift (d * f / 2 ^ 16)) }

/-- A JOURNALED record on the active device (R439). -/
def applyJournaled (s : State) (pos : Nat) : State :=
  let mark (x : Slot) : Slot := if x.state = .loading ∧ x.recPos = pos then { x with journaled := true } else x
  { s with
    txAssocs := s.txAssocs.map (fun e => (e.1, { e.2 with slot0 := mark e.2.slot0, slot1 := mark e.2.slot1 }))
    trunks := s.trunks.map (fun e => (e.1, if e.2.asked.isSome ∧ e.2.recPos = pos then { e.2 with journaled := true } else e.2)) }

/-- Both devices are Active: the lower TAKE_GEN gives up, at equal ones the higher identity digest (R449). -/
def dualActive (s : State) (gen : Nat) : State :=
  let s := s.alarm R.PAI_ALARM F.PAI_ALARM_DUAL_ACTIVE
  if s.pair.takeGen < gen ∨ (s.pair.takeGen = gen ∧ beVal s.pair.peerId < beVal identityDigest) then ousted s else s

/-- An HB record applied (R427, R428, R437). -/
def applyHb (s : State) (b : List Byte) : State :=
  let role := beAt b 1 1
  let s := s.modPair (fun p => { p with peerRole := role })
  if s.dev.state = .standby then
    let s := s.modPair (fun p => { p with takeGen := max p.takeGen (beAt b 4 4), partner := if role = 1 then .active else p.partner })
    if bit (beAt b 12 1) 0 ∧ !s.pair.wasDetached then discardMirrored (s.modPair (fun p => { p with role := .syncing, wasDetached := true })) else s
  else if s.dev.state = .active ∧ !s.pair.detached ∧ !s.pair.givingUp then
    if role = 1 then dualActive s (beAt b 4 4)
    else if role = 2 ∨ role = 3 then
      match s.pair.partner with
      | .syncing => if role = 3 then s.modPair (fun p => { p with partner := .ready }) else s
      | .ready => if role = 2 then s.modPair (fun p => { p with partner := .syncing }) else s
      | _ => resync s
    else s
  else s

/-- A mirror record on a standby (R439 to R442). -/
def applyMirror (s : State) (pos : Nat) (b : List Byte) : State :=
  match beAt b 0 1 with
  | 2 => applyRes s b
  | 3 => applySlot s pos b
  | 4 => applyMark s b
  | 5 =>
    let t := beAt b 1 1 % 4
    if beAt b 4 4 ≤ s.genHighOf (masterHandle s t) (txTag s t) then s else s.setTrunk t { s.trunk t with asked := some (beAt b 4 4), recPos := pos, journaled := false }
  | 6 => s.setTrunk (beAt b 1 1 % 4) { s.trunk (beAt b 1 1 % 4) with rxEpoch := beAt b 4 4, rxFc := beAt b 8 8, fcMark := beAt b 8 8, rxAny := true }
  | 7 => applyTb s b
  | 8 => trigger s
  | 0xA => (discardMirrored s).modPair (fun p => { p with role := .syncing, snapping := true })
  | 0xB => if s.pair.snapping then becomeReady (s.modPair (fun p => { p with snapping := false, synced := true })) else s
  | _ => s

/-- A record of the stream, at position `pos` (R437). -/
def applyRecord (s : State) (pos : Nat) (b : List Byte) : State :=
  let s := s.count (.dev 7)
  let typ := beAt b 0 1
  if typ = 1 then applyHb s b
  else if typ = 9 then
    let s := s.modPair (fun p => { p with takeGen := max p.takeGen (beAt b 4 4) })
    if s.dev.state = .active then ousted s else s
  else if s.dev.state = .standby then (if s.pair.wasDetached then s else applyMirror s pos b)
  else if s.dev.state = .active ∧ typ = 0xC then applyJournaled s (beAt b 4 4)
  else s

/-- An acknowledged PN_RES record: B_ack of its slot (R427). -/
def acknowledge (s : State) (b : List Byte) : State :=
  if beAt b 0 1 = 2 then
    let x := (s.assoc false (beAt b 2 2)).slot (beAt b 1 1)
    if x.state ≠ .empty ∧ x.gen = beAt b 4 4 then putSlot s false (beAt b 2 2) (beAt b 1 1) { x with backed := max x.backed (beAt b 8 8) } else s
  else s

/-- The partner's ACK: records before it are acknowledged (R435). -/
def takeAck (s : State) (ack : Nat) : State :=
  let p := s.pair
  let n := (ack + 2 ^ 32 - p.base) % 2 ^ 32
  if n ≤ p.sent then (p.queue.take n).foldl acknowledge { s with pair := { p with base := ack, queue := p.queue.drop n, sent := p.sent - n } } else s

/-- The records of an authentic frame: applied in order when RSEQ is the position expected (R435). -/
def receiveRecords (s : State) (frame : List Byte) : State :=
  let r := beAt frame 16 4
  let n := min 7 (beAt frame 5 1)
  if r = s.pair.expected then
    let text := gcmCrypt s.pair.keyRx (linkIv (beAt frame 8 8)) (slice frame 24 224)
    let s := s.modPair (fun p => { p with expected := (p.expected + n) % 2 ^ 32 })
    (List.range n).foldl (fun u k => if u.linkUp then applyRecord u ((r + k) % 2 ^ 32) (slice text (32 * k) 32) else u) s
  else if (r + 2 ^ 32 - s.pair.expected) % 2 ^ 32 < 2 ^ 31 then s.alarm R.AQD_ALARM F.AQD_ALARM_SEQ_GAP
  else s

/-- A frame whose tag fails: the eighth in a row ends the session (R432, R434). -/
def tagFailed (s : State) : State :=
  let s := (s.count (.dev 4)).alarm R.AQD_ALARM F.AQD_ALARM_FRAME_TAG
  if 8 ≤ s.pair.tagFails + 1 then linkDown s else s.modPair (fun p => { p with tagFails := p.tagFails + 1 })

/-- DATA_FRAME_RECEIVE (R432, R435). -/
def execDataFrameReceive (frame : List Byte) (s : State) : Res :=
  if !s.linkUp ∨ beAt frame 0 4 ≠ 0xA9C35E17 ∨ beAt frame 4 1 ≠ 1 then .next s
  else if !tagOk s frame then .next (tagFailed s)
  else .next (receiveRecords (takeAck (s.modPair (fun p => { p with tagFails := 0 })) (beAt frame 20 4)) frame)

/-- RETRANSMIT_TIMEOUT: ACK has not moved for 2 us with records outstanding; they are sent again (R435). -/
def execRetransmitTimeout (s : State) : Res :=
  if s.linkUp ∧ 0 < s.pair.sent then .next (pump ((s.count (.dev 5)).modPair (fun p => { p with sent := 0 }))) else .next s

/-! ### Low power (R436) -/

/-- An AQD_CMD (R451). -/
def aqdCommand (k : State → State × Status) (s : State) : Res :=
  .next (s.access R.AQD_CMD (fun s =>
    let (u, st) := k s
    u.setFld R.AQD_CMDST F.AQD_CMDST_STATUS st.code))

/-- AQD_DEEP: a x2 or x4 link, when neither device is a standby (R436). -/
def execAqdDeep (s : State) : Res :=
  aqdCommand (fun s =>
    let standby := s.pair.role = .syncing || s.pair.role = .ready || s.pair.peerRole = 2 || s.pair.peerRole = 3
    if s.pair.train ≠ .up ∨ 2 ≤ s.fld R.AQD_CFG F.AQD_CFG_WIDTH ∨ standby then (s, .denied) else (setTrain s .deep, .ok)) s

/-- AQD_WAKE; on a link that is not in DEEP nothing changes, and the status is free (R436). -/
def execAqdWake (s : State) : Res :=
  aqdCommand (fun s =>
    if s.pair.train = .deep then (setTrain s .up, .ok)
    else
      let (st, u) := freeStatus s [.ok, .denied, .invalid]
      (u, st)) s

/-- PARTNER_CLOCK_WAKE: the partner's clock appears on a link in DEEP; the session continues (R436). -/
def execPartnerClockWake (s : State) : Res := .next (if s.pair.train = .deep then setTrain s .up else s)

/-- LINK_SLEEP_ENTRY: lanes 2 to 7 of a x8 direction go off: the own one after 10 us with fewer than 2 records pending,
with `rx` the partner's (R436). -/
def execLinkSleepEntry (rx : Bool) (s : State) : Res :=
  if !s.linkUp ∨ s.fld R.AQD_CFG F.AQD_CFG_WIDTH ≠ 2 ∨ !s.flag R.AQD_CFG F.AQD_CFG_SLEEP_EN then .next s
  else if rx then .next (s.modPair (fun p => { p with rxSleep := true, lanes := 3 }))
  else .next (if s.pair.queue.length < 2 then s.modPair (fun p => { p with txSleep := true }) else s)

/-- LINK_SLEEP_EXIT: 4 or more records are pending in the own direction; with `rx`, the partner's wakes (R436). -/
def execLinkSleepExit (rx : Bool) (s : State) : Res :=
  if rx then .next (if s.pair.rxSleep then s.modPair (fun p => { p with rxSleep := false, lanes := 255 }) else s)
  else .next (if 4 ≤ s.pair.queue.length then s.modPair (fun p => { p with txSleep := false }) else s)

end Sys2Proof.Machine
end

