-- ==== Sys2Proof/Machine/Tamper.lean ====
section
/-! DEFINITION. The tamper monitor and what the Well holds (15_tamper_and_well.md, R412 to R425, R519). -/

namespace Sys2Proof.Machine

/-! ### Policy and limits (R416, R422, R424) -/

/-- The default policy, spelled as a TAMPER_POLICY record (R424). -/
def defaultPolicy : List Byte :=
  [5, 4, 4, 4, 4, 4, 4, 4, 6, 0, 0, 2, 2, 2, 2, 2, 2, 2, 1, 3, 6, 6, 5, 6, 0, 0, 0, 0, 0, 0, 0, 0,
   118, 0xD0, 23, 0, 0x02, 0x58, 0, 0]

/-- The policy in force. -/
def State.policy (s : State) : List Byte := if s.tmp.policy = [] then defaultPolicy else s.tmp.policy

/-- TEMP_HIGH and TEMP_LOW in C, CELL_LOW in mV, WINDOW_MAX_S in s (R424). -/
def tempHigh (s : State) : Int := beAt s.policy 32 1
def tempLow (s : State) : Int := signed 8 (beAt s.policy 33 1)
def cellLow (s : State) : Int := 100 * beAt s.policy 34 1
def windowMax (s : State) : Nat := beAt s.policy 36 2

/-- The cell whose sources these are: 1 A, 2 B (R412). -/
def cellOf (src : Nat) : Nat := if 11 ≤ src ∧ src ≤ 13 then 1 else if 14 ≤ src ∧ src ≤ 16 then 2 else 0

/-- The response of a source: that of the policy, LOG for the cell of an open window (R416, R422). -/
def responseOf (s : State) (src : Nat) : Nat := if s.tmp.window ≠ 0 ∧ cellOf src = s.tmp.window then 1 else beAt s.policy src 1

/-- Is a source watched on cells alone (R412)? -/
def onCells (src : Nat) : Bool := [0, 1, 9, 10, 11, 12, 13, 14, 15, 16, 20, 22].contains src

/-- May a source fire now: watched in Well-only, an enclosure input enabled, a supply source armed, not OFF (R412, R415,
R497)? -/
def mayFire (s : State) (src : Nat) : Bool :=
  decide (src < 24) && (s.dev.power || onCells src) && (src ≠ 9 || bit (beAt s.policy 35 1) 0) && (src ≠ 10 || bit (beAt s.policy 35 1) 2) &&
  (!decide (2 ≤ src ∧ src ≤ 6) || s.dev.supplyArmed) && responseOf s src ≠ 0

/-! ### The start log (R60) -/

/-- An entry put at the head of the start log. -/
def pushStartLog (s : State) (entry : Nat) : State :=
  let old := (List.range 15).map (fun i => s.reg (R.START_LOG_n i))
  (BitVec.ofNat 32 entry :: old).zipIdx.foldl (fun t (x : Word × Nat) => t.setReg (R.START_LOG_n x.2) x.1) s

/-- The current start has ended with an outcome; one entry is written for a start. -/
def endStart (s : State) (outcome reason : Nat) : State :=
  if s.dev.logDue then
    pushStartLog { s with dev := { s.dev with logDue := false } } (s.dev.seq % 65536 * 65536 + reason * 256 + s.dev.step * 16 + s.dev.slot * 4 + outcome)
  else s

/-! ### Responses (R416 to R421) -/

/-- A tamper log entry (R420). -/
def logEntry (s : State) (src resp value : Nat) (pending : Bool) : List Byte :=
  let cells := !s.dev.power
  let valid := s.flag (R.TB_STATUS 0) F.TB_STATUS_VALID && s.dev.power
  s.freeBytes 6 ++ be 1 src ++ be 1 (resp + 128 * b2n pending) ++ be 4 (if valid then (s.now 0).sec else 0) ++
  be 1 (b2n cells + 2 * b2n (decide (s.tmp.window ≠ 0)) + 4 * b2n valid) ++ be 1 s.tmp.temp ++ be 2 value

/-- One source fires: its flag and its log entry; on cells a response other than LOG and ZEROISE_ALL stays pending
(R416, R420, R421). -/
def latchSource (s : State) (src value : Nat) : State :=
  let r := responseOf s src
  let pend := !s.dev.power && r ≠ 1 && r ≠ 6
  let e := logEntry s src r value pend
  let t := s.tmp
  { s.useFree with tmp := { t with
    flags := t.flags ||| 2 ^ src
    log := (e :: t.log).take 64
    logCount := min (t.logCount + 1) (2 ^ 32 - 1)
    pendingLvl := if pend then max t.pendingLvl r else t.pendingLvl
    removed := t.removed || (decide (cellOf src = t.window) && (src = 11 || src = 14)) } }

/-- The erase of a ZEROISE_ALL: the Well's items, HALT_HOLD and TMP_PENDING (R416, R419, R421). -/
def eraseWell (s : State) : State :=
  { s with well := { s.well with ok := false, secret := [], w := 0, kseq := 0, jseq := 0, curves := [] }, tmp := { s.tmp with haltHold := false, pendingLvl := 0 } }

/-- The transaction engine goes idle and its shadow is discarded (R82). -/
def discardTxn (s : State) : State := { s with txn := {} }

/-- Halt is entered (R38, R47, R60, R82); the MC serves there, and a start that has no alias keys yet derives them (R383). -/
def enterHalt (s : State) : State :=
  if s.dev.state = .halt then s
  else
    let s := leavePair (lateIdentity (discardTxn (endStart s 3 0)))
    { s with dev := { s.dev with state := .halt, timing := false, rolePending := false, mcUp := !s.dev.mcRestarting } }

/-- A response carried out with main power present (R416 to R421). Keys are clear at KEY_CLEAR_COMPLETE. -/
def respond (s : State) (level : Nat) : State :=
  let s := { s with tmp := { s.tmp with max := max s.tmp.max level } }
  let s := if level < 2 then s else { s with tmp := { s.tmp with alert := true } }.interrupt .pf 1
  if level < 3 ∨ level < s.tmp.inForce then s
  else
    let s := { s with tmp := { s.tmp with inForce := level, pendingLvl := if level ≤ 4 then max s.tmp.pendingLvl level else s.tmp.pendingLvl } }
    let s := diagnose s 7 true
    let s := if level < 4 then s else { s with tmp := { s.tmp with clearing := max s.tmp.clearing level } }
    let s := if level = 5 then { s with tmp := { s.tmp with haltHold := true } } else s
    let s := if level < 5 then s else enterHalt s
    if level = 6 then eraseWell s else s

/-- The highest response of some sources. -/
def topResponse (s : State) (l : List (Nat × Nat)) : Nat := l.foldl (fun (m : Nat) (x : Nat × Nat) => max m (responseOf s x.1)) 0

/-- Sources that fire on one cycle, in ascending order, each with its VALUE (R418). -/
def fireSources (s : State) (l : List (Nat × Nat)) : State :=
  let l := l.filter (fun x => mayFire s x.1)
  let top := topResponse s l
  let s := l.foldl (fun t (x : Nat × Nat) => latchSource t x.1 x.2) s
  if top = 0 then s
  else if s.dev.power then respond s top
  else
    let s := { s with tmp := { s.tmp with max := max s.tmp.max (if top = 6 then 6 else 1), alert := s.tmp.alert || decide (top = 6) } }
    if top = 6 then eraseWell s else s

/-- One source that has no VALUE fires. -/
def fireSource (s : State) (src : Nat) : State := fireSources s [(src, 0)]

/-- VALUE of a source that its latch reports (R420). -/
def valueOf (s : State) (src : Nat) : Nat :=
  if cellOf src = 1 then s.tmp.cellA else if cellOf src = 2 then s.tmp.cellB else if src < 2 then unsigned 16 (8 * signed 8 s.tmp.temp) else 0

/-- The sources of TMP_RAW that hold a condition and are not sampled: events read 1 for their cycle alone (R425). -/
def rawHeld : Nat := 0x1007FC

/-- TAMPER_SOURCE_LATCH: the sources of `mask` fire on one cycle, and the conditions now present are those of `raw`. -/
def execTamperSourceLatch (mask raw : Nat) (s : State) : Res :=
  let s := { s with tmp := { s.tmp with raw := (s.tmp.raw &&& (2 ^ 24 - 1 - rawHeld)) ||| (raw &&& rawHeld) } }
  .next (fireSources s (((List.range 24).filter (bit mask)).map (fun src => (src, valueOf s src))))

/-- UNDERVOLTAGE_DELAY_EXPIRY: 100 us after detection, with no power loss reported in that time (R414). -/
def execUndervoltageDelayExpiry (src : Nat) (s : State) : Res :=
  if s.dev.power ∧ 2 ≤ src ∧ src ≤ 7 then
    let s := { s with tmp := { s.tmp with raw := s.tmp.raw ||| 2 ^ src } }
    .next (fireSource s src)
  else .next s

/-! ### Cells and temperature (R412, R413, R422) -/

/-- The band of a cell reading in mV: 0 good, 1 removed, 2 reversed, 3 low (R412, R413). -/
def cellBand (s : State) (mv : Int) : Nat :=
  if mv < -300 then 2 else if mv < 500 then 1 else if mv < cellLow s then 3 else 0

/-- Samples in a row in one band, counted to 3. -/
def runOf (oldBand oldRun band : Nat) : Nat := if oldBand = band then min (oldRun + 1) 3 else 1

/-- The window closes (R422). -/
def closeWindow (s : State) : State := { s with tmp := { s.tmp with window := 0, removed := false } }

/-- The source of a cell's band. -/
def bandSource (cell band : Nat) : Nat := 11 + 3 * cell + (band - 1)

/-- CELL_SAMPLE: both cells are sampled; a band fires at its second sample in a row, and two good samples close a window
whose cell had been removed (R412, R413, R422). -/
def execCellSample (a b : Int) (s : State) : Res :=
  let t := s.tmp
  let x := cellBand s a
  let y := cellBand s b
  let ra := runOf t.bandA t.runA x
  let rb := runOf t.bandB t.runB y
  let raw := (t.raw &&& 0xFE07FF) ||| (if x = 0 then 0 else 2 ^ bandSource 0 x) ||| (if y = 0 then 0 else 2 ^ bandSource 1 y)
  let s := { s with tmp := { t with cellA := unsigned 16 a, cellB := unsigned 16 b, bandA := x, bandB := y, runA := ra, runB := rb, raw := raw } }
  let fa := if x ≠ 0 ∧ ra = 2 then [(bandSource 0 x, unsigned 16 a)] else []
  let fb := if y ≠ 0 ∧ rb = 2 then [(bandSource 1 y, unsigned 16 b)] else []
  let s := fireSources s (fa ++ fb)
  let good := (s.tmp.window = 1 && x = 0 && decide (2 ≤ ra)) || (s.tmp.window = 2 && y = 0 && decide (2 ≤ rb))
  .next (if good && s.tmp.removed then closeWindow s else s)

/-- TEMPERATURE_READING: the highest and the lowest sensor and the Well sensor, in 0.125 C; on cells the Well sensor
alone (R412, R413). -/
def execTemperatureReading (hi lo well : Int) (s : State) : Res :=
  let hi := if s.dev.power then hi else well
  let lo := if s.dev.power then lo else well
  let hot := if 8 * tempHigh s < hi then min (s.tmp.hot + 1) 3 else 0
  let cold := if lo < 8 * tempLow s then min (s.tmp.cold + 1) 3 else 0
  let raw := (s.tmp.raw &&& 0xFFFFFC) ||| b2n (decide (0 < hot)) ||| (2 * b2n (decide (0 < cold)))
  let s := { s with tmp := { s.tmp with hot := hot, cold := cold, raw := raw, temp := unsigned 8 (well / 8) } }
  .next (fireSources s ((if hot = 2 then [(0, unsigned 16 hi)] else []) ++ (if cold = 2 then [(1, unsigned 16 lo)] else [])))

/-- WELL_BROWN_OUT: the Well supply falls below 1.8 V, which it cannot while main power is valid (R519). -/
def execWellBrownOut (s : State) : Res :=
  if s.dev.power then .next s
  else
    let t := s.tmp
    let s := { s with well := {}, dev := { s.dev with logDue := false }, tmp := { raw := t.raw, cellA := t.cellA, cellB := t.cellB, temp := t.temp } }
    .next ((R.START_FAILS :: R.START_REASON :: (List.range 16).map R.START_LOG_n).foldl (fun (u : State) (a : Nat) => u.setReg a (resetVal a)) s)

/-! ### Commands (R419, R422, R425) -/

/-- A TMP_CMD: in Start and Halt only ZEROISE_ARM and ZEROISE_ALL (`always`) are accepted (R419). -/
def tmpCommand (always : Bool) (k : State → State × Status) (s : State) : Res :=
  .next (s.access R.TMP_CMD (fun s =>
    let (u, st) := if !always ∧ (s.dev.state = .start ∨ s.dev.state = .halt) then (s, .denied) else k s
    u.setFld R.TMP_STATUS F.TMP_STATUS_CMD_STATUS st.code))

/-- Every port is as at start step 8: UP_AT_START decides which of the ports planned then are held (R93, R419). -/
def portsAsAtStart (s : State) : State :=
  (List.range 32).foldl (fun (t : State) (p : Nat) => t.setPort p { t.port p with held := (t.port p).atStart && !(t.port p).upAtStart }) s

/-- Does a source with a response of 3 or above read 1 in TMP_RAW (R419)? -/
def rawSevere (s : State) : Bool := (List.range 24).any (fun src => bit s.tmp.raw src && decide (3 ≤ responseOf s src))

/-- TMP_RELEASE (R419). -/
def execTmpRelease (s : State) : Res :=
  tmpCommand false (fun s =>
    if (s.dev.state ≠ .active ∧ s.dev.state ≠ .standby ∧ s.dev.state ≠ .maintenance) ∨ rawSevere s then (s, .denied)
    else if s.tmp.inForce < 3 then ({ s with tmp := { s.tmp with pendingLvl := 0 } }, .ok)
    else
      let s := { s with tmp := { s.tmp with inForce := 0, pendingLvl := 0 } }
      (diagnose (portsAsAtStart s) 7 false, .ok)) s

/-- SERVICE_A and SERVICE_B: a window on cell `cell`, 1 A, 2 B; `other` is the other cell's last reading (R422). -/
def openWindow (cell : Nat) (s : State) : State × Status :=
  let other := signed 16 (if cell = 1 then s.tmp.cellB else s.tmp.cellA)
  let sec := s.fld R.TMP_WINDOW F.TMP_WINDOW_SECONDS
  if s.tmp.window ≠ 0 then (s, .busy)
  else if other < cellLow s then (s, .denied)
  else if sec = 0 ∨ windowMax s < sec then (s, .invalid)
  else
    let out := if cell = 1 then decide (s.tmp.bandA = 1 ∧ 2 ≤ s.tmp.runA) else decide (s.tmp.bandB = 1 ∧ 2 ≤ s.tmp.runB)
    ({ s with tmp := { s.tmp with window := cell, removed := out, windowSecs := sec } }, .ok)

/-- TMP_SERVICE_A (R422). -/
def execTmpServiceA (s : State) : Res := tmpCommand false (openWindow 1) s

/-- TMP_SERVICE_B (R422). -/
def execTmpServiceB (s : State) : Res := tmpCommand false (openWindow 2) s

/-- TMP_END_SERVICE (R422); the status with no window open is not stated, and free. -/
def execTmpEndService (s : State) : Res :=
  tmpCommand false (fun s =>
    if s.tmp.window ≠ 0 then (closeWindow s, .ok)
    else
      let (st, s) := freeStatus s [.ok, .denied, .invalid]
      (s, st)) s

/-- SERVICE_WINDOW_EXPIRY: the window's time runs out (R422). -/
def execServiceWindowExpiry (s : State) : Res := .next (closeWindow s)

/-- TMP_ZEROISE_ARM (R425). -/
def execTmpZeroiseArm (s : State) : Res := tmpCommand true (fun s => ({ s with tmp := { s.tmp with armed := true } }, .ok)) s

/-- TMP_ZEROISE_ALL, `late` when it comes more than 1 s after the arm, which it consumes in both cases (R425). -/
def execTmpZeroiseAll (late : Bool) (s : State) : Res :=
  tmpCommand true (fun s =>
    if !s.tmp.armed then (s, .denied)
    else
      let s := { s with tmp := { s.tmp with armed := false } }
      if late then (s, .expired) else (fireSource s 23, .ok)) s

/-- TMP_FLAGS_CLEAR: ones of a write to TMP_FLAGS clear source flags, and TAMPER_MAX when none is left; ignored in Start
and Halt (R419). -/
def execTmpFlagsClear (mask : Nat) (s : State) : Res :=
  .next (s.access R.TMP_FLAGS (fun s =>
    if s.dev.state = .start ∨ s.dev.state = .halt then s
    else
      let f := (s.tmp.flags &&& (2 ^ 24 - 1 - mask % 2 ^ 24))
      { s with tmp := { s.tmp with flags := f, max := if f = 0 then 0 else s.tmp.max } }))

/-! ### SMBus (R423) -/

/-- SMBUS_ZEROISE_WRITE: command 0xD5 with one data byte. -/
def execSmbusZeroiseWrite (data : Nat) (pecOk : Bool) (s : State) : Res :=
  if !s.dev.power then .next s
  else if data = 0x5A ∧ pecOk then .next { s with tmp := { s.tmp with smbArmed := true } }
  else
    let was := s.tmp.smbArmed
    let s := { s with tmp := { s.tmp with smbArmed := false } }
    .next (if data = 0xA5 ∧ pecOk ∧ was then fireSource s 21 else s)

/-- SMBUS_ZEROISE_ARM_EXPIRY: 100 ms after arming. -/
def execSmbusZeroiseArmExpiry (s : State) : Res := .next { s with tmp := { s.tmp with smbArmed := false } }

/-- TMP_FLAGS as it reads (R425). -/
def tmpFlags (s : State) : Nat := s.tmp.flags + 2 ^ 30 * b2n (decide (s.tmp.pendingLvl ≠ 0)) + 2 ^ 31 * b2n s.tmp.haltHold

/-- The 32 bytes of the black-box page (R423). -/
def smbusPage (s : State) : List Byte :=
  be 1 s.dev.state.code ++ be 1 (s.fld R.START_REASON F.START_REASON_CODE) ++ be 4 (tmpFlags s) ++ be 1 s.tmp.max ++ be 1 s.tmp.pendingLvl ++
  be 2 s.tmp.cellA ++ be 2 s.tmp.cellB ++ be 1 s.tmp.temp ++ be 3 0 ++ be 4 s.tmp.logCount ++ slice (s.tmp.log.headD []) 0 12

/-- SMBUS_STATUS_READ: served whenever main power is present. -/
def execSmbusStatusRead (s : State) : Res := .next (if s.dev.power then s.emit (.smbus (smbusPage s)) else s)

end Sys2Proof.Machine
end

