-- ==== Sys2Proof/Machine/Spill.lean ====
section
/-! DEFINITION. The cistern's commands: spilling and fetching back, errors and quarantine, rotation, scrub and repair
(08_cistern.md, R233 to R254). -/

namespace Sys2Proof.Machine

/-! ### Errors and quarantine (R250, R251, R261) -/

/-- CIS_ERR_LO and CIS_ERR_HI: the kind and the level of an event, and the address of block `b` (R238, R261). -/
def noteError (s : State) (kind level b : Nat) : State :=
  let k := (kget {} s.cistern.regions (b / 262144)).keyId
  let a := k * 2 ^ 36 + b * 64
  (s.setReg R.CIS_ERR_LO (BitVec.ofNat 32 a)).setReg R.CIS_ERR_HI (BitVec.ofNat 32 (kind * 2 ^ 28 + level % 4 * 2 ^ 26 + a / 2 ^ 32 % 1024))

/-- The dirty nodes of a subtree leave the cache; they are not lost, but kept for REINIT (R251). -/
def evict (c : Cistern) (q : Nat × Nat) : Cistern :=
  let mine (e : Nat) : Bool := inSubtree q (e / 2 ^ 32) (e % 2 ^ 32)
  { c with dirty := c.dirty.filter (fun e => !mine e), kept := c.dirty.filter mine ++ c.kept }

/-- A quarantined node is recorded in its region, which stops taking cells; the subtree's nodes leave the cache (R249, R251). -/
def quarRegion (c : Cistern) (r : Nat) (q : Nat × Nat) : Cistern :=
  let x := kget {} c.regions r
  if x.state = .active ∨ x.state = .draining ∨ x.state = .quarantined then
    evict { c with regions := kset {} c.regions r { x with state := .quarantined, quar := if x.quar.contains q then x.quar else q :: x.quar } } q
  else c

/-- The regions that node `n` of level `k` touches, each with the part of the subtree that lies in it (R239, R251). -/
def quarParts (k n : Nat) : List (Nat × (Nat × Nat)) :=
  if k = 3 then (List.range 64).map (fun i => (64 * n + i, (2, 64 * n + i))) else [((nodeSpan k n).1 / 262144, (k, n))]

/-- A level-3 node, which no one region holds, waits for the first of its regions that is released (R249, R251). -/
def loseTop (c : Cistern) (n : Nat) : Cistern :=
  let e := unitKey 3 n
  { c with lostTop := if c.lostTop.contains n then c.lostTop else n :: c.lostTop, dirty := c.dirty.filter (· ≠ e), kept := if c.dirty.contains e then e :: c.kept else c.kept }

/-- Quarantine of the subtree of node `n` of level `k` (R251): frames with a cell in it are dropped at their
fetch-back. -/
def quarantine (s : State) (k n : Nat) : State :=
  let c := (quarParts k n).foldl (fun (c : Cistern) (x : Nat × (Nat × Nat)) => quarRegion c x.1 x.2) s.cistern
  let hit := (quarParts k n).any (fun x => (kget {} c.regions x.1).state = .quarantined)
  let c := if k = 3 ∧ hit then loseTop c n else c
  let s := { s with cistern := c, frames := s.frames.map (fun e => (e.1, if e.2.cells.any (cellQuarantined c) then { e.2 with quarantined := true } else e.2)) }
  if hit then s.alarm R.CIS_ALARM F.CIS_ALARM_QUARANTINE else s

/-- The frame that owns block `b` is dropped and counted (R250). -/
def dropOwner (s : State) (c : Ctr) (b : Nat) : State :=
  let h := kget 0 s.cistern.cells (b / 4)
  if h = 0 then s else dropSpilled s c h

/-- A row that shows an uncorrectable error is queued for repair (R250, R254). -/
def queueRepair (s : State) (b : Nat) : State :=
  { s with cistern := { s.cistern with repairs := if s.cistern.repairs.contains b then s.cistern.repairs else s.cistern.repairs ++ [b] } }

/-- What an access to block `b` that finds `err` does (R250). -/
def onMemErr (s : State) (b : Nat) (err : MemErr) : State :=
  let node (k : Nat) : Nat := b / 64 ^ (k + 1)
  let at_ (k : Nat) : Nat := (nodeSpan k (node k)).1
  match err with
  | .none => s
  | .corrected n => s.countN (.cis 6) n
  | .dataUncorr => dropOwner (queueRepair ((noteError s 1 0 b).alarm R.CIS_ALARM F.CIS_ALARM_DATA_UE) b) (.cis 4) b
  | .dataTag => fireSource (dropOwner ((noteError s 3 0 b).alarm R.CIS_ALARM F.CIS_ALARM_TAG_FAIL) (.cis 5) b) 17
  | .dataTagLine => quarantine (noteError s 2 0 (at_ 0)) 0 (node 0)
  | .nodeUncorr k => quarantine ((noteError s 2 (k % 4) (at_ (k % 4))).alarm R.CIS_ALARM F.CIS_ALARM_NODE_UE) (k % 4) (node (k % 4))
  | .nodeTag k => fireSource (quarantine ((noteError s 4 (k % 4) (at_ (k % 4))).alarm R.CIS_ALARM F.CIS_ALARM_NODE_TAG_FAIL) (k % 4) (node (k % 4))) 17
  | .nodeTagLine k =>
    let first := node (k % 4) / 8 * 8
    (List.range 8).foldl (fun (u : State) (i : Nat) => quarantine u (k % 4) (first + i)) (noteError s 2 (k % 4) (nodeSpan (k % 4) first).1)
  | .rootWord => quarantine (noteError s 5 3 (at_ 3)) 3 (node 3)

/-- What the accesses of a command find at block `b`: `errs` lists it by block. -/
def touch (errs : List (Nat × MemErr)) (s : State) (b : Nat) : State :=
  errs.foldl (fun (u : State) (e : Nat × MemErr) => if e.1 = b then onMemErr u b e.2 else u) s

/-! ### Spilling and fetching back (R233 to R236) -/

/-- The other data blocks in use of a leaf, which an overflow reads and re-encrypts (R243). -/
def leafMates (c : Cistern) (b : Nat) : List Nat :=
  ((List.range 64).map (fun i => b / 64 * 64 + i)).filter (fun x => decide (x ≠ b) && decide (kget 0 c.cells (x / 4) ≠ 0) && decide (kget [] c.stack x ≠ []))

/-- Data block `b` of frame `h` written (R243): the leaf is brought in, on an overflow the other blocks of the leaf are read, and then come
the counter, the ciphertext and the tag. Nothing is written where the leaf is quarantined, or once the cell is no longer the frame's. -/
def writeBlock (errs : List (Nat × MemErr)) (h : Nat) (s : State) (b : Nat) (l : List Byte) : State :=
  let s := touch errs s b
  let s := if kget 0 s.cistern.minor (unitKey 0 b) = 127 then (leafMates s.cistern b).foldl (touch errs) s else s
  if kget 0 s.cistern.cells (b / 4) ≠ h ∨ cellQuarantined s.cistern (b / 4) then s
  else
    let (c, wrapped) := advance s.cistern 0 b
    let s := { s with cistern := sealBlock c b l }
    if wrapped then s.count (.cis 7) else s

/-- The 64 bytes of block `i` of a frame. -/
def frameBlock (l : List Byte) (i : Nat) : List Byte := slice l (64 * i) 64

/-- The blocks of one cell written with the bytes of a frame from block `4 k` of it on. -/
def writeCell (errs : List (Nat × MemErr)) (h : Nat) (l : List Byte) (s : State) (x : Nat × Nat) : State :=
  (List.range 4).foldl (fun (u : State) (i : Nat) =>
    if 64 * (4 * x.2 + i) < l.length then writeBlock errs h u (4 * x.1 + i) (frameBlock l (4 * x.2 + i)) else u) s

/-- SPILL: frame `h` is written to cells of its owner (R233, R235, R243); `errs` is what the accesses find, by block: to the leaves of the
blocks written, and to the blocks that an overflow reads. -/
def execSpill (h : Nat) (errs : List (Nat × MemErr)) (s : State) : Res :=
  if !maySpill s h then .next s
  else
    let l := (s.frame h).bytes
    match allocCells s (frameOwner s (s.frame h)) h (cisternCells (s.frame h)) with
    | none => .next ((s.alarm R.CIS_ALARM F.CIS_ALARM_FULL).count (.cis 9))
    | some (cells, s) =>
      let s := s.setFrame h { s.frame h with cells := cells, staged := [], quarantined := false }
      .next (cells.zipIdx.foldl (writeCell errs h l) s)

/-- The cells of frame `h` go back and it is no longer in the cistern. -/
def unspill (s : State) (h : Nat) : State :=
  let t := s.freeCells h
  t.setFrame h { t.frame h with cells := [], spilled := false, staged := [], quarantined := false }

/-- SPILL_WRITE_ACK: the cells are written; the forebay cells are freed, unless the frame has left its queue meanwhile
(R233). `phase` is the time to the next sweep (R236). -/
def execSpillWriteAck (h phase : Nat) (s : State) : Res :=
  let f := s.frame h
  if f.cells = [] ∨ f.spilled then .next s
  else if s.cistern.state = 1 ∧ (jobsOf s h).all (fun x => x.stage = .queued) then
    .next ((s.setFrame h { f with spilled := true, spillTime := phase % 11 }).count (.cis 0))
  else .next (unspill s h)

/-- Does another spilled frame stand ahead in a queue that frame `h` waits in? Fetch-back keeps queue order (R234). -/
def spilledAhead (s : State) (x : Job) : Bool :=
  s.jobs.any (fun e => e.2.stage = .queued && e.2.sub = x.sub && e.2.cls = x.cls && decide (e.2.order < x.order) && (s.frame e.2.frame).spilled)

/-- Is a spilled frame due for fetch-back: in some queue it is the first one spilled, and within PREFETCH_KIB of the head (R234)? -/
def fetchDue (s : State) (h : Nat) : Bool :=
  (s.frame h).spilled && (jobsOf s h).any (fun x => decide (bytesAhead s x ≤ prefetchBytes s) && !spilledAhead s x)

/-- A cell of frame `h` is decrypted into its staging; with the last one the frame is whole in the forebay again. -/
def stageCell (s : State) (h : Nat) : State :=
  let f := s.frame h
  let cell := f.cells.getD (f.staged.length / 256) 0
  let l := f.staged ++ (List.range 4).flatMap (fun (i : Nat) => openBlock s.cistern (4 * cell + i))
  if f.bytes.length ≤ l.length then
    let n := f.bytes.length
    let s := unspill s h
    (s.setFrame h { s.frame h with bytes := l.take n }).count (.cis 1)
  else s.setFrame h { f with staged := l }

/-- FETCH_BACK_COMPLETE: the next cell of frame `h` has been read with the outcome `err` (R234, R244, R250, R251). -/
def execFetchBackComplete (h : Nat) (err : MemErr) (s : State) : Res :=
  let f := s.frame h
  if !fetchDue s h then .next s
  else if f.quarantined then .next (dropSpilled s (.cis 3) h)
  else
    let s := onMemErr s (4 * f.cells.getD (f.staged.length / 256) 0) err
    .next (match err with
      | .none => stageCell s h
      | .corrected _ => stageCell s h
      | .dataUncorr => s
      | .dataTag => s
      | _ => if (s.frame h).quarantined then dropSpilled s (.cis 3) h else s)

/-- NODE_WRITE_BACK: dirty node `n` of level `k` is written back and its counter in the parent advances; on an overflow of the parent its
children are read and tagged anew. `errs` is what the accesses find, by the first block of each node (R243). -/
def execNodeWriteBack (k n : Nat) (errs : List (Nat × MemErr)) (s : State) : Res :=
  if k ≤ 3 ∧ s.cistern.dirty.contains (unitKey k n) then
    let s := touch errs s (nodeSpan k n).1
    let mates := if k < 3 ∧ kget 0 s.cistern.minor (unitKey (k + 1) n) = 127 then ((List.range 64).map (fun i => n / 64 * 64 + i)).filter (· ≠ n) else []
    let s := mates.foldl (fun (u : State) m => touch errs u (nodeSpan k m).1) s
    if s.cistern.dirty.contains (unitKey k n) then
      let (c, _) := advance s.cistern (k + 1) n
      .next { s with cistern := sealNode { c with dirty := c.dirty.filter (· ≠ unitKey k n) } k n }
    else .next s
  else .next s

/-- One visit of the age sweep (R236). -/
def sweepFrame (s : State) (h : Nat) : State :=
  let f := s.frame h
  if s.fld R.CIS_ROT F.CIS_ROT_MAX_AGE_MS < f.spillTime then (dropSpilled s (.cis 2) h).alarm R.CIS_ALARM F.CIS_ALARM_AGED
  else s.setFrame h { f with spillTime := f.spillTime + 10 }

/-- CISTERN_AGE_SWEEP (R236). -/
def execCisternAgeSweep (s : State) : Res := .next ((spilledFrames s).foldl sweepFrame s)

/-! ### Commands (R247, R258) -/

/-- A CIS_CMD: ignored while BUSY, DENIED in FAILED (R258). -/
def cisCommand (k : State → State × Status) (s : State) : Res :=
  .next (s.access R.CIS_CMD (fun s =>
    if s.flag R.CIS_STATUS F.CIS_STATUS_BUSY then s
    else
      let (u, st) := if s.cistern.state = 2 then (s, .denied) else k s
      u.setFld R.CIS_STATUS F.CIS_STATUS_STATUS st.code))

/-- CIS_ROTATE (R247, R258). -/
def execCisRotate (owner : Nat) (s : State) : Res :=
  cisCommand (fun s =>
    if owner = 0 ∨ 6 < owner ∨ (regionsOf s.cistern owner).isEmpty then (s, .notFound)
    else match rotate s owner with
      | some t => (t, .ok)
      | none => (s, .full)) s

/-- SCRUB_NOW: BUSY until the pass ends (R253, R258). -/
def execScrubNow (s : State) : Res := cisCommand (fun s => (s.setFld R.CIS_STATUS F.CIS_STATUS_BUSY 1, .ok)) s

/-- TIMED_ROTATION: ROT_H hours after the owner's last rotation, or a retry of it (R247). -/
def execTimedRotation (owner : Nat) (s : State) : Res :=
  if s.fld R.CIS_ROT F.CIS_ROT_ROT_H = 0 ∨ s.cistern.state ≠ 1 ∨ owner = 0 ∨ 6 < owner ∨ (regionsOf s.cistern owner).isEmpty then .next s
  else .next ((rotate s owner).getD s)

/-! ### Emptying of key IDs and regions (R247 to R249) -/

/-- A DRAINING region without cells takes the owner's current ID, or goes to REINIT (R249). -/
def drained (c : Cistern) (r : Nat) : Cistern :=
  let x := kget {} c.regions r
  if x.state = .draining ∧ regionCells c r = 0 then
    match currentId c x.owner with
    | some k => retag c r k
    | none => c
  else c

/-- REGION_DRAIN_COMPLETE (R249). -/
def execRegionDrainComplete (r : Nat) (s : State) : Res := .next { s with cistern := drained s.cistern r }

/-- A node written back under the next value of its counter in its parent. -/
def writeBackNode (c : Cistern) (k n : Nat) : Cistern := sealNode (advance c (k + 1) n).1 k n

/-- The quarantined nodes of the subtree of node `q`, a level and an index, zeroed and tagged anew, and the counter of `q` in its parent
advanced; the nodes that were kept are written back instead (R249, R251). What the data blocks held is gone. -/
def zeroSubtree (c : Cistern) (q : Nat × Nat) : Cistern :=
  let mine (e : Nat) : Bool := inSubtree q (e / 2 ^ 32) (e % 2 ^ 32)
  let lost (e : Nat) : Bool := mine e && !c.kept.contains e
  let back := [0, 1, 2].flatMap (fun k => c.kept.filter (fun e => decide (e / 2 ^ 32 = k) && mine e && decide (e ≠ unitKey q.1 q.2)))
  let c := { c with
    major := c.major.filter (fun e => !lost e.1)
    minor := c.minor.filter (fun e => !lost (unitKey (e.1 / 2 ^ 32) (e.1 % 2 ^ 32 / 64)))
    nodeTags := c.nodeTags.filter (fun e => !mine e.1)
    kept := c.kept.filter (fun e => !mine e)
    stack := c.stack.filter (fun e => !inSubtree q 0 (e.1 / 64)) }
  let c := back.foldl (fun c e => writeBackNode c (e / 2 ^ 32) (e % 2 ^ 32)) c
  writeBackNode c q.1 q.2

/-- A quarantined level-3 node is zeroed, unless it was kept, and tagged anew with the first of its regions that is released; the counter
of it in the root advances (R249). -/
def zeroTop (c : Cistern) (n : Nat) : Cistern :=
  if c.lostTop.contains n then
    let e := unitKey 3 n
    let c := if c.kept.contains e then c else zeroMinors { c with major := kdel c.major e } 3 n
    writeBackNode { c with kept := c.kept.filter (· ≠ e), lostTop := c.lostTop.filter (· ≠ n) } 3 n
  else c

/-- A QUARANTINED region whose key ID goes EMPTY is made usable again from its owner's next rotation on (R249). -/
def reinitRegion (c : Cistern) (r : Nat) : Cistern :=
  let x := kget {} c.regions r
  let c := x.quar.foldl zeroSubtree (zeroTop c (r / 64))
  { c with cells := c.cells.filter (fun e => e.1 / 65536 ≠ r), regions := kset {} c.regions r { x with state := .reinit, quar := [], born := c.serial + 1 } }

/-- KEYID_RETIRE_COMPLETE: a RETIRING key ID under which no cell remains becomes EMPTY (R247, R249). -/
def execKeyidRetireComplete (k : Nat) (s : State) : Res :=
  let c := s.cistern
  if (kget {} c.keyIds k).state = .retiring ∧ soundCells c k = 0 then
    let mine (st : RegionState) (c : Cistern) : List Nat := kkeys (fun (x : Region) => x.keyId = k && x.state = st) c.regions
    let c := (mine .draining c).foldl drained c
    let c := (mine .quarantined c).foldl reinitRegion c
    .next { s with cistern := { c with keyIds := kdel c.keyIds k } }
  else .next s

/-! ### Scrub, repair and failure (R252 to R254) -/

/-- SCRUB_VISIT: the scrubber reads block `b`, judging ECC alone; `passEnd` when the pass ends with it (R253). -/
def execScrubVisit (b : Nat) (err : MemErr) (passEnd : Bool) (s : State) : Res :=
  let busy := s.flag R.CIS_STATUS F.CIS_STATUS_BUSY
  if s.cistern.state ≠ 1 ∨ 469762048 ≤ b ∨ (!busy ∧ !s.flag R.CIS_SCRUB F.CIS_SCRUB_SCRUB_EN) then .next s
  else
    let s := match err with
      | .dataTag => s
      | .nodeTag _ => s
      | _ => onMemErr s b err
    .next (if passEnd then s.setFld R.CIS_STATUS F.CIS_STATUS_BUSY 0 else s)

/-- A field of CIS_PPR counted up to its maximum. -/
def bumpPpr (s : State) (f : Fld) : State := s.setFld R.CIS_PPR f (min 255 (s.fld R.CIS_PPR f + 1))

/-- The cistern fails: every spilled frame is dropped, frames that are being written stay in the forebay, no further frame spills,
and diagnosis CISTERN fails (R252, R443). -/
def cisternFails (s : State) : State :=
  diagnose (dropAllSpilled (abortSpills ({ s with cistern := { s.cistern with state := 2 } }.alarm R.CIS_ALARM F.CIS_ALARM_STACK_FAIL))) 4 true

/-- A row of stack `k` finds no spare row in its bank; with the 65th the cistern fails (R252, R254). -/
def repairFails (s : State) (k : Nat) (cells : List Nat) (isData : Bool) : State :=
  let s := (bumpPpr s F.CIS_PPR_FAILED).alarm R.CIS_ALARM F.CIS_ALARM_PPR_FAIL
  let n := kget 0 s.cistern.failedRows k + 1
  let s := { s with cistern := { s.cistern with failedRows := kset 0 s.cistern.failedRows k n, outCells := if isData then cells ++ s.cistern.outCells else s.cistern.outCells } }
  if 64 < n then cisternFails s else s

/-- ROW_REPAIR: a row of stack `k` that holds `cells`, if it is a data row, is repaired; `spareLeft` when its bank has a spare row
(R254). -/
def execRowRepair (k : Nat) (cells : List Nat) (isData spareLeft : Bool) (s : State) : Res :=
  if s.cistern.state ≠ 1 then .next s
  else
    let s := if isData then { s with cistern := { s.cistern with repairs := s.cistern.repairs.filter (fun b => !cells.contains (b / 4)) } } else s
    .next (if spareLeft then (bumpPpr (bumpPpr s F.CIS_PPR_SOFT_DONE) F.CIS_PPR_HARD_PENDING).count (.cis 8) else repairFails s (k % 2) cells isData)

/-- STACK_FAIL: the cistern enters FAILED (R252). -/
def execStackFail (s : State) : Res := .next (if s.cistern.state = 1 then cisternFails s else s)

end Sys2Proof.Machine
end

