-- ==== Sys2Proof/Machine/Keys.lean ====
section
/-! DEFINITION. The key store: owner keys, the key log, the update counter, key-update messages, identity, attestation
and the mailbox (13_keys_and_attestation.md, R365 to R391). -/

namespace Sys2Proof.Machine

/-! ### Owner keys (R365 to R368) -/

/-- The destinations that a type permits; none for an unknown type (R366). -/
def destMask (typ : Nat) : Option Nat :=
  if typ = 0x01 then some 0xC4
  else if (0x10 ≤ typ ∧ typ ≤ 0x13) ∨ typ = 0x20 then some 0x30
  else if typ = 0x30 ∨ typ = 0x31 then some 0x20
  else if typ = 0x38 ∨ typ = 0x39 then some 0x10
  else none

/-- Is a destination mask non-empty and within its type's (R367)? -/
def destOk (typ dest : Nat) : Bool :=
  match destMask typ with
  | some m => dest ≠ 0 && dest &&& m = dest
  | none => false

/-- The curve of a handle key of type 0x10 to 0x13. -/
def curveOfKey (s : State) (typ param : Nat) : Option Curve :=
  if typ = 0x10 then some p256
  else if typ = 0x11 then some p384
  else if typ = 0x12 then some p521
  else if kget {} s.pke.curves param = {} then none else some (kget {} s.pke.curves param)

/-- Bytes of key material of a type (R366). -/
def materialSize (s : State) (typ param : Nat) : Except Status Nat :=
  if typ = 0x13 then
    if 16 ≤ param then .error .invalid
    else match curveOfKey s typ param with
      | some c => .ok ((bitLen c.n + 7) / 8)
      | none => .error .notFound
  else if typ = 0x20 then (if 2048 ≤ param ∧ param ≤ 4096 ∧ param % 64 = 0 then .ok (param / 8 + 4) else .error .invalid)
  else if (destMask typ).isNone ∨ param ≠ 0 then .error .invalid
  else .ok (if typ = 0x11 then 48 else if typ = 0x12 then 66 else if typ = 0x30 ∨ typ = 0x31 then 64 else 32)

/-- The checks of installed material (R366, R403). -/
def materialOk (s : State) (typ param : Nat) (m : List Byte) : Bool :=
  if 0x10 ≤ typ ∧ typ ≤ 0x13 then
    match curveOfKey s typ param with
    | some c => decide (1 ≤ beVal m) && decide (beVal m < c.n)
    | none => false
  else if typ = 0x20 then rsaOk s.freeCtr param (rsaOf param m)
  else true

/-- What a handle names (R365): an owner handle, a handle of the device itself (DENIED), or neither (NOT_FOUND). -/
def handleStatus (h : Nat) : Status :=
  if 0xFFFFFF01 ≤ h ∧ h ≤ 0xFFFFFF04 then .denied else if 1 ≤ h ∧ h ≤ 0xFFF then .ok else .notFound

/-- Is a handle in a use that forbids its deletion (R381): ROOT of a valid association, MASTER of an enabled trunk,
pairing key of a configured pair? -/
def inUse (s : State) (h : Nat) : Bool :=
  s.txAssocs.any (fun e => e.2.valid && e.2.record.root = h) || s.rxAssocs.any (fun e => e.2.valid && e.2.record.root = h) ||
  (List.range 4).any (fun t => s.flag (R.CAS_CFG t) F.CAS_CFG_ENABLE && masterHandle s t = h) || (pairOn s && s.pair.pairKey = h)

/-- An inventory entry (R386). -/
def infoEntry (h : Nat) (k : OwnerKey) : List Byte :=
  be 4 h ++ be 1 k.typ ++ be 1 k.dest ++ be 2 (b2n k.persist + 256 * k.origin) ++ be 4 k.gen ++ be 4 k.param

/-- An owner key set under a handle, or removed. -/
def State.setOwner (s : State) (h : Nat) (k : OwnerKey) : State := { s with owner := kset {} s.owner h k }

/-! ### The key log (R372 to R374) -/

/-- A record to be written: OP 1 PUT or 2 DELETE, with its handle and key (R373). -/
structure LogItem where
  op : Nat
  handle : Nat
  key : OwnerKey := {}
  deriving DecidableEq, Repr

/-- A key log record with a sequence number, under an IV (R373). -/
def logRecord (kw : List Byte) (seq : Nat) (iv : List Byte) (x : LogItem) : List Byte :=
  let k := x.key
  let m := if x.op = 1 then k.material else []
  let h := be 6 seq ++ be 1 x.op ++ be 1 0 ++ be 4 x.handle ++ be 1 k.typ ++ be 1 k.dest ++ be 2 (1 + 256 * k.origin) ++ be 4 k.param ++ be 4 k.gen ++
    be 2 m.length ++ be 6 0 ++ slice iv 0 12 ++ be 4 0
  let c := gcmCrypt kw iv m
  let r := h ++ c ++ gcmTagOf kw iv h c
  slice r 0 (roundUp r.length 16)

/-- Bytes that a record takes. -/
def LogItem.size (x : LogItem) : Nat := roundUp (64 + (if x.op = 1 then x.key.material.length else 0)) 16

/-- The records of a copy: 0 A, 1 B. -/
def KeyLog.copy (l : KeyLog) (n : Nat) : List (List Byte) := if n = 0 then l.copyA else l.copyB
def KeyLog.setCopy (l : KeyLog) (n : Nat) (r : List (List Byte)) : KeyLog := if n = 0 then { l with copyA := r } else { l with copyB := r }

/-- A record appended to the active copy and confirmed in KSEQ (R374). -/
def logAppend (s : State) (x : LogItem) : State :=
  let l := s.keyLog
  let r := logRecord s.wrapKey (s.well.kseq + 1) (s.freeBytes 12) x
  { s.useFree with keyLog := l.setCopy l.active (l.copy l.active ++ [r]), well := { s.well with kseq := s.well.kseq + 1 } }

/-- COMMIT (R373). -/
def commitItem : LogItem := { op := 3, handle := 0 }

/-- The live persisted keys as PUT items, in handle order. -/
def livePuts (s : State) : List LogItem := (s.owner.filter (fun e => e.2.persist)).map (fun e => { op := 1, handle := e.1, key := e.2 })

/-- Compaction into the other copy; the full copy is erased after the COMMIT (R372). -/
def logCompact (s : State) : State :=
  let old := s.keyLog.active
  let s := { s with keyLog := { s.keyLog.setCopy (1 - old) [] with active := 1 - old } }
  let s := (livePuts s ++ [commitItem]).foldl logAppend s
  { s with keyLog := s.keyLog.setCopy old [] }

/-- A batch of records written, ended by its COMMIT; a batch that does not fit the copy is preceded by a compaction
(R372). Nothing is written for an empty batch. -/
def logBatch (s : State) (l : List LogItem) : State :=
  if l = [] then s
  else
    let used := ((s.keyLog.copy s.keyLog.active).map List.length).sum
    let need := ((l ++ [commitItem]).map LogItem.size).sum
    let s := if 4 * 2 ^ 20 < used + need then logCompact s else s
    (l ++ [commitItem]).foldl logAppend s

/-- May a batch be written: its write succeeds, and the DRBG gives its IVs (R369, R373)? A failed write sets
KST_ALARM.KEY_LOG. -/
def tryBatch (s : State) (l : List LogItem) (logOk : Bool) : State × Bool :=
  if l = [] then (s, true)
  else if s.drbgDown then (s, false)
  else if logOk then (logBatch s l, true)
  else (s.alarm R.KST_ALARM F.KST_ALARM_KEY_LOG, false)

/-! ### The update counter (R375 to R377) -/

/-- E (R375). -/
def State.epoch (s : State) : Nat := match s.fuses.blown with
  | [] => 0
  | l => l.foldl max 0 + 1

/-- S (R375). -/
def State.counterS (s : State) : Nat := s.epoch * 2 ^ 32 + s.well.w

/-- Up to `n` attempts on the fuses from `i` on, `outs` saying which blow; true when one has blown (R375, R376). A failed
fuse sets KST_ALARM.FUSE. -/
def tryFuses (s : State) (i : Nat) (outs : List Bool) : Nat → State × Bool
  | 0 => (s, false)
  | n + 1 =>
    if i < 255 ∧ outs.headD true then ({ s with fuses := { s.fuses with blown := i :: s.fuses.blown } }, true)
    else
      let s := s.alarm R.KST_ALARM F.KST_ALARM_FUSE
      tryFuses (if i < 255 then { s with fuses := { s.fuses with failed := i :: s.fuses.failed } } else s) (i + 1) outs.tail n

/-- The next epoch fuse is blown; after three failures the device is update-exhausted (R375 to R377). -/
def blowEpoch (s : State) (outs : List Bool) : State × Bool :=
  let (s, good) := tryFuses s s.epoch outs 3
  if good then (s, true) else ({ s with fuses := { s.fuses with exhausted := true } }, false)

/-- The counter committed (R376), `none` of the epoch when it stays. -/
def commitCounter (s : State) (ec wc : Nat) (outs : List Bool) : State × Bool :=
  let (s, good) := if ec = s.epoch + 1 then blowEpoch s outs else (s, true)
  if good then ({ s with well := { s.well with w := wc } }, true) else (s, false)

/-! ### Key-update messages (R379 to R382) -/

/-- The items of a payload (R381): type and body, or the index of the first that is malformed. -/
def parseItems (l : List Byte) (i : Nat) : Nat → Except Nat (List (Nat × List Byte))
  | 0 => if l = [] then .ok [] else .error i
  | fuel + 1 =>
    if l = [] then .ok []
    else
      let len := beAt l 2 2
      let full := 8 + roundUp len 8
      if l.length < 8 ∨ l.length < full ∨ beAt l 4 4 ≠ 0 ∨ !allZero (slice l (8 + len) (roundUp len 8 - len)) then .error i
      else match parseItems (l.drop full) (i + 1) fuel with
        | .ok r => .ok ((beAt l 0 2, slice l 8 len) :: r)
        | .error e => .error e

/-- A slot load of a message (R381). -/
structure SlotLoad where
  rx : Bool
  assoc : Nat
  slot : Nat
  item : Nat
  x : Slot
  deriving DecidableEq, Repr

/-- What the items judged so far give: the state with their keys live and their slots taken, their key log records and
their slot loads. -/
structure Judged where
  s : State
  log : List LogItem := []
  loads : List SlotLoad := []

/-- A PUT_KEY item (R366 to R368, R381). -/
def judgePut (j : Judged) (b : List Byte) : Except Status Judged :=
  let s := j.s
  let h := beAt b 0 4
  let typ := beAt b 4 1
  let persist := bit (beAt b 6 2) 0
  let m := b.drop 16
  let k : OwnerKey := { typ := typ, dest := beAt b 5 1, param := beAt b 8 4, gen := beAt b 12 4, origin := 2, persist := persist, material := m }
  if b.length < 16 ∨ 4 ≤ beAt b 6 2 then .error .invalid
  else if handleStatus h ≠ .ok then .error (handleStatus h)
  else match materialSize s typ k.param with
    | .error e => .error e
    | .ok n =>
      if m.length ≠ n ∨ !destOk typ k.dest ∨ !materialOk s typ k.param m then .error .invalid
      else
        let old := s.ownerKey h
        let replaces := match old with
          | some o => bit (beAt b 6 2) 1 && o.typ = typ && o.dest = k.dest && decide (o.gen < k.gen)
          | none => true
        if !replaces then .error .conflict
        else
          let wasPersisted := match old with
            | some o => o.persist
            | none => false
          let rec_ := if persist then [({ op := 1, handle := h, key := k } : LogItem)] else if wasPersisted then [{ op := 2, handle := h }] else []
          .ok { j with s := s.setOwner h k, log := j.log ++ rec_ }

/-- A DELETE_KEY item (R381). -/
def judgeDelete (j : Judged) (b : List Byte) : Except Status Judged :=
  let h := beAt b 0 4
  if b.length ≠ 8 ∨ beAt b 4 4 ≠ 0 then .error .invalid
  else if handleStatus h ≠ .ok then .error (handleStatus h)
  else match j.s.ownerKey h with
    | none => .error .notFound
    | some k => if inUse j.s h then .error .denied else .ok { j with s := j.s.setOwner h {}, log := j.log ++ (if k.persist then [{ op := 2, handle := h }] else []) }

/-- A SLOT_KEY item (R169, R171, R175, R178, R381). A transmit load does not begin while the partner is LOST (R427). -/
def judgeSlot (j : Judged) (n : Nat) (b : List Byte) : Except Status Judged :=
  let s := j.s
  let rx := beAt b 0 1 = 1
  let k := beAt b 1 1
  let i := beAt b 2 2
  let a := s.assoc rx i
  let r := a.record
  let kb := keyBytes r.suite
  let x : Slot := { an := beAt b 4 1, origin := 2, spi := beAt b 8 4, gen := beAt b 12 4, key := slice b 16 kb, salt := b.drop (16 + kb), upd := some n }
  if b.length < 16 ∨ 2 ≤ beAt b 0 1 ∨ 2 ≤ k ∨ 16384 ≤ i ∨ beAt b 5 3 ≠ 0 ∨ x.gen = 0 then .error .invalid
  else if (sliceOfAssoc s i).isSome then .error .denied
  else if !a.valid then .error .notFound
  else if b.length ≠ 16 + kb + saltBytes r.kind r.suite then .error .invalid
  else if (if r.kind = 0 then 4 ≤ x.an ∨ x.spi ≠ 0 else x.an ≠ 0) then .error .invalid
  else if (a.slot k).state ≠ .empty then .error .full
  else if clashes s rx i k x.an x.spi r.root then .error .invalid
  else if !rx ∧ s.pair.partner = .lost then .error .busy
  else match loadGen s rx a 0 (ctxOf r x.spi) x.gen with
    | .error e => .error e
    | .ok _ => .ok { j with s := putSlot s rx i k { x with state := .loading }, loads := j.loads ++ [{ rx := rx, assoc := i, slot := k, item := n, x := x }] }

/-- The items judged in order, each against the state left by the items before it; the index and code of the first that
fails (R382, step 8). -/
def judgeItems (j : Judged) (n : Nat) : List (Nat × List Byte) → Except (Nat × Status) Judged
  | [] => .ok j
  | (t, b) :: r =>
    match (if t = 1 then judgePut j b else if t = 2 then judgeDelete j b else if t = 3 then judgeSlot j n b else .error .invalid) with
    | .ok j => judgeItems j (n + 1) r
    | .error e => .error (n, e)

/-- The format of a message whose first bytes are `m`, for a length `len` (R379, R382 step 1). -/
def messageFormat (len : Nat) (m : List Byte) : Bool :=
  let p := beAt m 12 4
  let sig := 1784 + p
  decide (beAt m 0 4 = 0x4D4C554D) && decide (beAt m 4 2 = 1) && decide (beAt m 6 2 = 0) && decide (beAt m 8 4 = len) && decide (8 ≤ p) &&
  decide (p ≤ 1048576) && decide (p % 8 = 0) && decide (len = 9216 + p) && decide (beAt m 64 3 = 0) && decide (beAt m 73 7 = 0) &&
  decide (beAt m 1745 7 = 0) && decide (beAt m 1764 4 = 0) && decide (beAt m sig 4 = 0x4D4C5353) && decide (beAt m (sig + 4) 4 = 0x1D08) &&
  decide (beAt m (sig + 105) 7 = 0) && decide (beAt m (sig + 7427) 5 = 0)

/-- The owner's hybrid signature in a block at offset `o` of `m`, over a digest (R66, R67). -/
def ownerSigned (m : List Byte) (o : Nat) (d : List Byte) : Bool :=
  let ec := slice m (o + 8) 97
  let ml := slice m (o + 112) 2592
  let sig := slice m (o + 2704) 96
  decide (sha384 (ec ++ ml) = slice Config.ownerDigest 0 48) && p384.valid (p384.dec ec) &&
  p384.verify (p384.dec ec) d (beAt sig 0 48) (beAt sig 48 48) && Config.mldsaEncoded true ml (slice m (o + 2800) 4627) &&
  Config.mldsaVerify true ml [] d (slice m (o + 2800) 4627)

/-- The transport key (R380); none when EPH_PUB is not a valid point. -/
def transportKey (s : State) (m : List Byte) : Option (List Byte) :=
  let a := agreeSecret s.epoch
  let q := p384.dec (slice m 80 97)
  if beAt m 80 1 = 4 ∧ p384.valid q ∧ s.ident.agree then
    let zec := p384.xBytes (p384.mul (scalar384 a) q)
    let zkem := slice (Config.kemDecap true (slice a 48 64) (slice m 177 1568)) 0 32
    some (kdf (sha384 (zkem ++ zec) |>.take 32) (ascii "MELSAR TRANSPORT") (sha384 (slice m 0 1752)) 32)
  else none

/-- Steps 1 to 8 of R382: the step, the DETAIL and the code of the first failure, or what the items give. -/
def judgeMessage (s : State) (len : Nat) (bytes : List Byte) : Except (Nat × Nat × Status) Judged :=
  let p := beAt bytes 12 4
  if len ≠ 9216 + p ∨ 1048576 < p then .error (1, 0, .invalid)
  else
    let m := slice bytes 0 len
    let c := beAt m 67 5
    if !messageFormat len m then .error (1, 0, .invalid)
    else if !ownerSigned m (1784 + p) (sha384 (slice m 0 (1784 + p))) then .error (2, 0, .integrity)
    else if s.fuses.exhausted then .error (3, 0, .exhausted)
    else if slice m 16 48 ≠ identityDigest then .error (4, 0, .denied)
    else if beAt m 72 1 ≠ s.epoch then .error (5, 0, .denied)
    else if c ≤ s.counterS ∨ s.epoch + 1 < c / 2 ^ 32 then .error (6, 0, .denied)
    else match transportKey s m with
      | none => .error (7, 0, .invalid)
      | some kt =>
        let iv := slice m 1752 12
        let ct := slice m 1768 p
        if gcmTagOf kt iv (slice m 0 1768) ct ≠ slice m (1768 + p) 16 then .error (7, 0, .integrity)
        else match parseItems (gcmCrypt kt iv ct) 0 256 with
          | .error n => .error (8, n, .invalid)
          | .ok items => match judgeItems { s := s } 0 items with
            | .ok j => .ok j
            | .error (n, e) => .error (8, n, e)

/-! ### The mailbox (R388, R390) -/

/-- An operation ends: STEP, DETAIL and STATUS are reported, and vector 3 fires (R390, R464). -/
def kstEnd (s : State) (step detail : Nat) (st : Status) : State :=
  kstDone (((s.setFld R.KST_STATUS F.KST_STATUS_STEP step).setFld R.KST_STATUS F.KST_STATUS_DETAIL (detail % 256)).setFld R.KST_STATUS F.KST_STATUS_STATUS st.code)

/-- The host address of the mailbox. -/
def kstAddr (s : State) : Nat := s.reg64 R.KST_ADDR_LO R.KST_ADDR_HI

/-- A mailbox operation (R388): ignored while BUSY; BUSY during an MC restart; DENIED in Start and in the states that do
not serve it, in Start by `State.deny`. -/
def kstCommand (served : List DevState) (k : State → State) (s : State) : Res :=
  .next (s.access R.KST_CMD (fun s =>
    if s.flag R.KST_STATUS F.KST_STATUS_BUSY then s
    else if !s.dev.mcUp then kstEnd s 0 0 .busy
    else if !served.contains s.dev.state then kstEnd s 0 0 .denied
    else k s))

/-- States that serve every operation. -/
def kstStates : List DevState := [.maintenance, .active, .standby]

/-- An UPDATE ends at a step (R382): refusals are counted, INTEGRITY and DENIED set KST_ALARM.UPD_REJECT. -/
def updateEnd (s : State) (step detail : Nat) (st : Status) : State :=
  let s := if st = .integrity ∨ st = .denied then s.alarm R.KST_ALARM F.KST_ALARM_UPD_REJECT else s
  kstEnd s step detail st

/-- A slot load of a message begins (R178, R382); on a standby the key is held for the active device's record (R439). -/
def beginLoad (s : State) (x : SlotLoad) : State :=
  if s.dev.state = .standby then
    s.modPair (fun p => { p with heldKeys := { rx := x.rx, assoc := x.assoc, an := x.x.an, spi := x.x.spi, gen := x.x.gen, key := x.x.key, salt := x.x.salt } :: p.heldKeys })
  else startLoad s x.rx x.assoc x.slot x.x

/-- Steps 9 to 11 of R382. -/
def applyMessage (s : State) (j : Judged) (c : Nat) (fuses : List Bool) (logOk : Bool) : State :=
  match commitCounter s (c / 2 ^ 32) (c % 2 ^ 32) fuses with
  | (s, false) => updateEnd (s.count (.dev 11)) 9 0 .aborted
  | (s, true) =>
    let s := s.count (.dev 10)
    match tryBatch s j.log logOk with
    | (s, false) => updateEnd (if s.counterS = 2 ^ 40 - 1 then { s with fuses := { s.fuses with exhausted := true } } else s) 10 0 .aborted
    | (s, true) =>
      let s := j.loads.foldl beginLoad { s with owner := j.s.owner }
      let s := if s.counterS = 2 ^ 40 - 1 then { s with fuses := { s.fuses with exhausted := true } } else s
      if updateWaits s then
        (((s.setFld R.KST_STATUS F.KST_STATUS_STEP 11).setFld R.KST_STATUS F.KST_STATUS_DETAIL 0).setFld R.KST_STATUS F.KST_STATUS_STATUS (Status.code .ok)).setFld
          R.KST_STATUS F.KST_STATUS_BUSY 1
      else updateEnd s 11 0 .ok

/-- KST_UPDATE (R382): what the DMA read of the message brought, which attempts on fuses blow, and whether the key log's
records are written and read back. The status after a failed read is not stated, and free. -/
def execKstUpdate (read : HostRead) (fuses : List Bool) (logOk : Bool) (s : State) : Res :=
  kstCommand kstStates (fun s =>
    let s := s.emit (s.dmaRead .pf (kstAddr s) (s.reg R.KST_LEN).toNat)
    match read with
    | .error =>
      let (st, s) := freeStatus s [.aborted, .invalid, .integrity]
      updateEnd (s.count (.dev 11)) 1 0 st
    | .data bytes =>
      match judgeMessage s (s.reg R.KST_LEN).toNat bytes with
      | .error (step, detail, st) => updateEnd (s.count (.dev 11)) step detail st
      | .ok j => applyMessage s.useFree j (beAt bytes 67 5) fuses logOk) s

/-! ### Identity and attestation (R383 to R387) -/

/-- The inventory digest (R386). -/
def inventoryDigest (s : State) : List Byte := sha384 (s.owner.flatMap (fun e => infoEntry e.1 e.2))

/-- The output of AGREE_PUB (R388). -/
def agreeOutput (s : State) : List Byte :=
  let a := agreeSecret s.epoch
  be 1 s.epoch ++ be 7 0 ++ public384 (scalar384 a) ++ slice (Config.kemPublic true (slice a 48 64)) 0 1568 ++ be 7 0

/-- The digest of the agreement public keys; without them the spec states none, and it is free. -/
def agreeDigest (s : State) : List Byte :=
  if s.ident.agree then sha384 (slice (agreeOutput s) 8 1665) else s.freeBytes 48

/-- Bytes 0 to 399 of the statement (R385). -/
def statementHead (s : State) : List Byte :=
  let b := s.fld R.KST_ARG_0 ⟨0, 2⟩
  let t := s.now b
  be 4 0x4D4C5341 ++ be 2 1 ++ be 2 0 ++ be 4 0x2C30 ++ be 4 0 ++ s.winBytes (R.KST_NONCE_n 0) 8 ++ be 8 Config.serial ++ identityDigest ++
  be 2 (s.fld R.GLB_REV F.GLB_REV_STEPPING) ++ be 2 0 ++ be 4 (s.epoch + 256 * b2n Config.scanFuse + 512 * b2n Config.digestFuse + 1024 * (Config.order % 4)) ++
  measurements s ++ be 8 s.dev.seq ++ be 1 s.dev.slot ++ be 1 s.dev.state.code ++ be 1 (s.fld R.START_REASON F.START_REASON_CODE) ++
  be 1 (b2n s.fuses.exhausted) ++ be 8 s.counterS ++ be 4 s.owner.length ++ inventoryDigest s ++ be 4 (tmpFlags s) ++ be 1 s.tmp.max ++
  be 1 (b + 64 * b2n (decide (s.reg R.TIM_UNLOCK ≠ 0)) + 128 * b2n (s.flag (R.TB_STATUS b) F.TB_STATUS_VALID)) ++ be 2 0 ++ be 8 t.sec ++ be 4 t.ns ++ be 4 0 ++
  agreeDigest s

/-- The statement (R385, R387). -/
def statement (s : State) : List Byte :=
  let body := statementHead s ++ publicPair deviceSecret ++ aliasPair s ++ slice s.ident.endorseEc 0 96 ++ slice s.ident.endorseMl 0 3309 ++ be 1 0
  let d := sha384 body
  let a := aliasSecret s.ident.fwMeas s.ident.imageMeas
  body ++ slice (p384.sign (scalar384 a) s.freeCtr d 64) 0 96 ++ slice (Config.mldsaSign false (a.drop 48) [] d (s.freeBytes 32)) 0 3309 ++ be 3 0

/-- An output written to host memory, with its length in KST_RESULT_LEN. -/
def kstOutput (s : State) (l : List Byte) : State :=
  kstEnd ((s.emit (s.dmaWrite .pf true (kstAddr s) l)).setReg R.KST_RESULT_LEN (BitVec.ofNat 32 l.length)) 0 0 .ok

/-- KST_ATTEST (R385, R388). -/
def execKstAttest (s : State) : Res :=
  kstCommand (.minimal :: .halt :: kstStates) (fun s =>
    if (s.reg R.KST_LEN).toNat < 11312 ∨ kstAddr s % 8 ≠ 0 then kstEnd s 0 0 .invalid
    else if !s.ident.alias_ ∨ s.drbgDown then kstEnd s 0 0 .aborted
    else kstOutput s.useFree (statement s)) s

/-- KST_AGREE_PUB (R388). -/
def execKstAgreePub (s : State) : Res :=
  kstCommand kstStates (fun s =>
    if (s.reg R.KST_LEN).toNat < 1680 ∨ kstAddr s % 8 ≠ 0 then kstEnd s 0 0 .invalid
    else if !s.ident.agree then kstEnd s 0 0 .aborted
    else kstOutput s (agreeOutput s)) s

/-! ### Local operations (R370, R388, R389) -/

/-- The handle in KST_ARG_0. -/
def argHandle (s : State) : Nat := (s.reg R.KST_ARG_0).toNat

/-- Material drawn from the DRBG for a type: a scalar from 1 to n - 1 for a curve, else random bytes (R366, R370). -/
def drawMaterial (s : State) (typ param n : Nat) : List Byte :=
  let l := s.freeBytes n
  if 0x10 ≤ typ ∧ typ ≤ 0x13 then
    match curveOfKey s typ param with
    | some c => be n (beVal l % (c.n - 1) + 1)
    | none => l
  else l

/-- KST_GENERATE (R370); `logOk`: the at-rest record of a persisted key is confirmed. -/
def execKstGenerate (logOk : Bool) (s : State) : Res :=
  kstCommand kstStates (fun s =>
    let h := argHandle s
    let typ := s.fld R.KST_ARG_1 F.KST_ARG_1_TYPE
    let dest := s.fld R.KST_ARG_1 F.KST_ARG_1_DEST
    let param := s.fld R.KST_ARG_1 F.KST_ARG_1_PARAM
    let persist := s.flag R.KST_ARG_1 F.KST_ARG_1_PERSIST
    if !bit s.localOps 0 then kstEnd s 0 0 .denied
    else if handleStatus h ≠ .ok then kstEnd s 0 0 (handleStatus h)
    else if typ = 0x20 ∨ !destOk typ dest then kstEnd s 0 0 .invalid
    else match materialSize s typ param with
      | .error e => kstEnd s 0 0 e
      | .ok n =>
        if (s.ownerKey h).isSome then kstEnd s 0 0 .conflict
        else if s.drbgDown then kstEnd s 0 0 .aborted
        else
          let k : OwnerKey := { typ := typ, dest := dest, param := param, gen := 1, origin := 1, persist := persist, material := drawMaterial s typ param n }
          match tryBatch s.useFree (if persist then [{ op := 1, handle := h, key := k }] else []) logOk with
          | (s, true) => kstEnd (s.setOwner h k) 0 0 .ok
          | (s, false) => kstEnd s 0 0 .aborted) s

/-- KST_DELETE (R388, R389); `logOk`: the DELETE and COMMIT batch of a persisted key is written. -/
def execKstDelete (logOk : Bool) (s : State) : Res :=
  kstCommand kstStates (fun s =>
    let h := argHandle s
    if !bit s.localOps 1 then kstEnd s 0 0 .denied
    else if handleStatus h ≠ .ok then kstEnd s 0 0 (handleStatus h)
    else match s.ownerKey h with
      | none => kstEnd s 0 0 .notFound
      | some k =>
        if inUse s h then kstEnd s 0 0 .denied
        else if s.pke.jobs.any (fun e => e.2.ended.isNone && e.2.handle = h) then kstEnd s 0 0 .busy
        else match tryBatch s (if k.persist then [{ op := 2, handle := h }] else []) logOk with
          | (s, true) => kstEnd (s.setOwner h {}) 0 0 .ok
          | (s, false) => kstEnd s 0 0 .aborted) s

/-- KST_INFO (R386, R388). -/
def execKstInfo (s : State) : Res :=
  kstCommand kstStates (fun s =>
    let h := argHandle s
    if handleStatus h ≠ .ok then kstEnd s 0 0 (handleStatus h)
    else match s.ownerKey h with
      | none => kstEnd s 0 0 .notFound
      | some k => kstEnd (s.setWin (R.KST_INFO_n 0) (infoEntry h k) 4) 0 0 .ok) s

/-! ### The DRBG (R369) -/

/-- DRBG_RESEED. -/
def execDrbgReseed (s : State) : Res := .next (if s.drbgDown then s else s.useFree)

/-- ENTROPY_HEALTH_FAIL: requests return ABORTED from now on, and the tamper monitor is told. -/
def execEntropyHealthFail (s : State) : Res :=
  if s.dev.power then .next (fireSource ({ s with drbgDown := true }.alarm R.KST_ALARM F.KST_ALARM_ENTROPY) 19) else .next s

/-- DRBG_RESUME: 1 024 samples in a row have passed. -/
def execDrbgResume (s : State) : Res := .next { s with drbgDown := false }

end Sys2Proof.Machine
end

