-- ==== Sys2Proof/Machine/Pke.lean ====
section
/-! DEFINITION. The public-key engine (14_public_key_engine.md, R392 to R411), and the clearing of keys by a tamper
response (R416, R417). -/

namespace Sys2Proof.Machine

/-! ### Descriptors (R393, R394, R397, R398) -/

/-- The curve that the CURVE field names (R394): INVALID for a value outside the table, NOT_FOUND for an empty slot. -/
def curveByField (s : State) (c : Nat) : Except Status Curve :=
  if c = 1 then .ok p256
  else if c = 2 then .ok p384
  else if c = 3 then .ok p521
  else if 0x10 ≤ c ∧ c < 0x20 then (if kget {} s.pke.curves (c - 0x10) = {} then .error .notFound else .ok (kget {} s.pke.curves (c - 0x10)))
  else .error .invalid

/-- Operations on a curve; those with a handle; those that draw random numbers (R398, R404). -/
def opCurve (op : Nat) : Bool := [0x01, 0x02, 0x10, 0x11, 0x12, 0x13].contains op
def opKey (op : Nat) : Bool := [0x10, 0x12, 0x13, 0x20, 0x21, 0x22, 0x31, 0x32, 0x38, 0x3A].contains op
def opRandom (op : Nat) : Bool := [0x01, 0x10, 0x11, 0x12, 0x13, 0x20, 0x21, 0x30, 0x38, 0x40].contains op
def opKnown (op : Nat) : Bool :=
  opCurve op || opKey op || [0x03, 0x30, 0x39, 0x40, 0x41].contains op

/-- Largest VARIANT of an operation (R398). -/
def variantMax (op : Nat) : Nat := if op = 0x20 ∨ op = 0x30 ∨ op = 0x39 then 1 else if op = 0x21 then 2 else 0

/-- Is a key's type fit for an operation and its CURVE field (R397, R398)? -/
def typeFits (op curve : Nat) (k : OwnerKey) : Bool :=
  if opCurve op then
    (curve = 1 && k.typ = 0x10) || (curve = 2 && k.typ = 0x11) || (curve = 3 && k.typ = 0x12) || (decide (0x10 ≤ curve) && k.typ = 0x13 && k.param = curve - 0x10)
  else if op = 0x20 ∨ op = 0x21 ∨ op = 0x22 then k.typ = 0x20
  else if op = 0x31 ∨ op = 0x32 then k.typ = 0x30 || k.typ = 0x31
  else k.typ = 0x38 || k.typ = 0x39

/-- Does a key's destination mask permit an operation (R367, R398)? -/
def destFits (op : Nat) (k : OwnerKey) : Bool :=
  if op = 0x10 ∨ op = 0x20 ∨ op = 0x38 ∨ op = 0x3A then bit k.dest 4
  else if op = 0x13 ∨ op = 0x22 then bit k.dest 4 || bit k.dest 5
  else bit k.dest 5

/-- Is the larger parameter set meant: ML-KEM-1024, ML-DSA-87? The key's type decides where there is a key (R398). -/
def bigSet (op variant : Nat) (k : OwnerKey) : Bool := if opKey op then k.typ = 0x31 || k.typ = 0x39 else variant = 1

/-- Sizes of ML-KEM and ML-DSA objects (FIPS 203, FIPS 204). -/
def kemKeySize (big : Bool) : Nat := if big then 1568 else 1184
def kemCtSize (big : Bool) : Nat := if big then 1568 else 1088
def dsaKeySize (big : Bool) : Nat := if big then 2592 else 1952
def dsaSigSize (big : Bool) : Nat := if big then 4627 else 3309

/-- Is `n` a hash value's size (R393)? -/
def hashSize (n : Nat) : Bool := decide (20 ≤ n) && decide (n ≤ 64)

/-- Is the message of an ML-DSA operation within its size (R398)? -/
def dsaMessage (n rest : Nat) : Bool := decide (rest < n) && decide (n - rest ≤ 65536)

/-- Is the input of its exact size and format (R393, R395, R398, R400)? `c` is the curve, `m` the RSA bytes. -/
def inputOk (op variant : Nat) (c : Curve) (k : OwnerKey) (m : Nat) (n : Nat) (l : List Byte) : Bool :=
  let w := c.len
  let big := bigSet op variant k
  let ctx := beAt l 0 1
  if op = 0x01 then decide (n = 1 + 3 * w) && pointFormat (l.drop w)
  else if op = 0x02 then decide (n = 2 + 4 * w) && pointFormat (l.take (1 + 2 * w)) && pointFormat (l.drop (1 + 2 * w))
  else if op = 0x03 then decide (2 * m < n) && decide (n ≤ 3 * m) && bit (beAt l 0 1) 7 && bit (beAt l (m - 1) 1) 0
  else if op = 0x10 then hashSize n
  else if op = 0x11 then decide (1 + 4 * w ≤ n) && hashSize (n - (1 + 4 * w)) && pointFormat (l.take (1 + 2 * w))
  else if op = 0x12 then decide (n = 1 + 2 * w) && pointFormat l
  else if op = 0x20 then decide (n = 32 ∨ n = 48 ∨ n = 64)
  else if op = 0x21 then decide (n = m)
  else if op = 0x30 then decide (n = kemKeySize big)
  else if op = 0x31 then decide (n = kemCtSize big)
  else if op = 0x38 then dsaMessage n (1 + ctx)
  else if op = 0x39 then dsaMessage n (dsaKeySize big + 1 + beAt l (dsaKeySize big) 1 + dsaSigSize big)
  else if op = 0x40 then decide (160 ≤ beAt l 0 2) && decide (beAt l 0 2 ≤ 521) && decide (beAt l 3 5 = 0) && decide (n = 8 + 6 * ((beAt l 0 2 + 7) / 8))
  else decide (n = 0)

/-- The size of an operation's result (R398); of RSA_DECRYPT the longest message that OAEP holds. -/
def resultSize (op variant : Nat) (c : Curve) (k : OwnerKey) (m : Nat) : Nat :=
  let big := bigSet op variant k
  if op = 0x01 ∨ op = 0x02 ∨ op = 0x13 then 1 + 2 * c.len
  else if op = 0x03 ∨ op = 0x20 then m
  else if op = 0x10 then 2 * c.len
  else if op = 0x12 then c.len
  else if op = 0x21 then m - 2 * (32 + 16 * variant) - 2
  else if op = 0x22 then m + 4
  else if op = 0x30 then kemCtSize big + 32
  else if op = 0x31 then 32
  else if op = 0x32 then kemKeySize big
  else if op = 0x38 then dsaSigSize big
  else if op = 0x3A then dsaKeySize big
  else 0

/-- The fixed fields of a descriptor (R397). -/
def descFormat (d : List Byte) : Bool :=
  let op := beAt d 0 1
  let param := beAt d 48 4
  opKnown op && decide (beAt d 1 1 < 4) && (opCurve op || beAt d 2 1 = 0) && decide (beAt d 3 1 ≤ variantMax op) && (opKey op || beAt d 4 4 = 0) &&
  decide (beAt d 16 8 % 8 = 0) && decide (beAt d 24 8 % 8 = 0) && decide (beAt d 32 8 % 8 = 0) && decide (beAt d 52 12 = 0) &&
  (if op = 0x03 then decide (2048 ≤ param) && decide (param ≤ 4096) && decide (param % 64 = 0)
   else if op = 0x40 ∨ op = 0x41 then decide (param < 16) else decide (param = 0))

/-- The submission checks (R397, R400, R401), in the order of R397's table: the status of the first that fails, or the
job. A size that depends on the key is judged once the key is known. -/
def judgeDesc (s : State) (d : List Byte) (input : List Byte) : Except Status PkeJob :=
  let op := beAt d 0 1
  let cf := beAt d 2 1
  let v := beAt d 3 1
  let h := beAt d 4 4
  let n := beAt d 8 4
  let param := beAt d 48 4
  let key := kget {} s.owner h
  let m := if op = 0x03 then param / 8 else key.param / 8
  let l := slice input 0 (min n 80000)
  if !descFormat d then .error .invalid
  else match (if opCurve op then curveByField s cf else .ok {}) with
  | .error e => .error (if opKey op ∧ key ≠ {} ∧ !typeFits op cf key then .invalid else e)
  | .ok c =>
    let sized := inputOk op v c key m n l && decide (resultSize op v c key m ≤ beAt d 12 4)
    if (opCurve op ∨ !opKey op) ∧ !sized then .error .invalid
    else if opKey op ∧ handleStatus h ≠ .ok then .error (handleStatus h)
    else if opKey op ∧ key = {} then .error .notFound
    else if opKey op ∧ !typeFits op cf key then .error .invalid
    else if !sized then .error .invalid
    else if op = 0x41 ∧ kget {} s.pke.curves param = {} then .error .notFound
    else if opKey op ∧ !destFits op key then .error .denied
    else if 240 ≤ s.pke.jobs.length then .error .full
    else if !s.dev.mcUp then .error .busy
    else .ok { op := op, prio := beAt d 1 1, curve := cf, variant := v, handle := h, input := l, outAddr := beAt d 24 8, cplAddr := beAt d 32 8,
               tag := slice d 40 8, param := param, order := s.pke.order }

/-! ### Endings (R399, R407, R408) -/

/-- A job by its ID. -/
def State.pkeJob (s : State) (id : Nat) : PkeJob := kget {} s.pke.jobs id

/-- The engine's record changed. -/
def State.modPke (s : State) (f : Pke → Pke) : State := { s with pke := f s.pke }

/-- The completion record (R399). -/
def completion (id : Nat) (j : PkeJob) (e : PkeEnd) : List Byte :=
  let ok := e.status = .ok
  slice j.tag 0 8 ++ be 1 e.status.code ++ be 1 j.op ++ be 1 id ++ be 1 e.detail ++ be 4 (if ok then e.result.length else 0) ++ be 4 e.exec ++ be 4 e.wait ++
  be 7 0 ++ be 1 1

/-- Result and completion record are written, vector 2 fires, and the slot is free (R399, R464). -/
def writeCompletion (s : State) (id : Nat) (j : PkeJob) (e : PkeEnd) : State :=
  let s := if e.status = .ok ∧ e.result ≠ [] then s.emit (s.dmaWrite .pf true j.outAddr e.result) else s
  ((s.emit (s.dmaWrite .pf false j.cplAddr (completion id j e))).interrupt .pf 2).modPke (fun p => { p with jobs := kdel p.jobs id })

/-- A job ends; during an MC restart its result and completion are held (R399, R408, R410). -/
def endPke (s : State) (id : Nat) (e : PkeEnd) : State :=
  let j := s.pkeJob id
  let s := s.modPke (fun p => { p with done := (p.done + 1) % 2 ^ 32, run := if p.run = some id then none else p.run })
  let s := s.count (.dev 9)
  if s.dev.mcUp then writeCompletion s id j e
  else s.modPke (fun p => { p with jobs := kset {} p.jobs id { j with ended := some e, input := [], suspended := false } })

/-- A job ends ABORTED; its times are free values (R407). -/
def abortPke (s : State) (id : Nat) : State :=
  let (x, s) := s.free (2 ^ 32)
  let (w, s) := s.free (2 ^ 32)
  endPke s id { status := .aborted, detail := 0, result := [], exec := x, wait := w }

/-- The held completions are written when the MC serves again (R408). -/
def pkeFlush (s : State) : State :=
  s.pke.jobs.foldl (fun (t : State) (e : Nat × PkeJob) => match e.2.ended with
    | some x => writeCompletion t e.1 e.2 x
    | none => t) s

/-- Every job ends ABORTED (R408). -/
def abortAllPke (s : State) : State :=
  s.pke.jobs.foldl (fun (t : State) (e : Nat × PkeJob) => if e.2.ended.isSome then t else abortPke t e.1) s

/-! ### Submission and abort (R397, R407, R409) -/

/-- A PKE_CMD ends with a status. -/
def pkeStatus (s : State) (st : Status) : State := s.setFld R.PKE_CMD_STATUS F.PKE_CMD_STATUS_STATUS st.code

/-- The first free job ID from `i` on. -/
def freeJobId (s : State) (i : Nat) : Nat → Nat
  | 0 => i
  | fuel + 1 => if s.pkeJob i = {} then i else freeJobId s ((i + 1) % 256) fuel

/-- PKE_SUBMIT: what the DMA reads of the descriptor and of the input brought (R397). Which free ID a job gets, and the
status after a failed read, are free values. -/
def execPkeSubmit (desc input : HostRead) (s : State) : Res :=
  .next (s.access R.PKE_CMD (fun s =>
    let bad (s : State) : State :=
      let (st, s) := freeStatus s [.aborted, .invalid, .integrity]
      pkeStatus s st
    let at_ := s.reg64 R.PKE_DESC_LO R.PKE_DESC_HI
    if at_ % 8 ≠ 0 then pkeStatus s .invalid
    else
      let s := s.emit (s.dmaRead .pf at_ 64)
      match desc with
      | .error => bad s
      | .data d =>
        let d := slice d 0 64
        let s := if descFormat d ∧ beAt d 8 4 ≠ 0 then s.emit (s.dmaRead .pf (beAt d 16 8) (beAt d 8 4)) else s
        match input with
        | .error => bad s
        | .data l =>
          match judgeDesc s d l with
          | .error e => pkeStatus s e
          | .ok j =>
            let (i, s) := s.free 256
            let id := freeJobId s i 256
            let s := s.modPke (fun p => { p with jobs := kset {} p.jobs id j, order := p.order + 1 })
            pkeStatus (s.setFld R.PKE_CMD_STATUS F.PKE_CMD_STATUS_JOB id) .ok))

/-- PKE_ABORT (R407): a queued or suspended job is removed at once, a running one stops at its next checkpoint or its
end. -/
def execPkeAbort (id : Nat) (s : State) : Res :=
  .next (s.access R.PKE_CMD (fun s =>
    let j := s.pkeJob id
    if j = {} ∨ j.ended.isSome then pkeStatus s .notFound
    else if s.pke.run = some id then pkeStatus (s.modPke (fun p => { p with jobs := kset {} p.jobs id { j with aborting := true } })) .ok
    else pkeStatus (abortPke s id) .ok))

/-! ### Order, yielding and pacing (R405, R406) -/

/-- Maximum execution time of a job in ns (R398). -/
def maxTime (s : State) (j : PkeJob) : Nat :=
  let key := kget {} s.owner j.handle
  let w := match curveByField s j.curve with
    | .ok c => c.len
    | .error _ => 0
  let pick (a b c : Nat) : Nat := 1000 * (if w ≤ 32 then a else if w ≤ 48 then b else c)
  let big := bigSet j.op j.variant key
  let rsa := if key.param ≤ 2048 then 600000 else if key.param ≤ 3072 then 1900000 else 4300000
  let lat (a b : Nat) : Nat := 1000 * (if big then b else a)
  if j.op = 0x01 then pick 70 140 330
  else if j.op = 0x02 then pick 5 8 15
  else if j.op = 0x03 then 20000 + 8 * (j.input.length - j.param / 4) * 950 * (j.param * j.param) / (2048 * 2048)
  else if j.op = 0x10 then pick 80 160 370
  else if j.op = 0x11 then pick 140 280 650
  else if j.op = 0x12 then pick 150 290 670
  else if j.op = 0x13 then pick 75 150 340
  else if j.op = 0x20 then rsa
  else if j.op = 0x21 then rsa + 10000
  else if j.op = 0x22 then 200000
  else if j.op = 0x30 then lat 30 45
  else if j.op = 0x31 then lat 40 60
  else if j.op = 0x32 then lat 20 30
  else if j.op = 0x38 then lat 600 860 + 2 * (j.input.length - 1 - beAt j.input 0 1)
  else if j.op = 0x39 then lat 70 110 + 2 * (j.input.length - dsaKeySize big - 1 - beAt j.input (dsaKeySize big) 1 - dsaSigSize big)
  else if j.op = 0x3A then lat 60 90
  else if j.op = 0x40 then 12000000
  else 10000

/-- Does job `a` come before job `b` in the queues: priority, suspended jobs at the head, order of acceptance (R405)? -/
def pkeBefore (a b : PkeJob) : Bool :=
  decide (a.prio < b.prio) || (decide (a.prio = b.prio) && (if a.suspended = b.suspended then decide (a.order < b.order) else a.suspended))

/-- The first of some jobs. -/
def pkeFirst (l : List (Nat × PkeJob)) : Option (Nat × PkeJob) :=
  l.foldl (fun (r : Option (Nat × PkeJob)) (e : Nat × PkeJob) => match r with
    | none => some e
    | some x => if pkeBefore e.2 x.2 then some e else some x) none

/-- Jobs that wait: accepted, not ended, not running. -/
def pkeWaiting (s : State) : List (Nat × PkeJob) := s.pke.jobs.filter (fun e => e.2.ended.isNone && s.pke.run ≠ some e.1)

/-- Checkpoint intervals of a 512 us window in which the engine executes (R290, R406): none while a response clears the
keys, which ends every job ABORTED (R408, R417). -/
def dutyIntervals (s : State) : Nat := if 4 ≤ s.tmp.clearing then 0 else 8 / 2 ^ s.fld R.SLU_STATUS F.SLU_STATUS_PKE_DUTY

/-- The running job stands still: paused in a window, or stopped while a response clears the keys (R406, R408). -/
def pkeStill (s : State) : Bool := s.pke.paused || decide (dutyIntervals s = 0)

/-- Does a job run long enough to reach its next checkpoint (R405)? The time of MLDSA_SIGN has no bound (R398). -/
def reachesCheckpoint (s : State) (j : PkeJob) : Bool := j.op = 0x38 || decide (64000 * (j.ran + 1) ≤ maxTime s j)

/-- Job `id` runs. -/
def runPke (s : State) (id : Nat) : State :=
  s.modPke (fun p => { p with run := some id, jobs := kset {} p.jobs id { s.pkeJob id with suspended := false } })

/-- PKE_JOB_START: an idle engine starts or resumes the next job, in an interval of the duty window (R405, R406). -/
def execPkeJobStart (interval : Nat) (s : State) : Res :=
  if s.pke.run.isSome ∨ dutyIntervals s ≤ interval then .next s
  else match pkeFirst (pkeWaiting s) with
    | none => .next s
    | some (id, _) => .next ((runPke s id).modPke (fun p => { p with paused := false }))

/-- PKE_CHECKPOINT: the running job has executed another 64 us; it stops for an abort, yields to a waiting job, or pauses
when the interval of the duty window that begins is one of the idle ones (R405 to R407). -/
def execPkeCheckpoint (interval : Nat) (s : State) : Res :=
  match s.pke.run with
  | none => .next s
  | some id =>
    if pkeStill s ∨ !reachesCheckpoint s (s.pkeJob id) then .next s
    else
      let j := { s.pkeJob id with ran := (s.pkeJob id).ran + 1 }
      if j.aborting then .next (abortPke s id)
      else
        let s := s.modPke (fun p => { p with jobs := kset {} p.jobs id j, paused := decide (dutyIntervals s ≤ interval) })
        let left := maxTime s j - 64000 * j.ran
        let better := (pkeWaiting s).filter (fun e => decide (e.2.prio < j.prio) || (decide (e.2.prio = j.prio) && decide (maxTime s e.2 < left)))
        if 8 ≤ kcount (fun (x : PkeJob) => x.suspended) s.pke.jobs then .next s
        else match pkeFirst better with
          | none => .next s
          | some (w, _) => .next (runPke (s.modPke (fun p => { p with jobs := kset {} p.jobs id { j with suspended := true } })) w)

/-- PKE_DUTY_WINDOW: a window begins and a paused job goes on (R406). -/
def execPkeDutyWindow (s : State) : Res := .next (s.modPke (fun p => { p with paused := false }))

/-! ### Results (R395, R396, R398 to R402) -/

/-- The result of an operation on a curve with key `k`: a status and the result. -/
def curveResult (s : State) (j : PkeJob) (c : Curve) (k : OwnerKey) : Status × List Byte :=
  let w := c.len
  let l := j.input
  let d := beVal k.material
  if j.op = 0x01 then (.ok, c.enc (c.mul (beAt l 0 w % c.n) (c.reduce (c.dec (l.drop w)))))
  else if j.op = 0x02 then
    match c.reduce (c.dec l), c.reduce (c.dec (l.drop (1 + 2 * w))) with
    | some (x1, y1), some (x2, y2) =>
      if x1 = x2 ∧ y1 ≠ y2 ∧ (y1 + y2) % c.p ≠ 0 then (.ok, s.freeBytes (1 + 2 * w)) else (.ok, c.enc (c.add (some (x1, y1)) (some (x2, y2))))
    | p, q => (.ok, c.enc (c.add p q))
  else if j.op = 0x10 then (.ok, c.sign d s.freeCtr l 64)
  else if j.op = 0x11 then
    let q := c.dec l
    let r := beAt l (1 + 2 * w) w
    let t := beAt l (1 + 3 * w) w
    if !c.valid q ∨ r = 0 ∨ c.n ≤ r ∨ t = 0 ∨ c.n ≤ t then (.invalid, [])
    else if c.verify q (l.drop (1 + 4 * w)) r t then (.ok, []) else (.integrity, [])
  else if j.op = 0x12 then
    let q := c.dec l
    let z := c.mul (c.h * d) q
    if !c.valid q ∨ z = none then (.invalid, []) else (.ok, c.xBytes z)
  else (.ok, c.enc (c.mul d c.gen))

/-- The result of an RSA operation. -/
def rsaResult (s : State) (j : PkeJob) (k : OwnerKey) : Status × List Byte :=
  let m := k.param / 8
  let r := rsaOf k.param k.material
  if j.op = 0x20 then
    let em := if j.variant = 0 then emsaV15 m j.input else emsaPss m j.input (s.freeBytes j.input.length)
    (.ok, be m (r.private_ (beVal em)))
  else if j.op = 0x21 then
    if r.n ≤ beVal j.input then (.invalid, [])
    else match oaepDecode m (32 + 16 * j.variant) (be m (r.private_ (beVal j.input))) with
      | some t => (.ok, t)
      | none => (.invalid, [])
  else (.ok, be m r.n ++ be 4 r.e)

/-- The result of a lattice operation. -/
def latticeResult (s : State) (j : PkeJob) (k : OwnerKey) : Status × List Byte :=
  let big := bigSet j.op j.variant k
  let l := j.input
  if j.op = 0x30 then
    if Config.kemValid big l then
      (.ok, slice (Config.kemCipher big l (s.freeBytes 32)) 0 (kemCtSize big) ++ slice (Config.kemSecret big l (s.freeBytes 32)) 0 32)
    else (.invalid, [])
  else if j.op = 0x31 then (.ok, slice (Config.kemDecap big k.material l) 0 32)
  else if j.op = 0x32 then (.ok, slice (Config.kemPublic big k.material) 0 (kemKeySize big))
  else if j.op = 0x38 then
    (.ok, slice (Config.mldsaSign big k.material (slice l 1 (beAt l 0 1)) (l.drop (1 + beAt l 0 1)) (s.freeBytes 32)) 0 (dsaSigSize big))
  else if j.op = 0x39 then
    let pk := l.take (dsaKeySize big)
    let r := l.drop (dsaKeySize big)
    let ctx := slice r 1 (beAt r 0 1)
    let rest := r.drop (1 + beAt r 0 1)
    let msg := rest.take (rest.length - dsaSigSize big)
    let sig := rest.drop (rest.length - dsaSigSize big)
    if !Config.mldsaEncoded big pk sig then (.invalid, [])
    else if Config.mldsaVerify big pk ctx msg sig then (.ok, []) else (.integrity, [])
  else (.ok, slice (Config.mldsaPublic big k.material) 0 (dsaKeySize big))

/-- The Well check of a CURVE_LOAD input (R396). -/
def curveMark (l : List Byte) : List Byte := (sha384 l).take 8

/-- CURVE_LOAD (R395, R396). -/
def curveLoad (s : State) (j : PkeJob) : State × Status × Nat :=
  let old := kget [] s.well.curves j.param
  let mark := curveMark j.input
  if kget {} s.pke.curves j.param ≠ {} ∨ (old ≠ [] ∧ old ≠ mark) then (s, .conflict, 0)
  else
    let c := curveOf j.input
    let n := curveCheck s.freeCtr c
    if n ≠ 0 then (s, .invalid, n)
    else ({ s.modPke (fun p => { p with curves := kset {} p.curves j.param c }) with well := { s.well with curves := kset [] s.well.curves j.param mark } }, .ok, 0)

/-- Is a curve slot named by a queued job other than `id` (R396)? -/
def slotQueued (s : State) (slot id : Nat) : Bool :=
  s.pke.jobs.any (fun e => e.1 ≠ id && e.2.ended.isNone && ((opCurve e.2.op && e.2.curve = 0x10 + slot) || ((e.2.op = 0x40 || e.2.op = 0x41) && e.2.param = slot)))

/-- CURVE_UNLOAD (R396). -/
def curveUnload (s : State) (id slot : Nat) : State × Status :=
  if slotQueued s slot id then (s, .busy)
  else
    let keep := s.owner.any (fun e => e.2.typ = 0x13 && e.2.param = slot)
    ({ s.modPke (fun p => { p with curves := kdel p.curves slot }) with well := { s.well with curves := if keep then s.well.curves else kdel s.well.curves slot } }, .ok)

/-- What a job computes: the state with its curve slots, the status, DETAIL and the result. A key that an update has
removed meanwhile leaves a status that the spec does not state, and free. -/
def jobResult (s : State) (id : Nat) (j : PkeJob) : State × Status × Nat × List Byte :=
  let k := kget {} s.owner j.handle
  if j.op = 0x40 then
    let (s, st, n) := curveLoad s j
    (s, st, n, [])
  else if j.op = 0x41 then
    let (s, st) := curveUnload s id j.param
    (s, st, 0, [])
  else if opKey j.op ∧ k = {} then
    let (st, s) := freeStatus s [.aborted, .notFound, .denied]
    (s, st, 0, [])
  else if opCurve j.op then
    match curveByField s j.curve with
    | .ok c => let r := curveResult s j c k; (s, r.1, 0, r.2)
    | .error e => (s, e, 0, [])
  else if j.op = 0x03 then
    let m := j.param / 8
    (s, .ok, 0, be m (modPow (beAt j.input m m) (beVal (j.input.drop (2 * m))) (beAt j.input 0 m)))
  else if j.op = 0x20 ∨ j.op = 0x21 ∨ j.op = 0x22 then let r := rsaResult s j k; (s, r.1, 0, r.2)
  else let r := latticeResult s j k; (s, r.1, 0, r.2)

/-- Operations whose result is checked for consistency (R402). -/
def opChecked (op : Nat) : Bool := [0x10, 0x12, 0x13, 0x20, 0x21].contains op

/-- PKE_JOB_END: the running job, not paused, ends, with its times in us; `fault` when its result fails the check of R402 (R399, R402,
R404, R407). -/
def execPkeJobEnd (execUs waitUs : Nat) (fault : Bool) (s : State) : Res :=
  match s.pke.run with
  | none => .next s
  | some id =>
    let j := s.pkeJob id
    if pkeStill s then .next s
    else if j.aborting then .next (abortPke s id)
    else
      let e (st : Status) (n : Nat) (r : List Byte) : PkeEnd := { status := st, detail := n, result := r, exec := execUs, wait := waitUs }
      if opRandom j.op ∧ s.drbgDown then .next (endPke (s.alarm R.PKE_ALARM F.PKE_ALARM_RANDOM) id (e .aborted 0 []))
      else
        let (t, st, n, r) := jobResult s id j
        let t := { t with freeCtr := t.freeCtr + 200 }
        if fault ∧ opChecked j.op ∧ st = .ok then .next (endPke (t.alarm R.PKE_ALARM F.PKE_ALARM_FAULT) id (e .integrity 0 []))
        else .next (endPke t id (e st n r))

/-! ### The clearing of keys (R416, R417) -/

/-- What ZEROISE_TRAFFIC clears: slot keys, key views, epoch keys, session keys, cistern keys; PKE jobs end (R408, R416,
R417). -/
def clearTraffic (s : State) : State :=
  let s := clearAllSlots s
  let s := { s with
    trunks := s.trunks.map (fun e => (e.1, e.2.unkeyed))
    jobs := s.jobs.map (fun e => (e.1, { e.2 with key := [], salt := [] }))
    pair := { s.pair with heldKeys := [] } }
  let s := linkDown s
  let s := if s.cistern.state = 1 then initCistern (dropAllSpilled s) else s
  if s.pke.jobs.isEmpty then s else (abortAllPke s).alarm R.PKE_ALARM F.PKE_ALARM_ZEROISED

/-- KEY_CLEAR_COMPLETE: the clearing of the response that runs is complete (R417). -/
def execKeyClearComplete (s : State) : Res :=
  let n := s.tmp.clearing
  if n < 4 then .next s
  else
    let s := clearTraffic { s with tmp := { s.tmp with clearing := 0 } }
    let s := if n < 5 then s else { s with owner := [] }
    .next (if n < 6 then s else { s with ident := { s.ident with alias_ := false, agree := false } })

end Sys2Proof.Machine
end

