-- ==== Sys2Proof/Machine/Params.lean ====
section
/-! DEFINITION. Basic parameters, levels and computed fields (R73 to R77 and the parameter tables R164, R232, R263, R294,
R360, R487). -/

namespace Sys2Proof.Machine

/-! ### Parameters -/

/-- A basic parameter: its range, its default, and the register fields it sets, each with its factor. -/
structure Param where
  lo : Nat
  hi : Nat
  dflt : Nat
  fields : List (Nat × Fld × Nat)

/-- One field in every instance of a register. -/
def everywhere (n : Nat) (a : Nat → Nat) (f : Fld) : List (Nat × Fld × Nat) := (List.range n).map (fun i => (a i, f, 1))

/-- The parameters by ID; REGIONS_OWNER_1 to 6 set region owners instead of a field. -/
def paramOf (id : Nat) : Option Param :=
  match id with
  | 0x200001 => some ⟨0, 65535, 300, everywhere 4 R.CLS_AGE F.CLS_AGE_PERIOD_S⟩
  | 0x200002 => some ⟨1, 255, 8, everywhere 4 R.CLS_MOVE F.CLS_MOVE_LIMIT⟩
  | 0x200003 => some ⟨1, 255, 10, everywhere 4 R.CLS_MOVE F.CLS_MOVE_WINDOW⟩
  | 0x200004 => some ⟨0, 65535, 60, everywhere 4 R.CLS_MOVE F.CLS_MOVE_PIN_HOLD_S⟩
  | 0x200005 => some ⟨0, 15, 0, everywhere 4 R.CLS_PUNT F.CLS_PUNT_EN⟩
  | 0x400001 => some ⟨0, 1, 1, [(R.RIL_SPARE, F.RIL_SPARE_AUTO, 1)]⟩
  | 0x400002 => some ⟨0, 1, 1, [(R.RIL_SPARE, F.RIL_SPARE_KAT_EN, 1)]⟩
  | 0x500001 => some ⟨0, 1, 1, [(R.CIS_CFG, F.CIS_CFG_SPILL_EN, 1)]⟩
  | 0x500002 => some ⟨50, 95, 75, [(R.CIS_CFG, F.CIS_CFG_SPILL_HI, 1)]⟩
  | 0x500003 => some ⟨4, 255, 64, [(R.CIS_CFG, F.CIS_CFG_PREFETCH_KIB, 1)]⟩
  | 0x500004 => some ⟨16, 255, 128, [(R.CIS_CFG, F.CIS_CFG_QSPILL_KIB, 1)]⟩
  | 0x500005 => some ⟨0, 8760, 24, [(R.CIS_ROT, F.CIS_ROT_ROT_H, 1)]⟩
  | 0x500006 => some ⟨10, 60000, 1000, [(R.CIS_ROT, F.CIS_ROT_MAX_AGE_MS, 1)]⟩
  | 0x500007 => some ⟨10, 1440, 60, [(R.CIS_SCRUB, F.CIS_SCRUB_PERIOD_MIN, 1)]⟩
  | 0x500011 => some ⟨0, 1792, 0, []⟩
  | 0x500012 => some ⟨0, 1792, 0, []⟩
  | 0x500013 => some ⟨0, 1792, 0, []⟩
  | 0x500014 => some ⟨0, 1792, 0, []⟩
  | 0x500015 => some ⟨0, 1792, 0, []⟩
  | 0x500016 => some ⟨0, 1792, 0, []⟩
  | 0x600001 => some ⟨64, 65535, 2048, everywhere 3 R.SCH_DRR_j F.SCH_DRR_j_Q_LO ++ everywhere 3 R.SCH_DRR_j F.SCH_DRR_j_Q_HI⟩
  | 0x600002 => some ⟨50, 99, 90, everywhere 6 R.SCH_ADMIT_o F.SCH_ADMIT_o_ADMIT_PCT⟩
  | 0x700001 => some ⟨60, 168, 168, [(R.SLU_BUDGET, F.SLU_BUDGET_BUDGET, 4)]⟩
  | 0x700002 => some ⟨85, 108, 100, [(R.SLU_THERM, F.SLU_THERM_SOFT, 1)]⟩
  | 0x700003 => some ⟨87, 110, 108, [(R.SLU_THERM, F.SLU_THERM_HARD, 1)]⟩
  | 0x700004 => some ⟨0, 1, 0, [(R.SLU_GATE, F.SLU_GATE_GATE_EN, 1)]⟩
  | 0x700010 => some ⟨0, 3600, 3600, [(R.SLU_ECL_e 0, F.SLU_ECL_e_ECL_MAX, 1000)]⟩
  | 0x700011 => some ⟨0, 3600, 3600, [(R.SLU_ECL_e 1, F.SLU_ECL_e_ECL_MAX, 1000)]⟩
  | 0x700012 => some ⟨0, 3600, 3600, [(R.SLU_ECL_e 2, F.SLU_ECL_e_ECL_MAX, 1000)]⟩
  | 0x700013 => some ⟨0, 3600, 3600, [(R.SLU_ECL_e 3, F.SLU_ECL_e_ECL_MAX, 1000)]⟩
  | 0x800001 => some ⟨0, 1000000000, 1000, everywhere 4 R.TB_JUMP F.TB_JUMP_NS⟩
  | 0x800002 => some ⟨200, 10000, 1000, everywhere 32 R.LAUNCH_CFG F.LAUNCH_CFG_LEAD_NS⟩
  | 0x800003 => some ⟨100, 1000, 200, everywhere 32 R.GATE_CFG F.GATE_CFG_LEAD_NS⟩
  | 0xC00001 => some ⟨10, 60000, 1000, [(R.CNT_CFG, F.CNT_CFG_INTERVAL_MS, 1)]⟩
  | 0xC00002 => some ⟨0, 3, 0, [(R.CNT_CFG, F.CNT_CFG_SNAP_TB, 1)]⟩
  | _ => none

/-- Every parameter ID. -/
def paramIds : List Nat :=
  [0x200001, 0x200002, 0x200003, 0x200004, 0x200005, 0x400001, 0x400002, 0x500001, 0x500002, 0x500003, 0x500004, 0x500005, 0x500006,
   0x500007, 0x500011, 0x500012, 0x500013, 0x500014, 0x500015, 0x500016] ++
  [0x600001, 0x600002, 0x700001, 0x700002, 0x700003, 0x700004, 0x700010, 0x700011, 0x700012, 0x700013, 0x800001, 0x800002, 0x800003,
   0xC00001, 0xC00002]

/-- The default of a parameter. -/
def paramDefault (id : Nat) : Nat := match paramOf id with
  | some p => p.dflt
  | none => 0

/-- The effective value of a parameter (R77). -/
def State.param (s : State) (id : Nat) : Nat := kget (paramDefault id) s.basic id

/-- A parameter given a value. -/
def State.setParam (s : State) (id v : Nat) : State := { s with basic := kset (paramDefault id) s.basic id v }

/-! ### Levels (R73, R74, R76) -/

/-- The TXN_LEVEL bit of a block. -/
def levelBit : Block → Option Nat
  | .cpt => some 0 | .lpt => some 1 | .aqd => some 2 | .cls => some 3 | .sat => some 4 | .ril => some 5 | .cis => some 6
  | .sch => some 7 | .slu => some 8 | .cas => some 9 | .tim => some 10 | .tmp => some 11 | .pai => some 12 | .hif => some 13
  | .cnt => some 14 | .glb => none | .txn => none | .start => none | .cal => none | .kst => none | .pke => none | .leg => none
  | .hole => none | .slice => none

/-- Is a block at expert level by the TXN_LEVEL word `w`? -/
def expert (w : Word) (b : Block) : Bool := match levelBit b with
  | some i => w.getLsbD i
  | none => false

/-- The block of a parameter: its block code is the base shifted right by 16 (R76). -/
def paramBlock (id : Nat) : Block := blockOf (id / 65536 * 65536)

/-- The region of a CIS_REGION_r address. -/
def regionOf (a : Nat) : Option Nat := if 0x501000 ≤ a ∧ a < 0x501000 + 4 * 1792 ∧ a % 4 = 0 then some ((a - 0x501000) / 4) else none

/-- The first word of the SUB, SVC or PORT entry that holds an address, and its table. -/
def schedEntry (a : Nat) : Option (SchedTable × Nat) :=
  if 0x620000 ≤ a ∧ a < 0x640000 then some (.sub, (a - 0x620000) / 16)
  else if 0x601000 ≤ a ∧ a < 0x605000 then some (.svc, (a - 0x601000) / 16)
  else if 0x600400 ≤ a ∧ a < 0x600620 then some (.port, (a - 0x600400) / 16)
  else none

/-- The bits of a register that are computed fields while its block is at basic level (R73). -/
def computedMask (a : Nat) : Word :=
  if (regionOf a).isSome then F.CIS_REGION_r_OWNER.mask
  else if 0x600400 ≤ a ∧ a < 0x600620 then rwMask a
  else if 0x780000 ≤ a ∧ a < 0x7C0000 ∧ 0x100 ≤ a % 0x10000 ∧ a % 0x10000 < 0x200 ∧ a % 8 = 4 then F.CAS_TRIB_t_1_FIXED.mask
  else ((paramIds.filter (fun i => paramBlock i = blockOf a)).flatMap (fun i => match paramOf i with
    | some p => p.fields
    | none => [])).foldl (fun (m : Word) x => if x.1 = a then m ||| x.2.1.mask else m) 0

/-! ### Values of configuration registers -/

/-- CIS_REGION_r (R246, R249). -/
def regionWord (s : State) (r : Nat) : Word :=
  let x := kget {} s.cistern.regions r
  let st := match x.state with
    | .unassigned => 0 | .active => 1 | .draining => 2 | .quarantined => 3 | .reinit => 4
  BitVec.ofNat 32 (st * 2 ^ 29 + x.owner * 2 ^ 26 + x.keyId * 2 ^ 20 + regionCells s.cistern r)

/-- The live value of a configuration register. -/
def liveWord (s : State) (a : Nat) : Word := match regionOf a with
  | some r => regionWord s r
  | none => s.reg a

/-! ### What the MC computes at basic level -/

/-- Words 0, 1 and 3 of port node `n` at basic level: RATE the port speed or trunk rate, or 400 Gb/s of the host port;
BURST 16 KiB, LEN_ADJ 20, HOST_WEIGHT 16 of line ports (R274, R277). -/
def portEntry (s : State) (n : Nat) : List (Nat × Word) :=
  let trunk := (List.range 4).find? (fun t => s.flag (R.CAS_CFG t) F.CAS_CFG_ENABLE && decide (16 + s.fld (R.CAS_CFG t) F.CAS_CFG_FIRST_LANE = n))
  let rate := if 32 ≤ n then 400000 else match trunk with
    | some t => trunkRate s t
    | none => portRate s n
  [(R.PORT_n_0 n, BitVec.ofNat 32 rate), (R.PORT_n_1 n, BitVec.ofNat 32 (20 * 65536 + 256)),
   (R.PORT_n_3 n, if 16 ≤ n ∧ n < 32 then 16 else 0)]

/-- FIXED of a transparent tributary for a client of a speed code 1 to 3 on a trunk (R313). -/
def fixedFor (speed rate : Nat) : Nat :=
  let d := 103125 * 2 ^ (speed - 1) * 131072 / rate
  (d + 128 + 511) / 512 * 512 - 128 - d

/-- FIXED of the transparent tributaries of trunk `t` at basic level. -/
def fixedEntries (s : State) (t : Nat) : List (Nat × Word) :=
  if s.flag (R.CAS_CFG t) F.CAS_CFG_ENABLE ∧ trunkRate s t ≠ 0 then
    ((tribsOf s t).filter (transparent s t)).map (fun i =>
      (R.CAS_TRIB_t_1 t i, F.CAS_TRIB_t_1_FIXED.put (s.reg (R.CAS_TRIB_t_1 t i))
        (fixedFor (s.fld (aPORT_CFG (s.fld (R.CAS_TRIB_t_0 t i) F.CAS_TRIB_t_0_CLIENT)) F.PORT_CFG_SPEED) (trunkRate s t))))
  else []

/-- The registers that a parameter's value sets, over the registers of `s`. -/
def paramWords (s : State) (id : Nat) : List (Nat × Word) :=
  match paramOf id with
  | some p => p.fields.map (fun x => (x.1, x.2.1.put (s.reg x.1) (x.2.2 * s.param id)))
  | none => []

/-- The region counts of the owners. -/
def regionCounts (s : State) : List Nat := [0x500011, 0x500012, 0x500013, 0x500014, 0x500015, 0x500016].map s.param

end Sys2Proof.Machine
end

