-- ==== Sys2Proof/Machine/Validate.lean ====
section
/-! DEFINITION. Validation of a change of configuration: permission, ranges, capacity and resource claims (R83, R85, and the
rules of the owning chapters that refuse a commit). -/

namespace Sys2Proof.Machine

/-! ### Changes and the configuration they give -/

/-- What a transaction, a parameter write or an image record would change: register writes in the order of their entries,
parameters, calibration offsets; a write was at the wrong level; an entry was not free; and whether the registers of a
block that was at expert level meanwhile are computed anew (R74). -/
structure Change where
  regs : List (Nat × Word) := []
  params : List (Nat × Nat) := []
  cal : List (Nat × Int) := []
  wrongLevel : Bool := false
  overflow : Bool := false
  rework : Bool := true
  deriving DecidableEq, Repr

/-- One register value laid over a configuration. -/
def layWord (s : State) (x : Nat × Word) : State :=
  match regionOf x.1 with
  | some r =>
    let o := F.CIS_REGION_r_OWNER.get x.2
    if (kget {} s.cistern.regions r).owner = o then s else { s with cistern := ownRegion s.cistern r o }
  | none => s.setReg x.1 x.2

/-- The blocks whose computed fields are computed anew at apply: back from expert level, or written while at it (R74). -/
def reworked (s : State) (ch : Change) (b : Block) : Bool :=
  ch.rework && (expert (s.reg R.TXN_LEVEL) b || ch.regs.any (fun x => blockOf x.1 = b && decide ((x.2 ^^^ liveWord s x.1) &&& computedMask x.1 ≠ 0)))

/-- The live configuration with a change laid over it (R83): parameters, registers, and what the MC computes from both. -/
def lay (old : State) (ch : Change) : State :=
  let s := ch.params.foldl (fun (t : State) x => t.setParam x.1 x.2) old
  let s := ch.regs.foldl layWord s
  let w := s.reg R.TXN_LEVEL
  let redo := paramIds.filter (fun i => !expert w (paramBlock i) && (ch.params.any (fun x => decide (x.1 = i)) || reworked old ch (paramBlock i)))
  let s := redo.foldl (fun (t : State) i => (paramWords t i).foldl layWord t) s
  let s := if redo.any (fun i => decide (0x500011 ≤ i ∧ i ≤ 0x500016)) then { s with cistern := assignRegions s.cistern (regionCounts s) } else s
  let s := if expert w .sch then s else (List.range 34).foldl (fun (t : State) n => (portEntry t n).foldl layWord t) s
  if expert w .cas then s else (List.range 4).foldl (fun (t : State) i => (fixedEntries t i).foldl layWord t) s

/-- The registers that an apply writes: those written, and those whose value changes with them. -/
def stagedWords (s c : State) (ch : Change) : List (Nat × Word) :=
  let moved := ((s.regs ++ c.regs).map Prod.fst).filter (fun a => decide (s.reg a ≠ c.reg a))
  let regions := ((List.range 1792).filter (fun r => decide ((kget {} s.cistern.regions r).owner ≠ (kget {} c.cistern.regions r).owner))).map (fun r => 0x501000 + 4 * r)
  ((ch.regs.map Prod.fst) ++ moved ++ regions).eraseDups.map (fun a => (a, liveWord c a))

/-! ### Permission (R83, step 1) -/

/-- In Active or Standby. -/
def inService (s : State) : Bool := s.dev.state = .active || s.dev.state = .standby

/-- A default policy of a port that bypasses in clear without the permission of its pairing (R41). -/
def bypassRefused (c : State) : Bool :=
  (List.range 4).any (fun g => (List.range 8).any (fun i =>
    (c.fld (R.PPOL_A_i g i) F.PPOL_A_i_ACTION = 4 || c.fld (R.PPOL_A_i g i) F.PPOL_A_i_NOPROT = 4) && !bit c.bypassPermit (4 * g + i % 4)))

/-- The plan of port `p`: speed, lanes and their rates. -/
def planOf (s : State) (p : Nat) : Nat × List (Nat × Nat) :=
  (s.fld (aPORT_CFG p) F.PORT_CFG_SPEED, (lanesOfPort s p).map (fun l => (l, s.fld (aLANE_CFG l) F.LANE_CFG_RATE)))

/-- Lanes and rate of a trunk in use. -/
def trunkPlan (s : State) (t : Nat) : Nat × List (Nat × Nat) :=
  (s.fld (R.CAS_CFG t) F.CAS_CFG_RATE, (lanesOfTrunk s t).map (fun l => (l, s.fld (aLANE_CFG l) F.LANE_CFG_RATE)))

/-- An exchange for one of some lanes runs: asked, moved or synchronised and not in place yet, or its release (R108, R110, R114). -/
def sparingRuns (s : State) (lanes : List Nat) : Bool :=
  lanes.any (fun l => (sparesOf l).any (fun k =>
    (s.spare k).rx.awaits l || decide ((s.spare k).tx = .asking l false) || decide ((s.spare k).tx = .asking l true) ||
    decide (kget none s.releasing (sideOf l) = some (k, l))))

/-- A write of a basin map in use, or of a tributary with basins in a map in use (R309, R320). -/
def mapRefused (s c : State) (ch : Change) (t : Nat) : Bool :=
  let used (m : Nat) : Bool := decide ((s.trunk t).txMap = m) || decide ((s.trunk t).rxMap = m)
  s.flag (R.CAS_CFG t) F.CAS_CFG_ENABLE && decide (s.dev.state ≠ .start) &&
  (ch.regs.any (fun x => (used 0 && decide (R.CAS_MAP_0_w t 0 ≤ x.1 ∧ x.1 < R.CAS_MAP_0_w t 64)) || (used 1 && decide (R.CAS_MAP_1_w t 0 ≤ x.1 ∧ x.1 < R.CAS_MAP_1_w t 64))) ||
   (List.range 32).any (fun i => (s.reg (R.CAS_TRIB_t_0 t i) ≠ c.reg (R.CAS_TRIB_t_0 t i) || s.reg (R.CAS_TRIB_t_1 t i) ≠ c.reg (R.CAS_TRIB_t_1 t i)) &&
     ((used 0 && !(basinsOf s t 0 i).isEmpty) || (used 1 && !(basinsOf s t 1 i).isEmpty))))

/-- A write of an entry that the device owns for the host pool (R274). -/
def poolEntry (s : State) (a : Nat) : Bool := match schedEntry a with
  | some (.sub, u) => poolSub s u
  | some (.svc, v) => poolSvc s v
  | _ => false

/-- A port leaves a slice's PORT_MASK while an association of the slice lies on it (R457). -/
def maskRefused (s c : State) (k : Nat) : Bool :=
  let gone (p : Nat) : Bool := bit (s.fld (R.HIF_SLICE_s_0 k) F.HIF_SLICE_s_0_PORT_MASK) p && !bit (c.fld (R.HIF_SLICE_s_0 k) F.HIF_SLICE_s_0_PORT_MASK) p
  let hit (e : Nat × Assoc) : Bool := e.2.valid && decide ((e.1 - 12288) / 64 = k ∧ 12288 ≤ e.1) && gone e.2.record.port
  s.txAssocs.any hit || s.rxAssocs.any hit

/-- The first check: does a rule of permission refuse the change? -/
def refused (s c : State) (ch : Change) : Bool :=
  ch.wrongLevel || bypassRefused c ||
  (inService s && ch.cal.any (fun x => !calInService x.1)) ||
  (inService s && ch.regs.any (fun x => decide (x.1 = R.CIS_SCRUB)) && !c.flag R.CIS_SCRUB F.CIS_SCRUB_SCRUB_EN) ||
  (inService s && (List.range 1792).any (fun r => decide ((kget {} s.cistern.regions r).owner ≠ (kget {} c.cistern.regions r).owner))) ||
  (List.range 32).any (fun p => decide (planOf s p ≠ planOf c p) && sparingRuns s (lanesOfPort s p)) ||
  (List.range 4).any (fun t => decide (trunkPlan s t ≠ trunkPlan c t) && sparingRuns s (lanesOfTrunk s t)) ||
  (List.range 4).any (mapRefused s c ch) ||
  ch.regs.any (fun x => poolEntry s x.1) ||
  (decide (s.fld R.HIF_CFG F.HIF_CFG_SLICES_EN ≠ c.fld R.HIF_CFG F.HIF_CFG_SLICES_EN) && s.dev.state ≠ .maintenance && s.dev.state ≠ .start) ||
  (s.slicesOn && (List.range 64).any (maskRefused s c)) ||
  (s.pair.partner = .ready && (decide (s.reg R.AQD_CFG ≠ c.reg R.AQD_CFG) || decide (s.fld R.PAI_CFG F.PAI_CFG_EN ≠ c.fld R.PAI_CFG F.PAI_CFG_EN)))

/-! ### Ranges of single registers (R83, step 2) -/

/-- Is a number between two bounds? -/
def between (lo hi v : Nat) : Bool := decide (lo ≤ v) && decide (v ≤ hi)

/-- Is a class code one of R133's? -/
def classOk (v : Nat) : Bool := decide (v ≤ 9)

/-- Registers of CPT and LPT (R116, R125). -/
def portRegOk (c : State) (a : Nat) : Bool :=
  if a % 0x4000 = 0 then between 64 16000 (c.fld a F.PORT_CFG_MAX_FRAME) && decide (c.fld a F.PORT_CFG_SPEED ≤ 5)
  else if a % 0x4000 = 0x3000 then between 3 6 (c.fld a F.SPARE_CFG_DEGRADE_EXP) && decide (c.fld a F.SPARE_CFG_MODE ≠ 3)
  else true

/-- Registers of CLS (R154, R155, R162, R163). -/
def clsRegOk (c : State) (a : Nat) : Bool :=
  let g := (a - 0x200000) / 0x40000
  let o := (a - 0x200000) % 0x40000
  if o = 0 then c.fld a F.CLS_AGE_PERIOD_S = 0 || decide (10 ≤ c.fld a F.CLS_AGE_PERIOD_S)
  else if o = 4 then decide (1 ≤ c.fld a F.CLS_MOVE_WINDOW) && decide (1 ≤ c.fld a F.CLS_MOVE_LIMIT)
  else if 0x100 ≤ o ∧ o < 0x140 then
    a % 8 = 4 || ((c.fld a F.PPOL_A_i_NOPROT = 0 || c.fld a F.PPOL_A_i_NOPROT = 4 || c.fld a F.PPOL_A_i_NOPROT = 6) &&
      classOk (c.fld a F.PPOL_A_i_CLASS) && decide (c.fld a F.PPOL_A_i_ACTION ≤ 7))
  else if 0x800 ≤ o ∧ o < 0xC00 then classOk (c.fld a F.DOMAIN_CFG_d_FLOOD_CLASS)
  else if 0x1000 ≤ o ∧ o < 0x5000 then !c.flag a F.FLOOD_d_m_VALID || decide (c.fld a F.FLOOD_d_m_PORT / 4 = g)
  else true

/-- Registers of CIS (R256, R257). -/
def cisRegOk (c : State) (a : Nat) : Bool :=
  if a = R.CIS_CFG then
    between 50 95 (c.fld a F.CIS_CFG_SPILL_HI) && decide (4 ≤ c.fld a F.CIS_CFG_PREFETCH_KIB) && decide (16 ≤ c.fld a F.CIS_CFG_QSPILL_KIB) &&
      decide (c.fld a F.CIS_CFG_PREFETCH_KIB ≤ c.fld a F.CIS_CFG_QSPILL_KIB)
  else if a = R.CIS_ROT then between 10 60000 (c.fld a F.CIS_ROT_MAX_AGE_MS) && decide (c.fld a F.CIS_ROT_ROT_H ≤ 8760)
  else if a = R.CIS_SCRUB then between 10 1440 (c.fld a F.CIS_SCRUB_PERIOD_MIN)
  else match regionOf a with
    | some r => decide ((kget {} c.cistern.regions r).owner ≤ 6)
    | none => true

/-- Registers of SCH and SLU outside the entries that R273 judges (R279, R280, R291). -/
def schRegOk (c : State) (a : Nat) : Bool :=
  if 0x600010 ≤ a ∧ a < 0x60001C then decide (64 ≤ c.fld a F.SCH_DRR_j_Q_HI) && decide (64 ≤ c.fld a F.SCH_DRR_j_Q_LO)
  else if 0x600100 ≤ a ∧ a < 0x600118 then between 50 99 (c.fld a F.SCH_ADMIT_o_ADMIT_PCT)
  else if 0x600400 ≤ a ∧ a < 0x600620 ∧ a % 16 = 4 then decide ((signed 8 (c.fld a F.PORT_n_1_LEN_ADJ)).natAbs ≤ 64)
  else true

def sluRegOk (c : State) (a : Nat) : Bool :=
  if a = R.SLU_BUDGET then between 240 672 (c.fld a F.SLU_BUDGET_BUDGET) && between 1 80 (c.fld a F.SLU_BUDGET_HYST)
  else if a = R.SLU_THERM then
    between 85 108 (c.fld a F.SLU_THERM_SOFT) && between (c.fld a F.SLU_THERM_SOFT + 2) 110 (c.fld a F.SLU_THERM_HARD) && between 1 10 (c.fld a F.SLU_THERM_T_HYST)
  else if a = R.SLU_LOOP then
    between 4 15 (c.fld a F.SLU_LOOP_COMMIT_FLOOR) && decide (1 ≤ c.fld a F.SLU_LOOP_HARD_STEP_US) && decide (1 ≤ c.fld a F.SLU_LOOP_RELEASE_US)
  else if a = R.SLU_GATE then decide (1 ≤ c.fld a F.SLU_GATE_HOLD_US) && decide (1 ≤ c.fld a F.SLU_GATE_WAKE_KIB)
  else true

/-- Registers of CAS (R308, R320). -/
def casRegOk (c : State) (a : Nat) : Bool :=
  let o := a % 0x10000
  if o = 0x18 then c.reg a = 0 || decide (10 ≤ (c.reg a).toNat)
  else if 0x400 ≤ o ∧ o < 0x600 then (wordBytes (c.reg a)).all (fun (b : Byte) => decide (b.toNat < 32) || b = 0xFF)
  else true

/-- Is comparator `k`'s period a window's (R483)? -/
def windowPeriodOk (c : State) (k : Nat) : Bool := between 1000000 1000000000 (c.reg (R.CMP_PERIOD k)).toNat

/-- The gate list of port `p` (R352, R364). -/
def gateOk (c : State) (p : Nat) : Bool :=
  !c.flag (R.GATE_CFG p) F.GATE_CFG_EN ||
  (between 1 256 (c.fld (R.GATE_LEN p) F.GATE_LEN_COUNT) && decide (1000 ≤ (c.reg (R.GATE_CYCLE p)).toNat) &&
    (List.range (c.fld (R.GATE_LEN p) F.GATE_LEN_COUNT)).all (fun e => decide (8 ≤ c.fld (R.GATE_ENTRY_e p e) F.GATE_ENTRY_e_INTERVAL_NS)))

/-- Registers of TIM (R358, R362 to R364, R507). -/
def timRegOk (c : State) (a : Nat) : Bool :=
  if 0x800120 ≤ a ∧ a < 0x800130 then
    between 1 999999 (c.fld a F.PPS_OUT_n_WIDTH_US) && (!c.flag a F.PPS_OUT_n_EN || c.reg (R.CMP_PERIOD (c.fld a F.PPS_OUT_n_CMP)) = 0 ||
      decide (1000 * c.fld a F.PPS_OUT_n_WIDTH_US < (c.reg (R.CMP_PERIOD (c.fld a F.PPS_OUT_n_CMP))).toNat))
  else if 0x800180 ≤ a ∧ a < 0x8001A0 then decide (c.fld a F.TIM_GPIO_j_EDGE ≠ 3) && decide (c.fld a F.TIM_GPIO_j_PIN ≤ 17)
  else if 0x810000 ≤ a ∧ a < 0x830000 then
    let o := a % 0x1000
    let p := (a - 0x810000) / 0x1000
    if o = 0 then decide (c.fld a F.PTP_CFG_TC_MODE ≠ 3)
    else if o = 8 then between 200 10000 (c.fld a F.LAUNCH_CFG_LEAD_NS)
    else if o = 0x10 then between 100 1000 (c.fld a F.GATE_CFG_LEAD_NS) && gateOk c p
    else if 0x14 ≤ o then gateOk c p
    else true
  else true

/-- The range rule of one register (R83, step 2). -/
def regOk (c : State) (a : Nat) : Bool :=
  match blockOf a with
  | .cpt => portRegOk c a
  | .lpt => portRegOk c a
  | .cls => clsRegOk c a
  | .cis => cisRegOk c a
  | .sch => schRegOk c a
  | .slu => sluRegOk c a
  | .cas => casRegOk c a
  | .tim => timRegOk c a
  | .aqd => decide (c.fld R.AQD_CFG F.AQD_CFG_WIDTH ≠ 3)
  | .pai => between 2000 10000 (c.fld R.PAI_CFG F.PAI_CFG_HB_LOSS_NS)
  | .hif =>
    if a = R.HIF_CFG then between 1 16 (c.fld a F.HIF_CFG_PF_RINGS) &&
      (!c.flag a F.HIF_CFG_SLICES_EN || decide (kcount (fun (o : Nat) => o = 6) c.partition = 64))
    else if a = R.HIF_SUB then
      let v := (subEntry c (c.fld a F.HIF_SUB_PUNT_SUB)).service
      decide ((svcEntry c v).node = 32)
    else if 0xA01000 ≤ a ∧ a < 0xA01400 ∧ a % 16 = 8 then decide (c.fld a F.HIF_SLICE_s_2_TEP_BASE + c.fld a F.HIF_SLICE_s_2_TEP_COUNT ≤ 4096)
    else true
  | .cnt =>
    if a = R.CNT_CFG then between 10 60000 (c.fld a F.CNT_CFG_INTERVAL_MS)
    else if a = R.CNT_BW then !c.flag a F.CNT_BW_EN || windowPeriodOk c (c.fld a F.CNT_BW_CMP)
    else true
  | _ => true

/-- The range rule of a parameter: its range, and its relation to others of the result. -/
def paramOk (c : State) (id v : Nat) : Bool :=
  match paramOf id with
  | none => false
  | some p => between p.lo p.hi v && (if id = 0x200001 then v = 0 || decide (10 ≤ v)
    else if id = 0x500003 ∨ id = 0x500004 then decide (c.param 0x500003 ≤ c.param 0x500004)
    else if id = 0x700002 ∨ id = 0x700003 then decide (c.param 0x700002 + 2 ≤ c.param 0x700003)
    else if 0x500011 ≤ id ∧ id ≤ 0x500016 then decide ((regionCounts c).sum ≤ 1792)
    else true)

/-! ### Rules over several registers (R83, step 2) -/

/-- The lane rate code that a port of a speed code with `w` lanes needs; none where R89 has no such port. -/
def rateFor (speed w : Nat) : Option Nat :=
  match speed, w with
  | 1, 1 => some 2 | 1, 2 => some 1
  | 2, 1 => some 3 | 2, 2 => some 2 | 2, 4 => some 1
  | 3, 2 => some 3 | 3, 4 => some 2 | 3, 8 => some 1
  | 4, 4 => some 3 | 4, 8 => some 2
  | 5, 8 => some 3
  | _, _ => none

/-- The plan rules of one port (R89, R90). -/
def portPlanOk (c : State) (p : Nat) : Bool :=
  let w := 2 ^ c.fld (aPORT_LANES p) F.PORT_LANES_WIDTH
  let f := c.fld (aPORT_LANES p) F.PORT_LANES_FIRST_LANE
  c.fld (aPORT_CFG p) F.PORT_CFG_SPEED = 0 ||
  (decide (f % w = 0) && decide (f + w ≤ 16) && (match rateFor (c.fld (aPORT_CFG p) F.PORT_CFG_SPEED) w with
    | some r => (lanesOfPort c p).all (fun l => decide (c.fld (aLANE_CFG l) F.LANE_CFG_RATE = r))
    | none => false))

/-- The lane rate code that a trunk of a rate code with `w` lanes needs (R295). -/
def trunkRateFor (rate w : Nat) : Option Nat :=
  match rate, w with
  | 1, 2 => some 3 | 1, 4 => some 2 | 1, 8 => some 1
  | 2, 4 => some 3 | 2, 8 => some 2 | 2, 16 => some 1
  | 3, 8 => some 3 | 3, 16 => some 2
  | 4, 16 => some 3
  | _, _ => none

/-- The lane rules of one trunk (R90, R295). -/
def trunkPlanOk (c : State) (t : Nat) : Bool :=
  let w := c.fld (R.CAS_CFG t) F.CAS_CFG_WIDTH
  let f := c.fld (R.CAS_CFG t) F.CAS_CFG_FIRST_LANE
  !c.flag (R.CAS_CFG t) F.CAS_CFG_ENABLE ||
  (match trunkRateFor (c.fld (R.CAS_CFG t) F.CAS_CFG_RATE) w with
    | some r => decide (f % w = 0) && decide (f + w ≤ 16) && (lanesOfTrunk c t).all (fun l => decide (c.fld (aLANE_CFG l) F.LANE_CFG_RATE = r))
    | none => false)

/-- The lanes of a lane group, and the two spares of a side, run at one rate (R87); an unused lane has none. -/
def laneRateOk (c : State) (l : Nat) : Bool :=
  let r (m : Nat) : Nat := c.fld (aLANE_CFG m) F.LANE_CFG_RATE
  let mates := if 16 ≤ l % 18 then [l / 18 * 18 + 16, l / 18 * 18 + 17] else (List.range 4).map (fun i => l / 18 * 18 + l % 18 / 4 * 4 + i)
  r l = 0 || mates.all (fun m => r m = 0 || decide (r m = r l))

/-- Basins that either map gives to frame-mapped tributaries (R296). -/
def framedBasins (c : State) (t : Nat) : Nat :=
  let framed (i : Nat) : Bool := decide (i < 32) && c.flag (R.CAS_TRIB_t_0 t i) F.CAS_TRIB_t_0_VALID && !transparent c t i
  ((List.range 254).filter (fun k => framed (mapByte c t 0 k) || framed (mapByte c t 1 k))).length

/-- The rates of a group's ports of a side, in Mb/s, and the framed basins of the trunks that it serves on the line side
(R13, R90, R296). -/
def groupPorts (c : State) (g side : Nat) : Nat := ((List.range 4).map (fun i => portRate c (16 * side + 4 * g + i))).sum
def groupTrunks (c : State) (g : Nat) : List Nat :=
  (List.range 4).filter (fun t => c.flag (R.CAS_CFG t) F.CAS_CFG_ENABLE && decide (c.fld (R.CAS_CFG t) F.CAS_CFG_FIRST_LANE / 4 = g))
def groupBasins (c : State) (g : Nat) : Nat := ((groupTrunks c g).map (fun t => framedBasins c t * trunkRate c t / 256)).sum

/-- Where a group exceeds 1.6 Tb/s: the register that TXN_INVALID names (R90). -/
def groupExcess (c : State) : Option Nat :=
  ((List.range 4).flatMap (fun g => [(g, 0), (g, 1)])).findSome? (fun x =>
    let basins := if x.2 = 1 then groupBasins c x.1 else 0
    if groupPorts c x.1 x.2 + basins ≤ 1600000 then none
    else if basins ≠ 0 then ((groupTrunks c x.1).head?).map R.CAS_CFG
    else (((List.range 4).map (fun i => 16 * x.2 + 4 * x.1 + (3 - i))).find? (fun p => decide (c.fld (aPORT_CFG p) F.PORT_CFG_SPEED ≠ 0))).map aPORT_CFG)

/-- The rules of one enabled trunk: R296, R309. -/
def trunkFault (c : State) (t : Nat) : Option Nat :=
  if !c.flag (R.CAS_CFG t) F.CAS_CFG_ENABLE then none
  else if !trunkPlanOk c t then some (R.CAS_CFG t)
  else if txTag c t = rxTagOf c t then some (R.CAS_TXTAG_LO t)
  else if c.txAssocs.any (fun e => e.2.valid && e.2.record.root = masterHandle c t) || c.rxAssocs.any (fun e => e.2.valid && e.2.record.root = masterHandle c t) then some (R.CAS_MASTER t)
  else if 8 < ((tribsOf c t).filter (transparent c t)).length then ((tribsOf c t).filter (transparent c t)).head?.map (R.CAS_TRIB_t_0 t)
  else ((tribsOf c t).find? (fun i => transparent c t i && decide ((basinsOf c t 0 i).length ≠ (basinsOf c t 1 i).length))).map (R.CAS_TRIB_t_0 t)

/-- The subscribers and services in use that a configuration lists. -/
def listedSubs (c : State) : List Nat :=
  (c.regs.filterMap (fun e => match schedEntry e.1 with
    | some (.sub, u) => some u
    | _ => none)).eraseDups.filter (fun u => (subEntry c u).valid && !poolSub c u)
def listedSvcs (c : State) : List Nat :=
  (c.regs.filterMap (fun e => match schedEntry e.1 with
    | some (.svc, v) => some v
    | _ => none)).eraseDups.filter (fun v => (svcEntry c v).valid && !poolSvc c v)

/-- A port node is assigned: the host port's, a planned port's, or a trunk's lowest line port's (R265). -/
def nodeAssigned (c : State) (n : Nat) : Bool :=
  n = 32 || n = 33 || (decide (n < 32) && (decide (c.fld (aPORT_CFG n) F.PORT_CFG_SPEED ≠ 0) ||
    (List.range 4).any (fun t => c.flag (R.CAS_CFG t) F.CAS_CFG_ENABLE && decide (16 + c.fld (R.CAS_CFG t) F.CAS_CFG_FIRST_LANE = n))))

/-- The first entry of the scheduler that R273 refuses. -/
def schedFault (c : State) : Option Nat :=
  let sub := (listedSubs c).find? (fun u => decide ((subEntry c u).pir < (subEntry c u).cir) || !(svcEntry c (subEntry c u).service).valid)
  let svc := (listedSvcs c).find? (fun v => (svcEntry c v).weight = 0 || !nodeAssigned c (svcEntry c v).node)
  match sub, svc with
  | some u, _ => some (R.SUB_u_0 u)
  | none, some v => some (R.SVC_s_0 v)
  | none, none => ((List.range 34).find? (overcommitted c)).map R.PORT_n_0

/-- A comparator armed by an association leaves TIM_TIA (R185). -/
def tiaFault (s c : State) : Bool :=
  s.txAssocs.any (fun e => e.2.armed.isSome && !(c.reg R.TIM_TIA).getLsbD e.2.record.comparator && (s.reg R.TIM_TIA).getLsbD e.2.record.comparator)

/-- A rule over several registers that the result breaks: where. -/
def crossFault (s c : State) : Option Nat :=
  match (List.range 36).find? (fun l => !laneRateOk c l), (List.range 32).find? (fun p => !portPlanOk c p) with
  | some l, _ => some (aLANE_CFG l)
  | none, some p => some (aPORT_CFG p)
  | none, none =>
    match (List.range 4).findSome? (trunkFault c) with
    | some a => some a
    | none => match groupExcess c with
      | some a => some a
      | none => match schedFault c with
        | some a => some a
        | none => if tiaFault s c then some R.TIM_TIA else none

/-- The second check: where the first INVALID value stands, registers in the order of their entries, then parameters,
then the rules over several registers. -/
def invalidAt (s c : State) (ch : Change) : Option Nat :=
  match ch.regs.find? (fun x => !regOk c x.1), ch.params.find? (fun x => !paramOk c x.1 x.2) with
  | some x, _ => some x.1
  | none, some x => some x.1
  | none, none => crossFault s c

/-! ### Resource claims (R83, step 4; R85) -/

/-- A claim: class, instance, feature code, and the register that makes it. -/
structure Claim where
  cls : Nat
  inst : Nat
  feature : Nat
  reg : Nat
  deriving DecidableEq, Repr

/-- Pins (class 1): captures, and the enclosure inputs that the tamper policy enables (R415). -/
def pinClaims (c : State) : List Claim :=
  ((List.range 8).filter (fun j => c.flag (R.TIM_GPIO_j j) F.TIM_GPIO_j_EN)).map (fun j => ⟨1, c.fld (R.TIM_GPIO_j j) F.TIM_GPIO_j_PIN, 4, R.TIM_GPIO_j j⟩) ++
  ([0, 1].filter (fun i => bit (beAt c.policy 35 1) (2 * i))).map (fun i => ⟨1, 16 + i, 8, R.TMP_CELL⟩)

/-- Time comparators (class 2). -/
def cmpClaims (c : State) : List Claim :=
  ((List.range 4).filter (fun n => c.flag (R.PPS_OUT_n n) F.PPS_OUT_n_EN)).map (fun n => ⟨2, c.fld (R.PPS_OUT_n n) F.PPS_OUT_n_CMP, 2, R.PPS_OUT_n n⟩) ++
  ((List.range 32).filter (fun p => c.flag (R.GATE_CFG p) F.GATE_CFG_EN)).map (fun p => ⟨2, c.fld (R.GATE_CFG p) F.GATE_CFG_CMP, 3, R.GATE_CFG p⟩) ++
  ((List.range 8).filter (fun j => c.flag (R.TIM_GPIO_j j) F.TIM_GPIO_j_EN)).map (fun j => ⟨2, c.fld (R.TIM_GPIO_j j) F.TIM_GPIO_j_CMP, 4, R.TIM_GPIO_j j⟩) ++
  (if c.flag R.CNT_BW F.CNT_BW_EN then [⟨2, c.fld R.CNT_BW F.CNT_BW_CMP, 5, R.CNT_BW⟩] else []) ++
  ((List.range 32).filter (fun k => (c.reg R.TIM_TIA).getLsbD k)).map (fun k => ⟨2, k, 6, R.TIM_TIA⟩)

/-- Lanes (class 4): plans of ports and trunks, spare pools, and a spare that sparing holds outside the pool. -/
def laneClaims (c : State) : List Claim :=
  (List.range 32).flatMap (fun p => (lanesOfPort c p).map (fun l => ⟨4, l, 1, aPORT_CFG p⟩)) ++
  (List.range 4).flatMap (fun t => (lanesOfTrunk c t).map (fun l => ⟨4, l, 1, R.CAS_CFG t⟩)) ++
  ([16, 17, 34, 35].filter (pooled c)).map (fun l => ⟨4, l, 0xB, aSPARE_CFG (sideOf l)⟩)

/-- Spares that sparing holds although they are not in the pool. -/
def sparingClaims (s : State) : List Claim :=
  ([16, 17, 34, 35].filter (fun l => !pooled s l && ((s.spare l).tx ≠ .idle || (s.spare l).rx ≠ .idle))).map (fun l => ⟨4, l, 0xC, aSPARE_STATUS (sideOf l)⟩)

/-- Every claim of a configuration. -/
def claims (c : State) : List Claim := pinClaims c ++ cmpClaims c ++ laneClaims c

/-- Claims of one instance in the order in which they hold it: those of the live configuration, then by shadow entry. -/
def holders (live all : List Claim) (order : List Nat) (cls inst : Nat) : List Claim :=
  let l := all.filter (fun x => x.cls = cls && x.inst = inst)
  (l.filter (fun x => decide (x ∈ live)) ++ order.filterMap (fun a => l.find? (fun x => decide (x.reg = a))) ++ l).eraseDups

/-- The conflict of the lowest class and then the lowest instance: who holds and who claims (R85). -/
def conflictOf (s c : State) (ch : Change) : Option (Claim × Claim) :=
  let live := claims s ++ sparingClaims s
  let all := claims c ++ sparingClaims s
  ([1, 2, 4].flatMap (fun k => (List.range 64).map (fun i => (k, i)))).findSome? (fun x =>
    match holders live all (ch.regs.map Prod.fst) x.1 x.2 with
    | h :: k :: _ => some (h, k)
    | _ => none)

/-! ### The judgement (R83) -/

/-- What validation finds. -/
inductive Judgement where
  | pass
  | denied
  | invalid (reg : Nat)
  | full
  | conflict (holder claimant : Claim)
  deriving DecidableEq, Repr

/-- The status code of a judgement. -/
def Judgement.status : Judgement → Status
  | .pass => .ok | .denied => .denied | .invalid _ => .invalid | .full => .full | .conflict _ _ => .conflict

/-- The checks of R83 in their order, stopping at the first failure. -/
def judgeChange (s : State) (ch : Change) : Judgement :=
  let s := settled s
  let c := lay s ch
  if refused s c ch then .denied
  else match invalidAt s c ch with
    | some a => .invalid a
    | none =>
      if ch.overflow then .full
      else match conflictOf s c ch with
        | some (h, k) => .conflict h k
        | none => .pass

end Sys2Proof.Machine
end

