-- ==== Sys2Proof/Machine/Apply.lean ====
section
/-! DEFINITION. What a change of configuration does when it takes effect in an island, by a transaction, by a write
outside one, or by an image record (R75, R84, and the rules of the owning chapters). -/

namespace Sys2Proof.Machine

/-! ### Words -/

/-- The scheduler entries that a change touches. -/
def entriesIn (l : List (Nat × Word)) : List (SchedTable × Nat) := (l.filterMap (fun (x : Nat × Word) => schedEntry x.1)).eraseDups

/-- The value that a change gives an address. -/
def wordIn (l : List (Nat × Word)) (a : Nat) : Option Word := (l.find? (fun (x : Nat × Word) => decide (x.1 = a))).map Prod.snd

/-- A scheduler entry of a change takes effect as a whole (R270); a word that the change does not give keeps its value. -/
def layEntry (l : List (Nat × Word)) (s : State) (e : SchedTable × Nat) : State :=
  let a := entryAddr e.1 e.2
  let put (m : KMap (Option Word)) (i : Nat) : KMap (Option Word) := if (wordIn l i).isSome then kset none m i (wordIn l i) else m
  applyEntry { s with sched := { s.sched with held := [a, a + 4, a + 8].foldl put s.sched.held } } e.1 e.2 ((wordIn l (a + 12)).getD (s.reg (a + 12)))

/-- The registers of a change take their values; regions that have a new owner take its key ID, in the start only once every record of the
image is applied (R246, R248). -/
def layWords (s : State) (l : List (Nat × Word)) : State :=
  let s := (l.filter (fun x => (schedEntry x.1).isNone)).foldl layWord s
  let s := (entriesIn l).foldl (layEntry l) s
  if l.any (fun x => (regionOf x.1).isSome) ∧ s.dev.state ≠ .start then tagRegions s else s

/-! ### Ports and trunks (R93, R304, R320) -/

/-- Spares that stand in for a lane are released (R114). -/
def releaseLane (s : State) (l : Nat) : State :=
  [spareLane (sideOf l) 0, spareLane (sideOf l) 1].foldl (fun (t : State) k =>
    if spareServes t k l then releaseSpare t k l else t) s

/-- The ports whose plan differs. -/
def replanned (s k : State) : List Nat := (List.range 32).filter (fun p => decide (planOf s p ≠ planOf k p))

/-- The trunks whose lanes or rate differ, and those in use whose keys differ. -/
def retrunked (s k : State) : List Nat := (List.range 4).filter (fun t => decide (trunkPlan s t ≠ trunkPlan k t))
def rekeyed (s k : State) : List Nat := (List.range 4).filter (fun t =>
  k.flag (R.CAS_CFG t) F.CAS_CFG_ENABLE && (decide (masterHandle s t ≠ masterHandle k t) || decide (txTag s t ≠ txTag k t) || decide (rxTagOf s t ≠ rxTagOf k t)))

/-- Lanes train anew; one that the lane plan no longer assigns is unused (R93, R107). -/
def setLanes (k : State) (l : List Nat) : State := l.foldl (fun (t : State) (i : Nat) => t.setLane i {}) k

/-- The lanes that the lane plan gives another rate (R91, R107). -/
def rerated (s k : State) : List Nat :=
  (List.range 36).filter (fun l => decide (l % 18 < 16) && decide (s.fld (aLANE_CFG l) F.LANE_CFG_RATE ≠ k.fld (aLANE_CFG l) F.LANE_CFG_RATE))

/-- The idle spares of a side that becomes coordinated begin to send IDLE blocks (R109). -/
def adoptSpares (s k : State) : State :=
  [16, 17, 34, 35].foldl (fun (t : State) l =>
    if spareMode s (sideOf l) ≠ 1 ∧ spareMode k (sideOf l) = 1 ∧ (t.spare l).tx = .idle then goIdle t l else t) k

/-- A port starts over under its new plan; a hold lasts (R93). -/
def restartPort (k : State) (p : Nat) : State :=
  k.setPort p { held := (k.port p).held, upAtStart := (k.port p).upAtStart, upOrder := (k.port p).upOrder, atStart := (k.port p).atStart, turn := (k.port p).turn, changing := (k.port p).changing }

/-- A trunk starts anew in Active, ends when it is disabled, and otherwise holds nothing (R304). -/
def restartTrunk (s k : State) (t : Nat) : State :=
  if k.flag (R.CAS_CFG t) F.CAS_CFG_ENABLE then
    if k.dev.state = .active then startTrunk k t else k.setTrunk t {}
  else
    (k.dropQueued (64 + t) (.port (16 + s.fld (R.CAS_CFG t) F.CAS_CFG_FIRST_LANE) 19)).setTrunk t {}

/-- Ports and trunks follow a change from `s` to `k`. -/
def adoptLanes (s k : State) : State :=
  let ports := replanned s k
  let trunks := retrunked s k
  let old := ports.flatMap (lanesOfPort s) ++ trunks.flatMap (lanesOfTrunk s)
  let new := ports.flatMap (lanesOfPort k) ++ trunks.flatMap (lanesOfTrunk k)
  let k := adoptSpares s (setLanes k (old ++ new ++ rerated s k).eraseDups)
  let k := ports.foldl restartPort k
  let k := (trunks ++ rekeyed s k).eraseDups.foldl (restartTrunk s) k
  (List.range 32).foldl (fun (t : State) p => portEdge s p t) k

/-! ### Time (R352, R357, R483) -/

/-- A comparator newly enabled takes the next whole second of its base where its target reads 0; one that has fired is
armed again by a new target or period (R357). -/
def adoptCmp (s k : State) (c : Nat) : State :=
  let rises := !s.flag (R.CMP_CFG c) F.CMP_CFG_EN && k.flag (R.CMP_CFG c) F.CMP_CFG_EN
  let k := if rises || decide (cmpTarget s c ≠ cmpTarget k c) || decide (s.reg (R.CMP_PERIOD c) ≠ k.reg (R.CMP_PERIOD c)) then { k with cmpDone := kset false k.cmpDone c false } else k
  if rises ∧ cmpTarget k c = {} then setCmpTarget k c { sec := (k.now (k.fld (R.CMP_CFG c) F.CMP_CFG_TB)).sec + 1 } else k

/-- Gate lists that differ wait for their first cycle start (R352). -/
def adoptGate (s k : State) (p : Nat) : State :=
  if s.reg (R.GATE_CFG p) ≠ k.reg (R.GATE_CFG p) ∨ gateListOf s p ≠ gateListOf k p then loadGates k p else k

/-- Bandwidth windows begin to count (R483). -/
def adoptWindows (s k : State) : State :=
  if !s.flag R.CNT_BW F.CNT_BW_EN ∧ k.flag R.CNT_BW F.CNT_BW_EN then
    (List.range 32).foldl (fun (t : State) p =>
      { t with bwRx := kset 0 t.bwRx p (kget 0 t.counters (Ctr.port p 1).index), bwTx := kset 0 t.bwTx p (kget 0 t.counters (Ctr.port p 17).index) }) k
  else k

/-- The pair and its link: PAI_CFG.EN gives or ends a role, a changed AQD_CFG ends the session (R427, R434, R452). -/
def adoptPair (s k : State) : State :=
  let k := if pairOn s = pairOn k ∨ k.dev.state = .start then k
    else k.modPair (fun p => { p with role := if pairOn k ∧ k.dev.state = .active then .active else .none, partner := .none })
  if s.reg R.AQD_CFG ≠ k.reg R.AQD_CFG then applyAqd k else k

/-- Preemption newly enabled or disabled verifies anew (R101). -/
def adoptPreempt (s k : State) (p : Nat) : State :=
  if s.flag (aPORT_CFG p) F.PORT_CFG_PREEMPT_EN ≠ k.flag (aPORT_CFG p) F.PORT_CFG_PREEMPT_EN then k.setPort p { k.port p with verify := .verifying } else k

/-! ### The whole -/

/-- A change of registers takes effect. -/
def applyWords (s : State) (l : List (Nat × Word)) : State :=
  let c := l.foldl layWord s
  let gone := (replanned s c).flatMap (lanesOfPort s) ++ (retrunked s c).flatMap (lanesOfTrunk s)
  let s := gone.foldl releaseLane s
  let k := layWords s l
  let k := adoptLanes s k
  let k := (List.range 32).foldl (adoptPreempt s) k
  let k := (List.range 32).foldl (adoptCmp s) k
  let k := (List.range 32).foldl (adoptGate s) k
  adoptPair s (adoptWindows s k)

/-- A user calibration offset takes effect (R78). -/
def applyCal (s : State) (x : Nat × Int) : State := { s with calUser := kset 0 s.calUser x.1 x.2 }

/-- A whole change takes effect at once: what a record of the image sets (R72). -/
def applyChange (s : State) (ch : Change) : State :=
  let w := stagedWords s (lay s ch) ch
  let s := ch.params.foldl (fun (t : State) x => t.setParam x.1 x.2) s
  ch.cal.foldl applyCal (applyWords s w)

end Sys2Proof.Machine
end

