-- ==== Sys2Proof/Machine/Txn.lean ====
section
/-! DEFINITION. The transaction engine: the shadow, its control commands, validation and apply, basic-parameter writes and
calibration writes (R73 to R86). -/

namespace Sys2Proof.Machine

/-! ### The shadow (R81) -/

/-- The key of a calibration item among the register entries of the shadow. -/
def calKey (item : Nat) : Nat := 0x40000000 + item

/-- What the shadow, or else the live configuration, holds of a register. -/
def shadowReg (s : State) (a : Nat) : Word := if a ∈ s.txn.used then kget 0 s.txn.regs a else liveWord s a

/-- TXN_LEVEL as writes are judged against it now (R74). -/
def levelNow (s : State) : Word := shadowReg s R.TXN_LEVEL

/-- A value put in the shadow; where no entry is free it is discarded, and the commit fails (R81). Each calibration item takes a
register entry of its own, though CAL_OFFSET is one register (DESIGN CHOICE: log entry 231). -/
def shadowPut (s : State) (a : Nat) (w : Word) : State :=
  if a ∈ s.txn.used then { s with txn := { s.txn with regs := kset 0 s.txn.regs a w } }
  else if s.txn.used.length < 4096 then { s with txn := { s.txn with regs := kset 0 s.txn.regs a w, used := s.txn.used ++ [a] } }
  else { s with txn := { s.txn with overflow := true } }

/-- The change that the shadow spells. -/
def changeOf (s : State) : Change where
  regs := (s.txn.used.filter (fun a => decide (a < 0x40000000))).map (fun a => (a, kget 0 s.txn.regs a))
  params := s.txn.params
  cal := (s.txn.used.filter (fun a => decide (0x40000000 ≤ a))).map (fun a => (a - 0x40000000, signed 16 (kget 0 s.txn.regs a).toNat))
  wrongLevel := s.txn.wrongLevel
  overflow := s.txn.overflow

/-- TXN_STATUS.CMD and RESULT. -/
def txnCmd (s : State) (st : Status) : State := s.setFld R.TXN_STATUS F.TXN_STATUS_CMD st.code
def txnResult (s : State) (st : Status) : State := s.setFld R.TXN_STATUS F.TXN_STATUS_RESULT st.code

/-- BP_STATUS is written: the physical function's vector 4 fires (R77, R464). -/
def bpEnd (s : State) (st : Status) : State := (s.setFld R.BP_STATUS F.BP_STATUS_STATUS st.code).interrupt .pf 4

/-- The transaction ends with an outcome, an implicit one in BP_STATUS (R75, R82); its shadow is discarded. -/
def txnEnd (s : State) (st : Status) : State :=
  let u := discardTxn s
  if s.txn.implicit then bpEnd u st else (txnResult u st).interrupt .pf 4

/-- An MC restart ends a transaction that is not applying (R31, R75, R82). -/
def txnRestart (s : State) : State :=
  if s.txn.state = .open ∨ s.txn.state = .validating then txnEnd s (if s.txn.implicit then .aborted else .expired) else s

/-! ### Control commands (R82, R86) -/

/-- TXN_BEGIN. -/
def execTxnBegin (s : State) : Res :=
  .next (s.access R.TXN_CTRL (fun s =>
    if s.dev.mcRestarting then txnCmd s .busy
    else if s.txn.state = .idle then txnCmd { s with txn := { state := .open, timer := some (s.fld R.TXN_TIMEOUT F.TXN_TIMEOUT_MS) } } .ok
    else txnCmd s .busy))

/-- TXN_COMMIT. -/
def execTxnCommit (s : State) : Res :=
  .next (s.access R.TXN_CTRL (fun s =>
    if s.dev.mcRestarting then txnCmd s .busy
    else match s.txn.state with
      | .idle => txnCmd s .invalid
      | .open => txnCmd { s with txn := { s.txn with state := .validating, timer := none } } .ok
      | .validating => txnCmd s .busy
      | .applying => txnCmd s .busy))

/-- TXN_ROLLBACK. -/
def execTxnRollback (s : State) : Res :=
  .next (s.access R.TXN_CTRL (fun s =>
    match s.txn.state with
      | .idle => txnCmd s .invalid
      | .open => txnCmd (txnEnd s .aborted) .ok
      | .validating => txnCmd s .busy
      | .applying => txnCmd s .busy))

/-- TXN_TIMEOUT_EXPIRY; `late` when a COMMIT or ROLLBACK reaches the engine on the same cycle (R11, R82). -/
def execTxnTimeoutExpiry (late : Bool) (s : State) : Res :=
  if s.txn.state = .open ∧ s.txn.timer.isSome then
    .next (if late then txnCmd (txnEnd s .expired) .expired else txnEnd s .expired)
  else .next s

/-! ### Validation and apply (R42, R83, R84) -/

/-- Where a failed validation was (R82, R85, R86). -/
def txnFault (s : State) (j : Judgement) : State :=
  match j with
  | .invalid a => s.setReg R.TXN_INVALID (BitVec.ofNat 32 a)
  | .conflict h k => s.setReg R.TXN_CONFLICT (BitVec.ofNat 32 (h.cls * 2 ^ 28 + h.inst * 2 ^ 16 + h.feature * 256 + k.feature))
  | .pass => s
  | .denied => s
  | .full => s

/-- Does a queue entry belong to port pairing `p`? -/
def ofPairing (s : State) (p : Nat) (x : Job) : Bool :=
  decide (x.egress < 32 ∧ x.egress % 16 = p) || (decide ((s.frame x.frame).ingress < 32) && decide ((s.frame x.frame).ingress % 16 = p))

/-- A queue entry of a pairing is dropped and counted: before dispatch at once, else by merge, whatever of it has left (R42). -/
def dropOfPairing (p : Nat) (s : State) (j : Nat) : State :=
  let x := s.job j
  if !ofPairing s p x then s
  else if x.stage.waits then (egressCount s x.egress 19).dropJob j
  else if (x.stage = .dispatched ∨ x.stage = .lost) ∧ !x.merged ∧ !x.discard then
    egressCount (s.setJob j { x with discard := true, fate := some (.aborted, 5) }) x.egress 19
  else s

/-- A frame of a pairing that has been received and is not classified yet is dropped, and counted at the other port of the pairing
(R42). -/
def dropReceived (p : Nat) (s : State) (h : Nat) : State :=
  let f := s.frame h
  if f.ingress < 32 ∧ f.ingress % 16 = p ∧ !f.classified then failFrame (egressCount s ((f.ingress + 16) % 32) 19) h else s

/-- Pairing `x.1` is given personality `x.2`: fail-closed until its ports are up again, its frames dropped (R42). -/
def changePersonality (s : State) (x : Nat × Personality) : State :=
  let p := x.1 % 16
  if s.pers p = x.2 then s
  else
    let k := (s.jobs.map Prod.fst).foldl (dropOfPairing p) s
    let k := (s.frames.map Prod.fst).foldl (dropReceived p) k
    let k := { k with personality := kset .none k.personality p x.2 }
    [p, p + 16].foldl (fun (t : State) q => t.setPort q { t.port q with changing := true, verify := .verifying }) k

/-- The words of a change with the islands that they take effect in (R84). -/
def stageWords (s : State) (l : List (Nat × Word)) : List (Island × Nat × Word) := l.map (fun x => (islandOf s x.1, x.1, x.2))

/-- The islands that a staged change affects (R84): those of its registers, and the MC for levels, parameters and
calibration. -/
def affected (l : List (Island × Nat × Word)) (ch : Change) : List Island :=
  (l.map Prod.fst ++ (if ch.params = [] ∧ ch.cal = [] then [] else [Island.mc])).eraseDups

/-- Every affected island has applied (R82). -/
def txnApplied (s : State) : State :=
  let s := (List.range 32).foldl (fun (t : State) p => if (t.port p).changing then t.setPort p { t.port p with changing := false } else t) s
  txnEnd (s.setReg R.TXN_SEQ (s.reg R.TXN_SEQ + 1)) .ok

/-- The transaction ends once no island waits. -/
def txnSettle (s : State) : State := if s.txn.waiting = [] then txnApplied s else s

/-- TXN_VALIDATION_END: the checks of R83; a pass stages the change for its islands and sets A, 8 us from now on `TB_0`
(R84). `pers` are the personalities that the transaction gives. -/
def execTxnValidationEnd (pers : List (Nat × Personality)) (s : State) : Res :=
  if s.txn.state = .validating then
    let ch := changeOf s
    match judgeChange s ch with
    | .pass =>
      let l := stageWords s (stagedWords s (lay s ch) ch)
      let k := { s with txn := { s.txn with state := .applying, staged := l, applyAt := (s.now 0).shift (8000 * 2 ^ 24), waiting := affected l ch } }
      let k := pers.foldl changePersonality k
      .next (txnSettle k)
    | j => .next (txnEnd (txnFault s j) j.status)
  else .next s

/-- What the MC's island applies: parameters and calibration. -/
def applyMc (s : State) : State :=
  let s := s.txn.params.foldl (fun (t : State) x => t.setParam x.1 x.2) s
  (s.txn.used.filter (fun a => decide (0x40000000 ≤ a))).foldl (fun (t : State) a => applyCal t (a - 0x40000000, signed 16 (kget 0 s.txn.regs a).toNat)) s

/-- The staged words of an island. -/
def stagedFor (s : State) (i : Island) : List (Nat × Word) :=
  (s.txn.staged.filter (fun x => decide (x.1 = i))).map Prod.snd

/-- Island `i` applies its part. -/
def applyIsland (s : State) (i : Island) : State :=
  let k := applyWords s (stagedFor s i)
  let k := if i = .mc then applyMc k else k
  { k with txn := { k.txn with waiting := k.txn.waiting.filter (fun (x : Island) => decide (x ≠ i)) } }

/-- TXN_APPLY_INSTANT: island `i` applies its part at its first boundary at or after A; the last one ends the transaction
(R82, R84). -/
def execTxnApplyInstant (i : Island) (s : State) : Res :=
  if s.txn.state = .applying ∧ i ∈ s.txn.waiting then .next (txnSettle (applyIsland (s.reach 0 s.txn.applyAt) i)) else .next s

/-! ### Writes to configuration registers (R73 to R75, R81) -/

/-- A register write that would change a computed field of a block at basic level (R73). -/
def wrongLevelWrite (s : State) (a : Nat) (w : Word) : Bool :=
  !expert (levelNow s) (blockOf a) && decide ((w ^^^ shadowReg s a) &&& computedMask a ≠ 0)

/-- Outside a transaction: writes that a chapter ignores (R246, R274). -/
def writeIgnored (s : State) (a : Nat) (w : Word) : Bool :=
  poolEntry s a || ((regionOf a).isSome && inService s) || (decide (a = R.CIS_SCRUB) && inService s && decide (F.CIS_SCRUB_SCRUB_EN.get w = 0))

/-- A PORT entry's write refused at basic level sets SCH_ALARM.LEVEL (R277). -/
def noteLevel (s : State) (a : Nat) (wrong : Bool) : State :=
  match schedEntry a with
  | some (.port, _) => if wrong then s.alarm R.SCH_ALARM F.SCH_ALARM_LEVEL else s
  | _ => s

/-- A write outside a transaction takes effect without validation (R75); words 0 to 2 of a scheduler entry are held
(R270), and an entry that leaves a node overcommitted raises its alarm (R273). -/
def directWrite (s : State) (a : Nat) (w : Word) : State :=
  if writeIgnored s a w then s
  else match schedEntry a with
    | none => applyWords s [(a, w)]
    | some e =>
      if a % 16 = 12 then
        let c := (heldWords s (entryAddr e.1 e.2) w).foldl layWord (settled s)
        let s := applyWords s [(a, w)]
        if (List.range 34).any (overcommitted c) then s.alarm R.SCH_ALARM F.SCH_ALARM_OVERCOMMIT else s
      else { s with sched := { s.sched with held := kset none s.sched.held a (some w) } }

/-- The bits of a register that a write gives it: RW bits, and FILL of a subscriber's word 3 (R278); not GU_EN bits 5 and 7
(R452) and not map bytes 254 and 255 (R321). -/
def storeMask (a : Nat) : Word :=
  if a = R.PAI_CFG then rwMask a &&& 0xFF5FFFFF
  else if 0x780000 ≤ a ∧ a < 0x7C0000 ∧ (a % 0x10000 = 0x4FC ∨ a % 0x10000 = 0x5FC) then 0xFFFF
  else match schedEntry a with
    | some (.sub, _) => if a % 16 = 12 then rwMask a ||| F.SUB_u_3_FILL.mask else rwMask a
    | _ => rwMask a

/-- A register value with the bits of `m` taken from `v`. -/
def withBits (old v m : Word) : Word := (old &&& ~~~ m) ||| (v &&& m)

/-- The physical function writes the RW bits of a shadowed register (R73 to R75, R81). -/
def configWrite (s : State) (a : Nat) (v : Word) : State :=
  let w := withBits (shadowReg s a) v (storeMask a)
  let wrong := wrongLevelWrite s a w
  match s.txn.state with
  | .open => noteLevel (shadowPut { s with txn := { s.txn with wrongLevel := s.txn.wrongLevel || wrong } } a w) a wrong
  | .idle => if a = R.TXN_LEVEL ∨ wrong then noteLevel (txnCmd s .denied) a wrong else directWrite s a w
  | .validating => txnCmd s .busy
  | .applying => txnCmd s .busy

/-- SCHED_ENTRY_WORD3_WRITE (R270). -/
def execSchedEntryWord3Write (t : SchedTable) (i : Nat) (v : Word) (s : State) : Res :=
  if i < (match t with
    | .sub => 8192
    | .svc => 1024
    | .port => 34)
  then .next (s.access (entryAddr t i + 12) (fun s => configWrite s (entryAddr t i + 12) v))
  else .next s

/-! ### Basic parameters (R75, R77) -/

/-- BP_ID, and BP_VAL as one number. -/
def bpId (s : State) : Nat := (s.reg R.BP_ID).toNat
def bpVal (s : State) : Nat := s.reg64 R.BP_VAL_LO R.BP_VAL_HI

/-- The shadow's value of a parameter within a transaction, or the effective one. -/
def paramNow (s : State) (id : Nat) : Nat := ((s.txn.params.find? (fun x => x.1 = id)).map Prod.snd).getD (s.param id)

/-- A parameter put in the shadow; none where no entry is free (R81). -/
def shadowParam (s : State) (id v : Nat) : Option State :=
  if s.txn.params.any (fun x => x.1 = id) then
    some { s with txn := { s.txn with params := s.txn.params.map (fun x => if x.1 = id then (id, v) else x) } }
  else if s.txn.params.length < 1024 then some { s with txn := { s.txn with params := s.txn.params ++ [(id, v)] } }
  else none

/-- BP_WRITE (R77). An unknown parameter is NOT_FOUND before anything is DENIED (DESIGN CHOICE: log entry 230). -/
def execBpWrite (s : State) : Res :=
  .next (s.access R.BP_CMD (fun s =>
    if s.dev.mcRestarting ∨ s.txn.state = .validating ∨ s.txn.state = .applying then bpEnd s .busy
    else if (paramOf (bpId s)).isNone then bpEnd s .notFound
    else if expert (levelNow s) (paramBlock (bpId s)) then bpEnd s .denied
    else if s.txn.state = .open then
      match shadowParam s (bpId s) (bpVal s) with
      | some k => bpEnd k .ok
      | none => bpEnd { s with txn := { s.txn with overflow := true } } .full
    else { s with txn := { state := .validating, implicit := true, params := [(bpId s, bpVal s)] } }))

/-- BP_READ. -/
def execBpRead (s : State) : Res :=
  .next (s.access R.BP_CMD (fun s =>
    if (paramOf (bpId s)).isNone then bpEnd s .notFound
    else bpEnd (s.setReg64 R.BP_VAL_LO R.BP_VAL_HI (if s.txn.state = .open then paramNow s (bpId s) else s.param (bpId s))) .ok))

/-! ### Calibration (R80) -/

/-- The item that CAL_SEL names. -/
def calItem (s : State) : Nat := s.fld R.CAL_SEL F.CAL_SEL_ITEM

/-- CAL_OFFSET.STATUS. -/
def calStatus (s : State) (st : Status) : State := s.setFld R.CAL_OFFSET F.CAL_OFFSET_STATUS st.code

/-- CAL_OFFSET_WRITE (R80). Only this write reports NOT_FOUND, and not the choice of an unknown item in CAL_SEL, whose CAL_VALUE and
CAL_LIMITS read 0 (DESIGN CHOICE: log entry 229). -/
def execCalOffsetWrite (v : Word) (s : State) : Res :=
  let off := v.toNat % 65536
  .next (s.access R.CAL_OFFSET (fun s =>
    if s.txn.state = .validating ∨ s.txn.state = .applying then txnCmd s .busy
    else if (calLimits (calItem s)).isNone then calStatus s .notFound
    else if s.txn.state = .open then calStatus (shadowPut s (calKey (calItem s)) (BitVec.ofNat 32 off)) .ok
    else if s.dev.state = .maintenance then calStatus (applyCal s (calItem s, signed 16 off)) .ok
    else calStatus s .denied))

end Sys2Proof.Machine
end

