-- ==== Sys2Proof/Machine/Image.lean ====
section
/-! DEFINITION. Configuration images: header, records and signature (R62 to R68), and the writing of a slot (R69 to R71). -/

namespace Sys2Proof.Machine

/-! ### Records (R63, R64, R68) -/

/-- A record of an image: its type, its CRITICAL flag and its payload. -/
structure Rec where
  typ : Nat
  critical : Bool
  payload : List Byte
  deriving DecidableEq, Repr

/-- Is a record type known, and is it a singleton (R64)? -/
def typeKnown (t : Nat) : Bool := decide (1 ≤ t ∧ t ≤ 7) || decide (0x10 ≤ t ∧ t ≤ 0x1B) || t = 0xFFFF
def typeSingle (t : Nat) : Bool := [1, 2, 6, 7, 0x10, 0x16, 0x17, 0x18, 0x19, 0x1A, 0x1B, 0xFFFF].contains t

/-- The record walk of R68 over the record area from `l`, with the records already read and `count` to find: the records
without END, or none where it fails. -/
def walkRecords (l : List Byte) (seen : List Rec) (count : Nat) : Nat → Option (List Rec)
  | 0 => none
  | fuel + 1 =>
    let typ := beAt l 0 2
    let flags := beAt l 2 2
    let len := beAt l 4 4
    let size := 8 + roundUp len 8
    if l.length < 8 ∨ 2 ≤ flags ∨ l.length < size ∨ !allZero (slice l (8 + len) (size - 8 - len)) then none
    else if typeSingle typ ∧ seen.any (fun (r : Rec) => r.typ = typ) then none
    else if !typeKnown typ ∧ flags = 1 then none
    else if typ = 0xFFFF then if len = 0 ∧ l.length = 8 ∧ seen.length + 1 = count then some seen else none
    else walkRecords (l.drop size) (seen ++ [{ typ := typ, critical := decide (flags = 1), payload := slice l 8 len }]) count fuel

/-! ### Header and signature (R62, R66 to R68) -/

/-- Header fields. -/
def imageLen (b : List Byte) : Nat := beAt b 8 4
def recordLen (b : List Byte) : Nat := beAt b 12 4
def imageSeq (b : List Byte) : Nat := beAt b 16 8
def imageCtr (b : List Byte) : Nat := beAt b 27 5

/-- The records of an image; none where the walk fails. -/
def recordsOf (b : List Byte) : Option (List Rec) := walkRecords (slice b 256 (recordLen b)) [] (beAt b 88 4) (recordLen b / 8 + 1)

/-- The payload of the MC_PATCH record, if there is one. -/
def patchOf (b : List Byte) : Option (List Byte) := (((recordsOf b).getD []).find? (fun (r : Rec) => r.typ = 1)).map Rec.payload

/-- Every header field holds a permitted value (R62). -/
def headerFields (b : List Byte) : Bool :=
  decide (beAt b 0 4 = 0x4D4C5349) && decide (beAt b 4 2 = 1) && decide (beAt b 6 2 = 0x100) && decide (imageLen b % 8 = 0) &&
  decide (7696 ≤ imageLen b ∧ imageLen b ≤ 67108864) && decide (recordLen b + 256 + 7432 = imageLen b) && decide (beAt b 24 3 = 0) &&
  decide (beAt b 82 6 = 0) && decide (beAt b 92 4 = 0) && allZero (slice b 120 128) && decide (beAt b 252 4 = 0)

/-- The header check (R68), the patch's own check among it (R65). -/
def headerOk (s : State) (b : List Byte) : Bool :=
  let sig := imageLen b - 7432
  headerFields b && decide (imageLen b ≤ b.length) && decide ((crc32 (slice b 0 248)).toNat = beAt b 248 4) &&
  (allZero (slice b 32 48) || decide (slice b 32 48 = identityDigest)) && decide (beAt b 80 2 ≤ s.fld R.GLB_REV F.GLB_REV_STEPPING) &&
  decide (beAt b sig 4 = 0x4D4C5353) && decide (beAt b (sig + 4) 4 = 7432) && allZero (slice b (sig + 105) 7) && allZero (slice b (sig + 7427) 5) &&
  (recordsOf b).isSome && (match patchOf b with
    | some p => (Config.patchVersion p).isSome
    | none => true)

/-- D of R67. -/
def imageDigest (b : List Byte) : List Byte := sha384 (slice b 0 (imageLen b - 7432))

/-- Steps 2 to 4 of R67. -/
def imageSigned (b : List Byte) : Bool := ownerSigned b (imageLen b - 7432) (imageDigest b)

/-! ### Slots (R61, R69, R70) -/

/-- Slot `n` of the flash: 1 A, 2 B. -/
def State.flash (s : State) (n : Nat) : List Byte := if n = 1 then s.flashA else s.flashB
def State.setFlash (s : State) (n : Nat) (b : List Byte) : State := if n = 1 then { s with flashA := b } else { s with flashB := b }

/-- Does a slot hold a readable header: programmed, and not erased (R46, R70)? -/
def slotReadable (b : List Byte) : Bool := decide (256 ≤ b.length) && !(slice b 0 256).all (fun (x : Byte) => x = 0xFF)

/-- A slot whose header is erased. -/
def withoutHeader (body : List Byte) : List Byte := List.replicate 256 0xFF ++ body

/-- IMG_STATUS.PHASE. -/
def imgPhase (s : State) : Nat := s.fld R.IMG_STATUS F.IMG_STATUS_PHASE

/-- The phase that runs from now on, with nothing of it done. -/
def setPhase (s : State) (n : Nat) : State := s.setReg R.IMG_STATUS (BitVec.ofNat 32 (n * 256 + s.fld R.IMG_STATUS F.IMG_STATUS_STATUS))

/-- The write ends with a status: the physical function's vector 5 fires (R71, R464). -/
def imgEnd (s : State) (st : Status) : State := ({ s with img := {} }.setReg R.IMG_STATUS (BitVec.ofNat 32 st.code)).interrupt .pf 5

/-- May slot `n` be written now (R69)? -/
def slotWritable (s : State) (n : Nat) : Bool :=
  match s.dev.state with
  | .minimal => true
  | .maintenance => true
  | .active => decide (s.dev.slot ≠ n)
  | .standby => decide (s.dev.slot ≠ n)
  | .start => false
  | .halt => false
  | .wellOnly => false

/-- IMG_WRITE_GO: a write of IMG_CTRL with GO 1, SLOT as written (R69 to R71). -/
def execImgWriteGo (slotB : Bool) (s : State) : Res :=
  let n := if slotB then 2 else 1
  .next (s.access R.IMG_CTRL (fun s =>
    let s := s.setFld R.IMG_CTRL F.IMG_CTRL_SLOT (b2n slotB)
    if imgPhase s ≠ 0 then s
    else if !slotWritable s n then imgEnd s .denied
    else if s.reg64 R.IMG_SRC_LO R.IMG_SRC_HI % 8 ≠ 0 then imgEnd s .invalid
    else setPhase { s.setFlash n [] with img := { slot := n } } 1))

/-- Step 1 ends with the first 256 bytes read from the host: LEN, as IMG_LEN holds it now (DESIGN CHOICE: log entry 228), must be their
IMAGE_LEN (R70, R71). -/
def afterErase (s : State) (read : HostRead) : State :=
  let s := s.emit (s.dmaRead .pf (s.reg64 R.IMG_SRC_LO R.IMG_SRC_HI) 256)
  match read with
  | .error => imgEnd s .aborted
  | .data b =>
    let h := slice b 0 256
    if (s.reg R.IMG_LEN).toNat ≠ imageLen h then imgEnd s .invalid
    else setPhase { s with img := { s.img with header := h } } 2

/-- Step 2 ends: bytes 256 to IMAGE_LEN - 1 are programmed. -/
def afterProgram (s : State) (read : HostRead) : State :=
  let s := s.emit (s.dmaRead .pf (s.reg64 R.IMG_SRC_LO R.IMG_SRC_HI + 256) (imageLen s.img.header - 256))
  match read with
  | .error => imgEnd s .aborted
  | .data b =>
    let body := slice b 0 (imageLen s.img.header - 256)
    setPhase (({ s with img := { s.img with body := body } }).setFlash s.img.slot (withoutHeader body)) 3

/-- Steps 3 and 4 end: the slot as it is read back, with the held header in front. -/
def afterVerify (s : State) (readBack : Bool) : State :=
  let b := s.img.header ++ (s.flash s.img.slot).drop 256
  if !readBack then imgEnd s .integrity
  else if !headerOk s b then imgEnd s .invalid
  else if !imageSigned b then imgEnd s .integrity
  else if imageCtr b < s.counterS then imgEnd s .invalid
  else setPhase s 4

/-- Step 5: the header is programmed, and the slot's fail count is cleared (R49, R70). -/
def afterHeader (s : State) : State :=
  let s := s.setFlash s.img.slot (s.img.header ++ s.img.body)
  imgEnd (s.setFld R.START_FAILS (if s.img.slot = 1 then F.START_FAILS_FAIL_A else F.START_FAILS_FAIL_B) 0) .ok

/-- IMG_WRITE_PHASE_COMPLETE: the phase that runs is complete; `read` is what its DMA reads brought, `readBack` whether the
slot read back as it was programmed. -/
def execImgWritePhaseComplete (read : HostRead) (readBack : Bool) (s : State) : Res :=
  .next (match imgPhase s with
    | 1 => afterErase s read
    | 2 => afterProgram s read
    | 3 => afterVerify s readBack
    | 4 => afterHeader s
    | _ => s)

end Sys2Proof.Machine
end

