-- ==== Sys2Proof/Machine/Records.lean ====
section
/-! DEFINITION. The records of an image and what start applies of them (R65, R72, and the record formats of the owning
chapters). -/

namespace Sys2Proof.Machine

/-! ### Changes by records -/

/-- Entries of `n` bytes. -/
def chunks (n : Nat) (l : List Byte) : Nat → List (List Byte)
  | 0 => []
  | fuel + 1 => if l = [] ∨ n = 0 then [] else slice l 0 n :: chunks n (l.drop n) fuel

/-- The entries of a payload: one or more of `n` bytes, or none where it holds no whole number of them. -/
def entriesOfSize (n : Nat) (l : List Byte) : Option (List (List Byte)) :=
  if l.length % n = 0 ∧ l ≠ [] then some (chunks n l l.length) else none

/-- A value put into a list of changes; a later one for the same key overrides an earlier one (R72). -/
def putLast {α : Type} (l : List (Nat × α)) (a : Nat) (w : α) : List (Nat × α) :=
  if l.any (fun (x : Nat × α) => decide (x.1 = a)) then l.map (fun (x : Nat × α) => if x.1 = a then (a, w) else x) else l ++ [(a, w)]

/-- A register as a change under way leaves it. -/
def inChange (s : State) (l : List (Nat × Word)) (a : Nat) : Word := (wordIn l a).getD (liveWord s a)

/-- A change judged against the configuration built so far, and applied if it passes (R72). -/
def tryChange (s : State) (ch : Change) : State × Status :=
  match judgeChange s ch with
  | .pass => (applyChange s ch, .ok)
  | j => (s, j.status)

/-- A write of some fields of a register. -/
def fieldsPut (w : Word) (l : List (Fld × Nat)) : Word := l.foldl (fun (v : Word) (x : Fld × Nat) => x.1.put v x.2) w

/-! ### Records of chapter 03 (R65) -/

/-- LEVEL. -/
def recLevel (s : State) (b : List Byte) : State × Status :=
  if b.length ≠ 4 ∨ 2 ^ 15 ≤ beAt b 0 4 then (s, .invalid) else tryChange s { regs := [(R.TXN_LEVEL, BitVec.ofNat 32 (beAt b 0 4))] }

/-- BASIC_PARAM. -/
def recParam (s : State) (b : List Byte) : State × Status :=
  match entriesOfSize 16 b with
  | none => (s, .invalid)
  | some l =>
    if l.any (fun (e : List Byte) => decide (beAt e 4 4 ≠ 0)) then (s, .invalid)
    else if l.any (fun (e : List Byte) => (paramOf (beAt e 0 4)).isNone) then (s, .notFound)
    else if l.any (fun (e : List Byte) => expert (s.reg R.TXN_LEVEL) (paramBlock (beAt e 0 4))) then (s, .denied)
    else tryChange s { params := l.foldl (fun (p : List (Nat × Nat)) (e : List Byte) => putLast p (beAt e 0 4) (beAt e 8 8)) [] }

/-- May an EXPERT_REG entry name this address? -/
def expertTarget (a : Nat) : Bool := isShadowed a && (levelBit (blockOf a)).isSome && decide (rwMask a ≠ 0)

/-- One EXPERT_REG entry: a register write as within a transaction. -/
def expertEntry (s : State) (ch : Change) (e : List Byte) : Change :=
  let a := beAt e 0 4
  let m := BitVec.ofNat 32 (beAt e 8 4)
  let old := inChange s ch.regs a
  let w := withBits old (withBits old (BitVec.ofNat 32 (beAt e 4 4)) m) (storeMask a)
  let wrong := !expert (s.reg R.TXN_LEVEL) (blockOf a) && decide ((w ^^^ old) &&& computedMask a ≠ 0)
  { ch with regs := putLast ch.regs a w, wrongLevel := ch.wrongLevel || wrong }

/-- EXPERT_REG. -/
def recExpert (s : State) (b : List Byte) : State × Status :=
  match entriesOfSize 16 b with
  | none => (s, .invalid)
  | some l =>
    if l.any (fun (e : List Byte) => decide (beAt e 12 4 ≠ 0)) then (s, .invalid)
    else if l.any (fun (e : List Byte) => !expertTarget (beAt e 0 4)) then (s, .denied)
    else tryChange s (l.foldl (expertEntry s) {})

/-- BYPASS_PERMIT. -/
def recBypass (s : State) (b : List Byte) : State × Status :=
  if b.length ≠ 8 ∨ !allZero (slice b 2 6) then (s, .invalid) else ({ s with bypassPermit := beAt b 0 2 }, .ok)

/-- PARTITION; while slices are enabled the host pool is 64 partitions (R456). -/
def recPartition (s : State) (b : List Byte) : State × Status :=
  if b.length ≠ 192 ∨ b.any (fun (x : Byte) => decide (6 < x.toNat)) ∨ (s.slicesOn ∧ (b.filter (fun (x : Byte) => x = 6)).length ≠ 64) then (s, .invalid)
  else ({ s with partition := (List.range 192).foldl (fun (m : KMap Nat) (i : Nat) => kset 0 m i (beAt b i 1)) [] }, .ok)

/-! ### Ports and lanes (R91, R92) -/

/-- LANE_PLAN. -/
def recLanePlan (s : State) (b : List Byte) : State × Status :=
  let lane (l : Nat) : Nat × Word := (aLANE_CFG l, fieldsPut (s.reg (aLANE_CFG l)) [(F.LANE_CFG_RATE, beAt b (2 * l) 1), (F.LANE_CFG_TX_INV, beAt b (2 * l + 1) 1)])
  let mode (side : Nat) : Nat × Word := (aSPARE_CFG side, F.SPARE_CFG_MODE.put (s.reg (aSPARE_CFG side)) (beAt b (72 + side) 1))
  if b.length ≠ 80 ∨ !allZero (slice b 74 6) ∨ 2 < beAt b 72 1 ∨ 2 < beAt b 73 1 ∨
      (List.range 36).any (fun (l : Nat) => decide (3 < beAt b (2 * l) 1) || decide (1 < beAt b (2 * l + 1) 1)) then (s, .invalid)
  else tryChange s { regs := (List.range 36).map lane ++ [mode 0, mode 1] }

/-- The code of a width of 1, 2, 4 or 8 lanes. -/
def widthCode (w : Nat) : Option Nat := if w = 1 then some 0 else if w = 2 then some 1 else if w = 4 then some 2 else if w = 8 then some 3 else none

/-- PORT. -/
def recPort (s : State) (b : List Byte) : State × Status :=
  let p := 16 * beAt b 0 1 + beAt b 1 1
  let fl := beAt b 5 1
  match widthCode (beAt b 3 1) with
  | none => (s, .invalid)
  | some w =>
    if b.length ≠ 16 ∨ 1 < beAt b 0 1 ∨ 15 < beAt b 1 1 ∨ 15 < beAt b 2 1 ∨ beAt b 4 1 = 0 ∨ 5 < beAt b 4 1 ∨ 8 ≤ fl ∨
        beAt b 6 2 < 64 ∨ 16000 < beAt b 6 2 ∨ 3 < beAt b 9 1 ∨ beAt b 12 4 ≠ 0 then (s, .invalid)
    else
      let cfg := fieldsPut 0 [(F.PORT_CFG_EXPRESS_MASK, beAt b 8 1), (F.PORT_CFG_ADD_FRAG, beAt b 9 1), (F.PORT_CFG_PREEMPT_EN, b2n (bit fl 0)),
        (F.PORT_CFG_SLEEP_OK, b2n (bit fl 1)), (F.PORT_CFG_SPEED, beAt b 4 1), (F.PORT_CFG_MAX_FRAME, beAt b 6 2)]
      let lanes := fieldsPut 0 [(F.PORT_LANES_WIDTH, w), (F.PORT_LANES_FIRST_LANE, beAt b 2 1)]
      match tryChange s { regs := [(aPORT_CFG p, cfg), (aPORT_LANES p, lanes)] } with
      | (k, .ok) => (k.setPort p { k.port p with upAtStart := bit fl 2, upOrder := beAt b 10 2 }, .ok)
      | (k, e) => (k, e)

/-! ### Classifier and associations (R153, R198) -/

/-- The INSERTs of a CLS_PRELOAD record, stopping at the first that fails. -/
def preload (table : Nat) (l : List (Nat × List Byte)) (s : State) : State × Status :=
  match l with
  | [] => (s, .ok)
  | (g, e) :: r =>
    let a := tblInsertOp g table e s
    if a.status = .ok then preload table r a.state else (a.state, a.status)

/-- CLS_PRELOAD: refused whole, with its entries removed again. An LPM prefix is one set for all instances. -/
def recPreload (s : State) (b : List Byte) : State × Status :=
  let table := beAt b 1 1
  let mask := beAt b 0 1
  let ents := chunks 32 (b.drop 8) b.length
  let todo := ents.flatMap (fun (e : List Byte) => (if table = 0 then (List.range 4).filter (bit mask) else [0]).map (fun (g : Nat) => (g, e)))
  if b.length < 8 ∨ b.length % 32 ≠ 8 ∨ 2 < table ∨ 15 < mask ∨ (table ≠ 0 ∧ mask ≠ 15) ∨ !allZero (slice b 2 6) then (s, .invalid)
  else match preload table todo s with
    | (k, .ok) => (k, .ok)
    | (k, e) => ({ s with freeCtr := k.freeCtr }, e)

/-- DERIVE_AT_START: G = 0, AN = G mod 4. -/
def deriveAtStart (s : State) (rx : Bool) (i : Nat) : State × Status :=
  let a := s.assoc rx i
  match loadGen s rx a a.record.root (ctxOf a.record 0) 0 with
  | .error e => (s, e)
  | .ok g => match derive s rx i 0 (g % 4) 0 none false with
    | .ok t => (t, .ok)
    | .error e => (s, e)

/-- ASSOC. -/
def recAssoc (s : State) (b : List Byte) : State × Status :=
  let rx := decide (beAt b 0 1 = 1)
  let i := beAt b 2 2
  let rb := slice b 8 40
  let r := assocRecOf rb
  if b.length ≠ 48 ∨ 1 < beAt b 0 1 ∨ 1 < beAt b 1 1 ∨ 16384 ≤ i ∨ beAt b 4 4 ≠ 0 ∨ (beAt b 1 1 = 1 ∧ r.kind ≠ 0) then (s, .invalid)
  else if poolDenied s .pf i then (s, .denied)
  else if (s.assoc rx i).valid then (s, .conflict)
  else if recordOk s rx rb && !(!rx && duplicateSc s i r) then
    let k := installAssoc s rx i r
    if beAt b 1 1 = 1 then deriveAtStart k rx i else (k, .ok)
  else (s, .invalid)

/-! ### Scheduler, trunks and time (R277, R319, R359) -/

/-- The address of a SCHED entry. -/
def schedAddr (e : List Byte) : Option Nat :=
  let i := beAt e 2 2
  match beAt e 0 1 with
  | 1 => if i < 8192 then some (R.SUB_u_0 i) else none
  | 2 => if i < 1024 then some (R.SVC_s_0 i) else none
  | 3 => if i < 34 then some (R.PORT_n_0 i) else none
  | 4 => if i < 16 then some (R.PROF_k_w i 0) else none
  | _ => none

/-- One SCHED entry: a write of its four words. -/
def schedEntryChange (s : State) (ch : Change) (e : List Byte) : Change :=
  let a := (schedAddr e).getD 0
  [0, 1, 2, 3].foldl (fun (c : Change) (w : Nat) =>
    let x := a + 4 * w
    { c with regs := putLast c.regs x (withBits (inChange s c.regs x) (BitVec.ofNat 32 (beAt e (8 + 4 * w) 4)) (storeMask x)) }) ch

/-- SCHED; PORT entries at expert level only. -/
def recSched (s : State) (b : List Byte) : State × Status :=
  match entriesOfSize 24 b with
  | none => (s, .invalid)
  | some l =>
    if l.any (fun (e : List Byte) => (schedAddr e).isNone || decide (beAt e 1 1 ≠ 0) || decide (beAt e 4 4 ≠ 0)) then (s, .invalid)
    else if !expert (s.reg R.TXN_LEVEL) .sch ∧ l.any (fun (e : List Byte) => decide (beAt e 0 1 = 3)) then (s, .denied)
    else tryChange s (l.foldl (schedEntryChange s) {})

/-- The format of one TRIB entry. -/
def tribEntryOk (e : List Byte) : Bool :=
  decide (beAt e 0 1 ≤ 31) && decide (beAt e 2 1 ≤ 15) &&
  (if beAt e 1 1 = 2 then decide (beAt e 3 1 ≤ 7) && (decide (beAt e 4 2 ≤ 511) || decide (beAt e 4 2 = 0xFFFF)) && decide (beAt e 6 2 = 0)
   else decide (beAt e 1 1 = 1) && decide (beAt e 3 1 = 0xFF) && decide (beAt e 4 2 = 0) && decide (beAt e 6 2 ≤ 1023))

/-- The two words of one TRIB entry of trunk `t`. -/
def tribWords (t : Nat) (e : List Byte) : List (Nat × Word) :=
  let clear := decide (beAt e 1 1 = 2)
  [(R.CAS_TRIB_t_0 t (beAt e 0 1), fieldsPut 0 [(F.CAS_TRIB_t_0_VALID, 1), (F.CAS_TRIB_t_0_TYPE, b2n clear), (F.CAS_TRIB_t_0_CLIENT, beAt e 2 1),
      (F.CAS_TRIB_t_0_JSLOT, if clear then beAt e 3 1 else 0)]),
   (R.CAS_TRIB_t_1 t (beAt e 0 1), fieldsPut 0 [(F.CAS_TRIB_t_1_FIXED, if beAt e 4 2 = 0xFFFF then 0 else beAt e 4 2), (F.CAS_TRIB_t_1_SERVICE, beAt e 6 2)])]

/-- A basin map of a CASCADE record as register words; bytes 254 and 255 are not written. -/
def mapWords (base : Nat) (m : List Byte) : List (Nat × Word) :=
  let m := slice m 0 254 ++ [0xFF, 0xFF]
  (List.range 64).map (fun (w : Nat) => (base + 4 * w, bytesWord (slice m (4 * w) 4)))

/-- The registers of a CASCADE record but for FIXED of 0xFFFF. -/
def cascadeWords (b : List Byte) : List (Nat × Word) :=
  let t := beAt b 0 1
  [(R.CAS_CFG t, fieldsPut 0 [(F.CAS_CFG_ENABLE, 1), (F.CAS_CFG_RATE, beAt b 1 1), (F.CAS_CFG_WIDTH, beAt b 3 1), (F.CAS_CFG_TX_MAP_SEL, beAt b 28 1), (F.CAS_CFG_FIRST_LANE, beAt b 2 1)]),
   (R.CAS_MASTER t, BitVec.ofNat 32 (beAt b 4 4)),
   (R.CAS_TXTAG_HI t, BitVec.ofNat 32 (beAt b 8 4)), (R.CAS_TXTAG_LO t, BitVec.ofNat 32 (beAt b 12 4)),
   (R.CAS_RXTAG_HI t, BitVec.ofNat 32 (beAt b 16 4)), (R.CAS_RXTAG_LO t, BitVec.ofNat 32 (beAt b 20 4)),
   (R.CAS_EPER t, BitVec.ofNat 32 (beAt b 24 4))] ++
  mapWords (R.CAS_MAP_0_w t 0) (slice b 32 256) ++ mapWords (R.CAS_MAP_1_w t 0) (slice b 288 256) ++
  (chunks 8 (b.drop 544) 32).flatMap (tribWords t)

/-- FIXED of the entries that let the MC compute it (R313). -/
def cascadeFixed (s : State) (b : List Byte) : List (Nat × Word) :=
  let t := beAt b 0 1
  let l := cascadeWords b
  let c := l.foldl layWord s
  ((chunks 8 (b.drop 544) 32).filter (fun (e : List Byte) => decide (beAt e 4 2 = 0xFFFF))).map (fun (e : List Byte) =>
    let a := R.CAS_TRIB_t_1 t (beAt e 0 1)
    (a, F.CAS_TRIB_t_1_FIXED.put (c.reg a) (fixedFor (c.fld (aPORT_CFG (beAt e 2 1)) F.PORT_CFG_SPEED) (trunkRate c t))))

/-- CASCADE. -/
def recCascade (s : State) (b : List Byte) : State × Status :=
  let n := beAt b 29 1
  if b.length ≠ 544 + 8 * n ∨ n = 0 ∨ 32 < n ∨ 3 < beAt b 0 1 ∨ beAt b 1 1 = 0 ∨ 4 < beAt b 1 1 ∨ 15 < beAt b 2 1 ∨ 16 < beAt b 3 1 ∨
      1 < beAt b 28 1 ∨ beAt b 30 2 ≠ 0 ∨ (chunks 8 (b.drop 544) 32).any (fun (e : List Byte) => !tribEntryOk e) then (s, .invalid)
  else tryChange s { regs := (cascadeFixed s b).foldl (fun (l : List (Nat × Word)) (x : Nat × Word) => putLast l x.1 x.2) (cascadeWords b) }

/-- One entry of a TIME record. -/
def timeEntry (s : State) (ch : Change) (e : List Byte) : Change :=
  let a := 0x800000 + beAt e 0 4
  { ch with regs := putLast ch.regs a (withBits (inChange s ch.regs a) (BitVec.ofNat 32 (beAt e 4 4)) (rwMask a)) }

/-- May a TIME entry name this offset? -/
def timeTarget (o : Nat) : Bool := decide (o < 0x80000) && decide (rwMask (0x800000 + o) ≠ 0)

/-- TIME: at either level, its entries set computed fields too; a TB_INCR out of range is ignored with its alarm (R341). -/
def recTime (s : State) (b : List Byte) : State × Status :=
  let l := chunks 8 (b.drop 8) b.length
  let badIncr (e : List Byte) : Bool := decide (beAt e 0 4 < 0x100) && decide (beAt e 0 4 % 0x40 = 0) && !decide (0x013FD70A ≤ beAt e 4 4 ∧ beAt e 4 4 ≤ 0x014028F6)
  if b.length ≠ 8 + 8 * beAt b 0 4 ∨ beAt b 4 4 ≠ 0 ∨ l.any (fun (e : List Byte) => !timeTarget (beAt e 0 4)) then (s, .invalid)
  else
    let s := if l.any badIncr then s.alarm R.TIM_ALARM F.TIM_ALARM_INCR_RANGE else s
    tryChange s { (l.filter (fun (e : List Byte) => !badIncr e)).foldl (timeEntry s) {} with rework := false }

/-! ### Keys, tamper, pair, host and counters (R389, R424, R450, R471, R487) -/

/-- KEY_POLICY. -/
def recKeyPolicy (s : State) (b : List Byte) : State × Status :=
  if b.length ≠ 8 ∨ 3 < beAt b 0 1 ∨ !allZero (slice b 1 7) then (s, .invalid) else ({ s with localOps := beAt b 0 1 }, .ok)

/-- Does a response table keep R416's rules: codes 0 to 6, the commanded sources ZEROISE_ALL, OFF for the enclosure inputs
alone, none for the reserved sources? -/
def responsesOk (b : List Byte) : Bool :=
  (List.range 24).all (fun (i : Nat) =>
    decide (beAt b i 1 ≤ 6) && (decide (beAt b i 1 ≠ 0) || i = 9 || i = 10) && ((i ≠ 20 && i ≠ 21 && i ≠ 23) || decide (beAt b i 1 = 6))) &&
  allZero (slice b 24 8)

/-- TAMPER_POLICY. -/
def recTamper (s : State) (b : List Byte) : State × Status :=
  let low := signed 8 (beAt b 33 1)
  if b.length ≠ 40 ∨ !responsesOk b ∨ beAt b 32 1 < 112 ∨ 125 < beAt b 32 1 ∨ low < -60 ∨ -42 < low ∨ beAt b 34 1 < 21 ∨ 26 < beAt b 34 1 ∨
      15 < beAt b 35 1 ∨ beAt b 36 2 < 60 ∨ 3600 < beAt b 36 2 ∨ beAt b 38 2 ≠ 0 then (s, .invalid)
  else
    match conflictOf s { s with tmp := { s.tmp with policy := b } } {} with
    | some _ => (s, .conflict)
    | none => ({ s with tmp := { s.tmp with policy := b } }, .ok)

/-- PAIR. -/
def recPair (s : State) (b : List Byte) : State × Status :=
  let gu := beAt b 60 1
  let fl := beAt b 61 1
  if b.length ≠ 64 ∨ 1 < beAt b 0 1 ∨ 1 < beAt b 1 1 ∨ 2 < beAt b 2 1 ∨ 1 < beAt b 3 1 ∨ beAt b 56 2 < 2000 ∨ 10000 < beAt b 56 2 ∨
      beAt b 58 2 < 100 ∨ 60000 < beAt b 58 2 ∨ bit gu 5 ∨ bit gu 7 ∨ 7 < fl ∨ beAt b 62 2 ≠ 0 then (s, .invalid)
  else
    let aqd := fieldsPut (s.reg R.AQD_CFG) [(F.AQD_CFG_EN, beAt b 0 1), (F.AQD_CFG_WIDTH, beAt b 2 1), (F.AQD_CFG_SLEEP_EN, b2n (bit fl 2)), (F.AQD_CFG_CODING, beAt b 3 1)]
    let pai := fieldsPut (s.reg R.PAI_CFG) [(F.PAI_CFG_EN, beAt b 0 1), (F.PAI_CFG_PREFER, beAt b 1 1), (F.PAI_CFG_HB_TAKE, b2n (bit fl 0)),
      (F.PAI_CFG_RX_RESUME, b2n (bit fl 1)), (F.PAI_CFG_GU_EN, gu ||| (s.fld R.PAI_CFG F.PAI_CFG_GU_EN &&& 0xA0)), (F.PAI_CFG_HB_LOSS_NS, beAt b 56 2)]
    match tryChange s { regs := [(R.AQD_CFG, aqd), (R.PAI_CFG, pai)] } with
    | (k, .ok) => (k.modPair (fun p => { p with pairKey := beAt b 4 4, partnerId := slice b 8 48, negWait := beAt b 58 2 }), .ok)
    | (k, e) => (k, e)

/-- HOST. -/
def recHost (s : State) (b : List Byte) : State × Status :=
  if b.length ≠ 16 ∨ 1 < beAt b 0 1 ∨ beAt b 1 1 = 0 ∨ 16 < beAt b 1 1 ∨ beAt b 2 2 ≠ 0 ∨ 8191 < beAt b 4 2 ∨ 8191 < beAt b 6 2 ∨ !allZero (slice b 8 8) then (s, .invalid)
  else tryChange s { regs := [
    (R.HIF_CFG, fieldsPut (s.reg R.HIF_CFG) [(F.HIF_CFG_SLICES_EN, beAt b 0 1), (F.HIF_CFG_PF_RINGS, beAt b 1 1)]),
    (R.HIF_SUB, fieldsPut (s.reg R.HIF_SUB) [(F.HIF_SUB_PUNT_SUB, beAt b 4 2), (F.HIF_SUB_TX_SUB, beAt b 6 2)])] }

/-- COUNTERS. -/
def recCounters (s : State) (b : List Byte) : State × Status :=
  let fl := beAt b 0 1
  if b.length ≠ 16 ∨ 3 < fl ∨ 3 < beAt b 1 1 ∨ 31 < beAt b 2 1 ∨ beAt b 3 1 ≠ 0 ∨ beAt b 4 4 < 10 ∨ 60000 < beAt b 4 4 ∨ !allZero (slice b 8 8) then (s, .invalid)
  else tryChange s { rework := false, regs := [
    (R.CNT_CFG, fieldsPut (s.reg R.CNT_CFG) [(F.CNT_CFG_EN, b2n (bit fl 0)), (F.CNT_CFG_SNAP_TB, beAt b 1 1), (F.CNT_CFG_INTERVAL_MS, beAt b 4 4)]),
    (R.CNT_BW, fieldsPut (s.reg R.CNT_BW) [(F.CNT_BW_EN, b2n (bit fl 1)), (F.CNT_BW_CMP, beAt b 2 1)])] }

/-! ### Step 7 (R72) -/

/-- One record: the state after it and its status; MC_PATCH and CAL_USER have been applied at steps 3 and 4. -/
def applyRec (s : State) (r : Rec) : State × Status :=
  match r.typ with
  | 0x02 => recLevel s r.payload
  | 0x03 => recParam s r.payload
  | 0x04 => recExpert s r.payload
  | 0x06 => recBypass s r.payload
  | 0x07 => recPartition s r.payload
  | 0x10 => recLanePlan s r.payload
  | 0x11 => recPort s r.payload
  | 0x12 => recPreload s r.payload
  | 0x13 => recAssoc s r.payload
  | 0x14 => recSched s r.payload
  | 0x15 => recCascade s r.payload
  | 0x16 => recTime s r.payload
  | 0x17 => recKeyPolicy s r.payload
  | 0x18 => recTamper s r.payload
  | 0x19 => recPair s r.payload
  | 0x1A => recHost s r.payload
  | 0x1B => recCounters s r.payload
  | _ => (s, .ok)

/-- The load that an ASSOC record's DERIVE_AT_START has begun carries the record's number (R198). -/
def markStart (s : State) (x : Rec × Nat) : State :=
  let b := x.1.payload
  let rx := decide (beAt b 0 1 = 1)
  let i := beAt b 2 2
  if x.1.typ = 0x13 ∧ beAt b 1 1 = 1 ∧ ((s.assoc rx i).slot 0).state = .loading then putSlot s rx i 0 { (s.assoc rx i).slot 0 with startRec := some x.2 } else s

/-- Record number `x.2` of the image; an unknown one is skipped and counted (R64). -/
def stepRecord (s : State) (x : Rec × Nat) : State :=
  if !typeKnown x.1.typ then s.setFld R.IMG_REJ F.IMG_REJ_COUNT (min (s.fld R.IMG_REJ F.IMG_REJ_COUNT + 1) (2 ^ 24 - 1))
  else match applyRec s x.1 with
    | (k, .ok) => markStart k x
    | (k, e) => reject k x.2 e

/-- Every record of the running image. -/
def applyRecords (s : State) (l : List Rec) : State := l.zipIdx.foldl stepRecord s

/-! ### Step 4 (R78) -/

/-- Is a CAL_USER record well formed? -/
def calRecordOk (b : List Byte) : Bool := decide (b.length % 4 = 0) && (chunks 4 b b.length).all (fun (e : List Byte) => (calLimits (beAt e 0 2)).isSome)

/-- The user offsets of the image's CAL_USER records, summed in record order. -/
def addCal (m : KMap Int) (b : List Byte) : KMap Int :=
  (chunks 4 b b.length).foldl (fun (m : KMap Int) (e : List Byte) => kset 0 m (beAt e 0 2) (kget 0 m (beAt e 0 2) + signed 16 (beAt e 2 2))) m

end Sys2Proof.Machine
end

