-- ==== Sys2Proof/Machine/Start.lean ====
section
/-! DEFINITION. Resets and the eight steps of start (R8, R30, R31, R38 to R60, R374, R378, R497). -/

namespace Sys2Proof.Machine

/-! ### What a reset keeps (R52, R519) -/

/-- The registers held in the Well. -/
def wellRegs : List Nat := R.START_FAILS :: R.START_REASON :: (List.range 16).map R.START_LOG_n

/-- What the always-on island keeps of the tamper monitor; a response whose key clearing is unfinished becomes pending
(R421, R516). -/
def keptTamper (t : Tamper) : Tamper :=
  { t with
    inForce := 0
    clearing := 0
    armed := false
    pendingLvl := if t.clearing ≤ 5 then max t.pendingLvl t.clearing else t.pendingLvl }

/-- A warm or cold reset: the Well, fuses, flash and input pins stay, everything else is as at reset (R52). -/
def wipe (s : State) : State :=
  let f : State := {}
  { f with
    pending := s.pending
    out := s.out
    freeCtr := s.freeCtr
    regs := wellRegs.foldl (fun (m : KMap Word) (a : Nat) => kset (resetVal a) m a (s.reg a)) []
    dev := { step := s.dev.step, slot := s.dev.slot, logDue := s.dev.logDue, seq := s.dev.seq, power := s.dev.power, coldReset := s.dev.coldReset, coldPin := s.dev.coldPin, supplyArmed := s.dev.supplyArmed }
    journal := s.journal
    keyLog := s.keyLog
    fuses := s.fuses
    well := s.well
    tmp := keptTamper s.tmp
    pair := { peerActive := s.pair.peerActive, peerHandover := s.pair.peerHandover }
    flashA := s.flashA
    flashB := s.flashB }

/-! ### Ends of a start (R45, R47, R60) -/

/-- The fail count of a slot: 1 A, 2 B. -/
def failField (n : Nat) : Fld := if n = 1 then F.START_FAILS_FAIL_A else F.START_FAILS_FAIL_B
def failCount (s : State) (n : Nat) : Nat := s.fld R.START_FAILS (failField n)
def failConsec (s : State) : Nat := s.fld R.START_FAILS F.START_FAILS_FAIL_CONSEC

/-- Start ends in Minimal with a reason (R45); 0x02 and 0x09 are a tamper source too, and one whose response is HALT or
above ends it in Halt. -/
def enterMinimal (s : State) (code detail : Nat) : State :=
  let s := lateIdentity s
  let s := (s.setFld R.START_REASON F.START_REASON_CODE code).setFld R.START_REASON F.START_REASON_DETAIL detail
  let s := if code = 0x02 ∨ code = 0x09 then fireSource s 18 else s
  if s.dev.state = .halt then s
  else
    let s := endStart s 2 code
    { s with dev := { s.dev with state := .minimal } }

/-- The current start counts as successful (R47): FAIL_CONSEC and the running slot's count are cleared, and with them what this start
added to them; its increment of the other slot stays to be undone (R48). -/
def countSuccess (s : State) : State :=
  if s.dev.success then s
  else
    let s := s.setFld R.START_FAILS F.START_FAILS_FAIL_CONSEC 0
    let s := if s.dev.slot = 0 then s else s.setFld R.START_FAILS (failField s.dev.slot) 0
    let s := endStart s 1 0
    { s with dev := { s.dev with
      success := true
      timing := false
      incA := if s.dev.slot = 1 then 0 else s.dev.incA
      incB := if s.dev.slot = 2 then 0 else s.dev.incB
      incConsec := 0 } }

/-- SUCCESS_TIMER_EXPIRY: 60 s in Active or Standby since step 8 (R47). -/
def execSuccessTimerExpiry (s : State) : Res :=
  if s.dev.timing ∧ (s.dev.state = .active ∨ s.dev.state = .standby) then .next (countSuccess s) else .next s

/-! ### Step 1 (R43, R378, R421) -/

/-- The Well is found uninitialised: the next epoch fuse, a new secret, KSEQ and JSEQ 0, and the KEYS_LOST mark (R378). -/
def initWell (s : State) (fuses : List Bool) : State :=
  let s := if s.epoch = 255 then { s with fuses := { s.fuses with exhausted := true } } else (blowEpoch s fuses).1
  { s.useFree with well := { ok := true, secret := s.freeBytes 32, keysLost := true } }

/-- Pending responses are carried out; an ISOLATE or ZEROISE_TRAFFIC stays recorded (R421). -/
def takePending (s : State) : State :=
  let p := s.tmp.pendingLvl
  if p = 0 then s else respond { s with tmp := { s.tmp with pendingLvl := 0 } } p

/-- Start begins at step 1: the entry of an unfinished start (R60), the Well check, pending responses, and Halt while
HALT_HOLD is set (R38, R419). `fuses` says which epoch fuses blow. -/
def beginStart (s : State) (fuses : List Bool) : State :=
  let s := endStart s 2 0
  let s := { s with dev := { s.dev with state := .start, step := 1, slot := 0, seq := 0, logDue := true, watchdog := true } }
  let s := if s.well.ok then s else initWell s fuses
  let s := takePending s
  if s.tmp.haltHold then enterHalt s else s

/-- A reset that lands on the Well oscillator cycle of the 60 s mark counts as late: the start is successful (R50). -/
def lateMark (s : State) (mark : Bool) : State :=
  if mark ∧ s.dev.timing ∧ (s.dev.state = .active ∨ s.dev.state = .standby) then countSuccess s else s

/-- Every reset but a cold one at power-on starts from what it keeps. -/
def warmReset (s : State) (fuses : List Bool) : State := beginStart (wipe s) fuses

/-! ### Power and resets (R8, R38, R48, R493, R497, R516) -/

/-- Is the device powered and out of cold reset? -/
def running (s : State) : Bool := s.dev.power && !s.dev.coldReset

/-- MAIN_POWER_VALID: the 10 ms before the release of cold reset begin. -/
def execMainPowerValid (s : State) : Res := .next (if s.dev.power then s else { s with dev := { s.dev with power := true, coldReset := true } })

/-- MAIN_POWER_LOST: Well-only; responses not finished are pending (R38, R421). -/
def execMainPowerLost (s : State) : Res :=
  if s.dev.power then
    let s := wipe s
    .next { s with dev := { s.dev with state := .wellOnly, power := false, coldReset := true, supplyArmed := false } }
  else .next s

/-- COLD_RESET_RELEASE: supply sources are armed, and Start begins. -/
def execColdResetRelease (fuses : List Bool) (s : State) : Res :=
  if s.dev.power ∧ s.dev.coldReset then
    .next (beginStart { s with dev := { s.dev with coldReset := false, coldPin := false, supplyArmed := true } } fuses)
  else .next s

/-- COLD_RST_N_ASSERT: every island but the always-on one is in reset; `mark` as in `lateMark`. -/
def execColdRstNAssert (mark : Bool) (s : State) : Res :=
  if s.dev.power then
    let s := wipe (lateMark s mark)
    .next { s with dev := { s.dev with coldReset := true, coldPin := true } }
  else .next s

/-- WARM_RESET by `PERST_N`; PLANNED is not consulted. `mark` as in `lateMark`. -/
def execWarmReset (fuses : List Bool) (mark : Bool) (s : State) : Res := .next (if running s then warmReset (lateMark s mark) fuses else s)

/-- The increments of the current start undone (R48). -/
def undoStart (s : State) : State :=
  let down (f : Fld) (n : Nat) (t : State) : State := t.setFld R.START_FAILS f (t.fld R.START_FAILS f - n)
  down F.START_FAILS_FAIL_CONSEC s.dev.incConsec (down F.START_FAILS_FAIL_B s.dev.incB (down F.START_FAILS_FAIL_A s.dev.incA s))

/-- A write of GLB_RESET with OP 1 or 2 (R493): a wrong KEY has no effect and sets BAD_KEY. -/
def glbReset (key : Nat) (k : State → State) (s : State) : Res :=
  .next (s.access R.GLB_RESET (fun s => if key % 65536 = 0xA55A then k s else s.raiseErr F.GLB_ERR_BAD_KEY R.GLB_RESET))

/-- GLB_WARM_RESET; `mark` as in `lateMark`. -/
def execGlbWarmReset (key : Nat) (fuses : List Bool) (mark : Bool) (s : State) : Res :=
  glbReset key (fun s =>
    let s := lateMark s mark
    warmReset (if s.flag R.START_CTRL F.START_CTRL_PLANNED then undoStart s else s) fuses) s

/-- MAINT_EXIT: in Maintenance a warm reset with PLANNED treated as 1; ignored in other states (R38, R55). -/
def execMaintExit (fuses : List Bool) (s : State) : Res :=
  .next (s.access R.START_CTRL (fun s => if s.dev.state = .maintenance then warmReset (undoStart s) fuses else s))

/-! ### The MC (R30, R31, R408, R493) -/

/-- A mailbox operation that runs ends ABORTED with the MC; its loads go on. -/
def abortMailbox (s : State) : State :=
  let un (rx : Bool) (t : State) (i : Nat) : State :=
    let a := t.assoc rx i
    t.setAssoc rx i { a with slot0 := { a.slot0 with upd := none }, slot1 := { a.slot1 with upd := none } }
  if s.flag R.KST_STATUS F.KST_STATUS_BUSY then
    let s := (s.txAssocs.map Prod.fst).foldl (un false) s
    let s := (s.rxAssocs.map Prod.fst).foldl (un true) s
    kstDone (s.setFld R.KST_STATUS F.KST_STATUS_STATUS (Status.code .aborted))
  else s

/-- A snapshot image under way is given up: it counts as skipped, with the instants it was to report (R31, R478). -/
def abortImage (s : State) : State :=
  match s.snap.image with
  | none => s
  | some i => { s with snap := { s.snap with image := none, skipped := s.snap.skipped + i.skipped + 1 } }

/-- An MC restart begins; the datapath is untouched (R29, R31). -/
def mcRestart (s : State) : State :=
  let s := { s with dev := { s.dev with mcUp := false, mcRestarting := true, watchdog := false, mcRestarts := min (s.dev.mcRestarts + 1) 65535 } }
  abortImage (abortMailbox (txnRestart s))

/-- GLB_MC_RESTART: ignored while one runs. -/
def execGlbMcRestart (key : Nat) (s : State) : Res := glbReset key (fun s => if s.dev.mcRestarting then s else mcRestart s) s

/-- MC_WATCHDOG_RESTART: the count of 512 Well oscillator cycles begins anew. -/
def execMcWatchdogRestart (s : State) : Res := .next (if running s ∧ !s.dev.mcRestarting then { s with dev := { s.dev with watchdog := true } } else s)

/-- MC_WATCHDOG_EXPIRY. -/
def execMcWatchdogExpiry (s : State) : Res := .next (if running s ∧ s.dev.watchdog then mcRestart s else s)

/-- MC_RESTART_COMPLETE: the MC serves again, and held results of the public-key engine are written (R408). -/
def execMcRestartComplete (s : State) : Res :=
  .next (if s.dev.mcRestarting then pkeFlush { s with dev := { s.dev with mcUp := true, mcRestarting := false, watchdog := true } } else s)

/-- FUNCTION_LEVEL_RESET of the physical function (R39, R52, R408): an open transaction is rolled back, host jobs of the
public-key engine end without completion, and the function's MSI-X table is as at reset. -/
def execFunctionLevelReset (s : State) : Res :=
  if running s then
    let s := if s.txn.state = .open then txnEnd s .aborted else s
    let s := s.modPke (fun p => { p with jobs := [], run := none, paused := false })
    .next { s with regs := s.regs.filter (fun (e : Nat × Word) => !decide (0xA08000 ≤ e.1 ∧ e.1 < 0xA09008)) }
  else .next s

/-! ### Step 2: slot selection (R46) -/

/-- The readable slots, highest sequence number first, A first of two equal ones. -/
def slotOrder (s : State) : List Nat :=
  let l := [1, 2].filter (fun (n : Nat) => slotReadable (s.flash n))
  if l = [1, 2] ∧ imageSeq s.flashA < imageSeq s.flashB then [2, 1] else l

/-- The slots of the order that are left: those after the one tried last. -/
def slotsLeft (s : State) : List Nat :=
  match s.dev.tried.getLast? with
  | none => slotOrder s
  | some n => ((slotOrder s).dropWhile (fun (m : Nat) => decide (m ≠ n))).drop 1

/-- Is a slot passed over: its count is 2 or more, and the other one is readable and not yet tried? -/
def passedOver (s : State) (n : Nat) : Bool :=
  decide (2 ≤ failCount s n) && decide ((3 - n) ∈ slotOrder s) && !decide ((3 - n) ∈ s.dev.tried)

/-- A slot is chosen: both counts go up, capped at 3, and LAST_SLOT names it. -/
def chooseSlot (s : State) (n : Nat) : State :=
  let da := if failCount s n < 3 then 1 else 0
  let dc := if failConsec s < 3 then 1 else 0
  let w := fieldsPut (s.reg R.START_FAILS) [(failField n, failCount s n + da), (F.START_FAILS_FAIL_CONSEC, failConsec s + dc), (F.START_FAILS_LAST_SLOT, n - 1)]
  { s.setReg R.START_FAILS w with dev := { s.dev with
    step := 2
    tried := s.dev.tried ++ [n]
    incA := s.dev.incA + (if n = 1 then da else 0)
    incB := s.dev.incB + (if n = 2 then da else 0)
    incConsec := s.dev.incConsec + dc } }

/-- The next slot of the order, or Minimal. -/
def nextSlot (s : State) : State :=
  match (slotsLeft s).find? (fun (n : Nat) => !passedOver s n) with
  | some n => chooseSlot s n
  | none =>
    if slotOrder s = [] then enterMinimal s 0x01 0
    else if s.dev.rolledBack ≠ [] then enterMinimal s 0x09 0
    else enterMinimal s 0x02 (s.dev.tried.getLast?.getD 0)

/-- SLOT_SELECTION; `flash` is false when the flash does not answer. -/
def execSlotSelection (flash : Bool) (s : State) : Res :=
  if s.dev.state = .start ∧ s.dev.step = 1 ∧ running s then
    let s := { s with dev := { s.dev with step := 2, mcUp := true } }
    .next (if failConsec s = 3 then enterMinimal s 0x03 0 else if !flash then enterMinimal s 0x01 0 else nextSlot s)
  else .next s

/-! ### Steps 3 to 6 (R43, R67, R78, R374, R180) -/

/-- The chosen image is the one to run: patch and identity (R383, R384). -/
def runImage (s : State) (n : Nat) : State :=
  let b := s.flash n
  let patch := patchOf b
  let s := { s with dev := { s.dev with slot := n, seq := imageSeq b, patch := (patch.bind Config.patchVersion).getD 0 } }
  deriveIdentity s (sha384 (Config.mcRom ++ patch.getD [])) (imageDigest b)

/-- IMAGE_SIGNATURE_CHECK: the chosen slot runs, or selection goes on. -/
def execImageSignatureCheck (s : State) : Res :=
  if s.dev.state = .start ∧ s.dev.step = 2 ∧ s.dev.slot = 0 then
    match s.dev.tried.getLast? with
    | none => .next s
    | some n =>
      let s := { s with dev := { s.dev with step := 3 } }
      let b := s.flash n
      if !(headerOk s b && imageSigned b) then .next (nextSlot s)
      else if imageCtr b < s.counterS then .next (nextSlot { s with dev := { s.dev with rolledBack := s.dev.rolledBack ++ [n] } })
      else .next (runImage s n)
  else .next s

/-- The records of the image that runs. -/
def runningRecords (s : State) : List Rec := (recordsOf (s.flash s.dev.slot)).getD []

/-- A step of start begins when the one before it is complete. -/
def inStep (s : State) (n : Nat) (k : State → State) : Res :=
  if s.dev.state = .start ∧ s.dev.step = n ∧ s.dev.slot ≠ 0 then .next (k { s with dev := { s.dev with step := n + 1 } }) else .next s

/-- CALIBRATION_LOAD. -/
def execCalibrationLoad (s : State) : Res :=
  inStep s 3 (fun s =>
    let l := ((runningRecords s).filter (fun (r : Rec) => r.typ = 5)).map Rec.payload
    if l.all calRecordOk then { s with calUser := l.foldl addCal [] } else enterMinimal s 0x04 0)

/-- The records of a log of two parts, the part with the lower sequence numbers first, and the part in use. -/
def mergeParts (a b : List (List Byte)) : List (List Byte) × Nat :=
  let seq (l : List (List Byte)) : Nat := beAt (l.headD []) 0 6
  if b = [] then (a, 0) else if a = [] then (b, 1) else if seq a < seq b then (a ++ b, 1) else (b ++ a, 0)

/-- The records accepted of one unbroken run (R180, R374): consecutive numbers, every one authentic but a torn last one,
and the last number the Well's or one more. -/
def acceptRun (l : List (List Byte)) (last : Nat) (auth : List Byte → Bool) : Option (List (List Byte)) :=
  let seq (r : List Byte) : Nat := beAt r 0 6
  let first := seq (l.headD [])
  let consecutive := l.zipIdx.all (fun (x : List Byte × Nat) => decide (seq x.1 = first + x.2))
  let top := first + l.length - 1
  if l = [] then if last = 0 then some [] else none
  else if !consecutive then none
  else if l.all auth ∧ (top = last ∨ top = last + 1) then some l
  else if top = last + 1 ∧ l.dropLast.all auth then some l.dropLast
  else none

/-- The two parts of a log without the torn last record, when only `n` of their records were accepted: it is ignored, and the next record
takes its SEQ and its place (R180). -/
def withoutTorn (a b : List (List Byte)) (n : Nat) : List (List Byte) × List (List Byte) :=
  if a.length + b.length ≤ n then (a, b) else if (mergeParts a b).2 = 0 then (a.dropLast, b) else (a, b.dropLast)

/-- A journal record's authentication (R179). -/
def journalAuth (s : State) (r : List Byte) : Bool :=
  decide (journalRec s.journalKey (beAt r 0 6) (beAt r 6 2) { root := beAt r 8 4, gen := beAt r 12 4, ctx := beAt r 16 8 } = r)

/-- GEN_HIGH rebuilt from the accepted records; a compaction that was cut off is finished (R179, R180). -/
def loadJournal (s : State) (l : List (List Byte)) : State :=
  let part := (mergeParts s.journal.half0 s.journal.half1).2
  let both := !decide (s.journal.half0 = []) && !decide (s.journal.half1 = [])
  let s := { s with journal := { s.journal with active := part }, well := { s.well with jseq := if l = [] then s.well.jseq else max s.well.jseq (beAt (l.getLast?.getD []) 0 6) } }
  let s := l.foldl (fun (t : State) (r : List Byte) => raiseGen t (beAt r 8 4) (beAt r 16 8) (beAt r 12 4)) s
  if both then
    let carried (m : GenMark) : Bool := (s.journal.half part).any (fun (r : List Byte) => decide (beAt r 8 4 = m.root ∧ beAt r 16 8 = m.ctx))
    let s := (s.genHigh.filter (fun (m : GenMark) => !carried m)).foldl (fun (t : State) (m : GenMark) => journalAppend t 0 m) s
    { s with journal := s.journal.setHalf (1 - part) [] }
  else s

/-- A key log record's authentication (R373): its tag under the wrap key. -/
def logAuth (s : State) (r : List Byte) : Bool :=
  let m := beAt r 24 2
  decide (slice r (48 + m) 16 = gcmTagOf s.wrapKey (slice r 32 12) (slice r 0 48) (slice r 48 m))

/-- The owner key of a PUT record. -/
def logKey (s : State) (r : List Byte) : OwnerKey :=
  { typ := beAt r 12 1, dest := beAt r 13 1, param := beAt r 16 4, gen := beAt r 20 4, origin := beAt r 14 2 / 256 % 4, persist := true, material := gcmCrypt s.wrapKey (slice r 32 12) (slice r 48 (beAt r 24 2)) }

/-- One record of a complete batch takes effect (R374). -/
def replayRec (s : State) (r : List Byte) : State :=
  let h := beAt r 8 4
  if beAt r 6 1 = 1 then { s with owner := kset {} s.owner h (logKey s r) }
  else if beAt r 6 1 = 2 then { s with owner := kset {} s.owner h {} }
  else s

/-- The records up to the last COMMIT. -/
def committed (l : List (List Byte)) : List (List Byte) := (l.reverse.dropWhile (fun (r : List Byte) => decide (beAt r 6 1 ≠ 3))).reverse

/-- The key log replayed; a compaction that was cut off is finished (R372, R374). -/
def loadKeys (s : State) (l : List (List Byte)) : State :=
  let part := (mergeParts s.keyLog.copyA s.keyLog.copyB).2
  let both := !decide (s.keyLog.copyA = []) && !decide (s.keyLog.copyB = [])
  let s := { s with owner := [], keyLog := { s.keyLog with active := part }, well := { s.well with kseq := if l = [] then s.well.kseq else max s.well.kseq (beAt (l.getLast?.getD []) 0 6) } }
  let s := (committed l).foldl replayRec s
  if both then
    let carried (x : LogItem) : Bool := (s.keyLog.copy part).any (fun (r : List Byte) => decide (beAt r 6 1 = 1 ∧ beAt r 8 4 = x.handle))
    let s := ((livePuts s).filter (fun (x : LogItem) => !carried x) ++ [commitItem]).foldl logAppend s
    { s with keyLog := s.keyLog.setCopy (1 - part) [] }
  else s

/-- Steps 5's reading of both areas once neither mark nor mismatch stands in the way. -/
def unwrapKeys (s : State) : State :=
  match acceptRun (mergeParts s.keyLog.copyA s.keyLog.copyB).1 s.well.kseq (logAuth s) with
  | none => enterMinimal s 0x06 2
  | some keys =>
    match acceptRun (mergeParts s.journal.half0 s.journal.half1).1 s.well.jseq (journalAuth s) with
    | none => enterMinimal s 0x06 1
    | some gens =>
      let k := withoutTorn s.keyLog.copyA s.keyLog.copyB keys.length
      let j := withoutTorn s.journal.half0 s.journal.half1 gens.length
      let s := { s with keyLog := { s.keyLog with copyA := k.1, copyB := k.2 }, journal := { s.journal with half0 := j.1, half1 := j.2 } }
      let s := loadJournal (loadKeys s keys) gens
      { s with ident := { s.ident with agree := true } }

/-- KEY_UNWRAP: while the KEYS_LOST mark is set, any record ends the start (R378). -/
def execKeyUnwrap (s : State) : Res :=
  inStep s 4 (fun s =>
    let erased := decide (s.keyLog.copyA = []) && decide (s.keyLog.copyB = []) && decide (s.journal.half0 = []) && decide (s.journal.half1 = [])
    if s.well.keysLost then
      if erased then unwrapKeys { s with well := { s.well with keysLost := false } } else enterMinimal s 0x05 0
    else unwrapKeys s)

/-- Self-tests passed: the rills serve, outbound 0 to 3 and inbound 4 to 7, `RL_8` is the spare (R199, R219), and the
cistern is ready (R246). -/
def startDatapath (s : State) : State :=
  let s := (List.range 9).foldl (fun (t : State) (r : Nat) =>
    t.setRill r { state := if r = 8 then .spare else .inService, inbound := decide (4 ≤ r ∧ r < 8), katOk := some true }) s
  initCistern s

/-- SELF_TESTS: the number of a test that fails, or the stack whose training fails (R43, R45). Where both fail, the self-test's code is
written (DESIGN CHOICE: log entry 227). -/
def execSelfTests (test : Option Nat) (hbm : Option Nat) (s : State) : Res :=
  inStep s 5 (fun s =>
    match test, hbm with
    | some n, _ => enterMinimal s 0x07 (n % 256)
    | none, some k => enterMinimal s 0x08 (k % 256)
    | none, none => startDatapath s)

/-! ### Steps 7 and 8 (R43, R72, R93) -/

/-- LANE_TRAINING_START: the remaining records are applied in order, and the lanes that they assign train. `pers` are the
personalities that the image gives. -/
def execLaneTrainingStart (pers : List (Nat × Personality)) (s : State) : Res :=
  inStep s 6 (fun s =>
    let s := { s with personality := pers.foldl (fun (m : KMap Personality) (x : Nat × Personality) => kset .none m (x.1 % 16) x.2) [] }
    tagRegions (applyRecords s (runningRecords s)))

/-- Is port `p` brought up before port `q` of the list: lower UP_ORDER, then side and number, as P of R79 orders them (R93)? -/
def upBefore (s : State) (p q : Nat) : Bool :=
  decide ((s.port p).upOrder < (s.port q).upOrder) || (decide ((s.port p).upOrder = (s.port q).upOrder) && decide (p < q))

/-- A port put in its place in a list of ports in bring-up order. -/
def upInsert (s : State) (p : Nat) : List Nat → List Nat
  | [] => [p]
  | q :: r => if upBefore s p q then p :: q :: r else q :: upInsert s p r

/-- The ports that step 8 brings up, in the order in which it takes them (R93). -/
def upSequence (s : State) : List Nat :=
  ((List.range 32).filter (fun p => decide (s.fld (aPORT_CFG p) F.PORT_CFG_SPEED ≠ 0) && (s.port p).upAtStart)).foldr (upInsert s) []

/-- Step 8: planned ports are noted, those without UP_AT_START are held, and the others take their turns (R93). -/
def bringUp (s : State) : State :=
  let s := portsAsAtStart ((List.range 32).foldl (fun (t : State) (p : Nat) => t.setPort p { t.port p with atStart := decide (t.fld (aPORT_CFG p) F.PORT_CFG_SPEED ≠ 0) }) s)
  (upSequence s).zipIdx.foldl (fun (t : State) (x : Nat × Nat) => t.setPort x.1 { t.port x.1 with turn := x.2 + 1 }) s

/-- Step 7 is complete: no assigned lane still trains (R43); one that failed to is a lane fault (R45). -/
def lanesTrained (s : State) : Bool := (List.range 36).all (fun l => decide (16 ≤ l % 18) || decide (laneState s l ≠ .training))

/-- PORT_BRING_UP: once the lanes are trained, Active without a pair; with one, the role that negotiation gives, once the link is up (R38,
R429). -/
def execPortBringUp (s : State) : Res :=
  if s.dev.step = 7 ∧ !lanesTrained s then .next s
  else inStep s 7 (fun s =>
    let s := bringUp s
    if !pairOn s then finishStart s false
    else if s.linkUp then finishStart s (negotiated s)
    else { s with dev := { s.dev with rolePending := true } })

/-! ### START_CTRL (R38, R47, R49) -/

/-- START_STATUS.CMD_STATUS. -/
def startStatus (s : State) (st : Status) : State := s.setFld R.START_STATUS F.START_STATUS_CMD_STATUS st.code

/-- FAIL_CLEAR: in Minimal, Maintenance, Active and Standby. -/
def execFailClear (s : State) : Res :=
  .next (s.access R.START_CTRL (fun s =>
    if s.dev.state = .start ∨ s.dev.state = .halt then startStatus s .denied
    else startStatus (s.setReg R.START_FAILS (fieldsPut (s.reg R.START_FAILS)
      [(F.START_FAILS_FAIL_A, 0), (F.START_FAILS_FAIL_B, 0), (F.START_FAILS_FAIL_CONSEC, 0)])) .ok))

/-- Maintenance is entered: an Active member of a pair gives up control (R443), slices unbind (R467), ports are
fail-closed, and the start counts as successful (R38, R47). -/
def enterMaintenance (s : State) : State :=
  let k := (tryGiveUp s 0x11).1
  let k := unbindAll (countSuccess k)
  let k := k.setFld R.CIS_PPR F.CIS_PPR_HARD_PENDING 0
  let k := leavePair { k with dev := { k.dev with state := .maintenance } }
  (List.range 32).foldl (fun (t : State) p => portEdge s p t) k

/-- MAINT_REQ. -/
def execMaintReq (s : State) : Res :=
  .next (s.access R.START_CTRL (fun s =>
    if s.dev.state = .active ∨ s.dev.state = .standby then
      if (List.range 64).any (fun k => decide (inFlight s k ≠ 0)) then startStatus s .quiesceRequired
      else startStatus (enterMaintenance s) .ok
    else if s.dev.state = .maintenance then
      let (st, u) := freeStatus s [.ok, .denied, .invalid]
      startStatus u st
    else startStatus s .denied))

end Sys2Proof.Machine
end

