-- ==== Sys2Proof/Machine/Access.lean ====
section
/-! DEFINITION. Register accesses: what a read returns, what a write of a register without a row of its own does, and
accesses that reach no register (R5 to R7, R37, R490 to R492). -/

namespace Sys2Proof.Machine

/-! ### Addresses -/

/-- The number of the instance at address `a` of `n` registers from `base`, `stride` apart. -/
def unitAt (base stride n a : Nat) : Option Nat :=
  if base ≤ a ∧ (a - base) % stride = 0 ∧ (a - base) / stride < n then some ((a - base) / stride) else none

/-- The address in the register map of an access of a function at an offset of its BAR0 (R489, R491). -/
def busAddr (fn : Fn) (off : Nat) : Option Nat :=
  match fn with
  | .pf => if off < 0x4000000 then some (off / 4 * 4) else none
  | .vf k => if k < 64 ∧ off < 0x200000 then some (0x10000000 + 0x200000 * k + off / 4 * 4) else none

/-- Ring pair and offset in it of an address (R475). -/
def ringAt (a : Nat) : Option (Fn × Nat × Nat) :=
  if 0xA04000 ≤ a ∧ a < 0xA04400 then some (.pf, (a - 0xA04000) / 0x40, (a - 0xA04000) % 0x40)
  else if 0x10000000 ≤ a then
    let o := (a - 0x10000000) % 0x200000
    if 0x1000 ≤ o ∧ o < 0x1400 then some (.vf ((a - 0x10000000) / 0x200000), (o - 0x1000) / 0x40, (o - 0x1000) % 0x40) else none
  else none

/-- SA window and offset in it of an address (R194, R466). -/
def windowAt (a : Nat) : Option (Fn × Nat) :=
  if 0x300000 ≤ a ∧ a < 0x300080 then some (.pf, a - 0x300000)
  else if 0x10000000 ≤ a then
    let o := (a - 0x10000000) % 0x200000
    if 0x100 ≤ o ∧ o < 0x180 then some (.vf ((a - 0x10000000) / 0x200000), o - 0x100) else none
  else none

/-- MSI-X function and vector of the control word at an address (R464, R491). -/
def msixAt (a : Nat) : Option (Fn × Nat) :=
  match unitAt (R.PF_MSIX_CTRL 0) 16 32 a with
  | some v => some (.pf, v)
  | none =>
    if 0x10000000 ≤ a then
      match unitAt 0x800C 16 17 ((a - 0x10000000) % 0x200000) with
      | some v => some (.vf ((a - 0x10000000) / 0x200000), v)
      | none => none
    else none

/-- Page of the classifier block and offset in it. -/
def clsAt (a : Nat) : Option (Nat × Nat) := if 0x200000 ≤ a ∧ a < 0x300000 then some ((a - 0x200000) / 0x40000, (a - 0x200000) % 0x40000) else none

/-- Trunk page and offset in it. -/
def casAt (a : Nat) : Option (Nat × Nat) := if 0x780000 ≤ a ∧ a < 0x7C0000 then some ((a - 0x780000) / 0x10000, (a - 0x780000) % 0x10000) else none

/-- Time base and offset in its registers. -/
def baseAt (a : Nat) : Option (Nat × Nat) := if 0x800000 ≤ a ∧ a < 0x800100 then some ((a - 0x800000) / 0x40, (a - 0x800000) % 0x40) else none

/-- Comparator and offset in its registers. -/
def cmpAt (a : Nat) : Option (Nat × Nat) := if 0x800400 ≤ a ∧ a < 0x800800 then some ((a - 0x800400) / 0x20, (a - 0x800400) % 0x20) else none

/-- The lane of a lane page's register at offset `o` of the page. -/
def laneAt (o a : Nat) : Option Nat := (List.range 36).find? (fun (l : Nat) => laneBase l + o = a)

/-! ### Writes -/

/-- Registers whose writes are rows of their own. -/
def ownRow (a : Nat) : Bool :=
  a = R.CAL_OFFSET || a = R.TMP_FLAGS || (unitAt (R.TB_INCR 0) 0x40 4 a).isSome || (unitAt (R.CAS_PM_SEL 0) 0x10000 4 a).isSome ||
  (unitAt (R.CNT_ARM_k_IDX 0) 0x10 8 a).isSome ||
  (match ringAt a with
    | some (_, _, o) => o = 0xC || o = 0x2C
    | none => false) ||
  ((schedEntry a).isSome && a % 16 = 12)

/-- A write that leaves the bits outside `m` as they are. -/
def storeBits (s : State) (a : Nat) (v m : Word) : State := s.setReg a (withBits (s.reg a) v m)

/-- A write of a ring pair's register (R461, R475): BASE, SIZE, CLASS, TB and BUF_LEN only while EN is 0; a SIZE above 9 is
ignored; EN set to 1 sets HEAD to TAIL. -/
def ringWrite (fn : Fn) (r o : Nat) (a : Nat) (v : Word) (s : State) : State :=
  let rx := decide (0x20 ≤ o)
  let cfg := if rx then aRxCfg fn r else aTxCfg fn r
  let on := s.flag cfg F.TXQ_CFG_EN
  if o = 0x3C then storeBits s a v (rwMask a)
  else if a = cfg then
    if on then storeBits s a v F.TXQ_CFG_EN.mask
    else if 9 < F.TXQ_CFG_SIZE.get v then s
    else
      let s := storeBits s a v (rwMask a)
      if !s.flag cfg F.TXQ_CFG_EN then s
      else
        let x := kget {} s.rings (ringKey fn r)
        let tail := s.fld (if rx then aRxTail fn r else aTxTail fn r) F.TXQ_TAIL_TAIL
        let y := if rx then { x with rxStart := tail } else { x with txStart := tail, txDone := tail }
        { s with rings := kset {} s.rings (ringKey fn r) y }.setFld (if rx then aRxHead fn r else aTxHead fn r) F.TXQ_HEAD_HEAD tail
  else if on then s
  else storeBits s a v (rwMask a)

/-- A write of an MSI-X control word: a vector that is unmasked with its pending bit set fires (R465). -/
def msixWrite (fn : Fn) (n : Nat) (a : Nat) (v : Word) (s : State) : State :=
  let s := storeBits s a v (rwMask a)
  if !(s.reg a).getLsbD 0 && s.flag (msixPba fn) ⟨n, 1⟩ then (s.setFld (msixPba fn) ⟨n, 1⟩ 0).emit (.msix fn n) else s

/-- The alarm conditions of trunk `t` that last: lanes that lock but do not deskew, GEN_HIGH at its end, a journal write to
be tried again (R299, R304, R322). -/
def casLasting (s : State) (t : Nat) : List Fld :=
  let x := s.trunk t
  let on := s.flag (R.CAS_CFG t) F.CAS_CFG_ENABLE
  (if on && !x.deskewed && (lanesOfTrunk s t).all (laneUp s) then [F.CAS_ALARM_DESKEW] else []) ++
  (if on && decide (s.genHighOf (masterHandle s t) (txTag s t) = 0xFFFFFFFF) then [F.CAS_ALARM_EPOCH_EXHAUST] else []) ++
  (if x.retryDue then [F.CAS_ALARM_JOURNAL] else [])

/-- The alarm conditions of the pair that last: a failing diagnosis, a partner whose heartbeats have stopped, a transmit slot
at its cap meanwhile (R427, R443, R452). -/
def paiLasting (s : State) : List Fld :=
  let atCap (x : Slot) : Bool := x.state = .current && decide (x.pn = x.resEnd)
  let lost := s.pair.partner = .lost
  (if s.pair.faults ≠ [] then [F.PAI_ALARM_DIAG] else []) ++ (if lost then [F.PAI_ALARM_HB_LOSS] else []) ++
  (if lost && s.txAssocs.any (fun e => atCap e.2.slot0 || atCap e.2.slot1) then [F.PAI_ALARM_CAP] else [])

/-- Conditions that are present now set their alarm and latch bits again (R120, R124, R161, R226, R260, R281, R293, R322,
R336, R391, R451). -/
def reraise (a : Nat) (s : State) : State :=
  if a = R.CIS_ALARM then
    let s := if s.cistern.state = 2 then s.alarm a F.CIS_ALARM_STACK_FAIL else s
    let s := if s.fld R.CIS_PPR F.CIS_PPR_FAILED ≠ 0 then s.alarm a F.CIS_ALARM_PPR_FAIL else s
    let s := if spillFull s then s.alarm a F.CIS_ALARM_FULL else s
    if s.cistern.regions.any (fun e => e.2.state = .quarantined) then s.alarm a F.CIS_ALARM_QUARANTINE else s
  else if a = R.SCH_ALARM then (if (List.range 34).any (overcommitted s) then s.alarm a F.SCH_ALARM_OVERCOMMIT else s)
  else if a = R.SLU_ALARM then
    let s := sluiceAlarms s
    if (List.range 24).all (sensorOn s) then s else s.alarm a F.SLU_ALARM_SENSOR
  else if a = R.KST_ALARM then (if s.drbgDown then s.alarm a F.KST_ALARM_ENTROPY else s)
  else if a = R.PAI_ALARM then (paiLasting s).foldl (fun (u : State) f => u.alarm a f) s
  else match clsAt a with
    | some (g, 0x50) =>
      let c := s.clsOf g
      let s := if c.trieBad then s.alarm a F.CLS_ALARM_TABLE_ECC else s
      let s := if 256 ≤ c.learnQ.length then s.alarm a F.CLS_ALARM_LEARN_QFULL else s
      let s := if 131072 ≤ c.em.length then s.alarm a F.CLS_ALARM_LEARN_FULL else s
      if c.em.any (fun e => e.2.pinned && !e.2.pinSw) then s.alarm a F.CLS_ALARM_MOVE_PIN else s
    | _ => match unitAt (R.RIL_ALARM 0) 0x10000 9 a with
      | some r =>
        let x := s.rill r
        let s := if x.katOk = some false then s.alarm a F.RIL_ALARM_KAT_FAIL else s
        if x.stalled then s.alarm a F.RIL_ALARM_STALL else s
      | none => match casAt a with
        | some (t, 0x2C) => (casLasting s t).foldl (fun (u : State) f => u.alarm a f) s
        | some (t, 0x64) => s.setReg a (s.reg a ||| (s.reg (R.CAS_DEF t) &&& 0x3FF))
        | _ => match laneAt 8 a with
          | some l =>
            let x := s.lane l
            let c := x.conditions ++ (if x.degraded then [6] else []) ++ (if x.reversed then [8] else [])
            s.setReg a (c.foldl (fun (w : Word) c => w ||| BitVec.ofNat 32 (2 ^ c)) (s.reg a))
          | none => s

/-- Written ones clear the W1C bits of a register; conditions that persist set them again. -/
def clearBits (a : Nat) (v : Word) (s : State) : State :=
  if a = R.TMP_STATUS then (if v.getLsbD 10 then { s with tmp := { s.tmp with alert := false } } else s)
  else match unitAt (R.LEG_i_HI 0) 8 256 a with
    | some i => if v.getLsbD 31 then { s with legacyWraps := kset false s.legacyWraps i false } else s
    | none => if w1cMask a &&& v = 0 then s else reraise a (s.setReg a (s.reg a &&& ~~~ (w1cMask a &&& v)))

/-- A write to staging registers while their command interface is BUSY is discarded (R152, R194, R230, R409): the status
register whose BUSY counts, and its LOST_WRITE bit if it has one. -/
def stagedBy (a : Nat) : Option (Nat × Option Fld) :=
  match clsAt a with
  | some (g, o) => if o = 0x18 ∨ (0x20 ≤ o ∧ o < 0x40) then some (R.TBL_STATUS g, some F.TBL_STATUS_LOST_WRITE) else none
  | none => match windowAt a with
    | some (fn, o) => if o = 8 ∨ 0x40 ≤ o then some (aSaStatus fn, some F.SA_STATUS_LOST_WRITE) else none
    | none =>
      if 0x490040 ≤ a ∧ a < 0x490080 then some (R.TEP_STATUS, some F.TEP_STATUS_LOST_WRITE)
      else if a = R.PKE_DESC_LO ∨ a = R.PKE_DESC_HI then some (R.PKE_CMD_STATUS, none)
      else none

/-- The RW bits of a register that transactions do not shadow. -/
def plainWrite (a : Nat) (v : Word) (s : State) : State :=
  if a = R.TXN_TIMEOUT then (if 1 ≤ F.TXN_TIMEOUT_MS.get v ∧ F.TXN_TIMEOUT_MS.get v ≤ 10000 then storeBits s a v (rwMask a) else txnCmd s .invalid)
  else match ringAt a with
    | some (fn, r, o) => ringWrite fn r o a v s
    | none => match msixAt a with
      | some (fn, n) => msixWrite fn n a v s
      | none => match stagedBy a with
        | some (st, lost) =>
          if !s.flag st ⟨31, 1⟩ then storeBits s a v (rwMask a)
          else match lost with
            | some f => s.setFld st f 1
            | none => s
        | none => match cmpAt a with
          | some (k, o) =>
            if 4 ≤ o ∧ o ≤ 0xC then
              (if cmpFunc s k = 3 then s else { storeBits s a v (rwMask a) with cmpDone := kset false s.cmpDone k false })
            else if rwMask a = 0 then s
            else storeBits s a v (rwMask a)
          | none => if rwMask a = 0 then s else storeBits s a v (rwMask a)

/-- A command field with GO or its like set and an operation that its interface does not have: INVALID, ignored while the
interface is BUSY. A write that names an operation is that operation's row. -/
def badCommand (a : Nat) (v : Word) (s : State) : State :=
  let go := v.getLsbD 31
  let op := bits v.toNat 27 24
  let low := v.toNat % 4
  let bad (st : Nat) (f : Fld) (s : State) : State := if s.flag st ⟨31, 1⟩ then s else s.setFld st f Status.invalid.code
  if a = R.TXN_CTRL then (if v.toNat % 8 = 3 ∨ 4 < v.toNat % 8 then txnCmd s .invalid else s)
  else match baseAt a with
    | some (b, 0x10) => if low = 3 then tbEnd s b .invalid else if low = 0 then s.setFld (R.TB_STATUS b) F.TB_STATUS_ARMED 0 else s
    | _ =>
      if !go then s
      else if a = aSPARE_CMD 0 ∨ a = aSPARE_CMD 1 then
        (if between 1 4 (bits v.toNat 30 28) then s
          else spareStatus s (if a = aSPARE_CMD 0 then 0 else 1) (if (kget none s.releasing (if a = aSPARE_CMD 0 then 0 else 1)).isSome then .busy else .invalid))
      else if a = R.RIL_CMD then (if between 1 2 op then s else bad R.RIL_STATUS F.RIL_STATUS_STATUS s)
      else if a = R.TEP_CMD then (if between 1 3 op then s else bad R.TEP_STATUS F.TEP_STATUS_STATUS s)
      else if a = R.CIS_CMD then (if between 1 2 op then s else bad R.CIS_STATUS F.CIS_STATUS_STATUS s)
      else if a = R.KST_CMD then
        (if between 1 6 (v.toNat % 16) ∨ s.flag R.KST_STATUS F.KST_STATUS_BUSY then s else kstEnd s 0 0 (if s.dev.mcRestarting then .busy else .invalid))
      else if a = R.PKE_CMD then (if between 1 2 op then s else pkeStatus s .invalid)
      else if a = R.TMP_CMD then (if between 1 6 (v.toNat % 16) then s else s.setFld R.TMP_STATUS F.TMP_STATUS_CMD_STATUS Status.invalid.code)
      else if a = R.AQD_CMD then (if between 1 2 low then s else s.setFld R.AQD_CMDST F.AQD_CMDST_STATUS Status.invalid.code)
      else if a = R.PAI_CMD then (if low = 0 then s.setFld R.PAI_CMDST F.PAI_CMDST_STATUS Status.invalid.code else s)
      else if a = R.HIF_SLCMD then (if between 1 5 (bits v.toNat 26 24) then s else s.setFld R.HIF_SLCMDST F.HIF_SLCMDST_STATUS Status.invalid.code)
      else if a = R.CNT_CMD then (if between 1 4 op then s else cntEnd s .invalid)
      else match clsAt a with
        | some (g, 0x10) => if between 1 7 op then s else bad (R.TBL_STATUS g) F.TBL_STATUS_STATUS s
        | _ => match casAt a with
          | some (t, 0x20) => if between 1 3 op then s else s.setFld (R.CAS_CMDST t) F.CAS_CMDST_STATUS Status.invalid.code
          | _ => match windowAt a with
            | some (fn, 0) => if between 1 9 op ∨ s.flag (aSaStatus fn) F.SA_STATUS_BUSY then s else saEnd s fn .invalid
            | _ => s

/-- A full write of a register that its block serves (R7, R73, R81). -/
def fullWrite (a : Nat) (v : Word) (s : State) : State :=
  if ownRow a then s
  else
    let s := badCommand a v (clearBits a v s)
    if isShadowed a then configWrite s a v else plainWrite a v s

/-- A virtual function has registers while slices are enabled (R456). -/
def hasBar (s : State) (fn : Fn) : Bool :=
  match fn with
  | .pf => true
  | .vf _ => s.slicesOn

/-- REGISTER_WRITE: `v` written at offset `off` of a function's BAR0; `full` with all byte enables of an aligned word (R5).
A write with partial byte enables is discarded and flagged (R5); one in the hole is ignored and flagged (R490); one to a
block that is not served is ignored and flagged (R37); a write that is both is flagged as both. -/
def execRegisterWrite (fn : Fn) (off : Nat) (v : Word) (full : Bool) (s : State) : Res :=
  match busAddr fn off with
  | none => .next s
  | some a =>
    if !s.reachable ∨ !hasBar s fn then .next s
    else if !full ∨ off % 4 ≠ 0 then
      let s := s.raiseErr F.GLB_ERR_PARTIAL a
      .next (if blockOf a = .hole then s.raiseErr F.GLB_ERR_HOLE a else if s.serves (blockOf a) then s else s.raiseErr F.GLB_ERR_STATE a)
    else if blockOf a = .hole then .next (s.raiseErr F.GLB_ERR_HOLE a)
    else .next (s.accessWrite a (fullWrite a v))

/-- HOLE_ACCESS: a read (`write` false) returns 0, a write is ignored, and either sets GLB_ERR.HOLE (R490). -/
def execHoleAccess (off : Nat) (write : Bool) (s : State) : Res :=
  let a := off / 4 * 4
  if s.reachable ∧ off < 0x4000000 ∧ blockOf a = .hole then
    let s := s.raiseErr F.GLB_ERR_HOLE a
    .next (if write then s else s.emit (.readData .pf a 0))
  else .next s

/-- UNSERVED_BLOCK_ACCESS: a read returns 0, a write is ignored, and either sets GLB_ERR.STATE (R37). -/
def execUnservedBlockAccess (fn : Fn) (off : Nat) (write : Bool) (s : State) : Res :=
  match busAddr fn off with
  | none => .next s
  | some a =>
    if s.reachable ∧ hasBar s fn ∧ blockOf a ≠ .hole ∧ !s.serves (blockOf a) then
      let s := s.raiseErr F.GLB_ERR_STATE a
      .next (if write then s else s.emit (.readData fn a 0))
    else .next s

end Sys2Proof.Machine
end

