-- ==== Sys2Proof/Machine/Dispatch.lean ====
section
/-! DEFINITION. The command's effect: one arm per row of the opcode table. -/

namespace Sys2Proof.Machine

/-- The effect of a command on everything but the queue. -/
def exec (i : Instr) (s : State) : Host.Outcome State Fault Refusal :=
  match i with
  | .registerWrite fn off v full => Sys2Proof.Machine.execRegisterWrite fn off v full s
  | .holeAccess off write => Sys2Proof.Machine.execHoleAccess off write s
  | .unservedBlockAccess fn off write => Sys2Proof.Machine.execUnservedBlockAccess fn off write s
  | .mainPowerValid => Sys2Proof.Machine.execMainPowerValid s
  | .mainPowerLost => Sys2Proof.Machine.execMainPowerLost s
  | .coldResetRelease fuses => Sys2Proof.Machine.execColdResetRelease fuses s
  | .coldRstNAssert mark => Sys2Proof.Machine.execColdRstNAssert mark s
  | .warmReset fuses mark => Sys2Proof.Machine.execWarmReset fuses mark s
  | .glbWarmReset key fuses mark => Sys2Proof.Machine.execGlbWarmReset key fuses mark s
  | .glbMcRestart key => Sys2Proof.Machine.execGlbMcRestart key s
  | .mcWatchdogRestart => Sys2Proof.Machine.execMcWatchdogRestart s
  | .mcWatchdogExpiry => Sys2Proof.Machine.execMcWatchdogExpiry s
  | .mcRestartComplete => Sys2Proof.Machine.execMcRestartComplete s
  | .functionLevelReset => Sys2Proof.Machine.execFunctionLevelReset s
  | .slotSelection flash => Sys2Proof.Machine.execSlotSelection flash s
  | .imageSignatureCheck => Sys2Proof.Machine.execImageSignatureCheck s
  | .calibrationLoad => Sys2Proof.Machine.execCalibrationLoad s
  | .keyUnwrap => Sys2Proof.Machine.execKeyUnwrap s
  | .selfTests test hbm => Sys2Proof.Machine.execSelfTests test hbm s
  | .laneTrainingStart pers => Sys2Proof.Machine.execLaneTrainingStart pers s
  | .portBringUp => Sys2Proof.Machine.execPortBringUp s
  | .negWaitTimeout => Sys2Proof.Machine.execNegWaitTimeout s
  | .successTimerExpiry => Sys2Proof.Machine.execSuccessTimerExpiry s
  | .failClear => Sys2Proof.Machine.execFailClear s
  | .maintReq => Sys2Proof.Machine.execMaintReq s
  | .maintExit fuses => Sys2Proof.Machine.execMaintExit fuses s
  | .imgWriteGo slotB => Sys2Proof.Machine.execImgWriteGo slotB s
  | .imgWritePhaseComplete read readBack => Sys2Proof.Machine.execImgWritePhaseComplete read readBack s
  | .txnBegin => Sys2Proof.Machine.execTxnBegin s
  | .txnCommit => Sys2Proof.Machine.execTxnCommit s
  | .txnRollback => Sys2Proof.Machine.execTxnRollback s
  | .txnTimeoutExpiry late => Sys2Proof.Machine.execTxnTimeoutExpiry late s
  | .txnValidationEnd pers => Sys2Proof.Machine.execTxnValidationEnd pers s
  | .txnApplyInstant idx => Sys2Proof.Machine.execTxnApplyInstant idx s
  | .bpWrite => Sys2Proof.Machine.execBpWrite s
  | .bpRead => Sys2Proof.Machine.execBpRead s
  | .calOffsetWrite v => Sys2Proof.Machine.execCalOffsetWrite v s
  | .frameArrival p header preambleOk => Sys2Proof.Machine.execFrameArrival p header preambleOk s
  | .frameEnd h tail codewords reassembled arrived => Sys2Proof.Machine.execFrameEnd h tail codewords reassembled arrived s
  | .headerRecordClassify h ecc ecc2 => Sys2Proof.Machine.execHeaderRecordClassify h ecc ecc2 s
  | .learnApply g => Sys2Proof.Machine.execLearnApply g s
  | .queueAdmission j => Sys2Proof.Machine.execQueueAdmission j s
  | .schedulerSelect first => Sys2Proof.Machine.execSchedulerSelect first s
  | .bucketRefill b => Sys2Proof.Machine.execBucketRefill b s
  | .dispatch j mayProbe => Sys2Proof.Machine.execDispatch j mayProbe s
  | .reservationBoundaryRecord idx k => Sys2Proof.Machine.execReservationBoundaryRecord idx k s
  | .beatFeed j keyEcc cellEcc => Sys2Proof.Machine.execBeatFeed j keyEcc cellEcc s
  | .rillBeatExit j => Sys2Proof.Machine.execRillBeatExit j s
  | .verdictReturn j => Sys2Proof.Machine.execVerdictReturn j s
  | .mergeRelease e desc => Sys2Proof.Machine.execMergeRelease e desc s
  | .tblRead g table => Sys2Proof.Machine.execTblRead g table s
  | .tblWrite g table => Sys2Proof.Machine.execTblWrite g table s
  | .tblInsert g table => Sys2Proof.Machine.execTblInsert g table s
  | .tblDelete g table => Sys2Proof.Machine.execTblDelete g table s
  | .tblSearch g table => Sys2Proof.Machine.execTblSearch g table s
  | .tblFlush g table flt => Sys2Proof.Machine.execTblFlush g table flt s
  | .tblAge g table => Sys2Proof.Machine.execTblAge g table s
  | .tblCmdDone g => Sys2Proof.Machine.execTblCmdDone g s
  | .ageingSweepVisit g k hit => Sys2Proof.Machine.execAgeingSweepVisit g k hit s
  | .moveWindowRestart g => Sys2Proof.Machine.execMoveWindowRestart g s
  | .pinHoldExpiry g k => Sys2Proof.Machine.execPinHoldExpiry g k s
  | .trieWordRepair g => Sys2Proof.Machine.execTrieWordRepair g s
  | .saInstall fn => Sys2Proof.Machine.execSaInstall fn s
  | .saRemove fn => Sys2Proof.Machine.execSaRemove fn s
  | .saRead fn => Sys2Proof.Machine.execSaRead fn s
  | .saReadSlot fn => Sys2Proof.Machine.execSaReadSlot fn s
  | .saDerive fn => Sys2Proof.Machine.execSaDerive fn s
  | .saSwitch fn => Sys2Proof.Machine.execSaSwitch fn s
  | .saArmTime fn => Sys2Proof.Machine.execSaArmTime fn s
  | .saRetire fn => Sys2Proof.Machine.execSaRetire fn s
  | .saModify fn => Sys2Proof.Machine.execSaModify fn s
  | .slotLoadComplete rx idx k journalOk => Sys2Proof.Machine.execSlotLoadComplete rx idx k journalOk s
  | .slotDrainComplete idx k => Sys2Proof.Machine.execSlotDrainComplete idx k s
  | .autoNextRetry idx => Sys2Proof.Machine.execAutoNextRetry idx s
  | .rxRetireTimerExpiry idx => Sys2Proof.Machine.execRxRetireTimerExpiry idx s
  | .followCandidateReady idx k => Sys2Proof.Machine.execFollowCandidateReady idx k s
  | .assocRemoveDrainComplete rx idx => Sys2Proof.Machine.execAssocRemoveDrainComplete rx idx s
  | .rilWithdraw r same => Sys2Proof.Machine.execRilWithdraw r same s
  | .rilRestore r => Sys2Proof.Machine.execRilRestore r s
  | .rillFault r kind same => Sys2Proof.Machine.execRillFault r kind same s
  | .spareInService r => Sys2Proof.Machine.execSpareInService r s
  | .fenceComplete r => Sys2Proof.Machine.execFenceComplete r s
  | .fenceDeadline r => Sys2Proof.Machine.execFenceDeadline r s
  | .katRun r pass => Sys2Proof.Machine.execKatRun r pass s
  | .tepRead idx => Sys2Proof.Machine.execTepRead idx s
  | .tepWrite idx => Sys2Proof.Machine.execTepWrite idx s
  | .tepClear idx => Sys2Proof.Machine.execTepClear idx s
  | .rillWakeComplete r => Sys2Proof.Machine.execRillWakeComplete r s
  | .sluiceTick readings rails hbm => Sys2Proof.Machine.execSluiceTick readings rails hbm s
  | .slowLoop => Sys2Proof.Machine.execSlowLoop s
  | .schedEntryWord3Write t idx v => Sys2Proof.Machine.execSchedEntryWord3Write t idx v s
  | .spill h errs => Sys2Proof.Machine.execSpill h errs s
  | .spillWriteAck h phase => Sys2Proof.Machine.execSpillWriteAck h phase s
  | .fetchBackComplete h err => Sys2Proof.Machine.execFetchBackComplete h err s
  | .nodeWriteBack k n errs => Sys2Proof.Machine.execNodeWriteBack k n errs s
  | .cisternAgeSweep => Sys2Proof.Machine.execCisternAgeSweep s
  | .cisRotate owner => Sys2Proof.Machine.execCisRotate owner s
  | .scrubNow => Sys2Proof.Machine.execScrubNow s
  | .timedRotation owner => Sys2Proof.Machine.execTimedRotation owner s
  | .keyidRetireComplete k => Sys2Proof.Machine.execKeyidRetireComplete k s
  | .regionDrainComplete r => Sys2Proof.Machine.execRegionDrainComplete r s
  | .scrubVisit b err passEnd => Sys2Proof.Machine.execScrubVisit b err passEnd s
  | .rowRepair stack cells isData spareLeft => Sys2Proof.Machine.execRowRepair stack cells isData spareLeft s
  | .stackFail => Sys2Proof.Machine.execStackFail s
  | .laneMarkerLock l polInv portLane marker skewOk => Sys2Proof.Machine.execLaneMarkerLock l polInv portLane marker skewOk s
  | .trainTimeout l => Sys2Proof.Machine.execTrainTimeout l s
  | .laneFault l kind => Sys2Proof.Machine.execLaneFault l kind s
  | .laneDegrade l => Sys2Proof.Machine.execLaneDegrade l s
  | .laneFaultClear l => Sys2Proof.Machine.execLaneFaultClear l s
  | .steeringBlockAccept k block => Sys2Proof.Machine.execSteeringBlockAccept k block s
  | .partnerOkTimeout k => Sys2Proof.Machine.execPartnerOkTimeout k s
  | .spareAlign k => Sys2Proof.Machine.execSpareAlign k s
  | .askTimeout k => Sys2Proof.Machine.execAskTimeout k s
  | .steerTransmit side k l => Sys2Proof.Machine.execSteerTransmit side k l s
  | .steerReceive side k l => Sys2Proof.Machine.execSteerReceive side k l s
  | .steerBoth side k l => Sys2Proof.Machine.execSteerBoth side k l s
  | .spareRelease side k l => Sys2Proof.Machine.execSpareRelease side k l s
  | .portUp p => Sys2Proof.Machine.execPortUp p s
  | .portSleep p => Sys2Proof.Machine.execPortSleep p s
  | .sleepReached p => Sys2Proof.Machine.execSleepReached p s
  | .portWake p => Sys2Proof.Machine.execPortWake p s
  | .wakePatternMatch p f => Sys2Proof.Machine.execWakePatternMatch p f s
  | .linkChangeWake p aligned lf rf => Sys2Proof.Machine.execLinkChangeWake p aligned lf rf s
  | .wakeComplete p => Sys2Proof.Machine.execWakeComplete p s
  | .preemptVerify p ok => Sys2Proof.Machine.execPreemptVerify p ok s
  | .cascadeFrameSend t clients => Sys2Proof.Machine.execCascadeFrameSend t clients s
  | .cascadeFrameReceive t frame errored uncorr corr => Sys2Proof.Machine.execCascadeFrameReceive t frame errored uncorr corr s
  | .epochKeyDerived t => Sys2Proof.Machine.execEpochKeyDerived t s
  | .epochSwitch t => Sys2Proof.Machine.execEpochSwitch t s
  | .epochPeriodExpiry t => Sys2Proof.Machine.execEpochPeriodExpiry t s
  | .epochConfirmed t journalOk => Sys2Proof.Machine.execEpochConfirmed t journalOk s
  | .epochJournalRetry t => Sys2Proof.Machine.execEpochJournalRetry t s
  | .mapSwitch t => Sys2Proof.Machine.execMapSwitch t s
  | .realign t => Sys2Proof.Machine.execRealign t s
  | .dslipClear t idx => Sys2Proof.Machine.execDslipClear t idx s
  | .pmSecondBoundary t => Sys2Proof.Machine.execPmSecondBoundary t s
  | .opsSend t len => Sys2Proof.Machine.execOpsSend t len s
  | .casPmSelWrite t v => Sys2Proof.Machine.execCasPmSelWrite t v s
  | .tbIncrWrite b v => Sys2Proof.Machine.execTbIncrWrite b v s
  | .tbStep b => Sys2Proof.Machine.execTbStep b s
  | .tbArmForce b => Sys2Proof.Machine.execTbArmForce b s
  | .armForceExpiry b => Sys2Proof.Machine.execArmForceExpiry b s
  | .stepInstant b => Sys2Proof.Machine.execStepInstant b s
  | .tbSnapFracRead b => Sys2Proof.Machine.execTbSnapFracRead b s
  | .comparatorFire k => Sys2Proof.Machine.execComparatorFire k s
  | .ppsOutPulseEnd n => Sys2Proof.Machine.execPpsOutPulseEnd n s
  | .ppsInEdge => Sys2Proof.Machine.execPpsInEdge s
  | .ppsLoss => Sys2Proof.Machine.execPpsLoss s
  | .gpioCapture j rise => Sys2Proof.Machine.execGpioCapture j rise s
  | .gateCycleStart p => Sys2Proof.Machine.execGateCycleStart p s
  | .launchEligible j => Sys2Proof.Machine.execLaunchEligible j s
  | .launchRelease j => Sys2Proof.Machine.execLaunchRelease j s
  | .launchLate j => Sys2Proof.Machine.execLaunchLate j s
  | .timeUnlock idx => Sys2Proof.Machine.execTimeUnlock idx s
  | .kstUpdate read fuses logOk => Sys2Proof.Machine.execKstUpdate read fuses logOk s
  | .kstAttest => Sys2Proof.Machine.execKstAttest s
  | .kstGenerate logOk => Sys2Proof.Machine.execKstGenerate logOk s
  | .kstDelete logOk => Sys2Proof.Machine.execKstDelete logOk s
  | .kstInfo => Sys2Proof.Machine.execKstInfo s
  | .kstAgreePub => Sys2Proof.Machine.execKstAgreePub s
  | .drbgReseed => Sys2Proof.Machine.execDrbgReseed s
  | .entropyHealthFail => Sys2Proof.Machine.execEntropyHealthFail s
  | .drbgResume => Sys2Proof.Machine.execDrbgResume s
  | .pkeSubmit desc input => Sys2Proof.Machine.execPkeSubmit desc input s
  | .pkeAbort id => Sys2Proof.Machine.execPkeAbort id s
  | .pkeJobStart interval => Sys2Proof.Machine.execPkeJobStart interval s
  | .pkeCheckpoint interval => Sys2Proof.Machine.execPkeCheckpoint interval s
  | .pkeJobEnd execUs waitUs fault => Sys2Proof.Machine.execPkeJobEnd execUs waitUs fault s
  | .pkeDutyWindow => Sys2Proof.Machine.execPkeDutyWindow s
  | .tamperSourceLatch mask raw => Sys2Proof.Machine.execTamperSourceLatch mask raw s
  | .undervoltageDelayExpiry src => Sys2Proof.Machine.execUndervoltageDelayExpiry src s
  | .keyClearComplete => Sys2Proof.Machine.execKeyClearComplete s
  | .cellSample a b => Sys2Proof.Machine.execCellSample a b s
  | .temperatureReading hi lo well => Sys2Proof.Machine.execTemperatureReading hi lo well s
  | .wellBrownOut => Sys2Proof.Machine.execWellBrownOut s
  | .tmpRelease => Sys2Proof.Machine.execTmpRelease s
  | .tmpServiceA => Sys2Proof.Machine.execTmpServiceA s
  | .tmpServiceB => Sys2Proof.Machine.execTmpServiceB s
  | .tmpEndService => Sys2Proof.Machine.execTmpEndService s
  | .serviceWindowExpiry => Sys2Proof.Machine.execServiceWindowExpiry s
  | .tmpZeroiseArm => Sys2Proof.Machine.execTmpZeroiseArm s
  | .tmpZeroiseAll late => Sys2Proof.Machine.execTmpZeroiseAll late s
  | .tmpFlagsClear mask => Sys2Proof.Machine.execTmpFlagsClear mask s
  | .smbusZeroiseWrite data pecOk => Sys2Proof.Machine.execSmbusZeroiseWrite data pecOk s
  | .smbusZeroiseArmExpiry => Sys2Proof.Machine.execSmbusZeroiseArmExpiry s
  | .smbusStatusRead => Sys2Proof.Machine.execSmbusStatusRead s
  | .peerActiveChange level => Sys2Proof.Machine.execPeerActiveChange level s
  | .peerHandoverRise => Sys2Proof.Machine.execPeerHandoverRise s
  | .aqdClockDetect => Sys2Proof.Machine.execAqdClockDetect s
  | .aqdDeskewLock => Sys2Proof.Machine.execAqdDeskewLock s
  | .configFrameReceive frame => Sys2Proof.Machine.execConfigFrameReceive frame s
  | .authFrameReceive frame rtt => Sys2Proof.Machine.execAuthFrameReceive frame rtt s
  | .aqdTrainingTimeout => Sys2Proof.Machine.execAqdTrainingTimeout s
  | .aqdFailedRetry => Sys2Proof.Machine.execAqdFailedRetry s
  | .aqdLinkDown => Sys2Proof.Machine.execAqdLinkDown s
  | .dataFrameReceive frame => Sys2Proof.Machine.execDataFrameReceive frame s
  | .retransmitTimeout => Sys2Proof.Machine.execRetransmitTimeout s
  | .heartbeatSend => Sys2Proof.Machine.execHeartbeatSend s
  | .hbLoss => Sys2Proof.Machine.execHbLoss s
  | .takeOverComplete => Sys2Proof.Machine.execTakeOverComplete s
  | .giveUp => Sys2Proof.Machine.execGiveUp s
  | .takeOver => Sys2Proof.Machine.execTakeOver s
  | .partnerGone => Sys2Proof.Machine.execPartnerGone s
  | .giveUpDiscardDeadline => Sys2Proof.Machine.execGiveUpDiscardDeadline s
  | .diagnosisFault n present => Sys2Proof.Machine.execDiagnosisFault n present s
  | .aqdDeep => Sys2Proof.Machine.execAqdDeep s
  | .aqdWake => Sys2Proof.Machine.execAqdWake s
  | .linkSleepEntry rx => Sys2Proof.Machine.execLinkSleepEntry rx s
  | .linkSleepExit rx => Sys2Proof.Machine.execLinkSleepExit rx s
  | .txqDoorbell fn r v => Sys2Proof.Machine.execTxqDoorbell fn r v s
  | .rxqDoorbell fn r v => Sys2Proof.Machine.execRxqDoorbell fn r v s
  | .descriptorFetch fn r desc frame => Sys2Proof.Machine.execDescriptorFetch fn r desc frame s
  | .txCompletionWrite fn r => Sys2Proof.Machine.execTxCompletionWrite fn r s
  | .interruptCoalesceExpiry fn r => Sys2Proof.Machine.execInterruptCoalesceExpiry fn r s
  | .sliceBind k vfOn pasidOn => Sys2Proof.Machine.execSliceBind k vfOn pasidOn s
  | .sliceFence k => Sys2Proof.Machine.execSliceFence k s
  | .sliceResume k => Sys2Proof.Machine.execSliceResume k s
  | .sliceReset k => Sys2Proof.Machine.execSliceReset k s
  | .sliceUnbind k => Sys2Proof.Machine.execSliceUnbind k s
  | .vfFlr k => Sys2Proof.Machine.execVfFlr k s
  | .vfBusMasterClear k => Sys2Proof.Machine.execVfBusMasterClear k s
  | .sliceQuiesced k => Sys2Proof.Machine.execSliceQuiesced k s
  | .snapshotInstant => Sys2Proof.Machine.execSnapshotInstant s
  | .cntSnap => Sys2Proof.Machine.execCntSnap s
  | .cntFreeze => Sys2Proof.Machine.execCntFreeze s
  | .cntThaw => Sys2Proof.Machine.execCntThaw s
  | .cntClearWrap idx => Sys2Proof.Machine.execCntClearWrap idx s
  | .commandedInstant => Sys2Proof.Machine.execCommandedInstant s
  | .snapshotImageDone ok => Sys2Proof.Machine.execSnapshotImageDone ok s
  | .bwWindowBoundary => Sys2Proof.Machine.execBwWindowBoundary s
  | .cntArmIdxWrite k v => Sys2Proof.Machine.execCntArmIdxWrite k v s
  | .armFire k => Sys2Proof.Machine.execArmFire k s
  | .cntRdLoRead => Sys2Proof.Machine.execCntRdLoRead s
  | .legLoRead idx => Sys2Proof.Machine.execLegLoRead idx s
  | .timeLockRegained idx => Sys2Proof.Machine.execTimeLockRegained idx s
  | .receivePcsChange p aligned lf rf => Sys2Proof.Machine.execReceivePcsChange p aligned lf rf s
  | .tribBufferSlip t idx => Sys2Proof.Machine.execTribBufferSlip t idx s
  | .partnerClockWake => Sys2Proof.Machine.execPartnerClockWake s
  | .gateEntryBoundary p => Sys2Proof.Machine.execGateEntryBoundary p s

end Sys2Proof.Machine
end

