-- ==== Sys2Proof/Machine/View.lean ====
section
/-! DEFINITION. What a read of each register returns, and what a read does. The opcode table has no row for a plain read:
`State.read` and `State.afterRead` stand beside the commands (R5 to R7, R37, R81, R490, R491). -/

namespace Sys2Proof.Machine

/-! ### Fields laid together -/

/-- A register value of fields: lowest bit, width, value. -/
def fields (l : List (Nat × Nat × Nat)) : Word :=
  BitVec.ofNat 32 ((l.map (fun (x : Nat × Nat × Nat) => x.2.2 % 2 ^ x.2.1 * 2 ^ x.1)).sum)

/-- A register value with some fields laid over what it holds. -/
def over_ (w : Word) (l : List (Nat × Nat × Nat)) : Word :=
  let m : Word := BitVec.ofNat 32 ((l.map (fun (x : Nat × Nat × Nat) => (2 ^ x.2.1 - 1) * 2 ^ x.1)).sum)
  withBits w (fields l) m

/-- One half of a 64-bit number. -/
def half (hi : Bool) (v : Nat) : Word := BitVec.ofNat 32 (if hi then v / 2 ^ 32 else v)

/-- What a configuration register reads as: the shadow's value while a transaction is open (R81). -/
def configRead (s : State) (a : Nat) : Word := if s.txn.state = .open then shadowReg s a else liveWord s a

/-! ### Global, start, transaction and calibration blocks (R54, R80, R86, R492) -/

/-- GLB_ALARM_SUM (R492). -/
def alarmSum (s : State) : Word :=
  let any (n : Nat) (a : Nat → Nat) : Nat := b2n ((List.range n).any (fun i => decide (s.reg (a i) ≠ 0)))
  fields [(0, 1, any 4 R.CLS_ALARM), (1, 1, any 1 (fun _ => R.SA_ALARM)), (2, 1, any 9 R.RIL_ALARM), (3, 1, any 1 (fun _ => R.CIS_ALARM)),
    (4, 1, any 1 (fun _ => R.SCH_ALARM)), (5, 1, any 1 (fun _ => R.SLU_ALARM)), (6, 1, any 4 R.CAS_ALARM), (7, 1, any 1 (fun _ => R.TIM_ALARM)),
    (8, 1, any 1 (fun _ => R.KST_ALARM)), (9, 1, any 1 (fun _ => R.PKE_ALARM)), (10, 1, any 1 (fun _ => R.AQD_ALARM)), (11, 1, any 1 (fun _ => R.PAI_ALARM)),
    (12, 1, any 1 (fun _ => R.CNT_ALARM)), (13, 1, any 64 R.SL_ALARM), (14, 1, b2n s.tmp.alert)]

/-- The serial number, once start step 1 has loaded it (R492). -/
def serialShown (s : State) : Nat := if s.dev.coldReset then 0 else Config.serial

def viewGlb (s : State) (a : Nat) : Option Word :=
  if a = R.GLB_REV then some (over_ (s.reg a) [(16, 2, Config.order)])
  else if a = R.GLB_SERIAL_LO then some (half false (serialShown s))
  else if a = R.GLB_SERIAL_HI then some (half true (serialShown s))
  else if a = R.GLB_FW then some (fields [(24, 8, Config.romMajor), (16, 8, Config.romMinor), (0, 16, s.dev.patch)])
  else if a = R.GLB_STATUS then some (fields [(16, 16, s.dev.mcRestarts), (8, 1, b2n s.dev.mcUp), (0, 3, s.dev.state.code)])
  else if a = R.GLB_ALARM_SUM then some (alarmSum s)
  else none

/-- The code of a transaction state (R86). -/
def TxnState.code : TxnState → Nat
  | .idle => 0 | .open => 1 | .validating => 2 | .applying => 3

/-- The offset of a calibration item as CAL reads show it: the shadow's within a transaction (R80, R81). -/
def offsetShown (s : State) (i : Nat) : Int :=
  if s.txn.state = .open ∧ calKey i ∈ s.txn.used then signed 16 (kget 0 s.txn.regs (calKey i)).toNat else kget 0 s.calUser i

def viewStart (s : State) (a : Nat) : Option Word :=
  let i := calItem s
  let o := offsetShown s i
  if a = R.START_STATE then
    some (fields [(10, 2, s.dev.slot), (9, 1, b2n s.dev.success), (8, 1, b2n s.dev.rolePending), (4, 4, s.dev.step), (0, 3, s.dev.state.code)])
  else if a = R.TXN_STATUS then some (over_ (s.reg a) [(16, 3, s.txn.state.code)])
  else if a = R.TXN_SHADOW then some (fields [(16, 16, s.txn.params.length), (0, 16, s.txn.used.length)])
  else if a = R.TXN_LEVEL then some (configRead s a)
  else if a = R.IMG_STATUS then some (if imgPhase s = 0 then s.reg a else over_ (s.reg a) [(16, 8, Config.freeNat s.freeCtr % 101)])
  else if a = R.CAL_VALUE then
    some (if (calLimits i).isNone then 0 else fields [(16, 16, unsigned 16 (Config.factory i)), (0, 16, unsigned 16 (calEffective i o))])
  else if a = R.CAL_OFFSET then
    some (over_ (s.reg a) [(16, 1, b2n ((calLimits i).isSome && decide (calEffective i o ≠ Config.factory i + o))), (0, 16, unsigned 16 o)])
  else if a = R.CAL_LIMITS then
    some (match calLimits i with
      | some (lo, hi) => fields [(16, 16, unsigned 16 hi), (0, 16, unsigned 16 lo)]
      | none => 0)
  else none

/-! ### Ports and lanes (R119, R123) -/

/-- The side-local lane that a spare serves, from its choice on (R107). -/
def forLane (s : State) (l : Nat) : Nat := (((List.range 36).find? (fun m => spareServes s l m)).getD 0) % 18

def viewPorts (s : State) (a : Nat) : Option Word :=
  match (List.range 32).find? (fun p => portBase p + 0xC = a) with
  | some p =>
    some (fields [(12, 4, (s.port p).wakeCause), (10, 2, (s.port p).matched), (8, 2, preemptCode s p), (7, 1, b2n ((lanesOfPort s p).any (spared s))),
      (6, 1, b2n (s.port p).rf), (5, 1, b2n (s.port p).lf), (0, 3, portCode s p)])
  | none => match laneAt 4 a with
    | some l =>
      let x := s.lane l
      let spare := decide (16 ≤ l % 18)
      some (fields [(16, 1, b2n (spare && (s.spare l).partnerOk)), (12, 4, if spare then forLane s l else 0), (10, 2, if spare then 0 else match replacedBy s l with
          | some k => k % 18 - 15
          | none => 0),
        (9, 1, b2n x.signal), (8, 1, b2n x.cdrLock), (4, 4, x.portLane), (3, 1, b2n x.polInv), (0, 3, laneCode s l)])
    | none => none

/-! ### Classifier, associations and rills (R160, R194, R225, R229) -/

/-- STATE of RIL_STATE (R225). -/
def RillState.code : RillState → Nat
  | .out => 0 | .gated => 1 | .waking => 2 | .inService => 3 | .leaving => 4 | .spare => 5 | .faulted => 6 | .test => 7

/-- DIR: `RL_8`'s only while IN_SERVICE or LEAVING; those of the others from start step 6 (R225). -/
def rillDir (s : State) (r : Nat) : Bool :=
  if r = 8 then (s.rill 8).inbound && ((s.rill 8).state = .inService || (s.rill 8).state = .leaving) else (s.rill r).inbound

def viewPath (s : State) (a : Nat) : Option Word :=
  match clsAt a with
  | some (g, 0x40) => some (occWord s g 0)
  | some (g, 0x44) => some (occWord s g 4)
  | some (g, 0x48) => some (occWord s g 6)
  | _ =>
    if a = R.SA_OCC then some (fields [(16, 15, kcount Assoc.valid s.rxAssocs), (0, 15, kcount Assoc.valid s.txAssocs)])
    else if a = R.RIL_CTX then some (fields [(16, 14, contextsUsed s true), (0, 14, contextsUsed s false)])
    else match unitAt (R.RIL_STATE 0) 0x10000 9 a with
      | some r => some (fields [(16, 6, rillFrames s r), (8, 4, (s.rill r).standsFor.getD 0xF), (4, 1, b2n (rillDir s r)), (0, 3, (s.rill r).state.code)])
      | none => none

/-! ### Cistern, scheduler, governor and trunks (R246 to R262, R278, R292, R321, R337, R338) -/

/-- STATE of a key ID (R262). -/
def KeyIdState.code : KeyIdState → Nat
  | .empty => 0 | .active => 1 | .retiring => 2

def viewStore (s : State) (a : Nat) : Option Word :=
  if a = R.CIS_STATUS then some (over_ (s.reg a) [(8, 3, s.cistern.state)])
  else if a = R.CIS_OCC then some (fields [(0, 27, s.cistern.cells.length)])
  else if a = R.CIS_SERIAL then some (fields [(0, 32, s.cistern.serial)])
  else if a = R.CIS_QUAR then
    some (fields [(16, 11, kcount (fun x => x.state = .reinit) s.cistern.regions), (0, 11, kcount (fun x => x.state = .quarantined) s.cistern.regions)])
  else if a = R.SLU_STATUS then some (over_ (s.reg a) [(20, 1, b2n s.sluice.hardOn), (8, 5, s.sluice.g), (0, 7, s.sluice.p)])
  else match unitAt (R.CIS_KEYID_k 0) 4 64 a with
    | some k =>
      let x := kget {} s.cistern.keyIds k
      some (fields [(30, 2, x.state.code), (27, 3, x.owner), (0, 27, keyCells s.cistern k)])
    | none => match schedEntry a with
      | some (t, i) => match poolWord s t i (a % 16 / 4), t with
        | some w, _ => some w
        | none, .sub => if a % 16 = 12 then some (configRead s a &&& ~~~ F.SUB_u_3_FILL.mask) else none
        | none, _ => none
      | none => none

def viewTrunk (s : State) (a : Nat) : Option Word :=
  match casAt a with
  | none => none
  | some (t, o) =>
    let x := s.trunk t
    if o = 0x28 then
      some (over_ (s.reg a) [(11, 1, b2n (decide (x.nextEpoch ≠ 0))), (10, 1, b2n (decide (x.mapPend ≠ 0))), (9, 1, x.txMap), (8, 1, x.rxMap), (5, 1, b2n x.deskewed),
        (4, 1, b2n x.mfSync), (0, 3, x.fa)])
    else if o = 0x30 then some (fields [(0, 32, x.txEpoch)])
    else if o = 0x34 then some (fields [(0, 32, x.rxEpoch)])
    else if o = 0x38 ∨ o = 0x3C then some (half (o = 0x3C) x.txFc)
    else if o = 0x40 ∨ o = 0x44 then some (half (o = 0x44) x.rxFc)
    else if o = 0x78 ∨ o = 0x7C then some (half (o = 0x7C) x.feEf)
    else if 0x88 ≤ o ∧ o ≤ 0x9C then some (if x.frozen then s.reg a else (loadPm s t (s.fld (R.CAS_PM_SEL t) F.CAS_PM_SEL_BIN)).reg a)
    else none

/-! ### Time, keys, public-key engine, tamper and pair (R363, R390, R410, R425, R451, R452) -/

/-- A mask of numbers below `n`. -/
def maskOf (n : Nat) (p : Nat → Bool) : Nat := ((List.range n).map (fun i => if p i then 2 ^ i else 0)).sum

/-- TRAIN of AQD_STATUS (R451). -/
def Train.code : Train → Nat
  | .down => 0 | .clock => 1 | .deskew => 2 | .config => 3 | .auth => 4 | .up => 5 | .deep => 6 | .failed => 7

/-- IN_FORCE (R425): the response in force; ALERT while only its signal stands. -/
def inForceShown (s : State) : Nat := if 3 ≤ s.tmp.inForce then s.tmp.inForce else if s.tmp.alert then 2 else 0

def viewKeys (s : State) (a : Nat) : Option Word :=
  if a = R.KST_CTR_LO then some (half false s.well.w)
  else if a = R.KST_CTR_HI then some (fields [(31, 1, b2n s.fuses.exhausted), (0, 8, s.epoch)])
  else if a = R.KST_OCC then some (fields [(0, 12, s.owner.length)])
  else if a = R.PKE_OCC then
    some (fields [(24, 8, s.pke.run.getD 0), (23, 1, b2n s.pke.run.isSome), (16, 4, kcount PkeJob.suspended s.pke.jobs), (0, 9, kcount (fun (j : PkeJob) => j.ended.isNone) s.pke.jobs)])
  else if a = R.PKE_CURVE then
    some (fields [(16, 16, maskOf 16 (fun i => kget [] s.well.curves i ≠ [])), (0, 16, maskOf 16 (fun i => kget {} s.pke.curves i ≠ {}))])
  else if a = R.PKE_DONE then some (fields [(0, 32, s.pke.done)])
  else match cmpAt a with
    | some (k, 0) => some (over_ (configRead s a) [(16, 3, cmpFunc s k)])
    | _ => none

def viewTamper (s : State) (a : Nat) : Option Word :=
  if a = R.TMP_FLAGS then some (fields [(0, 32, tmpFlags s)])
  else if a = R.TMP_RAW then some (fields [(0, 24, s.tmp.raw)])
  else if a = R.TMP_STATUS then
    some (over_ (s.reg a) [(12, 1, b2n (s.tmp.window = 2)), (11, 1, b2n (s.tmp.window = 1)), (10, 1, b2n s.tmp.alert), (7, 3, inForceShown s),
      (4, 3, s.tmp.pendingLvl), (0, 3, s.tmp.max)])
  else if a = R.TMP_WINDOW then
    some (over_ (s.reg a) [(16, 16, if s.tmp.window = 0 then 0 else Config.freeNat s.freeCtr % (s.tmp.windowSecs + 1))])
  else if a = R.TMP_LIMITS then
    some (fields [(24, 8, windowMax s / 60), (16, 8, beAt s.policy 34 1), (8, 8, beAt s.policy 33 1), (0, 8, beAt s.policy 32 1)])
  else if a = R.TMP_CELL then some (fields [(16, 16, s.tmp.cellB), (0, 16, s.tmp.cellA)])
  else if a = R.TMP_LOG_COUNT then some (fields [(0, 32, s.tmp.logCount)])
  else match unitAt (R.TMP_RESP_s 0) 4 32 a with
    | some i => some (fields [(0, 3, responseOf s i)])
    | none => match unitAt (R.TMP_LOG_n_w 0 0) 4 256 a with
      | some i => some (bytesWord (slice (s.tmp.log.getD (i / 4) []) (4 * (i % 4)) 4))
      | none => none

def viewPair (s : State) (a : Nat) : Option Word :=
  if a = R.AQD_STATUS then some (fields [(12, 1, b2n s.pair.rxSleep), (11, 1, b2n s.pair.txSleep), (8, 3, s.pair.train.code), (0, 8, s.pair.lanes)])
  else if a = R.AQD_LAT then some (fields [(0, 16, s.pair.rtt)])
  else if a = R.PAI_STATUS then
    some (fields [(16, 16, s.pair.negWait), (8, 8, s.pair.lastCause), (4, 3, s.pair.partner.code), (0, 2, s.pair.role.code)])
  else if a = R.PAI_TAKE then some (fields [(0, 32, s.pair.takeGen)])
  else if a = R.PAI_DIAG then some (fields [(0, 8, healthBits s)])
  else none

/-! ### Host interface and counters (R473, R474, R485, R486, R488) -/

/-- STATE of HIF_SLSTAT_s (R473). -/
def SliceState.code : SliceState → Nat
  | .unbound => 0 | .active => 1 | .fenced => 2 | .quiesced => 3

/-- The native counter at offset `o` of the counter page of slice `k` (R486). -/
def pageCounter (k o : Nat) : Option Nat :=
  if o < 0x80 then some ((Ctr.slice k 0).index + o / 8)
  else if 0x1000 ≤ o ∧ o < 0x2000 then some ((Ctr.txsa (12288 + 64 * k) 0).index + (o - 0x1000) / 8)
  else if 0x2000 ≤ o ∧ o < 0x3000 then some ((Ctr.rxsa (12288 + 64 * k) 0).index + (o - 0x2000) / 8)
  else none

/-- The two-word values whose low word latches the high one: the value at a low word's address (R485, R486, R488). -/
def lowValue (s : State) (a : Nat) : Option Nat :=
  if a = R.CNT_RD_LO then some (shownCounter s (s.fld R.CNT_RD_IDX F.CNT_RD_IDX_IDX))
  else match unitAt (R.LEG_i_LO 0) 8 256 a with
    | some i => some (if i < 248 then shownLegacy s i else 0)
    | none =>
      if 0xC01000 ≤ a ∧ a < 0xC01200 ∧ a % 8 = 0 then
        let w := (s.snap.frozen.map Latch.windows).getD s.regs
        some ((kget 0 w a).toNat + (kget 0 w (a + 4)).toNat * 2 ^ 32)
      else if 0x10000000 ≤ a ∧ 0x100000 ≤ (a - 0x10000000) % 0x200000 ∧ a % 8 = 0 then
        let k := (a - 0x10000000) / 0x200000
        if s.flag (R.HIF_SLICE_s_0 k) F.HIF_SLICE_s_0_CNT_READ then (pageCounter k ((a - 0x10000000) % 0x200000 - 0x100000)).map (shownCounter s) else none
      else none

def viewHost (s : State) (a : Nat) : Option Word :=
  let stat (k : Nat) : Word := fields [(28, 4, (s.slice k).state.code), (0, 20, (s.slice k).pasid)]
  match unitAt (R.HIF_SLSTAT_s 0) 4 64 a with
  | some k => some (stat k)
  | none => match unitAt (R.HIF_SLFLIGHT_s 0) 4 64 a with
    | some k => some (fields [(0, 32, inFlight s k)])
    | none =>
      if 0x10000000 ≤ a then
        let k := (a - 0x10000000) / 0x200000
        let o := (a - 0x10000000) % 0x200000
        if o = 0 then some (fields [(28, 4, (s.slice k).state.code), (0, 6, k)])
        else if o = 8 then some (fields [(0, 32, inFlight s k)])
        else if 0x100000 ≤ o ∧ a % 8 = 4 then some (if s.flag (R.HIF_SLICE_s_0 k) F.HIF_SLICE_s_0_CNT_READ then kget 0 s.snap.highs a else 0)
        else none
      else none

def viewCounters (s : State) (a : Nat) : Option Word :=
  if a = R.CNT_STATUS then some (over_ (s.reg a) [(31, 1, b2n s.snap.pending.isSome), (30, 1, b2n s.snap.frozen.isSome), (8, 16, s.snap.seq)])
  else if a = R.CNT_RD_IDX then some (over_ (s.reg a) [(31, 1, b2n (shownWrap s (s.fld a F.CNT_RD_IDX_IDX)))])
  else match lowValue s a with
    | some v => some (half false v)
    | none =>
      if a = R.CNT_RD_HI ∨ (0xC01000 ≤ a ∧ a < 0xC01200) then some (kget 0 s.snap.highs a)
      else match unitAt (R.LEG_i_HI 0) 8 256 a with
        | some i => some (fields [(31, 1, b2n (decide (i < 248) && shownLegacyWrap s i)), (0, 16, (kget 0 s.snap.highs a).toNat)])
        | none => none

/-! ### Reads -/

/-- The value of a register: that of the unit behind it, or what the register holds (R7). Reserved addresses read 0 (R6). -/
def view (s : State) (a : Nat) : Word :=
  match [viewGlb, viewStart, viewPorts, viewPath, viewStore, viewTrunk, viewKeys, viewTamper, viewPair, viewHost, viewCounters].findSome? (fun f => f s a) with
  | some w => w
  | none => if isShadowed a then configRead s a else s.reg a

/-- What a read of offset `off` of a function's BAR0 returns (R5, R37, R490, R491). -/
def State.read (s : State) (fn : Fn) (off : Nat) : Word :=
  match busAddr fn off with
  | none => 0
  | some a => if !s.reachable || !hasBar s fn || blockOf a = .hole || !s.serves (blockOf a) then 0 else view s a

/-- What a read does: it clears RC fields, latches the high word of a value, a base into its snapshot registers, and
takes a captured value note of (R7, R357, R361, R488). -/
def State.afterRead (s : State) (fn : Fn) (off : Nat) : State :=
  match busAddr fn off with
  | none => s
  | some a =>
    if !s.reachable ∨ !hasBar s fn then s
    else if blockOf a = .hole then s.raiseErr F.GLB_ERR_HOLE a
    else if !s.serves (blockOf a) then s.raiseErr F.GLB_ERR_STATE a
    else match lowValue s a with
      | some v => latchHigh s (a + 4) v
      | none =>
        let s := if rcMask a = 0 then s else s.setReg a (s.reg a &&& ~~~ rcMask a)
        match cmpAt a with
        | some (k, o) => if o = 4 ∨ o = 8 ∨ o = 0xC then { s with captured := kset false s.captured k false } else s
        | none => s

end Sys2Proof.Machine
end

