-- ==== Sys2Proof/Safety.lean ====
section
/-! DEFINITION. The terms that claims about runs use. -/

namespace Sys2Proof.Machine

/-- Command `c` completes in state `s` with the next state `t`. -/
def Completes (c : Instr) (s t : State) : Prop := exec c s = .next t

/-- One step of the block. -/
def Steps (s t : State) : Prop := step s = .next t

/-- `t` can be reached from `s` by steps. -/
inductive Reaches : State → State → Prop where
  | here (s : State) : Reaches s s
  | more {s t u : State} : Steps s t → Reaches t u → Reaches s u

/-- The register map is in its canonical form: addresses strictly rising, no entry equal to the register's reset value. -/
def RegsWf (s : State) : Prop := kwf resetVal s.regs = true

end Sys2Proof.Machine
end

