-- ==== Sys2Proof/Certificates/Slice0/Obligations.lean ====
section
/-! DEFINITION. The statements about the block. Each is a proposition about every state and every operand that its hypotheses name; the
rules of the spec that it rests on stand at the end of its text. A statement about a command says which state `exec` answers
(`Completes c s t`), so that what the state does not name stays as it is. -/

open Sys2Proof Sys2Proof.Machine

/-! ### Power, resets and the MC -/

/-- What a reset leaves of a state: the Well with its registers, the fuses, the flash and the two logs stay; keys, associations and every
other register are as at reset. -/
def KeptByReset (s t : State) : Prop :=
  t.well = s.well ∧ t.fuses = s.fuses ∧ t.flashA = s.flashA ∧ t.flashB = s.flashB ∧ t.keyLog = s.keyLog ∧ t.journal = s.journal ∧
  t.owner = [] ∧ t.txAssocs = [] ∧ t.rxAssocs = [] ∧ t.frames = [] ∧ t.ports = [] ∧
  ∀ a, a ∉ wellRegs → t.reg a = resetVal a

/-- MAIN_POWER_VALID takes a device without power to cold reset and changes nothing else. MAIN_POWER_LOST takes a powered device to Well-only,
and COLD_RST_N_ASSERT puts it in cold reset; both keep the registers of the Well and what a reset keeps: the Well, the fuses, the flash and
the two logs, while keys, associations, frames and every other register are as at reset. COLD_RESET_RELEASE of a powered device in cold
reset, and WARM_RESET of a running one, begin Start at step 1 where the Well is good, no tamper response is pending and no halt is held; a
warm reset keeps what a reset keeps. A reset on the cycle of the 60 s mark starts from the state in which the start has been counted as
successful (R50). That step 1 begins at the release is the model's choice (log entry 52). (R38, R50, R52, R497, R516) -/
def Obligations.PowerAndResets : Prop :=
  (∀ s, s.dev.power = false → Completes .mainPowerValid s { s with dev := { s.dev with power := true, coldReset := true } }) ∧
  (∀ s, s.dev.power = true → ∃ t, Completes .mainPowerLost s t ∧ t.dev.state = .wellOnly ∧ t.dev.power = false ∧
    KeptByReset s t ∧ ∀ a ∈ wellRegs, t.reg a = s.reg a) ∧
  (∀ s mark, s.dev.power = true → ∃ t, Completes (.coldRstNAssert mark) s t ∧ t.dev.coldReset = true ∧ t.dev.power = true ∧
    KeptByReset s t ∧ ∀ a ∈ wellRegs, t.reg a = (lateMark s mark).reg a) ∧
  (∀ s fuses, s.dev.power = true → s.dev.coldReset = true → s.well.ok = true → s.tmp.pendingLvl = 0 → s.tmp.haltHold = false →
    ∃ t, Completes (.coldResetRelease fuses) s t ∧ t.dev.state = .start ∧ t.dev.step = 1 ∧ t.dev.coldReset = false ∧
      t.well = s.well ∧ t.fuses = s.fuses) ∧
  (∀ s fuses mark, running s = true → s.well.ok = true → (keptTamper s.tmp).pendingLvl = 0 → s.tmp.haltHold = false →
    ∃ t, Completes (.warmReset fuses mark) s t ∧ t.dev.state = .start ∧ t.dev.step = 1 ∧ KeptByReset s t) ∧
  (∀ s fuses, running s = true → s.dev.timing = true → s.dev.state = .active ∨ s.dev.state = .standby →
    Completes (.warmReset fuses true) s (warmReset (countSuccess s) fuses) ∧ Completes (.warmReset fuses false) s (warmReset s fuses))

/-- GLB_WARM_RESET with the key is a warm reset, with START_CTRL.PLANNED set one that undoes the failure counts of this start, and on the cycle
of the 60 s mark it starts from the state in which this start has been counted as successful; with another key it and GLB_MC_RESTART are
only recorded in GLB_ERR as BAD_KEY. MAINT_EXIT in Maintenance is a warm reset that undoes the counts, and in any other state that serves
START it has no effect. (R48, R50, R55, R493) -/
def Obligations.RegisterResets : Prop :=
  (∀ s key fuses mark, s.reachable = true → key % 65536 = 0xA55A → (lateMark s mark).flag R.START_CTRL F.START_CTRL_PLANNED = false →
    Completes (.glbWarmReset key fuses mark) s (warmReset (lateMark s mark) fuses)) ∧
  (∀ s key fuses mark, s.reachable = true → key % 65536 = 0xA55A → (lateMark s mark).flag R.START_CTRL F.START_CTRL_PLANNED = true →
    Completes (.glbWarmReset key fuses mark) s (warmReset (undoStart (lateMark s mark)) fuses)) ∧
  (∀ s key fuses mark, s.reachable = true → key % 65536 ≠ 0xA55A →
    Completes (.glbWarmReset key fuses mark) s (s.raiseErr F.GLB_ERR_BAD_KEY R.GLB_RESET) ∧
    Completes (.glbMcRestart key) s (s.raiseErr F.GLB_ERR_BAD_KEY R.GLB_RESET)) ∧
  (∀ s fuses, s.reachable = true → s.dev.state = .maintenance → Completes (.maintExit fuses) s (warmReset (undoStart s) fuses)) ∧
  (∀ s fuses, s.reachable = true → s.serves .start = true → s.dev.state ≠ .maintenance → Completes (.maintExit fuses) s s)

/-- With no command of the MC under way, GLB_MC_RESTART with the key and the watchdog's expiry leave the datapath as it is and only count a
restart and take the MC down. MC_WATCHDOG_RESTART arms the watchdog. A restart that completes with no held result brings the MC up again. A
function-level reset with no transaction open clears the MSI-X table and the jobs of the public-key engine, and changes nothing else (log
entry 50). (R31, R52, R493) -/
def Obligations.McAndFunctionReset : Prop :=
  (∀ s key, s.reachable = true → key % 65536 = 0xA55A → s.dev.mcRestarting = false → s.txn.state = .idle → s.flag R.KST_STATUS F.KST_STATUS_BUSY = false →
    s.snap.image = none → Completes (.glbMcRestart key) s { s with dev := { s.dev with
      mcUp := false, mcRestarting := true, watchdog := false, mcRestarts := min (s.dev.mcRestarts + 1) 65535 } }) ∧
  (∀ s, running s = true → s.dev.watchdog = true → s.txn.state = .idle → s.flag R.KST_STATUS F.KST_STATUS_BUSY = false →
    s.snap.image = none → Completes .mcWatchdogExpiry s { s with dev := { s.dev with
      mcUp := false, mcRestarting := true, watchdog := false, mcRestarts := min (s.dev.mcRestarts + 1) 65535 } }) ∧
  (∀ s, running s = true → s.dev.mcRestarting = false → Completes .mcWatchdogRestart s { s with dev := { s.dev with watchdog := true } }) ∧
  (∀ s, s.dev.mcRestarting = true → (∀ e ∈ s.pke.jobs, e.2.ended = none) →
    Completes .mcRestartComplete s { s with dev := { s.dev with mcUp := true, mcRestarting := false, watchdog := true } }) ∧
  (∀ s, running s = true → s.txn.state ≠ .open → ∃ t, Completes .functionLevelReset s t ∧ t.pke.jobs = [] ∧ t.pke.run = none ∧
    (∀ a, t.reg a = if 0xA08000 ≤ a ∧ a < 0xA09008 then resetVal a else s.reg a) ∧ t = { s with regs := t.regs, pke := t.pke })

/-! ### Start -/

/-- At step 1, with the flash answering, fewer than three failed starts in a row and nothing tried, a readable slot A beside an unreadable slot
B is chosen: step 2, FAIL_A and FAIL_CONSEC go up by one, FAIL_A to 3 at most, and LAST_SLOT is 0. With neither slot readable or with no
answer from the flash the start ends in Minimal with reason 0x01, and after three failed starts in a row with 0x03. At step 2 the chosen
slot's image runs where its header and its signature are good and its counter is not below S; otherwise the next slot is taken, and one
below S is noted as rolled back. What makes a slot readable is the model's reading (log entries 36 and 37). (R46, R47) -/
def Obligations.SlotSelectionAndCheck : Prop :=
  (∀ s, running s = true → s.dev.state = .start → s.dev.step = 1 → s.dev.tried = [] → failConsec s < 3 →
    slotReadable s.flashA = true → slotReadable s.flashB = false → ∃ t, Completes (.slotSelection true) s t ∧
      t = { s with regs := t.regs, dev := t.dev } ∧ t.dev.state = .start ∧ t.dev.step = 2 ∧ t.dev.tried = [1] ∧ t.dev.mcUp = true ∧
      failCount t 1 = min (failCount s 1 + 1) 3 ∧ failConsec t = failConsec s + 1 ∧ failCount t 2 = failCount s 2 ∧
      t.fld R.START_FAILS F.START_FAILS_LAST_SLOT = 0 ∧ ∀ a, a ≠ R.START_FAILS → t.reg a = s.reg a) ∧
  (∀ s, running s = true → s.dev.state = .start → s.dev.step = 1 → s.dev.tried = [] → failConsec s < 3 →
    slotReadable s.flashA = false → slotReadable s.flashB = false → Completes (.slotSelection true) s
      (enterMinimal { s with dev := { s.dev with step := 2, mcUp := true } } 0x01 0)) ∧
  (∀ s, running s = true → s.dev.state = .start → s.dev.step = 1 → failConsec s < 3 → Completes (.slotSelection false) s
    (enterMinimal { s with dev := { s.dev with step := 2, mcUp := true } } 0x01 0)) ∧
  (∀ s flash, running s = true → s.dev.state = .start → s.dev.step = 1 → failConsec s = 3 → Completes (.slotSelection flash) s
    (enterMinimal { s with dev := { s.dev with step := 2, mcUp := true } } 0x03 0)) ∧
  (∀ s n, s.dev.state = .start → s.dev.step = 2 → s.dev.slot = 0 → s.dev.tried.getLast? = some n → ∃ u,
    u = { s with dev := { s.dev with step := 3 } } ∧ Completes .imageSignatureCheck s
      (if headerOk u (s.flash n) = true ∧ imageSigned (s.flash n) = true then
        if imageCtr (s.flash n) < u.counterS then nextSlot { u with dev := { u.dev with rolledBack := u.dev.rolledBack ++ [n] } }
        else runImage u n
      else nextSlot u))

/-- CALIBRATION_LOAD takes the user offsets of the image where every calibration record is well formed, and ends the start in Minimal with
reason 0x04 otherwise. KEY_UNWRAP of a device with no record of either log and none expected takes no key and derives the agreement keys;
with the KEYS_LOST mark and a key log left, the start ends with reason 0x05. SELF_TESTS that pass put rills 0 to 3 in service outbound, 4 to
7 inbound, rill 8 as the spare, and have the cistern initialise; a failed test ends the start with reason 0x07 and its number, a failed
stack with 0x08. (R43, R45, R78, R199, R219) -/
def Obligations.CalibrationKeysAndTests : Prop :=
  (∀ s, s.dev.state = .start → s.dev.step = 3 → s.dev.slot ≠ 0 → ∃ l,
    l = ((runningRecords s).filter (fun (r : Rec) => r.typ = 5)).map Rec.payload ∧ Completes .calibrationLoad s
      (if l.all calRecordOk = true then { s with dev := { s.dev with step := 4 }, calUser := l.foldl addCal [] }
       else enterMinimal { s with dev := { s.dev with step := 4 } } 0x04 0)) ∧
  (∀ s, s.dev.state = .start → s.dev.step = 4 → s.dev.slot ≠ 0 → s.keyLog.copyA = [] → s.keyLog.copyB = [] → s.journal.half0 = [] →
    s.journal.half1 = [] → s.well.kseq = 0 → s.well.jseq = 0 → ∃ t, Completes .keyUnwrap s t ∧ t.dev.step = 5 ∧ t.owner = [] ∧
      t.well.keysLost = false ∧ t.ident.agree = true ∧ t.regs = s.regs) ∧
  (∀ s, s.dev.state = .start → s.dev.step = 4 → s.dev.slot ≠ 0 → s.well.keysLost = true → s.keyLog.copyA ≠ [] →
    Completes .keyUnwrap s (enterMinimal { s with dev := { s.dev with step := 5 } } 0x05 0)) ∧
  (∀ s, s.dev.state = .start → s.dev.step = 5 → s.dev.slot ≠ 0 → ∃ u, Completes (.selfTests none none) s (initCistern u) ∧
    u = { s with dev := { s.dev with step := 6 }, rills := u.rills } ∧ ∀ r < 9, (u.rill r).katOk = some true ∧
      (u.rill r).state = (if r = 8 then .spare else .inService) ∧ (u.rill r).inbound = decide (4 ≤ r ∧ r < 8)) ∧
  (∀ s n hbm, s.dev.state = .start → s.dev.step = 5 → s.dev.slot ≠ 0 → Completes (.selfTests (some n) hbm) s
    (enterMinimal { s with dev := { s.dev with step := 6 } } 0x07 (n % 256))) ∧
  (∀ s k, s.dev.state = .start → s.dev.step = 5 → s.dev.slot ≠ 0 → Completes (.selfTests none (some k)) s
    (enterMinimal { s with dev := { s.dev with step := 6 } } 0x08 (k % 256)))

/-- LANE_TRAINING_START sets the personalities that the command gives (log entry 35) and applies the image's records. PORT_BRING_UP waits while
an assigned lane still trains; then it notes the planned ports, holds those without UP_AT_START, gives the others their turns, and ends the
start of a device without a pair as Active; a member of a pair waits for the link, and NEG_WAIT_TIMEOUT ends its start as Active.
SUCCESS_TIMER_EXPIRY clears FAIL_CONSEC and the count of the slot that runs, and changes no register but START_FAILS and the start log.
(R38, R43, R47, R72, R93, R429) -/
def Obligations.EndOfStart : Prop :=
  (∀ s pers, s.dev.state = .start → s.dev.step = 6 → s.dev.slot ≠ 0 → ∃ u, u = { s with
    dev := { s.dev with step := 7 }
    personality := pers.foldl (fun (m : KMap Personality) (x : Nat × Personality) => kset .none m (x.1 % 16) x.2) [] } ∧
    Completes (.laneTrainingStart pers) s (tagRegions (applyRecords u (runningRecords u)))) ∧
  (∀ s, s.dev.step = 7 → lanesTrained s = false → Completes .portBringUp s s) ∧
  (∀ s, s.dev.state = .start → s.dev.step = 7 → s.dev.slot ≠ 0 → lanesTrained s = true → pairOn s = false →
    Completes .portBringUp s (finishStart (bringUp { s with dev := { s.dev with step := 8 } }) false)) ∧
  (∀ s, s.dev.state = .start → s.dev.step = 7 → s.dev.slot ≠ 0 → lanesTrained s = true → pairOn s = true → s.linkUp = false → ∃ u,
    u = bringUp { s with dev := { s.dev with step := 8 } } ∧ Completes .portBringUp s { u with dev := { u.dev with rolePending := true } }) ∧
  (∀ s, s.dev.state = .start → s.dev.rolePending = true → s.linkUp = false →
    Completes .negWaitTimeout s (finishStart s false)) ∧
  (∀ s, s.dev.timing = true → s.dev.state = .active ∨ s.dev.state = .standby → s.dev.success = false → s.dev.slot = 1 ∨ s.dev.slot = 2 →
    ∃ t, Completes .successTimerExpiry s t ∧ t.dev.success = true ∧ t.dev.timing = false ∧ failConsec t = 0 ∧ failCount t s.dev.slot = 0 ∧
      t = { s with regs := t.regs, dev := t.dev } ∧
      ∀ a, a ≠ R.START_FAILS → (∀ i < 16, a ≠ R.START_LOG_n i) → t.reg a = s.reg a)

/-- FAIL_CLEAR in a state that serves START, other than Start, clears the three counts, answers OK and changes nothing else. MAINT_REQ of an
Active or Standby device with a slice in flight answers QUIESCE_REQUIRED, and with none enters Maintenance with OK. IMG_WRITE_GO of a
writable slot with an aligned source erases that slot alone and begins phase 1; the phases go on as their reads and checks give, a
verification that fails ends with INTEGRITY, and the last phase programs the header and ends the write. (R38, R49, R69, R70, R71) -/
def Obligations.StartControlAndFlash : Prop :=
  (∀ s, s.reachable = true → s.serves .start = true → s.dev.state ≠ .start → ∃ t, Completes .failClear s t ∧
    failCount t 1 = 0 ∧ failCount t 2 = 0 ∧ failConsec t = 0 ∧
    t.fld R.START_STATUS F.START_STATUS_CMD_STATUS = Status.ok.code ∧ t = { s with regs := t.regs } ∧
    ∀ a, a ≠ R.START_FAILS → a ≠ R.START_STATUS → t.reg a = s.reg a) ∧
  (∀ s k, s.reachable = true → s.dev.state = .active ∨ s.dev.state = .standby → k < 64 → inFlight s k ≠ 0 →
    Completes .maintReq s (startStatus s .quiesceRequired)) ∧
  (∀ s, s.reachable = true → s.dev.state = .active ∨ s.dev.state = .standby → (∀ k < 64, inFlight s k = 0) →
    Completes .maintReq s (startStatus (enterMaintenance s) .ok)) ∧
  (∀ s slotB, s.reachable = true → s.serves .start = true → imgPhase s = 0 → slotWritable s (if slotB then 2 else 1) = true →
    s.reg64 R.IMG_SRC_LO R.IMG_SRC_HI % 8 = 0 → ∃ t, Completes (.imgWriteGo slotB) s t ∧ t.flash (if slotB then 2 else 1) = [] ∧
      t.flash (if slotB then 1 else 2) = s.flash (if slotB then 1 else 2) ∧ imgPhase t = 1 ∧
      t = { s with regs := t.regs, img := { slot := if slotB then 2 else 1 }, flashA := t.flashA, flashB := t.flashB }) ∧
  (∀ s b readBack, imgPhase s = 1 → (s.reg R.IMG_LEN).toNat = imageLen (slice b 0 256) →
    ∃ u, u = s.emit (s.dmaRead .pf (s.reg64 R.IMG_SRC_LO R.IMG_SRC_HI) 256) ∧
      Completes (.imgWritePhaseComplete (.data b) readBack) s (setPhase { u with img := { u.img with header := slice b 0 256 } } 2)) ∧
  (∀ s b readBack, imgPhase s = 2 → ∃ t, Completes (.imgWritePhaseComplete (.data b) readBack) s t ∧ imgPhase t = 3 ∧
    t.flash s.img.slot = List.replicate 256 0xFF ++ slice b 0 (imageLen s.img.header - 256)) ∧
  (∀ s read, imgPhase s = 3 → Completes (.imgWritePhaseComplete read false) s (imgEnd s .integrity)) ∧
  (∀ s read readBack, imgPhase s = 4 → ∃ t, Completes (.imgWritePhaseComplete read readBack) s t ∧
    t.flash s.img.slot = s.img.header ++ s.img.body ∧ imgPhase t = 0)

/-! ### Register accesses and transactions -/

/-- While the register path is reachable, and for a virtual function while slices are enabled: a full aligned write of a served register has the
register's effect; one with partial byte enables, or not aligned, is discarded and only sets GLB_ERR.PARTIAL; a full write or a read in the
hole only sets GLB_ERR.HOLE, one of a block that the device state does not serve only sets GLB_ERR.STATE, and such a read returns 0; a
partial write there sets both flags. GLB_ERR_ADDR takes the offset of the access only where GLB_ERR read 0 (for a virtual function the
offset in its own BAR0: log entry 20). (R5, R37, R490, R492) -/
def Obligations.RegisterAccesses : Prop :=
  (∀ s fn off v a, s.reachable = true → hasBar s fn = true → busAddr fn off = some a → off % 4 = 0 → blockOf a ≠ .hole →
    s.serves (blockOf a) = true → Completes (.registerWrite fn off v true) s (fullWrite a v s)) ∧
  (∀ s fn off v full a, s.reachable = true → hasBar s fn = true → busAddr fn off = some a → full = false ∨ off % 4 ≠ 0 → blockOf a ≠ .hole →
    s.serves (blockOf a) = true → Completes (.registerWrite fn off v full) s (s.raiseErr F.GLB_ERR_PARTIAL a)) ∧
  (∀ s fn off v a, s.reachable = true → hasBar s fn = true → busAddr fn off = some a → off % 4 = 0 →
    (blockOf a = .hole → Completes (.registerWrite fn off v true) s (s.raiseErr F.GLB_ERR_HOLE a)) ∧
    (blockOf a ≠ .hole → s.serves (blockOf a) = false → Completes (.registerWrite fn off v true) s (s.raiseErr F.GLB_ERR_STATE a))) ∧
  (∀ s fn off v full a, s.reachable = true → hasBar s fn = true → busAddr fn off = some a → full = false ∨ off % 4 ≠ 0 →
    (blockOf a = .hole → Completes (.registerWrite fn off v full) s ((s.raiseErr F.GLB_ERR_PARTIAL a).raiseErr F.GLB_ERR_HOLE a)) ∧
    (blockOf a ≠ .hole → s.serves (blockOf a) = false →
      Completes (.registerWrite fn off v full) s ((s.raiseErr F.GLB_ERR_PARTIAL a).raiseErr F.GLB_ERR_STATE a))) ∧
  (∀ s off, s.reachable = true → off < 0x4000000 → blockOf (off / 4 * 4) = .hole →
    Completes (.holeAccess off true) s (s.raiseErr F.GLB_ERR_HOLE (off / 4 * 4)) ∧
    Completes (.holeAccess off false) s ((s.raiseErr F.GLB_ERR_HOLE (off / 4 * 4)).emit (.readData .pf (off / 4 * 4) 0))) ∧
  (∀ s fn off a, s.reachable = true → hasBar s fn = true → busAddr fn off = some a → blockOf a ≠ .hole → s.serves (blockOf a) = false →
    Completes (.unservedBlockAccess fn off true) s (s.raiseErr F.GLB_ERR_STATE a) ∧
    Completes (.unservedBlockAccess fn off false) s ((s.raiseErr F.GLB_ERR_STATE a).emit (.readData fn a 0))) ∧
  (∀ (s : State) f a, f = F.GLB_ERR_PARTIAL ∨ f = F.GLB_ERR_HOLE ∨ f = F.GLB_ERR_STATE ∨ f = F.GLB_ERR_BAD_KEY → ∃ t, t = s.raiseErr f a ∧
    t = { s with regs := t.regs } ∧ t.flag R.GLB_ERR f = true ∧
    t.fld R.GLB_ERR_ADDR F.GLB_ERR_ADDR_OFFSET =
      (if s.reg R.GLB_ERR = 0 then barOffset a % 2 ^ F.GLB_ERR_ADDR_OFFSET.len else s.fld R.GLB_ERR_ADDR F.GLB_ERR_ADDR_OFFSET) ∧
    ∀ b, b ≠ R.GLB_ERR → b ≠ R.GLB_ERR_ADDR → t.reg b = s.reg b)

/-- TXN_BEGIN while idle, with no MC restart running, opens a transaction with the time-out of TXN_TIMEOUT and answers OK; it answers BUSY while
one is open or under way. TXN_COMMIT of an open one sends it to validation with OK; TXN_ROLLBACK of an open one ends it ABORTED and answers
OK; either answers INVALID while idle. The time-out ends an open one EXPIRED, and on the same cycle as a command it wins. Each changes
nothing else. (R82) -/
def Obligations.TransactionCommands : Prop :=
  (∀ s, s.reachable = true → s.serves .txn = true → s.dev.mcRestarting = false → s.txn.state = .idle → Completes .txnBegin s
    (txnCmd { s with txn := { state := .open, timer := some (s.fld R.TXN_TIMEOUT F.TXN_TIMEOUT_MS) } } .ok)) ∧
  (∀ s, s.reachable = true → s.serves .txn = true → s.txn.state ≠ .idle → Completes .txnBegin s (txnCmd s .busy)) ∧
  (∀ s, s.reachable = true → s.serves .txn = true → s.dev.mcRestarting = false → s.txn.state = .open → Completes .txnCommit s
    (txnCmd { s with txn := { s.txn with state := .validating, timer := none } } .ok)) ∧
  (∀ s, s.reachable = true → s.serves .txn = true → s.dev.mcRestarting = false → s.txn.state = .idle →
    Completes .txnCommit s (txnCmd s .invalid) ∧ Completes .txnRollback s (txnCmd s .invalid)) ∧
  (∀ s, s.reachable = true → s.serves .txn = true → s.txn.state = .open → Completes .txnRollback s (txnCmd (txnEnd s .aborted) .ok)) ∧
  (∀ s, s.txn.state = .open → s.txn.timer.isSome = true → Completes (.txnTimeoutExpiry false) s (txnEnd s .expired) ∧
    Completes (.txnTimeoutExpiry true) s (txnCmd (txnEnd s .expired) .expired))

/-- Where the judgement of the whole change fails, validation ends the transaction with the judgement's status and nothing is applied. Where it
passes, no personality changes and an island is affected, A is set 8 us ahead on TB_0, every affected island has its part to apply, and
nothing else changes. An island that waits applies its part at A, and only the last one ends the transaction, OK, with TXN_SEQ one higher.
(R82, R83, R84) -/
def Obligations.TransactionApplies : Prop :=
  (∀ s pers, s.txn.state = .validating → judgeChange s (changeOf s) ≠ .pass → Completes (.txnValidationEnd pers) s
    (txnEnd (txnFault s (judgeChange s (changeOf s))) (judgeChange s (changeOf s)).status)) ∧
  (∀ s pers, s.txn.state = .validating → ∃ t, Completes (.txnValidationEnd pers) s t ∧
    ((pers = [] ∧ judgeChange s (changeOf s) = .pass ∧
        affected (stageWords s (stagedWords s (lay s (changeOf s)) (changeOf s))) (changeOf s) ≠ []) →
      t.txn.state = .applying ∧ t.txn.applyAt = (s.now 0).shift (8000 * 2 ^ 24) ∧ t = { s with txn := t.txn } ∧
      t.txn.waiting = affected (stageWords s (stagedWords s (lay s (changeOf s)) (changeOf s))) (changeOf s))) ∧
  (∀ s i, s.txn.state = .applying → i ∈ s.txn.waiting → ∃ t u, Completes (.txnApplyInstant i) s t ∧
    u = applyIsland (s.reach 0 s.txn.applyAt) i ∧ t = (if u.txn.waiting = [] then txnApplied u else u))

/-- With the MC serving, a BP_WRITE of an unknown parameter answers NOT_FOUND, one of a block at expert level DENIED (in this order: log entry
230), one outside a transaction opens an implicit one with that parameter alone, and one inside puts the value in the shadow and answers OK,
or FULL where it has no room; while the MC restarts or a change is judged or applied it answers BUSY. A BP_READ of a known parameter writes
BP_VAL and answers OK. A write of CAL_OFFSET of an unknown item answers NOT_FOUND (log entry 229); in an open transaction it goes to the
shadow with OK (log entry 78), in Maintenance it takes effect at once, elsewhere it answers DENIED. (R73, R75, R77, R80, R82) -/
def Obligations.ParametersAndCalibration : Prop :=
  (∀ s, s.reachable = true → s.serves (blockOf R.BP_CMD) = true → s.dev.mcRestarting = false → s.txn.state = .idle ∨ s.txn.state = .open →
    Completes .bpWrite s
      (if paramOf (bpId s) = none then bpEnd s .notFound
       else if expert (levelNow s) (paramBlock (bpId s)) = true then bpEnd s .denied
       else if s.txn.state = .idle then { s with txn := { state := .validating, implicit := true, params := [(bpId s, bpVal s)] } }
       else match shadowParam s (bpId s) (bpVal s) with
        | some k => bpEnd k .ok
        | none => bpEnd { s with txn := { s.txn with overflow := true } } .full)) ∧
  (∀ s, s.reachable = true → s.serves (blockOf R.BP_CMD) = true → s.dev.mcRestarting = true ∨ s.txn.state = .validating ∨ s.txn.state = .applying →
    Completes .bpWrite s (bpEnd s .busy)) ∧
  (∀ s, s.reachable = true → s.serves (blockOf R.BP_CMD) = true → (paramOf (bpId s)).isSome = true →
    Completes .bpRead s (bpEnd (s.setReg64 R.BP_VAL_LO R.BP_VAL_HI (if s.txn.state = .open then paramNow s (bpId s) else s.param (bpId s))) .ok)) ∧
  (∀ s v, s.reachable = true → s.serves (blockOf R.CAL_OFFSET) = true → s.txn.state = .idle ∨ s.txn.state = .open →
    Completes (.calOffsetWrite v) s
      (if calLimits (calItem s) = none then calStatus s .notFound
       else if s.txn.state = .open then calStatus (shadowPut s (calKey (calItem s)) (BitVec.ofNat 32 (v.toNat % 65536))) .ok
       else if s.dev.state = .maintenance then calStatus (applyCal s (calItem s, signed 16 (v.toNat % 65536))) .ok
       else calStatus s .denied))

/-! ### Reception, classification and tables -/

/-- At a port that is up and not waking: a good preamble with room in the crossing and in the port's partitions makes a new frame under the next
handle, with its time stamps, counted too where the port's time island is unlocked; a preamble error, a full crossing and a full forebay are
counted drops that make no frame (log entry 87). A waking port drops the frame, and a port that is not up takes nothing. At the end of a
frame the checks decide: a good frame is counted with its octets, and every failed one in its own counter; a tail that finds no free cell
truncates it. A frame of 64 octets or more, FCS included, with a right FCS is good up to MAX_FRAME, or a MAC Control frame, and oversize
above it; a shorter one is a runt, and one with an uncorrectable codeword fails as its FCS would. (R16, R98, R99, R104) -/
def Obligations.FrameReception : Prop :=
  (∀ s p header, portUp s p = true → (s.port p).sleep ≠ .waking → recordsWaiting s p < 32 →
    header.length < 64 ∨ cellsUsed s (ownerOf s p) < cellCapacity s (ownerOf s p) →
    ∃ u, u = (if portUnlocked s p = true then s.count (.port p 30) else s) ∧ Completes (.frameArrival p header true) s
      { u.setFrame u.nextFrame { ingress := p, bytes := header, ts := u.rxStamps p, unlocked := portUnlocked u p } with nextFrame := u.nextFrame + 1 }) ∧
  (∀ s p header ok, (s.port p).sleep = .waking → Completes (.frameArrival p header ok) s (wakeDrop s p)) ∧
  (∀ s p header ok, (s.port p).sleep ≠ .waking → portUp s p = false → Completes (.frameArrival p header ok) s s) ∧
  (∀ s p header, portUp s p = true → (s.port p).sleep ≠ .waking → Completes (.frameArrival p header false) s (s.count (.port p 5))) ∧
  (∀ s p header, portUp s p = true → (s.port p).sleep ≠ .waking → 32 ≤ recordsWaiting s p →
    Completes (.frameArrival p header true) s ((s.count (.port p 6)).setFld (aPORT_ERR p) F.PORT_ERR_OVERRUN 1)) ∧
  (∀ s p header, portUp s p = true → (s.port p).sleep ≠ .waking → recordsWaiting s p < 32 → 64 ≤ header.length →
    cellCapacity s (ownerOf s p) ≤ cellsUsed s (ownerOf s p) → Completes (.frameArrival p header true) s (s.count (.port p 11))) ∧
  (∀ s h tail cw re ar, s.frame h ≠ {} → (s.frame h).complete = false → (s.frame h).bad = false → (s.frame h).ingress < 32 → ∃ p b,
    p = (s.frame h).ingress ∧ b = (s.frame h).bytes ++ tail ∧ Completes (.frameEnd h tail cw re ar) s
      (match checkFrame s p b cw re (ar && tailFits s h b) with
        | .good => goodFrame (lateMalformed s h b) h b
        | .macControl => failFrame (s.count (.port p 7)) h
        | .runt => failFrame ((s.count (.port p 2)).setFld (aPORT_ERR p) F.PORT_ERR_RUNT 1) h
        | .oversize => failFrame (((s.count (.port p 4)).setFld (aPORT_ERR p) F.PORT_ERR_OVERSIZE 1).setFrame h
            { s.frame h with bytes := b.take (s.fld (aPORT_CFG p) F.PORT_CFG_MAX_FRAME + 1) }) h
        | .fcs => failFrame (((s.count (.port p 3)).setFld (aPORT_ERR p) F.PORT_ERR_FCS 1).setFrame h { s.frame h with bytes := b }) h
        | .stomped => failFrame ((((s.count (.port p 3)).count (.port p 8)).setFld (aPORT_ERR p) F.PORT_ERR_FCS 1).setFrame h
            { s.frame h with bytes := b }) h
        | .reassembly => failFrame ((s.count (.port p 9)).setFld (aPORT_ERR p) F.PORT_ERR_REASM 1) h
        | .truncated => failFrame (s.count (.port p 12)) h)) ∧
  (∀ s p b, 60 ≤ b.length → beAt b 12 2 ≠ 0x8808 →
    checkFrame s p (b ++ fcsOf b) true true true = (if b.length + 4 ≤ s.fld (aPORT_CFG p) F.PORT_CFG_MAX_FRAME then .good else .oversize)) ∧
  (∀ s p b, 60 ≤ b.length → b.length + 4 ≤ s.fld (aPORT_CFG p) F.PORT_CFG_MAX_FRAME → beAt b 12 2 = 0x8808 →
    checkFrame s p (b ++ fcsOf b) true true true = .macControl) ∧
  (∀ s p b cw, b.length < 64 → checkFrame s p b cw true true = .runt) ∧
  (∀ s p b, 64 ≤ b.length → b.length ≤ s.fld (aPORT_CFG p) F.PORT_CFG_MAX_FRAME → checkFrame s p b false true true = .fcs) ∧
  (∀ s p b cw re, checkFrame s p b cw re false = .truncated)

/-- A port's frame not yet classified, good so far, no MAC Control frame and with its header record ready, is marked classified and takes the
port's verdict, unless the crossing of 64 queue entries to the scheduler is full; a tributary's goes the way of its client port (log entry
93). A frame that is complete and left with no queue entry is gone; an unfinished frame of fewer than 64 bytes is not classified. A result
of DROP is counted and makes no queue entry; a DECRYPT on a valid association of the same port makes one for that association and a client
port, and on one that is not valid a counted drop. (R99, R131, R132, R134) -/
def Obligations.Classification : Prop :=
  (∀ s h ecc ecc2, s.frame h ≠ {} → (s.frame h).classified = false → (s.frame h).bad = false → (s.frame h).ingress < 32 →
    recordReady (s.frame h) = true → entriesWaiting s (instanceOf s (s.frame h).ingress) < 64 → beAt (s.frame h).bytes 12 2 ≠ 0x8808 →
    ∃ t, t = classifyPort (s.setFrame h { s.frame h with classified := true }) h ecc ecc2 ∧
      Completes (.headerRecordClassify h ecc ecc2) s (if (t.frame h).complete = true ∧ (t.frame h).copies = 0 then t.setFrame h {} else t)) ∧
  (∀ s h ecc ecc2, (s.frame h).classified = false → (s.frame h).bad = false → 32 < (s.frame h).ingress →
    recordReady (s.frame h) = true → entriesWaiting s (instanceOf s (s.frame h).ingress) < 64 →
    ∃ t, t = classifyTrib (s.setFrame h { s.frame h with classified := true }) h ∧
      Completes (.headerRecordClassify h ecc ecc2) s (if (t.frame h).complete = true ∧ (t.frame h).copies = 0 then t.setFrame h {} else t)) ∧
  (∀ s h ecc ecc2, (s.frame h).complete = false → (s.frame h).bytes.length < 64 → Completes (.headerRecordClassify h ecc ecc2) s s) ∧
  (∀ s g p h x r, r.action = 0 → placeResult g p h x s r = s.count (.cls g 3)) ∧
  (∀ s g p h x r, r.action = 3 → (s.assoc true r.assoc).valid = true → 16 + (s.assoc true r.assoc).record.port = p →
    ∃ j : Job, placeResult g p h x s r = s.addJob j ∧ j.frame = h ∧ j.action = 3 ∧ j.assoc = r.assoc ∧ j.egress < 16) ∧
  (∀ s g p h x r, r.action = 3 → (s.assoc true r.assoc).valid = false → placeResult g p h x s r = s.count (.cls g 4))

/-- A table command of page `g` started in state `s` with answer `a` (R149, R152): its answer waits for the command's completion, BUSY is
set, reads go on with the values from before it, and each replica keeps the old prefixes of the family that it changes. -/
def TableStarted (s : State) (g : Nat) (change : Option Nat) (a : TblAnswer) : State :=
  let t := match change with
    | some f => keepOld a.state f (s.lpm f)
    | none => a.state
  (t.setCls g { t.clsOf g with pending := some { status := a.status, index := a.index, data := a.data, lpmChange := change.isSome, before := [0, 4, 6].map (fun n => (n, occWord s g n)) } }).setFld
    (R.TBL_STATUS g) F.TBL_STATUS_BUSY 1

/-- On a page of the served classifier that is not BUSY, and for a command that changes an LPM table with none running on another page, each of
the seven operations acts on the table (log entry 98), sets BUSY and keeps its answer, while the replicas and the occupancy registers go on
with the values from before it; a READ or INSERT while BUSY changes nothing, and a change of an LPM table while another page's runs only
leaves STATUS BUSY. When the command is done BUSY is 0, STATUS and TBL_INDEX hold the answer, TBL_INDEX is as before where there is none,
and only registers and the classifier's own state change. (R149, R151, R152, R158) -/
def Obligations.TableCommands : Prop :=
  (∀ s g table, s.reachable = true → s.serves .cls = true → g < 4 → s.flag (R.TBL_STATUS g) F.TBL_STATUS_BUSY = false →
    Completes (.tblRead g table) s (TableStarted s g none (tblReadOp g table s)) ∧
    Completes (.tblSearch g table) s (TableStarted s g none (tblSearchOp g table s)) ∧
    Completes (.tblAge g table) s (TableStarted s g none (tblAgeOp g table s))) ∧
  (∀ s g table flt, s.reachable = true → s.serves .cls = true → g < 4 → s.flag (R.TBL_STATUS g) F.TBL_STATUS_BUSY = false →
    lpmTable table = none ∨ lpmBusy s g = false →
    Completes (.tblWrite g table) s (TableStarted s g (lpmTable table) (tblWriteOp g table s)) ∧
    Completes (.tblInsert g table) s (TableStarted s g (lpmTable table) (tblInsertOp g table (tblData s g) s)) ∧
    Completes (.tblDelete g table) s (TableStarted s g (lpmTable table) (tblDeleteOp g table (tblData s g) s)) ∧
    Completes (.tblFlush g table flt) s (TableStarted s g (lpmTable table) (tblFlushOp g table flt s))) ∧
  (∀ s g table, s.reachable = true → s.serves .cls = true → g < 4 → s.flag (R.TBL_STATUS g) F.TBL_STATUS_BUSY = true →
    Completes (.tblRead g table) s s ∧ Completes (.tblInsert g table) s s) ∧
  (∀ s g table flt, s.reachable = true → s.serves .cls = true → g < 4 → s.flag (R.TBL_STATUS g) F.TBL_STATUS_BUSY = false →
    table = 1 ∨ table = 2 → lpmBusy s g = true → ∃ t, t = s.setFld (R.TBL_STATUS g) F.TBL_STATUS_STATUS Status.busy.code ∧
    Completes (.tblWrite g table) s t ∧ Completes (.tblInsert g table) s t ∧ Completes (.tblDelete g table) s t ∧
    Completes (.tblFlush g table flt) s t) ∧
  (∀ s g x, g < 4 → (s.clsOf g).pending = some x → ∃ t, Completes (.tblCmdDone g) s t ∧ (t.clsOf g).pending = none ∧
    t.fld (R.TBL_STATUS g) F.TBL_STATUS_BUSY = 0 ∧ t.fld (R.TBL_STATUS g) F.TBL_STATUS_STATUS = x.status.code ∧
    (x.index = none → t.fld (R.TBL_INDEX g) F.TBL_INDEX_INDEX = s.fld (R.TBL_INDEX g) F.TBL_INDEX_INDEX) ∧
    (∀ i, x.index = some i → t.fld (R.TBL_INDEX g) F.TBL_INDEX_INDEX = i % 2 ^ F.TBL_INDEX_INDEX.len) ∧
    t = { s with regs := t.regs, cls := t.cls })

/-- INSERT of a key that is present answers CONFLICT with its index and changes no table; of a new key that finds a place it answers OK, the key
is then found with the entry written, and every entry that a table in canonical form held is still in it; with 124518 entries or fewer a new
key always finds a place. DELETE of a key held once, in a table in canonical form, answers OK, and the key is then not found; of an absent
one it answers NOT_FOUND and changes nothing. SEARCH changes nothing and answers the entry found. (R137, R138, R151) -/
def Obligations.ExactMatchOperations : Prop :=
  (∀ s g b k e, emEntryOk s g b = true → bypassDenied s b = false → emFind (s.clsOf g).em (slice b 0 16) = some (k, e) →
    tblInsertOp g 0 b s = { state := s, status := .conflict, index := some k }) ∧
  (∀ s g b, g < 4 → emEntryOk s g b = true → bypassDenied s b = false → emFind (s.clsOf g).em (slice b 0 16) = none →
    (tblInsertOp g 0 b s).status = .ok → ∃ k, (tblInsertOp g 0 b s).index = some k ∧
      emFind ((tblInsertOp g 0 b s).state.clsOf g).em (slice b 0 16) = some (k, emEntryOf b) ∧
      (krising (s.clsOf g).em = true → ∀ j e, e ≠ {} → kget {} (s.clsOf g).em j = e →
        ∃ i, kget {} ((tblInsertOp g 0 b s).state.clsOf g).em i = e)) ∧
  (∀ s g b, g < 4 → emEntryOk s g b = true → bypassDenied s b = false → emFind (s.clsOf g).em (slice b 0 16) = none →
    (s.clsOf g).em.length ≤ 124518 → (tblInsertOp g 0 b s).status = .ok) ∧
  (∀ s g b k e, emKeyOk g b = true → emFind (s.clsOf g).em (slice b 0 16) = some (k, e) →
    (∀ x ∈ (s.clsOf g).em, x.2.key = slice b 0 16 → x.1 = k) → krising (s.clsOf g).em = true → (tblDeleteOp g 0 b s).status = .ok ∧
      emFind ((tblDeleteOp g 0 b s).state.clsOf g).em (slice b 0 16) = none) ∧
  (∀ s g b, emKeyOk g b = true → emFind (s.clsOf g).em (slice b 0 16) = none → tblDeleteOp g 0 b s = { state := s, status := .notFound }) ∧
  (∀ s g k e, emKeyOk g (tblData s g) = true → emFind (s.clsOf g).em (slice (tblData s g) 0 16) = some (k, e) →
    tblSearchOp g 0 s = { state := s, status := .ok, index := some k, data := some e.bytes })

/-- The oldest learn request of an instance is applied: a new address is inserted and counted, or counted and alarmed when there is no place; an
address already learned at the same place only gains HIT, one that a static entry holds raises its conflict and, with STATIC_DROP, cuts
every copy of the frame, one pinned stays, and one that moved is a station move; nothing happens on an empty queue. A sweeper visit clears
HIT, then marks the entry, then removes it, counted, and passes static and pinned entries; one on the cycle of a hit leaves HIT set and
SWEPT clear; a stopped sweeper does nothing. A new move window clears MOVES; the end of a pin hold unpins an entry that moves pinned; a
repaired trie word is good again. (R141, R142, R143, R144, R145) -/
def Obligations.LearningAndAgeing : Prop :=
  (∀ s g, (s.clsOf g).learnQ = [] → Completes (.learnApply g) s s) ∧
  (∀ s g r rest, (s.clsOf g).learnQ = r :: rest → ∃ u v, u = s.setCls g { s.clsOf g with learnQ := rest } ∧
    v = (u.count (.cls g 12)).alarm (R.CLS_ALARM g) F.CLS_ALARM_STATIC_CONFLICT ∧ Completes (.learnApply g) s
    (match emFind (s.clsOf g).em r.key with
      | none => (match emInsert u g { key := r.key, res := r.res, hit := true } with
        | some (_, t) => t.count (.cls g 15)
        | none => (u.useFree.count (.cls g 14)).alarm (R.CLS_ALARM g) F.CLS_ALARM_LEARN_FULL)
      | some (k, e) =>
        if e.res = r.res then u.modEm g (fun t => kset {} t k { e with hit := true })
        else if e.static = true then
          (if v.flag (R.DOMAIN_CFG_d g (beAt r.key 2 1)) F.DOMAIN_CFG_d_STATIC_DROP = true then v.cutFrame r.frame else v)
        else if e.pinned = true then u else stationMove u g k e r.res)) ∧
  (∀ s g k e, s.fld (R.CLS_AGE g) F.CLS_AGE_PERIOD_S ≠ 0 → kget {} (s.clsOf g).em k = e → e ≠ {} → Completes (.ageingSweepVisit g k false) s
    (if e.static = true ∨ e.pinned = true then s
     else if e.hit = true then s.modEm g (fun t => kset {} t k { e with hit := false, swept := false })
     else if e.swept = false then s.modEm g (fun t => kset {} t k { e with swept := true })
     else (s.modEm g (fun t => kset {} t k {})).count (.cls g 16))) ∧
  (∀ s g k e, s.fld (R.CLS_AGE g) F.CLS_AGE_PERIOD_S ≠ 0 → kget {} (s.clsOf g).em k = e → e ≠ {} → e.static = false → e.pinned = false →
    Completes (.ageingSweepVisit g k true) s (s.modEm g (fun t => kset {} t k { e with hit := true, swept := false }))) ∧
  (∀ s g k hit, s.fld (R.CLS_AGE g) F.CLS_AGE_PERIOD_S = 0 → Completes (.ageingSweepVisit g k hit) s s) ∧
  (∀ s g, Completes (.moveWindowRestart g) s (s.modEm g (fun t => t.map (fun e => (e.1, { e.2 with moves := 0 }))))) ∧
  (∀ s g k e, kget {} (s.clsOf g).em k = e → e.pinned = true → e.pinSw = false → s.fld (R.CLS_MOVE g) F.CLS_MOVE_PIN_HOLD_S ≠ 0 →
    Completes (.pinHoldExpiry g k) s (s.modEm g (fun t => kset {} t k { e with pinned := false, pinSw := false }))) ∧
  (∀ s g, Completes (.trieWordRepair g) s (s.setCls g { s.clsOf g with trieBad := false }))

/-! ### Rills and tunnel endpoints -/

/-- With RIL_STATUS not BUSY: a withdrawal of a gated or waking rill takes it out of service at once; one of a rill in service begins its fence
with OK, or answers DENIED where it is the last one of a direction in use and the spare is not free (log entries 111 and 112); one of a rill
in any other state answers NOT_FOUND, one above 8 INVALID, as a restore does. While BUSY nothing happens. A restore of a rill that is out,
passed its test and has no spare standing for it lets it enter again with OK; a faulted one is DENIED. Starting a fence sets BUSY, makes a
rill other than 8 leave, claims the spare where it is free, abandoning a test of it, and changes no other register. (R219, R220, R221, R223,
R224, R228) -/
def Obligations.RillWithdrawAndRestore : Prop :=
  (∀ s r same, s.reachable = true → s.serves .ril = true → s.flag R.RIL_STATUS F.RIL_STATUS_BUSY = false → r ≤ 8 →
    (s.rill r).state = .gated ∨ (s.rill r).state = .waking →
    Completes (.rilWithdraw r same) s (rilEnd (s.setRill r { s.rill r with state := .out }) .ok)) ∧
  (∀ s r same, s.reachable = true → s.serves .ril = true → s.flag R.RIL_STATUS F.RIL_STATUS_BUSY = false → r ≤ 8 → (s.rill r).state = .inService →
    Completes (.rilWithdraw r same) s
      (if directionUsed s (s.rill r).inbound = true ∧ (serving s (s.rill r).inbound).length ≤ 1 ∧ spareFree s r = false then rilEnd s .denied
       else startFence (rilEnd s .ok) r false same)) ∧
  (∀ s r same, s.reachable = true → s.serves .ril = true → s.flag R.RIL_STATUS F.RIL_STATUS_BUSY = false → r ≤ 8 →
    (s.rill r).state = .spare ∨ (s.rill r).state = .out ∨ (s.rill r).state = .faulted ∨ (s.rill r).state = .leaving ∨ (s.rill r).state = .test →
    Completes (.rilWithdraw r same) s (rilEnd s .notFound)) ∧
  (∀ s r same, s.reachable = true → s.serves .ril = true → s.flag R.RIL_STATUS F.RIL_STATUS_BUSY = false → 8 < r →
    Completes (.rilWithdraw r same) s (rilEnd s .invalid) ∧ Completes (.rilRestore r) s (rilEnd s .invalid)) ∧
  (∀ s r same, s.reachable = true → s.serves .ril = true → s.flag R.RIL_STATUS F.RIL_STATUS_BUSY = true →
    Completes (.rilWithdraw r same) s s ∧ Completes (.rilRestore r) s s) ∧
  (∀ s r, s.reachable = true → s.serves .ril = true → s.flag R.RIL_STATUS F.RIL_STATUS_BUSY = false → r ≤ 8 → (s.rill r).state = .out →
    (s.rill r).katOk = some true → (s.rill r).entering = none → (s.rill 8).standsFor ≠ some r →
    Completes (.rilRestore r) s (rilEnd (s.setRill r { s.rill r with entering := some r }) .ok)) ∧
  (∀ s r, s.reachable = true → s.serves .ril = true → s.flag R.RIL_STATUS F.RIL_STATUS_BUSY = false → r ≤ 8 → (s.rill r).state = .faulted →
    Completes (.rilRestore r) s (rilEnd s .denied)) ∧
  (∀ s r fault same, ∃ t, t = startFence s r fault same ∧ (r ≠ 8 → (t.rill r).state = .leaving ∧ (t.rill r).fault = fault) ∧
    t.flag R.RIL_STATUS F.RIL_STATUS_BUSY = true ∧ t = { s with regs := t.regs, rills := t.rills } ∧
    (spareFree s r = true → (t.rill 8).state = .spare ∧ (t.rill 8).katRun = none ∧ (t.rill 8).entering = some r) ∧ ∀ a, a ≠ R.RIL_STATUS → t.reg a = s.reg a)

/-- A rill fault sets the alarm of its kind, a stall is kept until a beat leaves the rill, and with AUTO a rill in service is fenced. A fence
with no frame outstanding, or at its deadline with the frames left in it lost, ends with the rill out of service, faulted or spare. The
spare that was claimed enters for the rill it replaces, in that rill's direction. A known-answer test, with KAT_EN, of the spare or of a
rill that is out puts it in TEST (log entry 114); its end counts and keeps the result and returns the rill to the state it was tested in,
and a failure faults the rill and sets its alarm. A woken rill is in service. (R220, R221, R222, R223, R224, R288) -/
def Obligations.RillFaultsAndTests : Prop :=
  (∀ s r kind same, ∃ u v, v = s.alarm (R.RIL_ALARM r) (if kind = 0 then F.RIL_ALARM_PIPE_PAR else if kind = 1 then F.RIL_ALARM_KEY_ECC else F.RIL_ALARM_STALL) ∧
    u = (if 2 ≤ kind then v.setRill r { v.rill r with stalled := true } else v) ∧ Completes (.rillFault r kind same) s
      (if u.flag R.RIL_SPARE F.RIL_SPARE_AUTO = true ∧ (u.rill r).state = .inService then startFence u r true same else u)) ∧
  (∀ s r, (s.rill r).state = .leaving → rillFrames s r = 0 → Completes (.fenceComplete r) s (fenceDone s r)) ∧
  (∀ s r, (s.rill r).state = .leaving → Completes (.fenceDeadline r) s (settleTep (fenceDone ((kkeys (inRill r) s.jobs).foldl loseJob s) r))) ∧
  (∀ s r, (fenceDone s r).rill r = { s.rill r with
    state := if (s.rill r).fault = true then .faulted else if (s.rill r).toSpare = true then .spare else .out
    fault := false, toSpare := false, standsFor := none, inbound := decide (r ≠ 8) && (s.rill r).inbound, stalled := false }) ∧
  (∀ s l, (s.rill 8).entering = some l → l ≠ 8 → Completes (.spareInService 8) s
    (s.setRill 8 { s.rill 8 with state := .inService, entering := none, standsFor := some l, inbound := (s.rill l).inbound })) ∧
  (∀ s r l, r ≠ 8 → (s.rill r).entering = some l → Completes (.spareInService r) s
    (s.setRill r { s.rill r with state := .inService, entering := none, inbound := decide (4 ≤ r) })) ∧
  (∀ s r pass, s.flag R.RIL_SPARE F.RIL_SPARE_KAT_EN = true → (r = 8 ∧ (s.rill r).state = .spare) ∨ (s.rill r).state = .out →
    (s.rill r).entering = none →
    Completes (.katRun r pass) s (s.setRill r { s.rill r with state := .test, katRun := some ((s.rill r).state, pass) })) ∧
  (∀ s r was, (s.rill r).katRun = some (was, true) → endKat s r =
    (s.setRill r { s.rill r with katOk := some true, katRun := none, state := was }).setFld (R.RIL_KAT r) F.RIL_KAT_PASSES
      (min 0xFFFF (s.fld (R.RIL_KAT r) F.RIL_KAT_PASSES + 1))) ∧
  (∀ s r was, (s.rill r).katRun = some (was, false) → endKat s r =
    noteRill s r (((s.setRill r { s.rill r with katOk := some false, katRun := none, state := .faulted }).setFld (R.RIL_KAT r) F.RIL_KAT_FAILS
      (min 0xFFFF (s.fld (R.RIL_KAT r) F.RIL_KAT_FAILS + 1))).alarm (R.RIL_ALARM r) F.RIL_ALARM_KAT_FAIL)) ∧
  (∀ s r, (s.rill r).state = .waking → Completes (.rillWakeComplete r) s (s.setRill r { s.rill r with state := .inService }))

/-- With TEP_STATUS not BUSY, TEP_WRITE of a staged entry that keeps the rule of entries replaces the entry by its 64 bytes, of one that does
not answers INVALID and stores nothing, TEP_CLEAR empties the entry, and TEP_READ stages the entry's bytes with OK; while BUSY nothing
happens. A replacement is done at once with OK where no frame dispatched under the old entry still has to read it; else BUSY is set, and the
entry is as before. No other entry changes. (R209, R210, R230) -/
def Obligations.TunnelEndpoints : Prop :=
  (∀ s i, s.reachable = true → s.serves .ril = true → s.flag R.TEP_STATUS F.TEP_STATUS_BUSY = false → tepOk (s.winBytes (R.TEP_DATA_n 0) 16) = true →
    Completes (.tepWrite i) s
      (replaceTep s i (if allZero (s.winBytes (R.TEP_DATA_n 0) 16) = true then [] else s.winBytes (R.TEP_DATA_n 0) 16))) ∧
  (∀ s i, s.reachable = true → s.serves .ril = true → s.flag R.TEP_STATUS F.TEP_STATUS_BUSY = false → tepOk (s.winBytes (R.TEP_DATA_n 0) 16) = false →
    Completes (.tepWrite i) s (s.setFld R.TEP_STATUS F.TEP_STATUS_STATUS Status.invalid.code)) ∧
  (∀ s i, s.reachable = true → s.serves .ril = true → s.flag R.TEP_STATUS F.TEP_STATUS_BUSY = false → Completes (.tepClear i) s (replaceTep s i [])) ∧
  (∀ s i, s.reachable = true → s.serves .ril = true → s.flag R.TEP_STATUS F.TEP_STATUS_BUSY = true →
    Completes (.tepWrite i) s s ∧ Completes (.tepClear i) s s ∧ Completes (.tepRead i) s s) ∧
  (∀ s i e, ∃ t, t = replaceTep s i e ∧ t = { s with regs := t.regs, teps := t.teps, tepPending := t.tepPending } ∧
    (∀ a, a ≠ R.TEP_STATUS → t.reg a = s.reg a) ∧
    (tepWaits s (i % 4096) = true → t.flag R.TEP_STATUS F.TEP_STATUS_BUSY = true ∧ t.teps = s.teps ∧ t.tepPending = some (i % 4096, e)) ∧
    (tepWaits s (i % 4096) = false → t.flag R.TEP_STATUS F.TEP_STATUS_BUSY = false ∧ t.fld R.TEP_STATUS F.TEP_STATUS_STATUS = Status.ok.code ∧
      t.teps = kset [] s.teps (i % 4096) e ∧ t.tepPending = none)) ∧
  (∀ s i, s.reachable = true → s.serves .ril = true → s.flag R.TEP_STATUS F.TEP_STATUS_BUSY = false →
    Completes (.tepRead i) s ((s.setWin (R.TEP_DATA_n 0) (slice (s.tep (i % 4096)) 0 64) 16).setFld R.TEP_STATUS F.TEP_STATUS_STATUS Status.ok.code)) ∧
  (∀ (s : State) (e : List Byte) (i j : Nat), State.tep { s with teps := kset [] s.teps i e } j = if j = i then e else s.tep j)

/-! ### Queues, the scheduler and the datapath -/

/-- A classified queue entry whose subscriber is valid, whose egress node is open, whose queue has room and whose cistern is not under pressure
is queued behind every earlier one; without a valid subscriber, at a closed node, for a full queue and under pressure it is dropped under
the counter of that case. A selection cycle serves each of the 34 nodes once, those named first first (log entry 124), with six grants a
direction, fewer as the frames that hold or await a reorder context near 8192, and none from there on. A subscriber's refill adds its rates
to its two credits, up to their bursts, and touches no other; a ceiling's refill adds its share, up to its burst. A write of word 3 of an
entry is a configuration write of that word. (R22, R264, R268, R269, R270, R271, R272, R276) -/
def Obligations.AdmissionAndScheduler : Prop :=
  (∀ s j k x u e, (s.job j).stage = .classified → toSlice s (s.job j) = (k, x) → u = s.setJob j x → e = subEntry u x.sub →
    (∀ n, k = some n → (kget {} s.slices n).state = .active) → Completes (.queueAdmission j) s
      (if e.valid = false then (u.count (.dev 0)).endJob j (.aborted, 5)
       else if nodeOpen u x.egress = false then (closedCount u x.egress).endJob j (.aborted, 5)
       else if (∃ l, queueLimit u e.prof x.cls = some l ∧ l < queueBytes u x.sub x.cls + (u.frame x.frame).bytes.length) then
         (u.count (.sch x.sub 2)).endJob j (.full, 4)
       else if pressure u x = true then ((u.count (.sch x.sub 3)).alarm R.SCH_ALARM F.SCH_ALARM_PRESSURE).endJob j (.full, 4)
       else { (activate u e.service).setJob j { x with stage := .queued, order := (activate u e.service).sched.order } with
         sched := { (activate u e.service).sched with order := (activate u e.service).sched.order + 1 } })) ∧
  (∀ s first, Completes (.schedulerSelect first) s (selectCycle s (cycleQuota s true) (cycleQuota s false)
    ((first.filter (fun n => decide (n < 34))).eraseDups ++
      (List.range 34).filter (fun n => !((first.filter (fun n => decide (n < 34))).eraseDups).contains n)))) ∧
  (∀ s inb, (contextsClaimed s inb + 6 ≤ 8192 → cycleQuota s inb = 6) ∧ (8192 ≤ contextsClaimed s inb → cycleQuota s inb = 0)) ∧
  (∀ s u, ∃ t, Completes (.bucketRefill (.sub u)) s t ∧ t = { s with sched := t.sched } ∧
    kget 0 t.sched.subC u = min (kget 0 s.sched.subC u + ((16 * (subEntry s u).cir * s.sluice.g : Nat) : Int)) (units (64 * (subEntry s u).cbs)) ∧
    kget 0 t.sched.subP u = min (kget 0 s.sched.subP u + ((256 * (subEntry s u).pir : Nat) : Int)) (units (64 * (subEntry s u).pbs)) ∧
    ∀ v, v ≠ u → kget 0 t.sched.subC v = kget 0 s.sched.subC v ∧ kget 0 t.sched.subP v = kget 0 s.sched.subP v) ∧
  (∀ s inb e, ∃ t, Completes (.bucketRefill (.ceiling inb e)) s t ∧ t = { s with sched := t.sched } ∧
    kget 0 t.sched.ceil (ceilKey inb e) = min (kget 0 s.sched.ceil (ceilKey inb e) + ((4 * eclMax s e * ceilSixteenths s.sluice.p e : Nat) : Int)) (units 65536)) ∧
  (∀ s t i v, i < (match t with
      | .sub => 8192
      | .svc => 1024
      | .port => 34) → s.reachable = true → s.serves .sch = true → blockOf (entryAddr t i + 12) = .sch →
    Completes (.schedEntryWord3Write t i v) s (configWrite s (entryAddr t i + 12) v))

/-- A selected entry at an open node, not held by a tunnel endpoint that is being replaced, with a context and a rill free, is dispatched on
that rill, and one without an association takes a context at once; an ESP frame that fails the dispatch checks is a counted drop, as one at
a closed node is; without a free context, or held, it waits. Taking a context gives the entry the next order tag of its egress, and the tag
after it follows modulo 2^14; no other egress and no other entry is touched. A recorded reservation boundary extends the slot's reservation
without a partner, and waits while a READY partner has not acknowledged it. (R22, R182, R207, R210, R211, R213, R214, R276) -/
def Obligations.DispatchAndTags : Prop :=
  (∀ s j mp r, (s.job j).stage = .selected → nodeOpen s (s.job j).egress = true → (s.job j).usesAssoc = none → (s.job j).action ≠ 2 →
    tepHeld s (s.job j) = false → contextsUsed s (inboundTo (s.job j).egress) < 8192 → chooseRill s (inboundTo (s.job j).egress) = some r →
    Completes (.dispatch j mp) s (takeContext s j r 0 0)) ∧
  (∀ s j mp r, (s.job j).stage = .selected → nodeOpen s (s.job j).egress = true → tepHeld s (s.job j) = false →
    (s.job j).action ≠ 2 ∨ (s.assoc false (s.job j).assoc).valid = false ∨
      espDrops s (s.assoc false (s.job j).assoc).record (s.job j).egress (s.frame (s.job j).frame).bytes = false →
    contextsUsed s (inboundTo (s.job j).egress) < 8192 → chooseRill s (inboundTo (s.job j).egress) = some r →
    Completes (.dispatch j mp) s (dispatchOn s j r mp)) ∧
  (∀ s j mp, (s.job j).stage = .selected → nodeOpen s (s.job j).egress = true → (s.job j).action = 2 → tepHeld s (s.job j) = false →
    (s.assoc false (s.job j).assoc).valid = true →
    espDrops s (s.assoc false (s.job j).assoc).record (s.job j).egress (s.frame (s.job j).frame).bytes = true →
    Completes (.dispatch j mp) s (dropAt s j (.txsa (s.job j).assoc 4) (.aborted, 7))) ∧
  (∀ s j mp, (s.job j).stage = .selected → nodeOpen s (s.job j).egress = true →
    tepHeld s (s.job j) = true ∨ ((s.job j).action ≠ 2 ∧ 8192 ≤ contextsUsed s (inboundTo (s.job j).egress)) → Completes (.dispatch j mp) s s) ∧
  (∀ s j mp, (s.job j).stage = .selected → nodeOpen s (s.job j).egress = false →
    Completes (.dispatch j mp) s ((closedCount s (s.job j).egress).endJob j (.aborted, 5))) ∧
  (∀ s j r slot pn, ∃ t, t = takeContext s j r slot pn ∧
    t.job j = { s.job j with stage := .dispatched, tag := kget 0 s.nextTag (s.job j).egress, rill := r, slot := slot, pn := pn, gen :=
      match (s.job j).usesAssoc with
        | some (rx, i) => ((s.assoc rx i).slot slot).gen
        | none => 0 } ∧
    kget 0 t.nextTag (s.job j).egress = (kget 0 s.nextTag (s.job j).egress + 1) % 2 ^ 14 ∧
    (∀ e, e ≠ (s.job j).egress → kget 0 t.nextTag e = kget 0 s.nextTag e) ∧ (∀ k, k ≠ j → t.job k = s.job k)) ∧
  (∀ s i k x b, (s.assoc false i).slot k = x → x.resReq = some b → s.pair.partner = .none →
    Completes (.reservationBoundaryRecord i k) s (putSlot s false i k { x with resEnd := b, resReq := none })) ∧
  (∀ s i k x b, (s.assoc false i).slot k = x → x.resReq = some b → s.pair.partner = .ready → x.backed < b →
    Completes (.reservationBoundaryRecord i k) s s)

/-- A dispatched entry with a beat still to feed into a rill with room: an uncorrectable cell error, counted, cuts every copy of its frame: a
dispatched copy of which merge has released nothing is skipped, one that has begun is stomped; an uncorrectable key error on its first beat
skips it, counted and alarmed; otherwise one more beat after the first is fed and counted; a full crossing holds the beat. A middle beat
that leaves the rill moves its count on, and a stomped frame whose fed beats have all left ends. A verdict that returns completes the
association's part. The merge discards a skipped head, and a frame of a closed egress, counted, releases a middle beat of one that has left
its rill, preempts one that an express frame overtakes, and resumes a preempted one unless its gate is closed. (R16, R20, R36, R101, R106,
R202, R210, R212, R214, R215, R216) -/
def Obligations.BeatsAndMerge : Prop :=
  (∀ s j ke, (s.job j).stage = .dispatched → (s.job j).skip = false → (s.job j).stomp = false →
    (s.job j).fed < beatsOf (s.frame (s.job j).frame) → (s.frame (s.job j).frame).spilled = false → feedStalled s (s.job j).rill = false →
    Completes (.beatFeed j ke 2) s (settleTep ((s.count (.dev 2)).cutFrame (s.job j).frame))) ∧
  (∀ (s : State) (j : Nat), (s.job j).stage = .dispatched → (s.job j).merged = false →
    s.cutJob j = s.setJob j (if (s.job j).released = 0 then { s.job j with skip := true } else { s.job j with stomp := true })) ∧
  (∀ s j, (s.job j).stage = .dispatched → (s.job j).skip = false → (s.job j).stomp = false → 0 < (s.job j).fed →
    (s.job j).fed < beatsOf (s.frame (s.job j).frame) → (s.frame (s.job j).frame).spilled = false → feedStalled s (s.job j).rill = false →
    ∃ t, Completes (.beatFeed j 0 0) s (settleTep t) ∧
      t.job j = { s.job j with fed := (s.job j).fed + 1 } ∧ t.sluice.beatsIn + t.sluice.beatsOut = s.sluice.beatsIn + s.sluice.beatsOut + 1 ∧
      kget 0 t.counters (Ctr.ril (s.job j).rill 1).index = (kget 0 s.counters (Ctr.ril (s.job j).rill 1).index + 1) % 2 ^ 64 ∧ t.regs = s.regs) ∧
  (∀ s j ke ce, (s.job j).stage = .dispatched → feedStalled s (s.job j).rill = true → Completes (.beatFeed j ke ce) s s) ∧
  (∀ s j ke, (s.job j).stage = .dispatched → (s.job j).skip = false → (s.job j).stomp = false → (s.job j).fed = 0 → (s.job j).usesAssoc.isSome = true →
    0 < beatsOf (s.frame (s.job j).frame) → (s.frame (s.job j).frame).spilled = false → feedStalled s (s.job j).rill = false → ke = 2 →
    Completes (.beatFeed j ke 0) s
      (settleTep (((s.setJob j { s.job j with skip := true }).count (.ril (s.job j).rill 3)).alarm (R.RIL_ALARM (s.job j).rill) F.RIL_ALARM_KEY_ECC))) ∧
  (∀ s j, (s.job j).stage = .dispatched → (s.job j).skip = false → (s.job j).verdict = none → 0 < (s.job j).left → (s.job j).left + 1 < (s.job j).fed →
    exitStalled s (s.job j) = false →
    Completes (.rillBeatExit j) s (flows (s.setJob j { s.job j with left := (s.job j).left + 1 }) (s.job j).rill)) ∧
  (∀ s j, (s.job j).stage = .dispatched → (s.job j).skip = false → (s.job j).verdict = none → 0 < (s.job j).fed → (s.job j).fed = (s.job j).left →
    (s.job j).stomp = true → Completes (.rillBeatExit j) s (finishRill s j (s.job j).left)) ∧
  (∀ s j, (s.job j).stage = .dispatched → (s.job j).completed = false → (s.job j).skip = true ∨ (s.job j).verdict.isSome = true →
    Completes (.verdictReturn j) s (settle (completeAssoc (s.setJob j { s.job j with completed := true }) (s.job j)) j)) ∧
  (∀ s e desc j, mergeHead s e = some j → (s.job j).skip = true →
    Completes (.mergeRelease e desc) s (mergeDone (s.count (.ril (s.job j).rill 5)) j (.aborted, 8))) ∧
  (∀ s e desc j, parkedOf s e = none → mergeHead s e = some j → (s.job j).skip = false → (s.job j).discard = false → (s.job j).stage ≠ .lost →
    mayCut s e (s.job j) = false ∨ overtaken s e (s.job j) = false → egressOpen s e (decide (0 < (s.job j).released)) = false →
    Completes (.mergeRelease e desc) s (mergeDone (egressCount s e 19) j (.aborted, 5))) ∧
  (∀ s e desc j, parkedOf s e = none → mergeHead s e = some j → (s.job j).skip = false → (s.job j).discard = false → (s.job j).stage ≠ .lost →
    0 < (s.job j).released → mayCut s e (s.job j) = false ∨ overtaken s e (s.job j) = false → egressOpen s e true = true →
    (s.job j).released + 1 < (s.job j).left →
    Completes (.mergeRelease e desc) s (s.setJob j { s.job j with released := (s.job j).released + 1 })) ∧
  (∀ s e desc j, e < 32 → parkedOf s e = none → mergeHead s e = some j → (s.job j).stage = .dispatched → (s.job j).skip = false →
    mayCut s e (s.job j) = true → overtaken s e (s.job j) = true → Completes (.mergeRelease e desc) s (park s j)) ∧
  (∀ s e desc q, parkedOf s e = some q → mergeHead s e = none → Completes (.mergeRelease e desc) s
    (if gateOpenFor s e (s.job q).cls 0 = some 0 then s else mergeStep s e q desc))

/-- A tick takes T and P from its readings and rails, shows them in SLU_MEAS, moves the shed position and then the committed factor, keeps the
highest position and a hard event for the slow loop, and counts beats anew. At or above the hard temperature the position is 64 and a hard
event stands; below it, a power over the budget or a temperature over the soft one moves the position up by one, to 64 at most; with both
clear of their bands for RELEASE_US it falls by one. In a hard event the committed factor falls by one every HARD_STEP_US, to its floor;
clear of it for 100 us it rises by one, to 16. The lowest gated rill of a direction wakes where fewer than the target serve. The slow loop
takes sensors out of service, sets the pace of the public-key engine and of the scrub from the highest position since it ran last and the
hard events, and starts both anew; beyond that it changes no register but SLU_STATUS, and does nothing while the MC is down. (R282, R283,
R284, R285, R288, R290) -/
def Obligations.SluiceLoops : Prop :=
  (∀ s readings rails hbm, ∃ a T pw w t, a = readSensors s (readings.take 24) ∧ T = tMax a (readings.take 24) ∧
    pw = (rails.map (fun r => powerOf r hbm)).getD (250 * s.fld R.SLU_BUDGET F.SLU_BUDGET_BUDGET + 1000) ∧
    w = stepG a T (stepP a T pw a.sluice) ∧ Completes (.sluiceTick readings rails hbm) s t ∧
    t.sluice = { w with blind := rails.isNone, pMax := max w.pMax w.p, hardSeen := w.hardSeen || w.hardOn, beatsOut := 0, beatsIn := 0, lowOut := t.sluice.lowOut, lowIn := t.sluice.lowIn } ∧
    t.fld R.SLU_MEAS F.SLU_MEAS_TMAX = unsigned 12 T % 2 ^ F.SLU_MEAS_TMAX.len ∧
    t.fld R.SLU_MEAS F.SLU_MEAS_POWER = min 1023 (pw / 250) ∧
    t = { s with regs := t.regs, out := t.out, rills := t.rills, sluice := t.sluice }) ∧
  (∀ (s : State) t pw (u : Sluice), (8 * s.fld R.SLU_THERM F.SLU_THERM_HARD : Int) ≤ t → (stepP s t pw u).p = 64 ∧ (stepP s t pw u).hardOn = true) ∧
  (∀ (s : State) t pw (u : Sluice), t < (8 * s.fld R.SLU_THERM F.SLU_THERM_HARD : Int) →
    250 * s.fld R.SLU_BUDGET F.SLU_BUDGET_BUDGET < pw ∨ (8 * s.fld R.SLU_THERM F.SLU_THERM_SOFT : Int) < t →
    (stepP s t pw u).p = min (u.p + 1) 64 ∧ (stepP s t pw u).hardOn = false ∧ (stepP s t pw u).quiet = 0) ∧
  (∀ (s : State) t pw (u : Sluice), t < (8 * s.fld R.SLU_THERM F.SLU_THERM_HARD : Int) →
    pw + 250 * s.fld R.SLU_BUDGET F.SLU_BUDGET_HYST ≤ 250 * s.fld R.SLU_BUDGET F.SLU_BUDGET_BUDGET →
    t ≤ (8 * s.fld R.SLU_THERM F.SLU_THERM_SOFT : Int) - 8 * s.fld R.SLU_THERM F.SLU_THERM_T_HYST →
    s.fld R.SLU_LOOP F.SLU_LOOP_RELEASE_US ≤ u.quiet + 1 → (stepP s t pw u).p = u.p - 1 ∧ (stepP s t pw u).quiet = 0) ∧
  (∀ (s : State) t (u : Sluice), u.hardOn = true → s.fld R.SLU_LOOP F.SLU_LOOP_HARD_STEP_US ≤ u.sinceFall + 1 →
    (stepG s t u).g = max (u.g - 1) (s.fld R.SLU_LOOP F.SLU_LOOP_COMMIT_FLOOR)) ∧
  (∀ (s : State) t (u : Sluice), u.hardOn = false → t ≤ (8 * s.fld R.SLU_THERM F.SLU_THERM_HARD : Int) - 8 * s.fld R.SLU_THERM F.SLU_THERM_T_HYST →
    100 ≤ u.sinceRise + 1 → (stepG s t u).g = min (u.g + 1) 16) ∧
  (∀ (s : State) (inb : Bool) (beats low r : Nat), lowestRill s (rillsIn s inb .gated) = some r →
    (rillsIn s inb .inService).length + (rillsIn s inb .waking).length < rillTarget s inb beats →
    gateRills s inb beats low = (s.setRill r { s.rill r with state := .waking }, 0)) ∧
  (∀ s, s.dev.mcUp = false → Completes .slowLoop s s) ∧
  (∀ s, s.dev.mcUp = true → ∃ u t, u = checkSensors s ∧ Completes .slowLoop s t ∧
    t.fld R.SLU_STATUS F.SLU_STATUS_PKE_DUTY = (if u.sluice.hardSeen = true then 3 else if u.sluice.pMax < 16 then 0 else if u.sluice.pMax < 48 then 1 else 2) ∧
    t.fld R.SLU_STATUS F.SLU_STATUS_SCRUB_X = (if u.sluice.hardSeen = true then 2 else if u.sluice.pMax < 16 then 0 else if u.sluice.pMax < 48 then 1 else 2) ∧
    t.sluice = { u.sluice with
      ecl := [0, 1, 2, 3].map (fun e => (e, some (u.fld (R.SLU_ECL_e e) F.SLU_ECL_e_ECL_MAX))), pMax := u.sluice.p, hardSeen := u.sluice.hardOn } ∧ t = { u with regs := t.regs, sluice := t.sluice } ∧
    ∀ a, a ≠ R.SLU_STATUS → t.reg a = u.reg a)

/-! ### The associations -/

/-- The SA window of a function takes a command now, for the direction `rx` and the association `j`: its block is served, its slice is
active, no command runs, and the index of a slice is within its 64 associations (R194, R466). -/
def SaOpen (s : State) (fn : Fn) (rx : Bool) (j : Nat) : Prop :=
  s.reachable = true ∧ s.serves (blockOf (aSaCmd fn)) = true ∧ sliceShut s fn = false ∧ s.flag (aSaStatus fn) F.SA_STATUS_BUSY = false ∧
  rx = s.flag (aSaIndex fn) F.SA_INDEX_DIR ∧
  match fn with
  | .pf => j = s.fld (aSaIndex fn) F.SA_INDEX_INDEX
  | .vf n => s.fld (aSaIndex fn) F.SA_INDEX_INDEX < 64 ∧ j = 12288 + 64 * n + s.fld (aSaIndex fn) F.SA_INDEX_INDEX

/-- INSTALL of a record that passes its checks on a free index makes the association valid with that record and empty slots, and REMOVE ends a
valid one; both end OK. INSTALL on a valid association ends CONFLICT, on one that drains BUSY; REMOVE of none ends NOT_FOUND. An association
in the host pool is DENIED to the physical function. An association that drains and has no frame left is gone. A command that ends clears
BUSY and shows its status. (R167, R175, R194, R195) -/
def Obligations.AssociationInstallAndRemove : Prop :=
  (∀ s fn rx j r, SaOpen s fn rx j → poolDenied s fn j = false → (s.assoc rx j).valid = false → (s.assoc rx j).draining = false →
    sliceDenies s fn rx (assocRecOf (windowRecord s fn)) = false → recordOk s rx (windowRecord s fn) = true →
    r = { assocRecOf (windowRecord s fn) with paired := pairedIn fn (assocRecOf (windowRecord s fn)).paired } →
    (!rx && duplicateSc s j r) = false → Completes (.saInstall fn) s (saEnd (installAssoc s rx j r) fn .ok) ∧
      (installAssoc s rx j r).assoc rx j = { valid := true, record := r }) ∧
  (∀ s fn rx j, SaOpen s fn rx j → poolDenied s fn j = false → (s.assoc rx j).valid = true →
    Completes (.saInstall fn) s (saEnd s fn .conflict)) ∧
  (∀ s fn rx j, SaOpen s fn rx j → poolDenied s fn j = false → (s.assoc rx j).valid = false → (s.assoc rx j).draining = true →
    Completes (.saInstall fn) s (saEnd s fn .busy)) ∧
  (∀ s rx j, SaOpen s .pf rx j → (sliceOfAssoc s j).isSome = true →
    Completes (.saInstall .pf) s (saEnd s .pf .denied) ∧ Completes (.saRemove .pf) s (saEnd s .pf .denied)) ∧
  (∀ s fn rx j, SaOpen s fn rx j → poolDenied s fn j = false → (s.assoc rx j).valid = true →
    Completes (.saRemove fn) s (saEnd (removeAssoc s rx j) fn .ok)) ∧
  (∀ s fn rx j, SaOpen s fn rx j → poolDenied s fn j = false → (s.assoc rx j).valid = false →
    Completes (.saRemove fn) s (saEnd s fn .notFound)) ∧
  (∀ s rx i, (s.assoc rx i).draining = true → assocBusy s rx i = false →
    Completes (.assocRemoveDrainComplete rx i) s (drainAssoc s rx i) ∧ (drainAssoc s rx i).assoc rx i = {}) ∧
  (∀ s fn st, (saEnd s fn st).flag (aSaStatus fn) F.SA_STATUS_BUSY = false ∧ (saEnd s fn st).fld (aSaStatus fn) F.SA_STATUS_STATUS = st.code)

/-- Each acts on a valid association and ends OK: READ and READ_SLOT stage the record and the slot, SWITCH makes the ready slot current,
ARM_TIME arms a comparator that no other association holds, RETIRE clears the ready transmit slot or the receive slot of the lower
generation, MODIFY replaces a record that differs only in what may change. DERIVE begins the load that the derivation gives and leaves BUSY
set until it has loaded. A window whose command runs takes no other. (R175, R184, R185, R192, R194, R197) -/
def Obligations.AssociationCommands : Prop :=
  (∀ s fn rx j, SaOpen s fn rx j → (s.assoc rx j).valid = true →
    Completes (.saRead fn) s (saEnd (s.setWin (aSaData fn)
      ({ (s.assoc rx j).record with paired := pairedOut fn (s.assoc rx j).record.paired }.bytes rx) 10) fn .ok)) ∧
  (∀ s fn rx j, SaOpen s fn rx j → (s.assoc rx j).valid = true →
    Completes (.saReadSlot fn) s (saEnd (s.setWin (aSaData fn) (slotRecord s rx j (s.fld (aSaIndex fn) F.SA_INDEX_SLOT)) 8) fn .ok)) ∧
  (∀ s fn rx j d t, SaOpen s fn rx j → (s.assoc rx j).valid = true → poolDenied s fn j = false → s.dev.state ≠ .standby →
    rx = true ∨ txLoadOpen s = true → d = s.winBytes (aSaData fn) 3 →
    derive s rx j (beAt d 0 4) (beAt d 4 1) (beAt d 8 4) (some fn) false = .ok t →
    Completes (.saDerive fn) s (t.setFld (aSaStatus fn) F.SA_STATUS_BUSY 1)) ∧
  (∀ s fn j k, SaOpen s fn false j → (s.assoc false j).valid = true → (s.assoc false j).ready = some k →
    Completes (.saSwitch fn) s (saEnd (switchSlot s j) fn .ok)) ∧
  (∀ s fn j d, SaOpen s fn false j → (s.assoc false j).valid = true → (s.assoc false j).record.trig = 2 →
    (s.reg R.TIM_TIA).getLsbD (s.assoc false j).record.comparator = true → d = s.winBytes (aSaData fn) 3 → beAt d 6 4 < 1000000000 →
    (∀ e ∈ s.txAssocs, e.1 ≠ j → e.2.armed.isSome = true → e.2.record.comparator ≠ (s.assoc false j).record.comparator) →
    Completes (.saArmTime fn) s (saEnd (s.setAssoc false j
      { s.assoc false j with armed := some { sec := beAt d 0 6, ns := beAt d 6 4 } }) fn .ok)) ∧
  (∀ s fn j k, SaOpen s fn false j → (s.assoc false j).valid = true → (s.assoc false j).ready = some k →
    Completes (.saRetire fn) s (saEnd (clearSlot s false j k) fn .ok)) ∧
  (∀ s fn j, SaOpen s fn true j → (s.assoc true j).valid = true → (s.assoc true j).slot0.state ≠ .empty → (s.assoc true j).slot1.state ≠ .empty →
    Completes (.saRetire fn) s (saEnd (clearSlot (s.setAssoc true j { s.assoc true j with retiring := none }) true j
      (if (s.assoc true j).slot0.gen < (s.assoc true j).slot1.gen then 0 else 1)) fn .ok)) ∧
  (∀ s fn rx j r, SaOpen s fn rx j → (s.assoc rx j).valid = true → sliceDenies s fn rx (assocRecOf (windowRecord s fn)) = false →
    recordOk s rx (windowRecord s fn) = true →
    r = { assocRecOf (windowRecord s fn) with paired := pairedIn fn (assocRecOf (windowRecord s fn)).paired } →
    modifiable (s.assoc rx j).record r = r →
    Completes (.saModify fn) s (saEnd (s.setAssoc rx j { s.assoc rx j with record := r }) fn .ok)) ∧
  (∀ s fn c, s.reachable = true → s.serves (blockOf (aSaCmd fn)) = true → s.flag (aSaStatus fn) F.SA_STATUS_BUSY = true →
    c ∈ [Instr.saInstall fn, .saRemove fn, .saRead fn, .saReadSlot fn, .saDerive fn, .saSwitch fn, .saArmTime fn, .saRetire fn, .saModify fn] →
    Completes c s s)

/-- A load that completes makes a receive slot loaded; a transmit slot without a partner to wait for is loaded too, with a READY partner only
once it is journaled, and a journal that fails ends the load. A drained slot is emptied and AUTO_NEXT follows; a due retry runs AUTO_NEXT; a
retirement that expires clears the receive slot. A FOLLOW candidate gets the key of its generation, or is cleared with an alarm where the
root gives none. GEN_HIGH is never lowered, and a transmit load takes a generation above it. (R172, R173, R175, R186, R192, R193) -/
def Obligations.SlotEvents : Prop :=
  (∀ s i k jr, ((s.assoc true i).slot k).state = .loading → Completes (.slotLoadComplete true i k jr) s (rxLoaded s i k)) ∧
  (∀ s i k, ((s.assoc false i).slot k).state = .loading → s.dev.mcUp = true → s.pair.partner ≠ .ready → s.pair.partner ≠ .lost →
    Completes (.slotLoadComplete false i k true) s (txLoaded s i k)) ∧
  (∀ s i k, ((s.assoc false i).slot k).state = .loading → s.dev.mcUp = true → s.pair.partner = .ready →
    Completes (.slotLoadComplete false i k true) s (if ((s.assoc false i).slot k).journaled = true then txLoaded s i k else s)) ∧
  (∀ s i k, ((s.assoc false i).slot k).state = .loading → s.dev.mcUp = true →
    Completes (.slotLoadComplete false i k false) s (loadFailed s i k)) ∧
  (∀ s i k, ((s.assoc false i).slot k).state = .draining → ((s.assoc false i).slot k).inFlight = 0 →
    Completes (.slotDrainComplete i k) s (autoNext (clearSlot s false i k) i)) ∧
  (∀ s i, (s.assoc false i).retryDue = true → Completes (.autoNextRetry i) s (autoNext s i)) ∧
  (∀ s i k, (s.assoc true i).retiring = some k →
    Completes (.rxRetireTimerExpiry i) s (clearSlot (s.setAssoc true i { s.assoc true i with retiring := none }) true i k)) ∧
  (∀ s i k root m, ((s.assoc true i).slot k).state = .probation → ((s.assoc true i).slot k).candidate = false →
    rootKey s (s.assoc true i).record.root = .ok root → m = deriveKey root (s.assoc true i).record 0 ((s.assoc true i).slot k).gen →
    Completes (.followCandidateReady i k) s (putSlot s true i k { (s.assoc true i).slot k with
      candidate := true, key := m.take (keyBytes (s.assoc true i).record.suite), salt := m.drop (keyBytes (s.assoc true i).record.suite) })) ∧
  (∀ s i k e, ((s.assoc true i).slot k).state = .probation → ((s.assoc true i).slot k).candidate = false →
    rootKey s (s.assoc true i).record.root = .error e →
    Completes (.followCandidateReady i k) s (clearSlot (saAlarm s i F.SA_ALARM_FOLLOW_FAIL) true i k)) ∧
  (∀ s root ctx gen, s.genHighOf root ctx ≤ (raiseGen s root ctx gen).genHighOf root ctx) ∧
  (∀ s a root ctx g h, loadGen s false a root ctx g = .ok h → s.genHighOf root ctx < h)

/-! ### The cistern -/

/-- A frame that may spill is written to free cells of its owner (which ones is free: log entry 131), cell by cell under the errors met, or the
spill is counted and alarmed as FULL; it is spilled with the acknowledgement in an ACTIVE cistern, unless it has left its queue meanwhile. A
frame due for fetch-back is staged; in a quarantined subtree it is dropped. The sweep drops frames above the age limit with an alarm. What a
block was sealed with is what it opens to, and every advance raises the counter of its unit by one. (R233, R234, R236, R243) -/
def Obligations.CisternSpillAndFetch : Prop :=
  (∀ s h errs, maySpill s h = true → allocCells s (frameOwner s (s.frame h)) h (cisternCells (s.frame h)) = none →
    Completes (.spill h errs) s ((s.alarm R.CIS_ALARM F.CIS_ALARM_FULL).count (.cis 9))) ∧
  (∀ s h errs cells t u, maySpill s h = true → allocCells s (frameOwner s (s.frame h)) h (cisternCells (s.frame h)) = some (cells, t) →
    u = t.setFrame h { t.frame h with cells := cells, staged := [], quarantined := false } →
    Completes (.spill h errs) s (cells.zipIdx.foldl (writeCell errs h (s.frame h).bytes) u)) ∧
  (∀ s h phase, (s.frame h).cells ≠ [] → (s.frame h).spilled = false → s.cistern.state = 1 → (∀ x ∈ jobsOf s h, x.stage = .queued) →
    Completes (.spillWriteAck h phase) s ((s.setFrame h { s.frame h with spilled := true, spillTime := phase % 11 }).count (.cis 0))) ∧
  (∀ s h phase, (s.frame h).cells ≠ [] → (s.frame h).spilled = false → s.cistern.state ≠ 1 ∨ (∃ x ∈ jobsOf s h, x.stage ≠ .queued) →
    Completes (.spillWriteAck h phase) s (unspill s h)) ∧
  (∀ s h, fetchDue s h = true → (s.frame h).quarantined = false → Completes (.fetchBackComplete h .none) s (stageCell s h)) ∧
  (∀ s h err, fetchDue s h = true → (s.frame h).quarantined = true → Completes (.fetchBackComplete h err) s (dropSpilled s (.cis 3) h)) ∧
  (∀ s, Completes .cisternAgeSweep s ((spilledFrames s).foldl sweepFrame s)) ∧
  (∀ s h, s.fld R.CIS_ROT F.CIS_ROT_MAX_AGE_MS < (s.frame h).spillTime →
    sweepFrame s h = (dropSpilled s (.cis 2) h).alarm R.CIS_ALARM F.CIS_ALARM_AGED) ∧
  (∀ c b l, l.length = 64 → openBlock (sealBlock c b l) b = l) ∧
  (∀ c level unit, level < 4 → (c.counter level unit).2 ≤ 127 → ((advance c level unit).1.counter level unit).1 * 128 + ((advance c level unit).1.counter level unit).2 =
    (c.counter level unit).1 * 128 + (c.counter level unit).2 + 1)

/-- ROTATE of an owner with regions rotates it, or ends FULL when no key ID is empty, and NOT_FOUND for a number that is no owner or an owner
without regions; a timed rotation does the same in silence. SCRUB_NOW sets BUSY. In FAILED both are DENIED, and while BUSY both are ignored.
A retired key ID without cells outside quarantine is emptied, and a draining region without cells is given its owner's current key: ACTIVE
where it is new enough, REINIT otherwise. (R247, R248, R249, R258) -/
def Obligations.CisternKeysAndRegions : Prop :=
  (∀ s o, s.reachable = true → s.serves .cis = true → s.flag R.CIS_STATUS F.CIS_STATUS_BUSY = false → s.cistern.state ≠ 2 → 0 < o → o ≤ 6 →
    regionsOf s.cistern o ≠ [] → Completes (.cisRotate o) s (match rotate s o with
      | some t => t.setFld R.CIS_STATUS F.CIS_STATUS_STATUS (Status.code .ok)
      | none => s.setFld R.CIS_STATUS F.CIS_STATUS_STATUS (Status.code .full))) ∧
  (∀ s o, s.reachable = true → s.serves .cis = true → s.flag R.CIS_STATUS F.CIS_STATUS_BUSY = false → s.cistern.state ≠ 2 →
    o = 0 ∨ 6 < o ∨ regionsOf s.cistern o = [] → Completes (.cisRotate o) s (s.setFld R.CIS_STATUS F.CIS_STATUS_STATUS (Status.code .notFound))) ∧
  (∀ s, s.reachable = true → s.serves .cis = true → s.flag R.CIS_STATUS F.CIS_STATUS_BUSY = false → s.cistern.state ≠ 2 →
    Completes .scrubNow s ((s.setFld R.CIS_STATUS F.CIS_STATUS_BUSY 1).setFld R.CIS_STATUS F.CIS_STATUS_STATUS (Status.code .ok))) ∧
  (∀ s o, s.reachable = true → s.serves .cis = true → s.flag R.CIS_STATUS F.CIS_STATUS_BUSY = false → s.cistern.state = 2 →
    Completes .scrubNow s (s.setFld R.CIS_STATUS F.CIS_STATUS_STATUS (Status.code .denied)) ∧
    Completes (.cisRotate o) s (s.setFld R.CIS_STATUS F.CIS_STATUS_STATUS (Status.code .denied))) ∧
  (∀ s o, s.reachable = true → s.serves .cis = true → s.flag R.CIS_STATUS F.CIS_STATUS_BUSY = true →
    Completes .scrubNow s s ∧ Completes (.cisRotate o) s s) ∧
  (∀ s o, s.fld R.CIS_ROT F.CIS_ROT_ROT_H ≠ 0 → s.cistern.state = 1 → 0 < o → o ≤ 6 → regionsOf s.cistern o ≠ [] →
    Completes (.timedRotation o) s ((rotate s o).getD s)) ∧
  (∀ s k, (kget {} s.cistern.keyIds k).state = .retiring → soundCells s.cistern k = 0 → ∃ t, Completes (.keyidRetireComplete k) s t ∧
    kget {} t.cistern.keyIds k = {} ∧ t = { s with cistern := t.cistern }) ∧
  (∀ s r, Completes (.regionDrainComplete r) s { s with cistern := drained s.cistern r }) ∧
  (∀ c r k, (kget {} c.regions r).state = .draining → regionCells c r = 0 → currentId c (kget {} c.regions r).owner = some k →
    drained c r = retag c r k ∧
    (kget {} (retag c r k).regions r).state = (if (kget {} c.regions r).born ≤ (kget {} c.keyIds k).serial then .active else .reinit))

/-- A dirty node that is written back without error is clean, with its parent's counter advanced and its tag anew. A scrub visit that finds
nothing, or an error of a tag, changes no data; one that finds an uncorrectable block notes it, queues its row for repair and drops its
owner; at the end of a pass BUSY is 0. A row is repaired, taken off the queue, counted and one more pending, or its repair fails with an
alarm, a count of its stack and its cells out of use; the 65th failure of a stack fails the cistern. A stack that fails puts the cistern in
FAILED, aborts what is being written and drops every spilled frame (under a counter that is free: log entry 132), once. (R243, R250, R252,
R253, R254) -/
def Obligations.CisternErrorsAndRepair : Prop :=
  (∀ s k n, k ≤ 3 → s.cistern.dirty.contains (unitKey k n) = true →
    ∃ c, c = (advance s.cistern (k + 1) n).1 ∧ Completes (.nodeWriteBack k n []) s
      { s with cistern := sealNode { c with dirty := c.dirty.filter (· ≠ unitKey k n) } k n }) ∧
  (∀ s b pe, s.cistern.state = 1 → b < 469762048 → s.flag R.CIS_STATUS F.CIS_STATUS_BUSY = true ∨ s.flag R.CIS_SCRUB F.CIS_SCRUB_SCRUB_EN = true →
    (∀ err, err = .none ∨ err = .dataTag ∨ (∃ k, err = .nodeTag k) →
      Completes (.scrubVisit b err pe) s (if pe = true then s.setFld R.CIS_STATUS F.CIS_STATUS_BUSY 0 else s)) ∧
    ∃ t, t = dropOwner (queueRepair ((noteError s 1 0 b).alarm R.CIS_ALARM F.CIS_ALARM_DATA_UE) b) (.cis 4) b ∧ Completes (.scrubVisit b .dataUncorr pe) s (if pe = true then t.setFld R.CIS_STATUS F.CIS_STATUS_BUSY 0 else t)) ∧
  (∀ s b n, onMemErr s b (.corrected n) = s.countN (.cis 6) n) ∧
  (∀ s k cells d, s.cistern.state = 1 → ∃ u, u = (if d = true then
      { s with cistern := { s.cistern with repairs := s.cistern.repairs.filter (fun b => !cells.contains (b / 4)) } } else s) ∧
    Completes (.rowRepair k cells d true) s ((bumpPpr (bumpPpr u F.CIS_PPR_SOFT_DONE) F.CIS_PPR_HARD_PENDING).count (.cis 8))) ∧
  (∀ s k cells, s.cistern.state = 1 → kget 0 s.cistern.failedRows (k % 2) < 64 → ∃ t, Completes (.rowRepair k cells true false) s t ∧
    t.cistern.outCells = cells ++ s.cistern.outCells ∧ kget 0 t.cistern.failedRows (k % 2) = kget 0 s.cistern.failedRows (k % 2) + 1 ∧
    t.fld R.CIS_PPR F.CIS_PPR_FAILED = min 255 (s.fld R.CIS_PPR F.CIS_PPR_FAILED + 1) ∧ t.flag R.CIS_ALARM F.CIS_ALARM_PPR_FAIL = true) ∧
  (∀ s k cells, s.cistern.state = 1 → 64 ≤ kget 0 s.cistern.failedRows (k % 2) → ∃ u, u.cistern.state = 1 ∧
    Completes (.rowRepair k cells false false) s (cisternFails u) ∧ u = { s with regs := u.regs, out := u.out, cistern := u.cistern }) ∧
  (∀ s, s.cistern.state = 1 → Completes .stackFail s (cisternFails s)) ∧
  (∀ s, cisternFails s = diagnose (dropAllSpilled (abortSpills ({ s with cistern := { s.cistern with state := 2 } }.alarm R.CIS_ALARM
    F.CIS_ALARM_STACK_FAIL))) 4 true) ∧
  (∀ s, s.cistern.state ≠ 1 → Completes .stackFail s s)

/-! ### Lanes, spares and ports -/

/-- A lane that is not locked and whose conditions are over locks its markers: it is up where they name its planned place, and notes LANE_REV
where they name another; on a spare steered to it by command the spare carries it. A trunk's lane is identified by a good marker of its
trunk and width alone. A lane that does not lock in 1.5 s, or that a fault befalls, is faulted under its condition. A degraded lane or
carrying spare sets its bit; a lane asks for a spare only with ON_DEGRADE. LANE_FAULT_CLEAR ends the conditions: the lane retrains, and
stays Faulted until it locks; a spare is free of them. (R97, R106, R107) -/
def Obligations.LaneEvents : Prop :=
  (∀ s l pol pl m sk n t, l < 36 → l % 18 < 16 → assigned s l = true → (s.lane l).locked = false → (∀ c ∈ (s.lane l).conditions, c = 7) →
    (∀ k ∈ sparesOf l, (s.spare k).rx ≠ .steered l) → foundLane s l pl m = some n →
    t = s.setLane l { s.lane l with
      locked := true, hurt := false, conditions := [], txDisabled := false, signal := true, cdrLock := true, polInv := pol, portLane := n
      reversed := decide (plannedLane s l n ≠ n), sent := 0, got := 0 } →
    Completes (.laneMarkerLock l pol pl m sk) s
      (laneEdge s l (if plannedLane s l n = n then t else t.setFld (aLANE_FAULT l) F.LANE_FAULT_LANE_REV 1) sk)) ∧
  (∀ s l pol pl m sk n k, l < 36 → l % 18 < 16 → assigned s l = true → (sparesOf l).find? (fun k => (s.spare k).rx = .steered l) = some k →
    foundLane s l pl m = some n → plannedLane s l n = n → ∃ t, Completes (.laneMarkerLock l pol pl m sk) s (laneEdge s l t sk) ∧
    (t.spare k).rx = .carrying l ∧ t.lane l = { s.lane l with sent := 0, got := 0 } ∧ t = { s with spares := t.spares, lanes := t.lanes }) ∧
  (∀ s l p pl m, carrierOf s l = some p → p < 64 → pl < 16 → foundLane s l pl m = some pl) ∧
  (∀ s l t i c pl, carrierOf s l = some (64 + t) → t < 4 → i < s.fld (R.CAS_CFG t) F.CAS_CFG_WIDTH → c < 240 →
    foundLane s l pl (laneMarker i (s.fld (R.CAS_CFG t) F.CAS_CFG_WIDTH) t c) = some i) ∧
  (∀ s l pol pl m sk, foundLane s l pl m = none → Completes (.laneMarkerLock l pol pl m sk) s s) ∧
  (∀ s l, l < 36 → l % 18 < 16 → assigned s l = true → (s.lane l).locked = false → (s.lane l).conditions = [] →
    Completes (.trainTimeout l) s (faultLane s l 7)) ∧
  (∀ s l kind, l < 36 → kind ≤ 5 → Completes (.laneFault l kind) s (faultLane s l kind)) ∧
  (∀ s l kind, assigned s l = true → carriedRx s l = none → carriedTx s l = none → laneState (s.setLane l (hurtLane (s.lane l) kind)) l = .faulted) ∧
  (∀ s l t, l < 36 → l % 18 < 16 → laneState s l = .up →
    t = (s.setFld (aLANE_FAULT l) F.LANE_FAULT_DEGRADE 1).setLane l { s.lane l with degraded := true } →
    Completes (.laneDegrade l) s (if s.flag (aSPARE_CFG (sideOf l)) F.SPARE_CFG_ON_DEGRADE = true then requestSparing t l 6 else t)) ∧
  (∀ s k l, k < 36 → 16 ≤ k % 18 → (s.spare k).rx = .carrying l →
    Completes (.laneDegrade k) s ((s.setFld (aLANE_FAULT k) F.LANE_FAULT_DEGRADE 1).setLane k { s.lane k with degraded := true })) ∧
  (∀ s l, l < 36 → (s.lane l).conditions = [] → ∃ t, Completes (.laneFaultClear l) s t ∧ (t.lane l).degraded = false ∧ (t.lane l).locked = (s.lane l).locked) ∧
  (∀ s l, l < 36 → 16 ≤ l % 18 → (s.lane l).conditions ≠ [] → ∃ t, Completes (.laneFaultClear l) s t ∧ (t.lane l).conditions = [] ∧
    (t.lane l).hurt = false ∧ (t.lane l).txDisabled = false ∧ t = { s with lanes := t.lanes }) ∧
  (∀ s l, l < 36 → l % 18 < 16 → (s.lane l).conditions ≠ [] → replacedBy s l = none → ∃ t, Completes (.laneFaultClear l) s (laneEdge s l t) ∧
    (t.lane l).conditions = [] ∧ (t.lane l).locked = false ∧ (t.lane l).hurt = (s.lane l).hurt ∧ (t.lane l).txDisabled = false ∧
    t = { s with lanes := t.lanes })

/-- A block built by the transmitter is good. Outside coordinated mode, and off a spare, a block changes nothing; a bad one ends the wait for
SYNC. A good IDLE on a receive spare of a coordinated side gives PARTNER_OK, which 1 ms without one takes away; an ASK of a lane of no
carrier is counted, of another lane answered on a free spare; RELEASE frees both sides. MOVE, and directly after it the SYNC of the same
number, arm the spare; it takes the lane's place with as many bits discarded as the lane's count has passed POSITION, or is held until the
count equals it. The second ASK that is not answered is released and counted, and what waited for its SYNC ends. (R109, R110, R111, R113) -/
def Obligations.SteeringExchange : Prop :=
  (∀ cmd lane spare seq pos, steerGood (steerBlock cmd lane spare seq pos) = true) ∧
  (∀ s k b, 36 ≤ k ∨ k % 18 < 16 ∨ spareMode s (sideOf k) ≠ 1 → Completes (.steeringBlockAccept k b) s s) ∧
  (∀ s k b, k < 36 → 16 ≤ k % 18 → spareMode s (sideOf k) = 1 → steerGood b = false → (∀ l q, (s.spare k).rx ≠ .moveSeen l q) →
    Completes (.steeringBlockAccept k b) s s) ∧
  (∀ s k b l q, k < 36 → 16 ≤ k % 18 → spareMode s (sideOf k) = 1 → steerGood b = false → (s.spare k).rx = .moveSeen l q →
    Completes (.steeringBlockAccept k b) s (s.setSpare k { s.spare k with rx := .idle })) ∧
  (∀ s k b t, k < 36 → 16 ≤ k % 18 → spareMode s (sideOf k) = 1 → steerGood b = true → (∀ l q, (s.spare k).rx ≠ .moveSeen l q) →
    t = s.setLane k { s.lane k with signal := true, cdrLock := true } →
    (beAt b 4 1 = 0 → Completes (.steeringBlockAccept k b) s (t.setSpare k { s.spare k with partnerOk := true })) ∧
    (beAt b 5 1 < 16 → ∀ l, l = 18 * sideOf k + beAt b 5 1 →
      (beAt b 4 1 = 1 → carrierOf s l = none → Completes (.steeringBlockAccept k b) s
        { t with askIgnored := kset 0 s.askIgnored (sideOf k) (kget 0 s.askIgnored (sideOf k) + 1) }) ∧
      (∀ m, beAt b 4 1 = 1 → (carrierOf s l).isSome = true → (∀ x, spareWith t (sideOf k) (fun x => x.tx = .bridging l || x.tx = .carrying l) ≠ some x) →
        freeSpare t l false = some m → Completes (.steeringBlockAccept k b) s (moveOnto t m l (.bridging l))) ∧
      (beAt b 4 1 = 2 → (s.spare k).rx = .idle →
        Completes (.steeringBlockAccept k b) s (t.setSpare k { s.spare k with rx := .moveSeen l (beAt b 7 1) })) ∧
      (beAt b 4 1 = 4 → Completes (.steeringBlockAccept k b) s (releaseAccepted t (sideOf k) l)))) ∧
  (∀ s k b l, k < 36 → 16 ≤ k % 18 → steerGood b = true → spareMode s (sideOf k) = 1 → beAt b 4 1 = 3 → beAt b 5 1 < 16 →
    l = 18 * sideOf k + beAt b 5 1 → (s.spare k).rx = .moveSeen l (beAt b 7 1) →
    (∀ m : Nat, ∀ q, (s.spare m).tx ≠ .asking l q) → ∃ t, Completes (.steeringBlockAccept k b) s t ∧
    t.spare k = { s.spare k with rx := .synced l (beAt b 8 4) } ∧ t.lane k = { s.lane k with signal := true, cdrLock := true } ∧
    t = { s with spares := t.spares, lanes := t.lanes }) ∧
  (∀ s k, Completes (.partnerOkTimeout k) s (s.setSpare k { s.spare k with partnerOk := false })) ∧
  (∀ s k l p d t, (s.spare k).rx = .synced l p → d = ((s.lane l).got / 32 + 2 ^ 32 - p % 2 ^ 32) % 2 ^ 32 → d < 2 ^ 31 →
    t = s.setSpare k { s.spare k with rx := .carrying l, discarded := d } → Completes (.spareAlign k) s (laneEdge s l t)) ∧
  (∀ s k l p d t, (s.spare k).rx = .synced l p → d = ((s.lane l).got / 32 + 2 ^ 32 - p % 2 ^ 32) % 2 ^ 32 → 2 ^ 31 ≤ d →
    t = s.setSpare k { s.spare k with rx := .carrying l, discarded := 0 } →
    Completes (.spareAlign k) s (laneEdge s l (t.setLane l { s.lane l with got := p % 2 ^ 32 * 32 }))) ∧
  (∀ s k l, (s.spare k).tx = .asking l true → ∃ t, Completes (.askTimeout k) s t ∧ (t.spare k).tx = .idle ∧
    (∀ m, spareWith s (sideOf k) (fun x => x.rx.awaits l) = some m → (t.spare m).rx = .idle) ∧
    t.fld (aSPARE_STATUS (sideOf k)) F.SPARE_STATUS_ASK_TIMEOUTS = min 0xFFFF (s.fld (aSPARE_STATUS (sideOf k)) F.SPARE_STATUS_ASK_TIMEOUTS + 1))

/-- In commanded mode the three steering commands give an open spare of the pool the lane, in the direction asked for, and end OK; else they end
with the first code that applies: INVALID in another mode, DENIED outside the pool, FULL for a spare in use, NOT_FOUND for a lane of no port
or trunk. While a release runs on the side every command ends BUSY. RELEASE is DENIED for a spare outside the pool, NOT_FOUND for a lane of
no port or trunk or one that the spare does not serve (the latter the model's choice: log entry 226); in coordinated mode RELEASE goes out
and the command is BUSY until the exchange is reversed, at once elsewhere. (R114, R115, R126, R127) -/
def Obligations.SpareCommands : Prop :=
  (∀ s side k l n, n = sideNum side → s.reachable = true → s.serves (blockOf (aSPARE_CMD n)) = true → kget none s.releasing n = none →
    (∀ c, steerCheck s n (spareLane n (k % 2)) (18 * n + l % 16) true false = c → Completes (.steerTransmit side k l) s
      (if c = .ok then steerTo (spareStatus s n .ok) (spareLane n (k % 2)) (18 * n + l % 16) true false else spareStatus s n c)) ∧
    (∀ c, steerCheck s n (spareLane n (k % 2)) (18 * n + l % 16) false true = c → Completes (.steerReceive side k l) s
      (if c = .ok then steerTo (spareStatus s n .ok) (spareLane n (k % 2)) (18 * n + l % 16) false true else spareStatus s n c)) ∧
    (∀ c, steerCheck s n (spareLane n (k % 2)) (18 * n + l % 16) true true = c → Completes (.steerBoth side k l) s
      (if c = .ok then steerTo (spareStatus s n .ok) (spareLane n (k % 2)) (18 * n + l % 16) true true else spareStatus s n c))) ∧
  (∀ s n k l tx rx, spareMode s n ≠ 2 → steerCheck s n k l tx rx = .invalid) ∧
  (∀ s n k l tx rx, spareMode s n = 2 → inPool s k = false → steerCheck s n k l tx rx = .denied) ∧
  (∀ s n k l tx rx, spareMode s n = 2 → inPool s k = true → spareOpen s k l tx rx = false → steerCheck s n k l tx rx = .full) ∧
  (∀ s n k l tx rx, spareMode s n = 2 → inPool s k = true → spareOpen s k l tx rx = true → carrierOf s l = none → steerCheck s n k l tx rx = .notFound) ∧
  (∀ s n k l tx rx, spareMode s n = 2 → inPool s k = true → spareOpen s k l tx rx = true → (carrierOf s l).isSome = true → sameRate s k l = true →
    steerCheck s n k l tx rx = .ok) ∧
  (∀ s k l, (s.spare k).tx = .idle → (s.spare k).rx = .idle → ∀ tx rx, spareOpen s k l tx rx = true) ∧
  (∀ s side k l n r, n = sideNum side → s.reachable = true → s.serves (blockOf (aSPARE_CMD n)) = true → kget none s.releasing n = some r →
    Completes (.steerTransmit side k l) s (spareStatus s n .busy) ∧ Completes (.steerReceive side k l) s (spareStatus s n .busy) ∧
    Completes (.steerBoth side k l) s (spareStatus s n .busy) ∧ Completes (.spareRelease side k l) s (spareStatus s n .busy)) ∧
  (∀ s side k l n m x, n = sideNum side → m = spareLane n (k % 2) → x = 18 * n + l % 16 → s.reachable = true → s.serves (blockOf (aSPARE_CMD n)) = true →
    kget none s.releasing n = none →
    Completes (.spareRelease side k l) s
      (if inPool s m = false then spareStatus s n .denied
       else if carrierOf s x = none ∨ spareServes s m x = false then spareStatus s n .notFound
       else if spareMode s n = 1 then { sendSteer (spareStatus s n .busy) m 4 (x % 18) 0 with releasing := kset none s.releasing n (some (m, x)) }
       else freeOf (spareStatus s n .ok) m x)) ∧
  (∀ s side m x, kget none s.releasing side = some (m, x) →
    finishRelease s side = freeOf (spareStatus { s with releasing := kset none s.releasing side none } side .ok) m x)

/-- UP ends a hold. SLEEP drops what is queued and begins the entry, or is denied where SLEEP_OK is 0; the port sleeps when what was dispatched
has left. A command, a pattern, or a change of the link with WAKE_CTRL.LINK wakes it with its cause, and the frame that matched is dropped;
a frame that matches no pattern changes nothing. A change of the receive PCS is kept in every state of sleep, and a port that goes down by
it drops what is queued under node-closed and verifies preemption anew. (R100, R101, R103, R104, R118) -/
def Obligations.PortCommandsAndSleep : Prop :=
  (∀ s p, p < 32 → s.reachable = true → s.serves (blockOf (aPORT_CTRL p)) = true →
    Completes (.portUp p) s (s.setPort p { s.port p with held := false })) ∧
  (∀ s p, p < 32 → s.reachable = true → s.serves (blockOf (aPORT_CTRL p)) = true → s.flag (aPORT_CFG p) F.PORT_CFG_SLEEP_OK = true →
    (s.port p).sleep = .awake →
    Completes (.portSleep p) s ((s.dropQueued p (.port p 21)).setPort p { s.port p with sleep := .entering })) ∧
  (∀ s p, p < 32 → s.reachable = true → s.serves (blockOf (aPORT_CTRL p)) = true → s.flag (aPORT_CFG p) F.PORT_CFG_SLEEP_OK = false →
    Completes (.portSleep p) s (s.setFld (aPORT_ERR p) F.PORT_ERR_SLEEP_DENIED 1)) ∧
  (∀ s p, (s.port p).sleep = .entering → inFlightTo s p = false → Completes (.sleepReached p) s (s.setPort p { s.port p with sleep := .asleep })) ∧
  (∀ s p, p < 32 → s.reachable = true → s.serves (blockOf (aPORT_CTRL p)) = true → (s.port p).sleep = .asleep →
    Completes (.portWake p) s (s.setPort p { s.port p with sleep := .waking, wakeCause := 1 })) ∧
  (∀ s p f k, p < 32 → (s.port p).sleep = .asleep → (List.range 4).find? (fun i => wakeMatch s p i f) = some k → ∃ t,
    t = s.setPort p { s.port p with sleep := .waking, wakeCause := 2 } ∧
    Completes (.wakePatternMatch p f) s (wakeDrop (t.setPort p { t.port p with matched := k }) p)) ∧
  (∀ s p f, p < 32 → (s.port p).sleep = .asleep → (∀ i, i < 4 → wakeMatch s p i f = false) → Completes (.wakePatternMatch p f) s s) ∧
  (∀ s p a lf rf, p < 32 → (s.port p).sleep = .asleep → s.flag (aWAKE_CTRL p) F.WAKE_CTRL_LINK = true →
    (s.port p).aligned ≠ a ∨ ((s.port p).rf = true ∧ rf = false ∧ lf = false) →
    ∃ t, Completes (.linkChangeWake p a lf rf) s t ∧
      t.port p = { s.port p with aligned := a, lf := lf, rf := rf, sleep := .waking, wakeCause := 3 } ∧ t = { s with ports := t.ports }) ∧
  (∀ s p a lf rf, p < 32 → (s.port p).sleep = .asleep → s.flag (aWAKE_CTRL p) F.WAKE_CTRL_LINK = false →
    Completes (.linkChangeWake p a lf rf) s (s.setPort p { s.port p with aligned := a, lf := lf, rf := rf })) ∧
  (∀ s p, (s.port p).sleep = .waking → Completes (.wakeComplete p) s (s.setPort p { s.port p with sleep := .awake })) ∧
  (∀ s p ok, p < 32 → s.flag (aPORT_CFG p) F.PORT_CFG_PREEMPT_EN = true →
    Completes (.preemptVerify p ok) s (s.setPort p { s.port p with verify := if ok = true then .active else .failed })) ∧
  (∀ s p a lf rf, p < 32 → (s.port p).sleep ≠ .asleep → Completes (.receivePcsChange p a lf rf) s
    (portEdge s p (s.setPort p { s.port p with aligned := a, lf := lf, rf := rf }))) ∧
  (∀ s k p, portUp s p = true → portUp k p = false →
    portEdge s p k = (k.dropQueued p (.port p 22)).setPort p { k.port p with verify := .verifying })

/-! ### Cascade trunks -/

/-- A running trunk of an Active device sends a frame that begins with the alignment word and its FC, and takes the next FC; one whose lanes
send without it sends fill, and one whose lanes do not send nothing. Of what is sent, a chunk at the start of a marker interval is preceded
by the next marker of every lane, past the scrambler; another chunk goes scrambled to the lane of its turn; and two lanes of 257 symbols
make codewords of 272 symbols each. A receiver that hunts takes the first exact alignment word; after three exact ones in all it looks for
order in what it receives, an inexact one sends it back, and an aligned one judges the frame. A key that is pending is derived and held. A
frame of an epoch below the lowest one accepted is stale, one whose key is not held waits for it, or is stale where MASTER is not there, and
one whose FC does not rise within its epoch is never accepted. Frames are hunted whole (log entry 143). (R297, R298, R299, R301, R304, R305,
R307, R317) -/
def Obligations.CascadeFrames : Prop :=
  (∀ s t cl, trunkSends s t = true → trunkLive s t = true → (s.trunk t).running = true → ∃ f g u, (f, u) = nextFrame t cl s ∧
    f = faw ++ be 8 (s.trunk t).txFc ++ g ∧ (u.trunk t).txFc = (s.trunk t).txFc + 1 ∧ (u.trunk t).rei = 0 ∧
    Completes (.cascadeFrameSend t cl) s (sendStream (u.emit (.cascade t f)) t f)) ∧
  (∀ s t cl, trunkSends s t = true → trunkLive s t = false ∨ (s.trunk t).running = false →
    Completes (.cascadeFrameSend t cl) s (sendStream s t (List.replicate 16384 0))) ∧
  (∀ s t cl, trunkSends s t = false → Completes (.cascadeFrameSend t cl) s s) ∧
  (∀ t x chunk i c, x.chunk = 0 → 0 < i → x.coders[i]? = some c → (sendChunk t x chunk).mcnt = (x.mcnt + 1) % 240 ∧
    (sendChunk t x chunk).coders[i]? = some { c with bits := c.bits ++ bitsOfBytes (laneMarker i x.coders.length t x.mcnt) }) ∧
  (∀ t x chunk i c, x.chunk ≠ 0 → i = x.chunk % x.coders.length → x.coders[i]? = some c → (sendChunk t x chunk).mcnt = x.mcnt ∧
    (sendChunk t x chunk).coders[i]? =
      some { scr := (scramble c.scr (bitsOfBytes chunk)).1, bits := c.bits ++ (scramble c.scr (bitsOfBytes chunk)).2 }) ∧
  (∀ a b : List (BitVec 10), a.length = 257 → b.length = 257 → (codeword a b).1.length = 272 ∧ (codeword a b).2.length = 272) ∧
  (∀ s t f e corr u, trunkLive s t = true → (s.trunk t).deskewed = true → f.length = 16384 →
    u = (s.countN (.cas t 5) 0).countN (.cas t 6) corr → (s.trunk t).fa = 0 →
    Completes (.cascadeFrameReceive t f e 0 corr) s
      (updateDefects (if fawErrors f = 0 then u.setTrunk t { s.trunk t with fa := 1, faCount := 1 } else u) t)) ∧
  (∀ s t f e corr u, trunkLive s t = true → (s.trunk t).deskewed = true → f.length = 16384 →
    u = (s.countN (.cas t 5) 0).countN (.cas t 6) corr → (s.trunk t).fa = 1 →
    Completes (.cascadeFrameReceive t f e 0 corr) s (updateDefects (u.setTrunk t
      (if fawErrors f = 0 then
        if 3 ≤ (s.trunk t).faCount + 1 then { s.trunk t with fa := 2, faCount := 0 } else { s.trunk t with faCount := (s.trunk t).faCount + 1 }
       else loseAlignment (s.trunk t))) t)) ∧
  (∀ s t f e corr u, trunkLive s t = true → (s.trunk t).deskewed = true → f.length = 16384 →
    u = (s.countN (.cas t 5) 0).countN (.cas t 6) corr → 2 ≤ (s.trunk t).fa →
    Completes (.cascadeFrameReceive t f e 0 corr) s (updateDefects (receiveJudged u t f e) t)) ∧
  (∀ s t e k, (s.trunk t).pendingKey = some e → masterKey s t = some k → Completes (.epochKeyDerived t) s
    (s.setTrunk t { s.trunk t with pendingKey := none, rxKeys := (e, epochKey k (rxTagOf s t) e) :: (s.trunk t).rxKeys })) ∧
  (∀ s t f, beAt f 16 4 < epochFloor s t → judge s t f = (.stale, [])) ∧
  (∀ s t f, epochFloor s t ≤ beAt f 16 4 → heldKey (s.trunk t) (beAt f 16 4) = none →
    judge s t f = (if (masterKey s t).isNone then .stale else .keyWait, [])) ∧
  (∀ s t f k, epochFloor s t ≤ beAt f 16 4 → heldKey (s.trunk t) (beAt f 16 4) = some k →
    (s.trunk t).rxAny = true → (s.trunk t).rxEpoch = beAt f 16 4 → beAt f 8 8 ≤ (s.trunk t).rxFc → (judge s t f).1 ≠ .accepted)

/-- A switch asks for the epoch above every one used; while one runs the command is BUSY, and at the end of the epochs EXHAUSTED with its alarm.
The period starts a switch by itself. The confirmed epoch is sent from FC 0 on a trunk that does not run, or announced on one that does; a
failed journal write sets an alarm and is tried again, and nothing is confirmed while the partner is LOST. (R304, R306, R427) -/
def Obligations.CascadeEpochs : Prop :=
  (∀ s t, t < 4 → s.reachable = true → s.serves (blockOf (R.CAS_CMD t)) = true → s.flag (R.CAS_CFG t) F.CAS_CFG_ENABLE = true →
    (s.trunk t).asked = none → (s.trunk t).nextEpoch = 0 →
    Completes (.epochSwitch t) s (match askEpoch s t with
      | some u => u.setFld (R.CAS_CMDST t) F.CAS_CMDST_STATUS (Status.code .ok)
      | none => (epochExhausted s t).setFld (R.CAS_CMDST t) F.CAS_CMDST_STATUS (Status.code .exhausted))) ∧
  (∀ s t, t < 4 → s.reachable = true → s.serves (blockOf (R.CAS_CMD t)) = true → s.flag (R.CAS_CFG t) F.CAS_CFG_ENABLE = true →
    (s.trunk t).asked ≠ none ∨ (s.trunk t).nextEpoch ≠ 0 →
    Completes (.epochSwitch t) s (s.setFld (R.CAS_CMDST t) F.CAS_CMDST_STATUS (Status.code .busy))) ∧
  (∀ s t, t < 4 → s.reg (R.CAS_EPER t) ≠ 0 → Completes (.epochPeriodExpiry t) s (epochSwitch s t).1) ∧
  (∀ s t u, askEpoch s t = some u → (u.trunk t).asked = some (s.genHighOf (masterHandle s t) (txTag s t) + 1)) ∧
  (∀ s t e k u, (s.trunk t).asked = some e → s.dev.mcUp = true → s.pair.partner = .none →
    u = journalGen (s.free 65536).2 (s.free 65536).1 (masterHandle (s.free 65536).2 t) (txTag (s.free 65536).2 t) e → masterKey u t = some k →
    Completes (.epochConfirmed t true) s (u.setTrunk t
      (if (s.trunk t).running = true then { s.trunk t with asked := none, nextEpoch := e, countdown := 17 }
       else { s.trunk t with asked := none, running := true, txEpoch := e, txKey := epochKey k (txTag u t) e, txFc := 0 }))) ∧
  (∀ s t e, (s.trunk t).asked = some e → s.dev.mcUp = true → s.pair.partner = .none →
    Completes (.epochConfirmed t false) s (journalFault ((s.alarm (R.CAS_ALARM t) F.CAS_ALARM_JOURNAL).setTrunk t
      { s.trunk t with asked := none, retryDue := true }))) ∧
  (∀ s t jr, (s.trunk t).asked ≠ none → s.pair.partner = .lost → Completes (.epochConfirmed t jr) s s) ∧
  (∀ s t, (s.trunk t).retryDue = true → Completes (.epochJournalRetry t) s
    ((askEpoch s t).getD (epochExhausted (s.setTrunk t { s.trunk t with retryDue := false }) t)))

/-- A map switch waits for its multiframe, or is BUSY while one waits; REALIGN hunts anew with OK; both, and EPOCH_SWITCH, are DENIED on a trunk
that is not enabled. A message of 1 to 4096 octets goes out on the operations channel with OK, and SEND is BUSY while one is going out. A
write of CAS_PM_SEL shows the bin chosen and freezes the values. (R309, R321, R331, R338, R339) -/
def Obligations.CascadeCommands : Prop :=
  (∀ s t, t < 4 → s.reachable = true → s.serves (blockOf (R.CAS_CMD t)) = true → s.flag (R.CAS_CFG t) F.CAS_CFG_ENABLE = true →
    Completes (.mapSwitch t) s (if (s.trunk t).mapPend = 0
      then (s.setTrunk t { s.trunk t with mapPend := 1 }).setFld (R.CAS_CMDST t) F.CAS_CMDST_STATUS (Status.code .ok)
      else s.setFld (R.CAS_CMDST t) F.CAS_CMDST_STATUS (Status.code .busy)) ∧
    Completes (.realign t) s ((updateDefects (s.setTrunk t (loseAlignment (s.trunk t))) t).setFld (R.CAS_CMDST t) F.CAS_CMDST_STATUS
      (Status.code .ok))) ∧
  (∀ s t, t < 4 → s.reachable = true → s.serves (blockOf (R.CAS_CMD t)) = true → s.flag (R.CAS_CFG t) F.CAS_CFG_ENABLE = false →
    ∀ c ∈ [Instr.mapSwitch t, .realign t, .epochSwitch t],
      Completes c s (s.setFld (R.CAS_CMDST t) F.CAS_CMDST_STATUS (Status.code .denied))) ∧
  (∀ s t len, t < 4 → s.reachable = true → s.serves (blockOf (R.CAS_OPS_CTRL t)) = true →
    s.flag (R.CAS_OPS_STATUS t) F.CAS_OPS_STATUS_TX_BUSY = false → s.flag (R.CAS_CFG t) F.CAS_CFG_ENABLE = true → 0 < len → len ≤ 4096 →
    ∃ u, Completes (.opsSend t len) s u ∧ u.flag (R.CAS_OPS_STATUS t) F.CAS_OPS_STATUS_TX_BUSY = true ∧
      u.fld (R.CAS_OPS_STATUS t) F.CAS_OPS_STATUS_STATUS = Status.code .ok ∧ (u.trunk t).opsOut.length = len ∧ (u.trunk t).opsBegun = false) ∧
  (∀ s t len, t < 4 → s.reachable = true → s.serves (blockOf (R.CAS_OPS_CTRL t)) = true →
    s.flag (R.CAS_OPS_STATUS t) F.CAS_OPS_STATUS_TX_BUSY = true →
    Completes (.opsSend t len) s (s.setFld (R.CAS_OPS_STATUS t) F.CAS_OPS_STATUS_STATUS (Status.code .busy))) ∧
  (∀ s t v, t < 4 → s.reachable = true → s.serves (blockOf (R.CAS_PM_SEL t)) = true → ∃ u,
    u = loadPm (s.setFld (R.CAS_PM_SEL t) F.CAS_PM_SEL_BIN v.toNat) t (v.toNat % 2 ^ F.CAS_PM_SEL_BIN.len) ∧
    Completes (.casPmSelWrite t v) s (u.setTrunk t { u.trunk t with frozen := true }))

/-- A slip of a transparent tributary is counted and reported until 10 ms have passed without another. A second ends with what it held judged,
its counts cleared and the defects present taken into the next one, and nothing is judged where PM is off. Ten severely errored seconds in a
row make the trunk unavailable, and ten others available again, from the first of the ten; until then seconds are held. (R325, R333, R334) -/
def Obligations.CascadeMaintenance : Prop :=
  (∀ s t i, trunkLive s t = true → i ∈ tribsOf s t → transparent s t i = true →
    Completes (.tribBufferSlip t i) s (setSlip (s.count (.cas t (32 + 4 * i + 2))) t i true)) ∧
  (∀ s t i, t < 4 → i < 32 → Completes (.dslipClear t i) s (setSlip s t i false)) ∧
  (∀ s t b now u h d, s.flag (R.CAS_PM_CFG t) F.CAS_PM_CFG_PM_EN = true → s.flag (R.CAS_CFG t) F.CAS_CFG_ENABLE = true →
    b = s.fld (R.CAS_PM_CFG t) F.CAS_PM_CFG_PM_TB → now = (s.localNow (timeIsland s (64 + t)) b).sec →
    u = (if (s.trunk t).second < now then s else s.reachIn (timeIsland s (64 + t)) b { sec := now + 1 }) → d = presentDefects u t →
    h = { start := (s.trunk t).second, es := decide (0 < (s.trunk t).ef) || (s.trunk t).uncorr || (s.trunk t).anyDef
          ses := decide (sesThreshold u t ≤ (s.trunk t).ef) || (s.trunk t).severe } →
    Completes (.pmSecondBoundary t) s (u.setTrunk t { judgeSecond (s.trunk t) h with
      second := (u.localNow (timeIsland s (64 + t)) b).sec, ef := 0, uncorr := false, anyDef := d.any id
      severe := d.getD 0 false || d.getD 1 false || d.getD 2 false })) ∧
  (∀ s t, s.flag (R.CAS_PM_CFG t) F.CAS_PM_CFG_PM_EN = false → Completes (.pmSecondBoundary t) s s) ∧
  (∀ x h, x.unavail = false → h.ses = true → x.held.length < 9 → judgeSecond x h = { x with held := x.held ++ [h] }) ∧
  (∀ x h, x.unavail = false → h.ses = true → x.held.length = 9 → (judgeSecond x h).unavail = true ∧ (judgeSecond x h).held = [] ∧
    judgeSecond x h = { (x.held ++ [h]).foldl (fun y e => commitSecond y e true) x with held := [], unavail := true }) ∧
  (∀ x h, x.unavail = true → h.ses = false → x.held.length = 9 → (judgeSecond x h).unavail = false ∧ (judgeSecond x h).held = [] ∧
    judgeSecond x h = { (x.held ++ [h]).foldl (fun y e => commitSecond y e false) x with held := [], unavail := false }) ∧
  (∀ x h, x.unavail = true → h.ses = true → (judgeSecond x h).unavail = true ∧ (judgeSecond x h).held = [])

/-! ### Time -/

/-- An increment in its range is taken, another one ignored with its alarm. A step of a valid base within its jump limit is accepted for an
instant 2 us ahead, a larger one only while the override is armed, with an alarm, and is otherwise DENIED with one; while one is pending the
command is BUSY; the first step of a base that is not valid is always taken and makes it valid (at once: log entry 167). A command disarms
the override, and so do 10 ms. At its instant a step moves the base and acts on its comparators, gate lists, launches, bins and snapshots; a
running list counts it (in a count that no register shows: the model's own). A read of the fraction latches the whole base. (R341, R342,
R343, R344, R361) -/
def Obligations.TimeBasesAndSteps : Prop :=
  (∀ s b v, s.reachable = true → s.serves (blockOf (R.TB_INCR b)) = true → Completes (.tbIncrWrite b v) s
    (if 0x013FD70A ≤ v.toNat ∧ v.toNat ≤ 0x014028F6 then s.setReg (R.TB_INCR b) v else s.alarm R.TIM_ALARM F.TIM_ALARM_INCR_RANGE)) ∧
  (∀ s b, s.reachable = true → s.serves (blockOf (R.TB_CMD b)) = true → (kget {} s.steps b).pending = true →
    Completes (.tbStep b) s (tbEnd s b .busy)) ∧
  (∀ s b, s.reachable = true → s.serves (blockOf (R.TB_CMD b)) = true → (kget {} s.steps b).pending = false →
    (b = 0 → s.txn.state ≠ .applying) → s.flag (R.TB_STATUS b) F.TB_STATUS_VALID = false →
    Completes (.tbStep b) s ((tbEnd (scheduleStep s b (stepAmount s b)) b .ok).setFld (R.TB_STATUS b) F.TB_STATUS_VALID 1)) ∧
  (∀ s b, s.reachable = true → s.serves (blockOf (R.TB_CMD b)) = true → (kget {} s.steps b).pending = false →
    (b = 0 → s.txn.state ≠ .applying) → s.flag (R.TB_STATUS b) F.TB_STATUS_VALID = true →
    Completes (.tbStep b) s
      (if (stepAmount s b).natAbs ≤ (s.reg (R.TB_JUMP b)).toNat then tbEnd (scheduleStep s b (stepAmount s b)) b .ok
       else if s.flag (R.TB_STATUS b) F.TB_STATUS_ARMED = true then
         tbEnd ((scheduleStep s b (stepAmount s b)).alarm R.TIM_ALARM F.TIM_ALARM_FORCED) b .ok
       else tbEnd (s.alarm R.TIM_ALARM F.TIM_ALARM_JUMP_REFUSED) b .denied)) ∧
  (∀ s b, s.reachable = true → s.serves (blockOf (R.TB_CMD b)) = true → ∃ t, Completes (.tbArmForce b) s t ∧
    t.flag (R.TB_STATUS b) F.TB_STATUS_ARMED = true ∧ t.fld (R.TB_STATUS b) F.TB_STATUS_STATUS = Status.code .ok ∧
    t = { s with regs := t.regs } ∧ ∀ a, a ≠ R.TB_STATUS b → t.reg a = s.reg a) ∧
  (∀ s b st, (tbEnd s b st).flag (R.TB_STATUS b) F.TB_STATUS_ARMED = false ∧ (tbEnd s b st).fld (R.TB_STATUS b) F.TB_STATUS_STATUS = st.code) ∧
  (∀ s b, Completes (.armForceExpiry b) s (s.setFld (R.TB_STATUS b) F.TB_STATUS_ARMED 0)) ∧
  (∀ s b u, (kget {} s.steps b).pending = true → u = s.reach b (kget {} s.steps b).instant →
    Completes (.stepInstant b) s (takeStep { u with steps := kset {} u.steps b {} } b ((u.now b).shift ((kget {} s.steps b).amount * 2 ^ 24)))) ∧
  (∀ s b, (kget {} s.steps b).pending = false → Completes (.stepInstant b) s s) ∧
  (∀ s b new u, u = (List.range 32).foldl (fun t p => stepGate t b (s.now b) new p)
      ((List.range 32).foldl (fun t k => stepCmp t b k (s.now b) new) { s with bases := kset {} s.bases b new }) →
    takeStep s b new = stepSnap (stepBins (stepLaunch u b) b) b (s.now b) new) ∧
  (∀ s b p l old new, (kget {} s.gates p).running = some l → (kget {} s.gates p).next = none → l.tb = b →
    stepGate s b old new p = { s with gates := kset {} s.gates p { kget {} s.gates p with steps := (kget {} s.gates p).steps + 1 } }) ∧
  (∀ s b, s.reachable = true → s.serves .tim = true → ∃ t, Completes (.tbSnapFracRead b) s t ∧
    t.reg (R.TB_SNAP_FRAC b) = BitVec.ofNat 32 (s.now b).frac ∧ t.reg (R.TB_SNAP_NS b) = BitVec.ofNat 32 (s.now b).ns ∧
    t.reg (R.TB_SNAP_SEC_LO b) = BitVec.ofNat 32 (s.now b).sec ∧ t.reg (R.TB_SNAP_SEC_HI b) = BitVec.ofNat 32 ((s.now b).sec / 2 ^ 32) ∧
    t = { s with regs := t.regs, out := t.out })

/-- A comparator fires at its target, that of a gate list in the island of its port, and does what claims it: a pulse output rises, until its
width has passed; a comparator of an armed association fires at its instant (log entry 108). A periodic one then advances by its period, a
one-shot one is done. An edge of the pulse input is captured on every base less its delay, and an edge of an enabled capture pin on its
comparator's base, with OVR over a value not read. A loss of the pulse input sets its alarm. An island that loses lock is shown with an
alarm, and its counters go on from the bases at their last rate; one that regains it is shown no more and follows the bases again. (R185,
R345, R357, R358, R363) -/
def Obligations.ComparatorsAndCaptures : Prop :=
  (∀ s k, cmpArmed s k = true → cmpFunc s k ≠ 3 → cmpFunc s k ≠ 5 →
    Completes (.comparatorFire k) s (cmpAct (reachTarget s k) k)) ∧
  (∀ s k, cmpFunc s k ≠ 2 → reachTarget s k = s.reach (s.fld (R.CMP_CFG k) F.CMP_CFG_TB) (cmpTarget s k)) ∧
  (∀ s k p, gatePortOf s k = some p → cmpFunc s k = 2 →
    reachTarget s k = s.reachIn (timeIsland s p) (s.fld (R.CMP_CFG k) F.CMP_CFG_TB) (cmpTarget s k)) ∧
  (∀ s k, cmpArmed s k = false → cmpFunc s k ≠ 5 → Completes (.comparatorFire k) s s) ∧
  (∀ s k e, cmpFunc s k = 5 → s.txAssocs.find? (fun e => e.2.valid && e.2.record.trig = 2 && e.2.record.comparator = k && e.2.armed.isSome) = some e →
    Completes (.comparatorFire k) s (cmpAct (s.reachIn 10 e.2.record.trigTb (e.2.armed.getD {})) k)) ∧
  (∀ s k n, cmpFunc s k = 1 → ppsOf s k = some n → cmpAct s k = advanceCmp { s with ppsHigh := kset false s.ppsHigh n true } k) ∧
  (∀ s k, s.reg (R.CMP_PERIOD k) = 0 → advanceCmp s k = { s with cmpDone := kset false s.cmpDone k true }) ∧
  (∀ s k, s.reg (R.CMP_PERIOD k) ≠ 0 → advanceCmp s k = setCmpTarget s k ((cmpTarget s k).shift ((s.reg (R.CMP_PERIOD k)).toNat * 2 ^ 24 : Nat))) ∧
  (∀ s n, Completes (.ppsOutPulseEnd n) s { s with ppsHigh := kset false s.ppsHigh n false }) ∧
  (∀ s, ∃ t, Completes .ppsInEdge s t ∧ t.flag R.PPS_IN_STAT F.PPS_IN_STAT_NEW = true ∧ t = { s with regs := t.regs } ∧
    ∀ b, b < 4 → t.reg (R.PPS_IN_b_NS b) = BitVec.ofNat 32 ((s.now b).shift (- delayUnits (s.cal 0x1C8))).ns) ∧
  (∀ s, Completes .ppsLoss s (s.alarm R.TIM_ALARM F.TIM_ALARM_PPS_LOSS)) ∧
  (∀ s j r k, k = s.fld (R.TIM_GPIO_j j) F.TIM_GPIO_j_CMP → s.flag (R.TIM_GPIO_j j) F.TIM_GPIO_j_EN = true → s.flag (R.CMP_CFG k) F.CMP_CFG_EN = true →
    s.fld (R.TIM_GPIO_j j) F.TIM_GPIO_j_EDGE = 2 ∨ s.fld (R.TIM_GPIO_j j) F.TIM_GPIO_j_EDGE = b2n (!r) → ∃ u,
    u = (if kget false s.captured k = true then s.setFld (R.CMP_CFG k) F.CMP_CFG_OVR 1 else s) ∧
    Completes (.gpioCapture j r) s { setCmpTarget u k (u.now (u.fld (R.CMP_CFG k) F.CMP_CFG_TB)) with
      captured := kset false s.captured k true }) ∧
  (∀ s i, i < 11 → Completes (.timeUnlock i) s
    (((if s.unlockedIn i = true then s else partLocal s i).setFld R.TIM_UNLOCK ⟨i, 1⟩ 1).alarm R.TIM_ALARM F.TIM_ALARM_UNLOCK)) ∧
  (∀ s i b, b < 4 → kget {} (partLocal s i).localTime (4 * i + b) = { time := s.now b, rate := (s.reg (R.TB_INCR b)).toNat }) ∧
  (∀ s, (tickLocal s).localTime = s.localTime.map (fun e => (e.1, { e.2 with time := e.2.time.shift e.2.rate }))) ∧
  (∀ s i, i < 11 → Completes (.timeLockRegained i) s ((joinLocal s i).setFld R.TIM_UNLOCK ⟨i, 1⟩ 0))

/-- On the counters of the island of its egress, a cycle begins with the list that is due, or runs the same list again from the next boundary;
between them the gates change entry by entry, and a list filled to its cycle adds up to the cycle. A queue becomes eligible LEAD_NS before
its frame's time, and the frame's first bit leaves at it if its gate is open. One that has not left 5 ns after is late: sent and counted, or
discarded and counted. (R352, R353, R355, R356) -/
def Obligations.GatesAndLaunch : Prop :=
  (∀ s p, Completes (.gateCycleStart p) s (gateCycle s p)) ∧
  (∀ s p l, cmpArmed s (s.fld (R.GATE_CFG p) F.GATE_CFG_CMP) = false → (kget {} s.gates p).next = some l →
    gateCycle s p = { s.reachIn (timeIsland s p) l.tb (cycleStart l (egressNow s p l.tb).nanos) with
      gates := kset {} s.gates p { kget {} s.gates p with running := some l, next := none } }) ∧
  (∀ s p l t, (kget {} s.gates p).running = some l → t = (egressNow s p l.tb).nanos → l.base.nanos ≤ t → l.cycle ≠ 0 → ∃ rest,
    rest = fromPosition (fillCycle l.entries l.cycle) ((t - l.base.nanos) % l.cycle) ∧
    Completes (.gateEntryBoundary p) s (preemptAtGate (s.reachIn (timeIsland s p) l.tb (timeOf ((t + (rest.headD (0, 0)).2) * 2 ^ 24))) p)) ∧
  (∀ l n, 0 < n → (∀ e ∈ l, 0 < e.2) → ((fillCycle l n).map Prod.snd).sum = n) ∧
  (∀ s j b l, (s.job j).launch = some (b, l) → (s.job j).stage = .queued ∨ (s.job j).stage = .handoff →
    Completes (.launchEligible j) s ((s.reachIn 10 b (timeOf ((l.nanos - s.fld (R.LAUNCH_CFG (s.job j).egress) F.LAUNCH_CFG_LEAD_NS) * 2 ^ 24))).setJob j
      { s.job j with eligible := true })) ∧
  (∀ s j b l u, (s.job j).launch = some (b, l) → u = s.reachIn (timeIsland s (s.job j).egress) b l →
    Completes (.launchRelease j) s
      (if (s.job j).stage = .dispatched ∧ gateAdmits u (s.job j).egress (s.job j).cls (s.job j).size 0 = true then
        ((if portUnlocked s (s.job j).egress = true then u.count (.port (s.job j).egress 30) else u).setJob j
          { s.job j with launch := none, eligible := true })
       else u)) ∧
  (∀ s j b l u, (s.job j).launch = some (b, l) → (s.job j).stage ≠ .none → (s.job j).stage ≠ .done → u = s.reachIn (timeIsland s (s.job j).egress) b (timeOf ((l.nanos + 5) * 2 ^ 24)) →
    Completes (.launchLate j) s
      (if u.flag (R.LAUNCH_CFG (s.job j).egress) F.LAUNCH_CFG_LATE_POLICY = true then
        (u.setJob j { s.job j with launch := none, eligible := true, late := true, discard := true }).count (.port (s.job j).egress 26)
       else ((if portUnlocked u (s.job j).egress then u.count (.port (s.job j).egress 30) else u).setJob j
        { s.job j with launch := none, eligible := true, late := true }).count (.port (s.job j).egress 25)))

/-! ### Keys -/

/-- The mailbox takes an operation now: the device serves every operation, the MC runs, and none is under way (R388). -/
def KstOpen (s : State) : Prop :=
  s.reachable = true ∧ s.dev.state ∈ kstStates ∧ s.serves (blockOf R.KST_CMD) = true ∧ s.flag R.KST_STATUS F.KST_STATUS_BUSY = false ∧ s.dev.mcUp = true

/-- The state after the read of an update message from host memory has been asked for (R372, R455). -/
def messageAsked (s : State) : State := s.emit (s.dmaRead .pf (kstAddr s) (s.reg R.KST_LEN).toNat)

/-- A message is judged step by step: the first failure ends it with its step, code and detail, and is counted. On an exhausted device, or where
the counter is not above S, the epoch is not the current one or jumps by more than one, the identity is another device's, the format is
broken, or the owner's signature does not verify, no message is accepted. An accepted counter value becomes S; one that cannot be committed
exhausts the device. The status after a failed read of the message is the model's free choice among three codes (log entry 175). (R375,
R376, R377, R380, R382) -/
def Obligations.KeyUpdates : Prop :=
  (∀ s b f l, KstOpen s → Completes (.kstUpdate (.data b) f l) s (match judgeMessage (messageAsked s) (s.reg R.KST_LEN).toNat b with
    | .error (step, detail, st) => updateEnd ((messageAsked s).count (.dev 11)) step detail st
    | .ok j => applyMessage (messageAsked s).useFree j (beAt b 67 5) f l)) ∧
  (∀ s b f l, KstOpen s → (s.reg R.KST_LEN).toNat ≠ 9216 + beAt b 12 4 →
    Completes (.kstUpdate (.data b) f l) s (updateEnd ((messageAsked s).count (.dev 11)) 1 0 .invalid)) ∧
  (∀ s f l, KstOpen s → ∃ st, ∃ t : State, st ∈ [Status.aborted, .invalid, .integrity] ∧ t = { messageAsked s with freeCtr := t.freeCtr } ∧
    Completes (.kstUpdate .error f l) s (updateEnd (t.count (.dev 11)) 1 0 st)) ∧
  (∀ s len b m j, m = slice b 0 len → s.fuses.exhausted = true ∨ beAt m 67 5 ≤ s.counterS ∨ s.epoch + 1 < beAt m 67 5 / 2 ^ 32 ∨
    beAt m 72 1 ≠ s.epoch ∨ slice m 16 48 ≠ identityDigest ∨ messageFormat len m = false ∨
    ownerSigned m (1784 + beAt b 12 4) (sha384 (slice m 0 (1784 + beAt b 12 4))) = false →
    judgeMessage s len b ≠ .ok j) ∧
  (∀ s t wc outs, commitCounter s s.epoch wc outs = (t, true) → t.counterS = s.epoch * 2 ^ 32 + wc) ∧
  (∀ s t ec wc outs, commitCounter s ec wc outs = (t, false) → t.fuses.exhausted = true)

/-- ATTEST and AGREE_PUB write their output to the host; INFO shows the entry of a key, or NOT_FOUND. GENERATE makes a key under a free handle,
and DELETE removes one that nothing uses, when the owner permits local operations; they are DENIED otherwise, and so is DELETE of a key in
use. While BUSY nothing happens. The random generator reseeds; a failed health test stops it with an alarm and tells the tamper monitor, and
it resumes with its samples; while it is down ATTEST ends ABORTED. (R366, R369, R370, R385, R388, R389) -/
def Obligations.KeyStoreOperations : Prop :=
  (∀ s, KstOpen s → 11312 ≤ (s.reg R.KST_LEN).toNat → kstAddr s % 8 = 0 → s.ident.alias_ = true → s.drbgDown = false →
    Completes .kstAttest s (kstOutput s.useFree (statement s))) ∧
  (∀ s, KstOpen s → (s.reg R.KST_LEN).toNat < 11312 → Completes .kstAttest s (kstEnd s 0 0 .invalid)) ∧
  (∀ s, KstOpen s → 1680 ≤ (s.reg R.KST_LEN).toNat → kstAddr s % 8 = 0 → s.ident.agree = true →
    Completes .kstAgreePub s (kstOutput s (agreeOutput s))) ∧
  (∀ s k, KstOpen s → handleStatus (argHandle s) = .ok → s.ownerKey (argHandle s) = some k →
    Completes .kstInfo s (kstEnd (s.setWin (R.KST_INFO_n 0) (infoEntry (argHandle s) k) 4) 0 0 .ok)) ∧
  (∀ s, KstOpen s → handleStatus (argHandle s) = .ok → s.ownerKey (argHandle s) = none → Completes .kstInfo s (kstEnd s 0 0 .notFound)) ∧
  (∀ s l n k, KstOpen s → bit s.localOps 0 = true → handleStatus (argHandle s) = .ok →
    k = { typ := s.fld R.KST_ARG_1 F.KST_ARG_1_TYPE, dest := s.fld R.KST_ARG_1 F.KST_ARG_1_DEST, param := s.fld R.KST_ARG_1 F.KST_ARG_1_PARAM,
          gen := 1, origin := 1, persist := false, material := drawMaterial s (s.fld R.KST_ARG_1 F.KST_ARG_1_TYPE) (s.fld R.KST_ARG_1 F.KST_ARG_1_PARAM) n } →
    k.typ ≠ 0x20 → destOk k.typ k.dest = true → materialSize s k.typ k.param = .ok n → s.flag R.KST_ARG_1 F.KST_ARG_1_PERSIST = false →
    s.ownerKey (argHandle s) = none → s.drbgDown = false →
    Completes (.kstGenerate l) s (kstEnd (s.useFree.setOwner (argHandle s) k) 0 0 .ok)) ∧
  (∀ s l, KstOpen s → bit s.localOps 0 = false → Completes (.kstGenerate l) s (kstEnd s 0 0 .denied)) ∧
  (∀ s l, KstOpen s → bit s.localOps 1 = false → Completes (.kstDelete l) s (kstEnd s 0 0 .denied)) ∧
  (∀ s l k, KstOpen s → bit s.localOps 1 = true → handleStatus (argHandle s) = .ok → s.ownerKey (argHandle s) = some k →
    inUse s (argHandle s) = true → Completes (.kstDelete l) s (kstEnd s 0 0 .denied)) ∧
  (∀ s l k, KstOpen s → bit s.localOps 1 = true → handleStatus (argHandle s) = .ok → s.ownerKey (argHandle s) = some k →
    inUse s (argHandle s) = false → (∀ e ∈ s.pke.jobs, e.2.ended = none → e.2.handle ≠ argHandle s) → k.persist = false →
    Completes (.kstDelete l) s (kstEnd (s.setOwner (argHandle s) {}) 0 0 .ok) ∧ (s.setOwner (argHandle s) {}).ownerKey (argHandle s) = none) ∧
  (∀ s c, s.reachable = true → s.dev.state ∈ kstStates → s.serves (blockOf R.KST_CMD) = true → s.flag R.KST_STATUS F.KST_STATUS_BUSY = true →
    c ∈ [Instr.kstAttest, .kstInfo, .kstAgreePub, .kstGenerate true, .kstDelete true] → Completes c s s) ∧
  (∀ s, s.drbgDown = false → Completes .drbgReseed s s.useFree) ∧
  (∀ s, s.drbgDown = true → Completes .drbgReseed s s) ∧
  (∀ s, s.dev.power = true → Completes .entropyHealthFail s (fireSource ({ s with drbgDown := true }.alarm R.KST_ALARM F.KST_ALARM_ENTROPY) 19)) ∧
  (∀ s, Completes .drbgResume s { s with drbgDown := false }) ∧
  (∀ s, KstOpen s → 11312 ≤ (s.reg R.KST_LEN).toNat → kstAddr s % 8 = 0 → s.drbgDown = true → Completes .kstAttest s (kstEnd s 0 0 .aborted))

/-! ### The public-key engine -/

/-- The state after the reads of a job's descriptor, and of its input where the descriptor keeps its format, have been asked for. -/
def descriptorAsked (s : State) (d : List Byte) : State :=
  let u := s.emit (s.dmaRead .pf (s.reg64 R.PKE_DESC_LO R.PKE_DESC_HI) 64)
  if descFormat d = true ∧ beAt d 8 4 ≠ 0 then u.emit (u.dmaRead .pf (beAt d 16 8) (beAt d 8 4)) else u

/-- A descriptor that passes its checks is queued under a free ID that the status shows (which one is free: log entry 193), any other ends with
the status of its first failure. An aborted job leaves, or stops at its next checkpoint or its end; one that is not there is NOT_FOUND. The
first waiting job starts in an interval of the duty window, and none has a better priority; outside, or while one runs, none starts. A job
that nothing waits for goes on at a checkpoint, paused outside the duty. A job ends with its result, as a fault with an alarm where its
result is checked, or ABORTED with an alarm for want of random numbers. (R397, R399, R404, R405, R406, R407, R408) -/
def Obligations.PublicKeyJobs : Prop :=
  (∀ s d l j, s.reachable = true → s.serves (blockOf R.PKE_CMD) = true → s.reg64 R.PKE_DESC_LO R.PKE_DESC_HI % 8 = 0 →
    judgeDesc (descriptorAsked s (slice d 0 64)) (slice d 0 64) l = .ok j → ∃ id, ∃ v u : State, v = descriptorAsked s (slice d 0 64) ∧
    id = freeJobId v.useFree (v.free 256).1 256 ∧ u = v.useFree.modPke (fun p => { p with jobs := kset {} p.jobs id j, order := p.order + 1 }) ∧
    Completes (.pkeSubmit (.data d) (.data l)) s (pkeStatus (u.setFld R.PKE_CMD_STATUS F.PKE_CMD_STATUS_JOB id) .ok)) ∧
  (∀ s d l e, s.reachable = true → s.serves (blockOf R.PKE_CMD) = true → s.reg64 R.PKE_DESC_LO R.PKE_DESC_HI % 8 = 0 →
    judgeDesc (descriptorAsked s (slice d 0 64)) (slice d 0 64) l = .error e →
    Completes (.pkeSubmit (.data d) (.data l)) s (pkeStatus (descriptorAsked s (slice d 0 64)) e)) ∧
  (∀ s d l, s.reachable = true → s.serves (blockOf R.PKE_CMD) = true → s.reg64 R.PKE_DESC_LO R.PKE_DESC_HI % 8 = 0 →
    d = .error ∨ l = .error → ∃ st, ∃ t : State, st ∈ [Status.aborted, .invalid, .integrity] ∧
    t = { s with out := t.out, freeCtr := t.freeCtr } ∧ Completes (.pkeSubmit d l) s (pkeStatus t st)) ∧
  (∀ s d l, s.reachable = true → s.serves (blockOf R.PKE_CMD) = true → s.reg64 R.PKE_DESC_LO R.PKE_DESC_HI % 8 ≠ 0 →
    Completes (.pkeSubmit d l) s (pkeStatus s .invalid)) ∧
  (∀ s id, s.reachable = true → s.serves (blockOf R.PKE_CMD) = true → s.pkeJob id ≠ {} → (s.pkeJob id).ended = none →
    Completes (.pkeAbort id) s (if s.pke.run = some id
      then pkeStatus (s.modPke (fun p => { p with jobs := kset {} p.jobs id { s.pkeJob id with aborting := true } })) .ok
      else pkeStatus (abortPke s id) .ok)) ∧
  (∀ s id, s.reachable = true → s.serves (blockOf R.PKE_CMD) = true → s.pkeJob id = {} → Completes (.pkeAbort id) s (pkeStatus s .notFound)) ∧
  (∀ s i e, s.pke.run = none → i < dutyIntervals s → pkeFirst (pkeWaiting s) = some e →
    Completes (.pkeJobStart i) s ((runPke s e.1).modPke (fun p => { p with paused := false }))) ∧
  (∀ s i, s.pke.run.isSome = true ∨ dutyIntervals s ≤ i → Completes (.pkeJobStart i) s s) ∧
  (∀ l e, pkeFirst l = some e → e ∈ l ∧ ∀ x ∈ l, e.2.prio ≤ x.2.prio) ∧
  (∀ s i id, s.pke.run = some id → pkeStill s = false → reachesCheckpoint s (s.pkeJob id) = true → (s.pkeJob id).aborting = true →
    Completes (.pkeCheckpoint i) s (abortPke s id)) ∧
  (∀ s i id, s.pke.run = some id → pkeStill s = false → reachesCheckpoint s (s.pkeJob id) = true → (s.pkeJob id).aborting = false →
    pkeWaiting s = [] → ∃ t, Completes (.pkeCheckpoint i) s t ∧
    t.pkeJob id = { s.pkeJob id with ran := (s.pkeJob id).ran + 1 } ∧ t.pke.paused = decide (dutyIntervals s ≤ i) ∧ t = { s with pke := t.pke }) ∧
  (∀ s ex w fault id, s.pke.run = some id → pkeStill s = false → (s.pkeJob id).aborting = true →
    Completes (.pkeJobEnd ex w fault) s (abortPke s id)) ∧
  (∀ s ex w fault id, s.pke.run = some id → pkeStill s = false → (s.pkeJob id).aborting = false → opRandom (s.pkeJob id).op = true → s.drbgDown = true →
    Completes (.pkeJobEnd ex w fault) s (endPke (s.alarm R.PKE_ALARM F.PKE_ALARM_RANDOM) id
      { status := .aborted, detail := 0, result := [], exec := ex, wait := w })) ∧
  (∀ s ex w id t st n r u, s.pke.run = some id → pkeStill s = false → (s.pkeJob id).aborting = false →
    (opRandom (s.pkeJob id).op = true → s.drbgDown = false) →
    jobResult s id (s.pkeJob id) = (t, st, n, r) → u = { t with freeCtr := t.freeCtr + 200 } →
    Completes (.pkeJobEnd ex w false) s (endPke u id { status := st, detail := n, result := r, exec := ex, wait := w }) ∧
    Completes (.pkeJobEnd ex w true) s (if opChecked (s.pkeJob id).op = true ∧ st = .ok
      then endPke (u.alarm R.PKE_ALARM F.PKE_ALARM_FAULT) id { status := .integrity, detail := 0, result := [], exec := ex, wait := w }
      else endPke u id { status := st, detail := n, result := r, exec := ex, wait := w })) ∧
  (∀ s, Completes .pkeDutyWindow s (s.modPke (fun p => { p with paused := false })))

/-! ### The tamper monitor and the Well -/

/-- The sources of a cycle that may fire are latched in order, each with its flag and an entry of the log, and the highest response is carried
out once; with main power one source gives its own response, and one that may not fire changes nothing. An under-voltage that lasts fires
its source. Two good cell readings clear their presence bits; a bad one fires its source at its second sample in a row. A temperature within
its limits counts anew; the second one above its limit in a row fires its source. A brown-out of the Well does nothing while main power is
valid, and otherwise loses what the Well holds, but not the fuses. (R412, R413, R414, R416, R420, R519) -/
def Obligations.TamperSources : Prop :=
  (∀ s mask raw u, u = { s with tmp := { s.tmp with raw := (s.tmp.raw &&& (2 ^ 24 - 1 - rawHeld)) ||| (raw &&& rawHeld) } } →
    Completes (.tamperSourceLatch mask raw) s (fireSources u (((List.range 24).filter (bit mask)).map (fun src => (src, valueOf u src))))) ∧
  (∀ s src v, mayFire s src = true → s.dev.power = true → fireSources s [(src, v)] = respond (latchSource s src v) (max 0 (responseOf s src))) ∧
  (∀ s src v, mayFire s src = false → fireSources s [(src, v)] = s) ∧
  (∀ s src v, (latchSource s src v).tmp.flags = (s.tmp.flags ||| 2 ^ src) ∧ (latchSource s src v).tmp.log = (logEntry s src (responseOf s src) v
      (!s.dev.power && responseOf s src ≠ 1 && responseOf s src ≠ 6) :: s.tmp.log).take 64 ∧ (latchSource s src v).well = s.well ∧
      (latchSource s src v).dev = s.dev) ∧
  (∀ s src, s.dev.power = true → 2 ≤ src → src ≤ 7 → Completes (.undervoltageDelayExpiry src) s
    (fireSource { s with tmp := { s.tmp with raw := s.tmp.raw ||| 2 ^ src } } src)) ∧
  (∀ s src, s.dev.power = false → Completes (.undervoltageDelayExpiry src) s s) ∧
  (∀ s a b, cellBand s a = 0 → cellBand s b = 0 → s.tmp.window = 0 → ∃ t, Completes (.cellSample a b) s t ∧
    t = { s with tmp := { s.tmp with
      cellA := unsigned 16 a, cellB := unsigned 16 b, bandA := 0, bandB := 0
      runA := runOf s.tmp.bandA s.tmp.runA 0, runB := runOf s.tmp.bandB s.tmp.runB 0, raw := s.tmp.raw &&& 0xFE07FF } }) ∧
  (∀ s a b, cellBand s b = 0 → cellBand s a ≠ 0 → s.tmp.bandA = cellBand s a → s.tmp.runA = 1 → s.tmp.window = 0 → ∃ u : State,
    u = { s with tmp := { s.tmp with
      cellA := unsigned 16 a, cellB := unsigned 16 b, bandA := cellBand s a, bandB := 0, runA := 2
      runB := runOf s.tmp.bandB s.tmp.runB 0, raw := ((s.tmp.raw &&& 0xFE07FF) ||| 2 ^ bandSource 0 (cellBand s a)) ||| 0 } } ∧
    Completes (.cellSample a b) s (fireSources u [(bandSource 0 (cellBand s a), unsigned 16 a)])) ∧
  (∀ s hi lo well, s.dev.power = true → hi ≤ 8 * tempHigh s → 8 * tempLow s ≤ lo → ∃ t, Completes (.temperatureReading hi lo well) s t ∧
    t = { s with tmp := { s.tmp with hot := 0, cold := 0, raw := t.tmp.raw, temp := unsigned 8 (well / 8) } }) ∧
  (∀ s hi lo well, s.dev.power = true → 8 * tempHigh s < hi → 8 * tempLow s ≤ lo → s.tmp.hot = 1 → ∃ u : State,
    u = { s with tmp := { s.tmp with hot := 2, cold := 0, raw := (s.tmp.raw &&& 0xFFFFFC) ||| 1 ||| 0, temp := unsigned 8 (well / 8) } } ∧
    Completes (.temperatureReading hi lo well) s (fireSources u [(0, unsigned 16 hi)])) ∧
  (∀ s, s.dev.power = true → Completes .wellBrownOut s s) ∧
  (∀ s, s.dev.power = false → ∃ t, Completes .wellBrownOut s t ∧ t.well = {} ∧ t.tmp.flags = 0 ∧ t.tmp.log = [] ∧ t.fuses = s.fuses)

/-- A LOG only raises TAMPER_MAX; an ALERT signals and changes no response in force; from level 3 on the level is in force where none above it
is; from level 5 on the device is in Halt at once (log entry 201), at level 5 with HALT_HOLD, and at level 6 the Well is erased at once (log
entry 200). When the clearing of level 4 is complete the traffic keys are clear, from level 5 on the owner keys too, and from level 6 on the
identity. (R416, R417, R419, R421) -/
def Obligations.TamperResponses : Prop :=
  (∀ s, (respond s 2).tmp.inForce = s.tmp.inForce ∧ (respond s 2).tmp.alert = true ∧ (respond s 2).dev = s.dev) ∧
  (∀ s, (respond s 1).tmp = { s.tmp with max := max s.tmp.max 1 } ∧ (respond s 1).dev = s.dev ∧ (respond s 1).out = s.out) ∧
  (∀ s l, 3 ≤ l → s.tmp.inForce ≤ l → (respond s l).tmp.inForce = l) ∧
  (∀ s l, 5 ≤ l → s.tmp.inForce ≤ l → (respond s l).dev.state = .halt) ∧
  (∀ s, s.tmp.inForce ≤ 5 → (respond s 5).tmp.haltHold = true) ∧
  (∀ s, s.tmp.inForce ≤ 6 → (respond s 6).well.ok = false ∧ (respond s 6).well.secret = [] ∧ (respond s 6).well.w = 0 ∧
    (respond s 6).tmp.haltHold = false ∧ (respond s 6).tmp.pendingLvl = 0) ∧
  (∀ s, s.tmp.clearing < 4 → Completes .keyClearComplete s s) ∧
  (∀ s, s.tmp.clearing = 4 → Completes .keyClearComplete s (clearTraffic { s with tmp := { s.tmp with clearing := 0 } })) ∧
  (∀ s, 5 ≤ s.tmp.clearing → ∃ t, Completes .keyClearComplete s t ∧ t.owner = [] ∧
    (6 ≤ s.tmp.clearing → t.ident.alias_ = false ∧ t.ident.agree = false))

/-- RELEASE ends the response in force, unless a severe source still holds; a service window opens on one cell while the other is good, the cell
counting as removed if it already was, is BUSY while one is open, and closes by command or when its time has run out; ZEROISE_ALL fires only
when it was armed and the arm has not run out, answers EXPIRED when late and DENIED without an arm. In Start and Halt RELEASE and the window
commands are DENIED. A write of TMP_FLAGS clears the flags named, and TAMPER_MAX when none is left. Over SMBus 0x5A arms, a timely 0xA5
fires, another byte disarms, and the status page is read whenever main power is present. END_SERVICE with no window open gives a status that
the model leaves free (log entry 204). (R419, R422, R423, R425) -/
def Obligations.TamperCommands : Prop :=
  (∀ s c, s.reachable = true → s.serves (blockOf R.TMP_CMD) = true → s.dev.state = .start ∨ s.dev.state = .halt →
    c ∈ [Instr.tmpRelease, .tmpServiceA, .tmpServiceB, .tmpEndService] →
    Completes c s (s.setFld R.TMP_STATUS F.TMP_STATUS_CMD_STATUS (Status.code .denied))) ∧
  (∀ s, s.reachable = true → s.serves (blockOf R.TMP_CMD) = true → s.dev.state = .active ∨ s.dev.state = .standby ∨ s.dev.state = .maintenance →
    Completes .tmpRelease s (if rawSevere s = true then s.setFld R.TMP_STATUS F.TMP_STATUS_CMD_STATUS (Status.code .denied)
      else if s.tmp.inForce < 3 then ({ s with tmp := { s.tmp with pendingLvl := 0 } }).setFld R.TMP_STATUS F.TMP_STATUS_CMD_STATUS (Status.code .ok)
      else (diagnose (portsAsAtStart { s with tmp := { s.tmp with inForce := 0, pendingLvl := 0 } }) 7 false).setFld R.TMP_STATUS
        F.TMP_STATUS_CMD_STATUS (Status.code .ok))) ∧
  (∀ s t sec, s.reachable = true → s.serves (blockOf R.TMP_CMD) = true → s.dev.state ≠ .start → s.dev.state ≠ .halt → s.tmp.window = 0 →
    sec = s.fld R.TMP_WINDOW F.TMP_WINDOW_SECONDS → 0 < sec → sec ≤ windowMax s →
    (cellLow s ≤ signed 16 s.tmp.cellB →
      t = { s with tmp := { s.tmp with window := 1, removed := decide (s.tmp.bandA = 1 ∧ 2 ≤ s.tmp.runA), windowSecs := sec } } →
      Completes .tmpServiceA s (t.setFld R.TMP_STATUS F.TMP_STATUS_CMD_STATUS (Status.code .ok))) ∧
    (cellLow s ≤ signed 16 s.tmp.cellA →
      t = { s with tmp := { s.tmp with window := 2, removed := decide (s.tmp.bandB = 1 ∧ 2 ≤ s.tmp.runB), windowSecs := sec } } →
      Completes .tmpServiceB s (t.setFld R.TMP_STATUS F.TMP_STATUS_CMD_STATUS (Status.code .ok)))) ∧
  (∀ s, s.reachable = true → s.serves (blockOf R.TMP_CMD) = true → s.dev.state ≠ .start → s.dev.state ≠ .halt →
    (s.tmp.window ≠ 0 → Completes .tmpEndService s ((closeWindow s).setFld R.TMP_STATUS F.TMP_STATUS_CMD_STATUS (Status.code .ok)) ∧
      Completes .tmpServiceA s (s.setFld R.TMP_STATUS F.TMP_STATUS_CMD_STATUS (Status.code .busy)) ∧
      Completes .tmpServiceB s (s.setFld R.TMP_STATUS F.TMP_STATUS_CMD_STATUS (Status.code .busy))) ∧
    (s.tmp.window = 0 → ∃ st, st ∈ [Status.ok, .denied, .invalid] ∧
      Completes .tmpEndService s (s.useFree.setFld R.TMP_STATUS F.TMP_STATUS_CMD_STATUS st.code))) ∧
  (∀ s, Completes .serviceWindowExpiry s (closeWindow s)) ∧
  (∀ s, s.reachable = true → s.serves (blockOf R.TMP_CMD) = true → Completes .tmpZeroiseArm s
    ({ s with tmp := { s.tmp with armed := true } }.setFld R.TMP_STATUS F.TMP_STATUS_CMD_STATUS (Status.code .ok))) ∧
  (∀ s late u, s.reachable = true → s.serves (blockOf R.TMP_CMD) = true → s.tmp.armed = true → u = { s with tmp := { s.tmp with armed := false } } →
    Completes (.tmpZeroiseAll late) s (if late = true then u.setFld R.TMP_STATUS F.TMP_STATUS_CMD_STATUS (Status.code .expired)
      else (fireSource u 23).setFld R.TMP_STATUS F.TMP_STATUS_CMD_STATUS (Status.code .ok))) ∧
  (∀ s late, s.reachable = true → s.serves (blockOf R.TMP_CMD) = true → s.tmp.armed = false →
    Completes (.tmpZeroiseAll late) s (s.setFld R.TMP_STATUS F.TMP_STATUS_CMD_STATUS (Status.code .denied))) ∧
  (∀ s mask, s.reachable = true → s.serves (blockOf R.TMP_FLAGS) = true → s.dev.state ≠ .start → s.dev.state ≠ .halt → ∃ t,
    Completes (.tmpFlagsClear mask) s t ∧ t.tmp.flags = (s.tmp.flags &&& (2 ^ 24 - 1 - mask % 2 ^ 24)) ∧
    t.tmp.max = (if t.tmp.flags = 0 then 0 else s.tmp.max) ∧ t = { s with tmp := t.tmp }) ∧
  (∀ s, s.dev.power = true → Completes (.smbusZeroiseWrite 0x5A true) s { s with tmp := { s.tmp with smbArmed := true } }) ∧
  (∀ s, s.dev.power = true → s.tmp.smbArmed = true → Completes (.smbusZeroiseWrite 0xA5 true) s
    (fireSource { s with tmp := { s.tmp with smbArmed := false } } 21)) ∧
  (∀ s d, s.dev.power = true → s.tmp.smbArmed = false ∨ d ≠ 0xA5 → d ≠ 0x5A →
    Completes (.smbusZeroiseWrite d true) s { s with tmp := { s.tmp with smbArmed := false } }) ∧
  (∀ s, Completes .smbusZeroiseArmExpiry s { s with tmp := { s.tmp with smbArmed := false } }) ∧
  (∀ s, s.dev.power = true → Completes .smbusStatusRead s (s.emit (.smbus (smbusPage s))))

/-! ### Pairs and the Aqueduct -/

/-- An Active device gives up by command or for a diagnosis that is enabled, but not without a READY standby, when an alarm is set; it gives up
whatever its partner when PEER_ACTIVE rises (log entry 212), and leaves at its deadline. A READY standby starts to take over by command, by
HANDOVER or, when allowed, after a loss of heartbeats; complete, it is Active, its partner OUSTED, with the next TAKE_GEN. An Active device
whose READY partner falls silent marks it LOST. PARTNER_GONE frees an Active device of its partner, and is DENIED otherwise. A slot taken
over starts above its reservation, and one that still loads keeps such a PN for when it has loaded (the model's choice: log entry 253); a
trunk that is not enabled is left alone. (R428, R443, R444, R445, R446, R448) -/
def Obligations.PairRoles : Prop :=
  (∀ s l, Completes (.peerActiveChange l) s
    (if l = true then ousted (s.modPair (fun p => { p with peerActive := true })) else s.modPair (fun p => { p with peerActive := false }))) ∧
  (∀ s, mayGiveUp s = true → ousted s = startGiveUp s 0x12) ∧
  (∀ s, (startGiveUp s 0x12).pair.givingUp = true ∧ (startGiveUp s 0x12).pair.activeOut = false) ∧
  (∀ s, pairOn s = true → s.dev.state = .standby → s.pair.role = .ready → s.pair.taking = false →
    Completes .peerHandoverRise s (s.modPair (fun p => { p with peerHandover := true, taking := true }))) ∧
  (∀ s, s.dev.state = .active → s.pair.partner = .ready → Completes .hbLoss s
    ((s.alarm R.PAI_ALARM F.PAI_ALARM_HB_LOSS).modPair (fun p => { p with partner := .lost }))) ∧
  (∀ s, s.dev.state = .standby → s.pair.role = .ready → ∃ u, u = s.alarm R.PAI_ALARM F.PAI_ALARM_HB_LOSS ∧
    Completes .hbLoss s (if u.flag R.PAI_CFG F.PAI_CFG_HB_TAKE = true then trigger u else u)) ∧
  (∀ s, s.reachable = true → s.serves (blockOf R.PAI_CMD) = true →
    (mayGiveUp s = true → s.pair.partner = .ready → Completes .giveUp s ((startGiveUp s 0x10).setFld R.PAI_CMDST F.PAI_CMDST_STATUS (Status.code .ok))) ∧
    (mayGiveUp s = true → s.pair.partner ≠ .ready → Completes .giveUp s
      ((s.alarm R.PAI_ALARM F.PAI_ALARM_NO_STANDBY).setFld R.PAI_CMDST F.PAI_CMDST_STATUS (Status.code .denied))) ∧
    (s.dev.state = .standby → s.pair.role = .ready → Completes .takeOver s ((trigger s).setFld R.PAI_CMDST F.PAI_CMDST_STATUS (Status.code .ok))) ∧
    (s.dev.state ≠ .standby → Completes .takeOver s (s.setFld R.PAI_CMDST F.PAI_CMDST_STATUS (Status.code .denied))) ∧
    (s.dev.state = .active → s.pair.peerActive = false → s.pair.partner = .lost → Completes .partnerGone s
      ((s.modPair (fun p => { p with partner := .none })).setFld R.PAI_CMDST F.PAI_CMDST_STATUS (Status.code .ok))) ∧
    (s.dev.state = .active → s.pair.peerActive = false → s.pair.partner = .ready → Completes .partnerGone s
      ((s.modPair (fun p => { p with partner := .none, detached := true })).setFld R.PAI_CMDST F.PAI_CMDST_STATUS (Status.code .ok))) ∧
    (s.dev.state ≠ .active ∨ s.pair.peerActive = true → Completes .partnerGone s (s.setFld R.PAI_CMDST F.PAI_CMDST_STATUS (Status.code .denied)))) ∧
  (∀ s, s.pair.givingUp = true → s.jobs = [] → s.dev.state = .active → Completes .giveUpDiscardDeadline s (enterStandby s)) ∧
  (∀ s n b, n ≠ 5 → n ≤ 7 → Completes (.diagnosisFault n b) s
    (if b = true then
      (if mayGiveUp (addFault s n) = true ∧ (n = 7 ∨ bit ((addFault s n).fld R.PAI_CFG F.PAI_CFG_GU_EN) n = true)
        then (tryGiveUp (addFault s n) (n + 1)).1 else addFault s n)
     else becomeReady (s.modPair (fun p => { p with faults := p.faults.filter (· ≠ n) })))) ∧
  (∀ s delta u v, s.pair.taking = true → delta = (if s.flag R.PAI_CFG F.PAI_CFG_RX_RESUME = true then 0 else 2 ^ 16) →
    u = { s with
      txAssocs := s.txAssocs.map (fun e => (e.1, { e.2 with slot0 := takeTx e.2.record e.2.slot0, slot1 := takeTx e.2.record e.2.slot1 }))
      rxAssocs := s.rxAssocs.map (fun e => (e.1, { e.2 with slot0 := takeRx e.2.record delta e.2.slot0, slot1 := takeRx e.2.record delta e.2.slot1 }))
      sched := { s.sched with subC := [], subP := [], svcS := [], nodeL := [], ceil := [] }
      dev := { s.dev with state := .active }
      pair := { s.pair with
        taking := false, role := .active, partner := .ousted, activeOut := true, takeGen := (s.pair.takeGen + 1) % 2 ^ 32, synced := false } } →
    v = (List.range 4).foldl (takeTrunk delta) u →
    Completes .takeOverComplete s (sendUrgent (v.count (.dev 8)) (be 1 9 ++ be 3 0 ++ be 4 v.pair.takeGen))) ∧
  (∀ s delta t, s.flag (R.CAS_CFG t) F.CAS_CFG_ENABLE = false → takeTrunk delta s t = s) ∧
  (∀ r x, x.state ≠ .empty → x.resEnd < (takeTx r x).pn) ∧
  (∀ r x, x.state = .loading → takeTx r x = { x with pn := max (2 ^ 24) x.resEnd + 2 ^ 25 })

/-- Clock, deskew, CONFIG and AUTH follow each other; deskew draws a nonce. A CONFIG frame of another identity ends in FAILED with its alarm; a
good one that is new is the first of three. An AUTH frame that verifies brings the link up with empty queues and SEQ 1, one that does not
and a time-out end in FAILED with an alarm. From FAILED, as after a loss of the link, training starts anew while it is enabled, with the
session keys gone. (R430, R432, R433, R434) -/
def Obligations.AqueductTraining : Prop :=
  (∀ s, s.pair.train = .clock → Completes .aqdClockDetect s (setTrain s .deskew)) ∧
  (∀ s, s.pair.train = .deskew → ∃ t l u v, t = s.modPair (fun p => { p with
      train := .config, nonce := s.freeBytes 32, agreeing := 0, lastConfig := [], lanes := 2 ^ aqdLanes s - 1 }) ∧
    (l, u) = newLine t.useFree (aqdLanes s) ∧ v = u.modPair (fun p => { p with line := l, place := 0 }) ∧
    Completes .aqdDeskewLock s (sendLink v (configFrame u)) ∧ v.pair.nonce = s.freeBytes 32 ∧ v.regs = s.regs) ∧
  (∀ s f, s.pair.train = .config → beAt f 0 4 = 0xA9C35E17 → beAt f 4 1 = 2 →
    beAt (slice f 24 224) 80 1 = s.fld R.AQD_CFG F.AQD_CFG_WIDTH → beAt (slice f 24 224) 81 1 = s.fld R.AQD_CFG F.AQD_CFG_CODING →
    slice (slice f 24 224) 0 48 ≠ slice s.pair.partnerId 0 48 →
    Completes (.configFrameReceive f) s (setTrain (s.alarm R.AQD_ALARM F.AQD_ALARM_ID_MISMATCH) .failed)) ∧
  (∀ s f, s.pair.train = .config → beAt f 0 4 = 0xA9C35E17 → beAt f 4 1 = 2 →
    beAt (slice f 24 224) 80 1 = s.fld R.AQD_CFG F.AQD_CFG_WIDTH → beAt (slice f 24 224) 81 1 = s.fld R.AQD_CFG F.AQD_CFG_CODING →
    slice (slice f 24 224) 0 48 = slice s.pair.partnerId 0 48 → slice f 24 224 ≠ s.pair.lastConfig → ∃ t, Completes (.configFrameReceive f) s t ∧
    t.pair.agreeing = 1 ∧ t.pair.peerId = slice (slice f 24 224) 0 48 ∧ t.pair.peerNonce = slice (slice f 24 224) 48 32 ∧ t = { s with pair := t.pair }) ∧
  (∀ s f rtt, s.pair.train = .auth → beAt f 4 1 = 3 → Completes (.authFrameReceive f rtt) s
    (if tagOk s f = true then linkCameUp s (rtt % 65536) else setTrain (s.alarm R.AQD_ALARM F.AQD_ALARM_AUTH_FAIL) .failed)) ∧
  (∀ s rtt, s.dev.state = .active → s.pair.peerState ≠ 5 → (linkCameUp s rtt).pair.train = .up ∧ (linkCameUp s rtt).pair.seqTx = 1 ∧
    (linkCameUp s rtt).pair.queue = [] ∧ (linkCameUp s rtt).pair.expected = 0) ∧
  (∀ s, s.pair.train = .clock ∨ s.pair.train = .deskew ∨ s.pair.train = .config ∨ s.pair.train = .auth →
    Completes .aqdTrainingTimeout s (setTrain (s.alarm R.AQD_ALARM F.AQD_ALARM_TRAIN_FAIL) .failed)) ∧
  (∀ s, s.pair.train = .failed → Completes .aqdFailedRetry s (linkDown s)) ∧
  (∀ s, s.pair.train = .up → Completes .aqdLinkDown s (linkDown (s.alarm R.AQD_ALARM F.AQD_ALARM_LANE_FAIL))) ∧
  (∀ s, (linkDown s).pair.train = (if s.flag R.AQD_CFG F.AQD_CFG_EN = true then .clock else .down) ∧ (linkDown s).pair.keyTx = [] ∧
    (linkDown s).pair.keyRx = [] ∧ (linkDown s).pair.queue = [])

/-- A DATA frame on a link that is up and verifies acknowledges and is applied, records of another position being ignored; one that does not
verify is counted, and the eighth in a row ends the session. What is not acknowledged is sent again. Heartbeats are counted and go out with
the samples of the bases. DEEP is entered where no standby follows, and ends with a wake by command or by the partner's clock; lanes 2 to 7
sleep while fewer than 2 records wait and wake with 4. The status of WAKE outside DEEP is the model's free choice (log entry 216). (R432,
R435, R436, R437) -/
def Obligations.AqueductTraffic : Prop :=
  (∀ s f, s.linkUp = true → beAt f 0 4 = 0xA9C35E17 → beAt f 4 1 = 1 → Completes (.dataFrameReceive f) s
    (if tagOk s f = true then receiveRecords (takeAck (s.modPair (fun p => { p with tagFails := 0 })) (beAt f 20 4)) f else tagFailed s)) ∧
  (∀ s f, s.linkUp = false → Completes (.dataFrameReceive f) s s) ∧
  (∀ s, s.pair.tagFails < 7 → (tagFailed s).pair = { s.pair with tagFails := s.pair.tagFails + 1 }) ∧
  (∀ s, 7 ≤ s.pair.tagFails → ∃ u, u = (s.count (.dev 4)).alarm R.AQD_ALARM F.AQD_ALARM_FRAME_TAG ∧ tagFailed s = linkDown u) ∧
  (∀ s f, beAt f 16 4 ≠ s.pair.expected → (receiveRecords s f).pair = s.pair ∧ (receiveRecords s f).txAssocs = s.txAssocs ∧
    (receiveRecords s f).rxAssocs = s.rxAssocs) ∧
  (∀ s, s.linkUp = true → 0 < s.pair.sent → Completes .retransmitTimeout s (pump ((s.count (.dev 5)).modPair (fun p => { p with sent := 0 })))) ∧
  (∀ s, pairOn s = true → s.linkUp = true → ∃ u v, u = s.modPair (fun p => { p with hbCount := (p.hbCount + 1) % 2 ^ 32 }) ∧
    v = sendRec u (be 1 1 ++ be 1 (if u.pair.givingUp = true then 0 else u.pair.role.code) ++ be 2 (healthBits u) ++ be 4 u.pair.takeGen ++
      be 4 u.pair.hbCount ++ be 1 (b2n u.pair.detached)) ∧
    Completes .heartbeatSend s (if v.mirrors = true then (List.range 4).foldl (fun w b => sendRec w (tbRec w b)) v else v)) ∧
  (∀ s, s.reachable = true → s.serves (blockOf R.AQD_CMD) = true →
    (s.pair.train = .up → s.fld R.AQD_CFG F.AQD_CFG_WIDTH < 2 → s.pair.role ≠ .syncing → s.pair.role ≠ .ready → s.pair.peerRole ≠ 2 → s.pair.peerRole ≠ 3 →
      Completes .aqdDeep s ((setTrain s .deep).setFld R.AQD_CMDST F.AQD_CMDST_STATUS (Status.code .ok))) ∧
    (s.pair.train ≠ .up → Completes .aqdDeep s (s.setFld R.AQD_CMDST F.AQD_CMDST_STATUS (Status.code .denied))) ∧
    (s.pair.train = .deep → Completes .aqdWake s ((setTrain s .up).setFld R.AQD_CMDST F.AQD_CMDST_STATUS (Status.code .ok))) ∧
    (s.pair.train ≠ .deep → ∃ st, st ∈ [Status.ok, .denied, .invalid] ∧
      Completes .aqdWake s (s.useFree.setFld R.AQD_CMDST F.AQD_CMDST_STATUS st.code))) ∧
  (∀ s, s.pair.train = .deep → Completes .partnerClockWake s (setTrain s .up)) ∧
  (∀ s, s.linkUp = true → s.fld R.AQD_CFG F.AQD_CFG_WIDTH = 2 → s.flag R.AQD_CFG F.AQD_CFG_SLEEP_EN = true →
    Completes (.linkSleepEntry true) s (s.modPair (fun p => { p with rxSleep := true, lanes := 3 })) ∧
    (s.pair.queue.length < 2 → Completes (.linkSleepEntry false) s (s.modPair (fun p => { p with txSleep := true })))) ∧
  (∀ s, s.pair.rxSleep = true → Completes (.linkSleepExit true) s (s.modPair (fun p => { p with rxSleep := false, lanes := 255 }))) ∧
  (∀ s, 4 ≤ s.pair.queue.length → Completes (.linkSleepExit false) s (s.modPair (fun p => { p with txSleep := false })))

/-! ### The host interface -/

/-- A function whose doorbells are taken: the physical one, or a slice that is ACTIVE (R467). -/
def RingOpen (s : State) (fn : Fn) : Prop := ∀ k, fn = .vf k → (s.slice k).state = .active

/-- A function whose descriptors are fetched: the physical one, or a slice that is ACTIVE or FENCED and not silenced (R467, R469). -/
def RingLive (s : State) (fn : Fn) : Prop := ∀ k, fn = .vf k → ((s.slice k).state = .active ∨ (s.slice k).state = .fenced) ∧ (s.slice k).silent = false

/-- An empty frame of a function's own. -/
def fnFrame (fn : Fn) : Frame := { ingress := 32, trib := (match fn with
  | .pf => 0
  | .vf k => k + 1) }

/-- The state after the next descriptor of a transmit queue has been asked for: HEAD has gone on (R461). -/
def descAsked (s : State) (fn : Fn) (r : Nat) : State :=
  (s.emit (s.dmaRead fn (descAddr s (aTxBase fn r) (aTxCfg fn r) 32 (s.fld (aTxHead fn r) F.TXQ_HEAD_HEAD)) 32)).setFld (aTxHead fn r)
    F.TXQ_HEAD_HEAD (s.fld (aTxHead fn r) F.TXQ_HEAD_HEAD + 1)

/-- A doorbell of the physical function moves a tail within its queue's bound; one that breaks it is ignored, and one of a slice that is not
active dropped and noted. The next descriptor of an enabled queue whose tail is ahead is fetched and makes a frame with its FCS, or fails
with its completion due, and the head moves on. Completions of 32 bytes are written in the order of the descriptors, each one followed by
the vector as COUNT says, and the others are signalled when the time has run out. (R461, R462, R464, R465, R467) -/
def Obligations.HostRings : Prop :=
  (∀ s fn r v, RingOpen s fn → s.reachable = true → s.serves (blockOf (aTxTail fn r)) = true → s.serves (blockOf (aRxTail fn r)) = true →
    Completes (.txqDoorbell fn r v) s
      (if s.flag (aTxCfg fn r) F.TXQ_CFG_EN = false ∨
          (v % 65536 + 65536 - s.fld (aTxHead fn r) F.TXQ_HEAD_HEAD) % 65536 ≤ entriesOf s (aTxCfg fn r)
        then s.setFld (aTxTail fn r) F.TXQ_TAIL_TAIL (v % 65536) else slNote s fn F.SL_ALARM_DB_BAD 9) ∧
    Completes (.rxqDoorbell fn r v) s
      (if s.flag (aRxCfg fn r) F.TXQ_CFG_EN = false ∨
          (v % 65536 + 65536 - s.fld (aRxHead fn r) F.TXQ_HEAD_HEAD) % 65536 ≤ entriesOf s (aRxCfg fn r)
        then s.setFld (aRxTail fn r) F.TXQ_TAIL_TAIL (v % 65536) else slNote s fn F.SL_ALARM_DB_BAD 9)) ∧
  (∀ s k r v, s.reachable = true → s.serves (blockOf (aTxTail (.vf k) r)) = true → s.serves (blockOf (aRxTail (.vf k) r)) = true →
    (s.slice k).state ≠ .active →
    Completes (.txqDoorbell (.vf k) r v) s (slAlarm (s.count (.slice k 8)) k F.SL_ALARM_DB_DROPPED) ∧
    Completes (.rxqDoorbell (.vf k) r v) s (slAlarm (s.count (.slice k 8)) k F.SL_ALARM_DB_DROPPED)) ∧
  (∀ s fn r i, i = s.fld (aTxHead fn r) F.TXQ_HEAD_HEAD → i ≠ s.fld (aTxTail fn r) F.TXQ_TAIL_TAIL →
    r < ringCount s fn → s.flag (aTxCfg fn r) F.TXQ_CFG_EN = true → RingLive s fn →
    (∀ f, Completes (.descriptorFetch fn r .error f) s
      (failDesc (dmaError (descAsked s fn r).useFree fn) fn r i ((descAsked s fn r).freeBytes 4) (.aborted, 0xA))) ∧
    (∀ d f st, descJob s fn r i d = .inr st → Completes (.descriptorFetch fn r (.data d) f) s
      (failDesc (descAsked s fn r) fn r i (slice d 28 4) st)) ∧
    (∀ d x, descJob s fn r i d = .inl x → frameUsed s (fnFrame fn) + (beAt d 8 2 + 4 + 255) / 256 ≤ frameCapacity s (fnFrame fn) → ∃ w,
      w = (descAsked s fn r).emit ((descAsked s fn r).dmaRead fn (beAt d 0 8) (beAt d 8 2)) ∧
      Completes (.descriptorFetch fn r (.data d) .error) s (failDesc (dmaError w fn) fn r i x.cookie (.aborted, 0xA)) ∧
      ∀ l b u v, b = withFcs (slice l 0 (beAt d 8 2)) → u = (w.count (.host 0)).countN (.host 1) b.length →
      v = { u.setFrame u.nextFrame { fnFrame fn with bytes := b, complete := true, classified := true } with nextFrame := u.nextFrame + 1 } →
      Completes (.descriptorFetch fn r (.data d) (.data l)) s (v.addJob { x with frame := v.nextFrame - 1 })) ∧
    (∀ d x f, descJob s fn r i d = .inl x → frameCapacity s (fnFrame fn) < frameUsed s (fnFrame fn) + (beAt d 8 2 + 4 + 255) / 256 →
      Completes (.descriptorFetch fn r (.data d) f) s s)) ∧
  (∀ s fn r j y x st n u, x = kget {} s.rings (ringKey fn r) → doneJob s fn r x.txDone = some (j, y) → st = y.fate.getD (.ok, 0) →
    u = { s.setJob j {} with rings := kset {} s.rings (ringKey fn r) { x with txDone := (x.txDone + 1) % 65536 } } → silentFn u fn = false →
    n = entriesOf u (aTxCfg fn r) → Completes (.txCompletionWrite fn r) s (signalRing (slCountN
      (u.emit (u.dmaWrite fn false (completionAddr u (aTxcBase fn r) n x.txDone) (txCompletion y st (phase x.txStart x.txDone n)))) fn
      (if st.1 = .ok then 0 else 2) 1) fn r)) ∧
  (∀ x st ph, (txCompletion x st ph).length = 32) ∧
  (∀ s fn r x, x = kget {} s.rings (ringKey fn r) → 0 < x.unsignalled → s.fld (aIrqCoal fn r) F.IRQ_COAL_COUNT ≠ 0 →
    Completes (.interruptCoalesceExpiry fn r) s
      ({ s with rings := kset {} s.rings (ringKey fn r) { x with unsignalled := 0 } }.interrupt fn (ringVector fn r)))

/-- BIND makes an unbound slice active with its PASID, when slices, its function and PASIDs are on and the PASID is not taken; without them it
is DENIED, and on a bound slice QUIESCE_REQUIRED. FENCE, RESUME, RESET and UNBIND follow the states of a slice, which is quiesced when
nothing of it is in flight; RESET and UNBIND of an active one are QUIESCE_REQUIRED. A reset of its function, or of its bus mastering,
silences an active or fenced slice and no other; the former resets its MSI-X table too. RESET of an unbound slice answers another code than
OK, which one is free (log entry 150). (R457, R467, R469, R470, R472) -/
def Obligations.HostSlices : Prop :=
  (∀ s k, k < 64 → s.reachable = true → s.serves (blockOf R.HIF_SLCMD) = true → (s.slice k).state = .unbound → s.slicesOn = true →
    (∀ n, n < 64 → n ≠ k → (s.slice n).state ≠ .unbound → (s.slice n).pasid ≠ s.fld R.HIF_SLARG F.HIF_SLARG_PASID) → ∃ u,
    u = clearSliceCtrs (clearRings s k) k ∧ Completes (.sliceBind k true true) s
      ((u.setSlice k { state := .active, pasid := s.fld R.HIF_SLARG F.HIF_SLARG_PASID }).setFld R.HIF_SLCMDST F.HIF_SLCMDST_STATUS (Status.code .ok))) ∧
  (∀ s k vf pa, k < 64 → s.reachable = true → s.serves (blockOf R.HIF_SLCMD) = true → (s.slice k).state = .unbound →
    s.slicesOn = false ∨ vf = false ∨ pa = false →
    Completes (.sliceBind k vf pa) s (s.setFld R.HIF_SLCMDST F.HIF_SLCMDST_STATUS (Status.code .denied))) ∧
  (∀ s k vf pa, k < 64 → s.reachable = true → s.serves (blockOf R.HIF_SLCMD) = true → (s.slice k).state ≠ .unbound →
    Completes (.sliceBind k vf pa) s (s.setFld R.HIF_SLCMDST F.HIF_SLCMDST_STATUS (Status.code .quiesceRequired))) ∧
  (∀ s k, k < 64 → s.reachable = true → s.serves (blockOf R.HIF_SLCMD) = true → (s.slice k).state = .active →
    Completes (.sliceFence k) s ((s.setSlice k { s.slice k with state := .fenced }).setFld R.HIF_SLCMDST F.HIF_SLCMDST_STATUS (Status.code .ok)) ∧
    Completes (.sliceReset k) s (s.setFld R.HIF_SLCMDST F.HIF_SLCMDST_STATUS (Status.code .quiesceRequired)) ∧
    Completes (.sliceUnbind k) s (s.setFld R.HIF_SLCMDST F.HIF_SLCMDST_STATUS (Status.code .quiesceRequired))) ∧
  (∀ s k, k < 64 → s.reachable = true → s.serves (blockOf R.HIF_SLCMD) = true → (s.slice k).state = .quiesced →
    Completes (.sliceResume k) s ((s.setSlice k { s.slice k with state := .active, silent := false }).setFld R.HIF_SLCMDST F.HIF_SLCMDST_STATUS
      (Status.code .ok)) ∧
    Completes (.sliceReset k) s ((resetSlice s k).setFld R.HIF_SLCMDST F.HIF_SLCMDST_STATUS (Status.code .ok)) ∧
    Completes (.sliceUnbind k) s ((((resetSlice s k).setSlice k {}).interrupt .pf 6).setFld R.HIF_SLCMDST F.HIF_SLCMDST_STATUS (Status.code .ok))) ∧
  (∀ s k, k < 64 → Completes (.vfFlr k) s (clearMsix (silenceSlice s k) k) ∧ Completes (.vfBusMasterClear k) s (silenceSlice s k)) ∧
  (∀ s k, (s.slice k).state ≠ .active → (s.slice k).state ≠ .fenced → silenceSlice s k = s) ∧
  (∀ s k, k < 64 → s.reachable = true → s.serves (blockOf R.HIF_SLCMD) = true → (s.slice k).state = .unbound → ∃ st,
    st ∈ [Status.denied, .conflict, .invalid, .quiesceRequired] ∧
    Completes (.sliceReset k) s (s.useFree.setFld R.HIF_SLCMDST F.HIF_SLCMDST_STATUS st.code)) ∧
  (∀ s k, (s.slice k).state = .fenced → inFlight s k = 0 → (s.slice k).silent = false →
    Completes (.sliceQuiesced k) s ((s.setSlice k { s.slice k with state := .quiesced }).interrupt .pf 6)) ∧
  (∀ s k, (s.slice k).state = .fenced → inFlight s k ≠ 0 → Completes (.sliceQuiesced k) s s)

/-! ### Counters -/

/-- An instant latches every counter and begins an image, or is skipped and counted while the MC is down, while an image is being written, or
without buffers (log entries 162 and 163); the image ends with its header, and the sequence number advances, or with an alarm. A periodic
instant is the next multiple after the base's time. A commanded instant that is reached takes its snapshot, freezes what reads show, or
thaws it, and is no longer pending; while the MC is down the commands are BUSY. (R478, R479, R480, R481, R488) -/
def Obligations.CounterSnapshots : Prop :=
  (∀ s b t, snapRuns s = true → b = s.fld R.CNT_CFG F.CNT_CFG_SNAP_TB → t = nextInstant s (s.now b) →
    Completes .snapshotInstant s (takeSnapshot (s.reach b t) false b t)) ∧
  (∀ s c b t, s.dev.mcUp = false ∨ s.snap.image.isSome = true ∨ buffersSet s = false →
    takeSnapshot s c b t = { s with snap := { s.snap with skipped := s.snap.skipped + 1 } }) ∧
  (∀ s c b t, s.dev.mcUp = true → s.snap.image = none → buffersSet s = true → ∃ i, (takeSnapshot s c b t).snap.image = some i ∧
    i.counters = s.counters ∧ i.wraps = s.wraps ∧ i.instant = t ∧ i.skipped = s.snap.skipped ∧
    (takeSnapshot s c b t).snap.skipped = 0 ∧ (takeSnapshot s c b t).counters = s.counters) ∧
  (∀ s c, s.reachable = true → s.serves (blockOf R.CNT_CMD) = true → s.dev.mcUp = false →
    c ∈ [Instr.cntSnap, .cntFreeze, .cntThaw] → Completes c s (cntEnd s .busy)) ∧
  (∀ s b t u, s.snap.pending = some (1, b, t) → u = s.reach b t →
    Completes .commandedInstant s (takeSnapshot { u with snap := { s.snap with pending := none } } true b t)) ∧
  (∀ s b t, s.snap.pending = some (2, b, t) → ∃ u, Completes .commandedInstant s u ∧ u.snap.pending = none ∧
    ∀ i, shownCounter u i = kget 0 u.counters i) ∧
  (∀ s b t, s.snap.pending = some (3, b, t) → ∃ u, Completes .commandedInstant s u ∧ u.snap.pending = none ∧ u.snap.frozen = none) ∧
  (∀ s i a, s.snap.image = some i → a = snapBuffer s i.toB → Completes (.snapshotImageDone true) s
    { (s.emit (s.dmaWrite .pf true (a + 0x100) (imageBanks i ++ imageBitmap i))).emit (s.dmaWrite .pf false a (imageHeader i (s.snap.seq + 1))) with
      snap := { s.snap with image := none, seq := s.snap.seq + 1 } }) ∧
  (∀ s i, s.snap.image = some i → Completes (.snapshotImageDone false) s
    ({ s with snap := { s.snap with image := none, skipped := s.snap.skipped + i.skipped + 1 } }.alarm R.CNT_ALARM F.CNT_ALARM_DMA_ERR))

/-- An event adds one to its counter modulo 2^64 and to no other. CLEAR_WRAP clears one wrap bit and no other, or all. The window counts are
latched at their comparator, which then advances. An arm on an index that names no counter is INVALID, any other write of it counts from 0,
and one that has seen its events fires once, disarmed, with its hit bit and vector 0. A read of a low word shows the counter and keeps the
high word, for the native and for the legacy counters. (R476, R477, R483, R484, R485, R488) -/
def Obligations.CountersAndArms : Prop :=
  (∀ (s : State) c i, i < 2 ^ 20 → kget 0 (s.count c).counters i =
    if i = c.index then (kget 0 s.counters i + 1) % 2 ^ 64 else kget 0 s.counters i) ∧
  (∀ s i, s.reachable = true → s.serves (blockOf R.CNT_CMD) = true → i < 0xFFFFF → ∃ t, Completes (.cntClearWrap i) s t ∧
    kget false t.wraps i = false ∧ t.counters = s.counters ∧ ∀ j, j ≠ i → kget false t.wraps j = kget false s.wraps j) ∧
  (∀ s, s.reachable = true → s.serves (blockOf R.CNT_CMD) = true → Completes (.cntClearWrap 0xFFFFF) s (cntEnd { s with wraps := [] } .ok)) ∧
  (∀ s k, s.flag R.CNT_BW F.CNT_BW_EN = true → k = s.fld R.CNT_BW F.CNT_BW_CMP → cmpArmed s k = true →
    Completes .bwWindowBoundary s (advanceCmp (latchWindows (s.reach (s.fld (R.CMP_CFG k) F.CMP_CFG_TB) (cmpTarget s k))) k)) ∧
  (∀ s k v, k < 8 → s.reachable = true → s.serves (blockOf (R.CNT_ARM_k_IDX k)) = true →
    Completes (.cntArmIdxWrite k v) s
      (if F.CNT_ARM_k_IDX_EN.get v = 1 ∧ knownIndex (F.CNT_ARM_k_IDX_IDX.get v) = false then cntEnd s .invalid
       else cntEnd { s.setReg (R.CNT_ARM_k_IDX k) (v &&& rwMask (R.CNT_ARM_k_IDX k)) with armed := kset 0 s.armed k 0 } .ok)) ∧
  (∀ s k, k < 8 → s.flag (R.CNT_ARM_k_IDX k) F.CNT_ARM_k_IDX_EN = true → max 1 (s.reg (R.CNT_ARM_k_N k)).toNat ≤ kget 0 s.armed k → ∃ t,
    t = (({ s.setFld (R.CNT_ARM_k_IDX k) F.CNT_ARM_k_IDX_EN 0 with armed := kset 0 s.armed k 0 }).setFld R.CNT_ARM_HIT ⟨k, 1⟩ 1).interrupt .pf 0 ∧
    Completes (.armFire k) s t ∧ t.flag (R.CNT_ARM_k_IDX k) F.CNT_ARM_k_IDX_EN = false ∧ t.flag R.CNT_ARM_HIT ⟨k, 1⟩ = true ∧ kget 0 t.armed k = 0) ∧
  (∀ s, s.reachable = true → s.serves (blockOf R.CNT_RD_LO) = true → ∃ v t, v = shownCounter s (s.fld R.CNT_RD_IDX F.CNT_RD_IDX_IDX) ∧
    Completes .cntRdLoRead s t ∧ t = (latchHigh s R.CNT_RD_HI v).emit (.readData .pf R.CNT_RD_LO (BitVec.ofNat 32 v)) ∧
    kget 0 t.snap.highs R.CNT_RD_HI = BitVec.ofNat 32 (v / 2 ^ 32)) ∧
  (∀ s i, i < 256 → s.reachable = true → s.serves (blockOf (R.LEG_i_LO i)) = true → ∃ v t, v = (if i < 248 then shownLegacy s i else 0) ∧
    Completes (.legLoRead i) s t ∧ t = (latchHigh s (R.LEG_i_HI i) v).emit (.readData .pf (R.LEG_i_LO i) (BitVec.ofNat 32 v)) ∧
    kget 0 t.snap.highs (R.LEG_i_HI i) = BitVec.ofNat 32 (v / 2 ^ 32))

/-! ### The whole block -/

/-- A step runs the command at the front of the queue on the state with the queue's rest. With an empty queue one 800 MHz tick passes, while the
device is powered and out of cold reset: each of the four bases adds its increment, the counters of islands in time-unlock and the bit
counts of lanes go on, and spare releases, known-answer tests, tunnel endpoint writes and replica swaps that are due end; otherwise nothing
happens. That an empty queue lets a tick pass is the model's choice (log entry 2). (R340) -/
def Obligations.StepTakesTheFront : Prop :=
  (∀ (c : Instr) (s : State) (q : List Instr), step { s with pending := c :: q } = exec c { s with pending := q }) ∧
  (∀ s : State, s.pending = [] → s.dev.power = true → s.dev.coldReset = false →
    Steps s (swapReplica (tickRills (finishRelease (finishRelease (tickLanes (tickLocal (tickBases s))) 0) 1)))) ∧
  (∀ s : State, tickBases s = { s with bases := (tickBases s).bases } ∧ ∀ b, b < 4 → (tickBases s).now b = (s.now b).shift (s.reg (R.TB_INCR b)).toNat) ∧
  (∀ s : State, s.pending = [] → s.dev.power = false ∨ s.dev.coldReset = true → Steps s s)

/-- Every command of the table answers a next state, on every operand and in every state: no data and no order of commands ends a run. A command
that cannot be carried out answers a status code, an access to a block that is not served is ignored, and a command whose conditions do not
hold leaves the state as it is (the model's choice: log entry 4). (R9, R37) -/
def Obligations.EveryCommandAnswers : Prop :=
  ∀ (c : Instr) (s : State), ∃ t, Completes c s t

/-- For every state and every step from it: the queue afterwards is the queue without its front command, and a register map in canonical form
(addresses strictly rising, no entry equal to its reset value) stays in canonical form. The form is the model's way to hold the registers of
R7 and R489. (R7, R489) -/
def Obligations.StepsKeepCanonicalRegisters : Prop :=
  ∀ s t : State, Steps s t → t.pending = s.pending.tail ∧ (RegsWf s → RegsWf t)

/-- The state after reset meets the invariant of the steps: its register map is canonical, every register reads its reset value (those that the
spec does not state: log entries 12 and 13), and its queue is empty. (R52, R489) -/
def Obligations.ResetIsCanonical : Prop :=
  RegsWf State.reset ∧ (∀ a, State.reset.reg a = resetVal a) ∧ State.reset.pending = []

/-- Whatever steps are taken from whatever state, the epoch E of the update counter, which the blown anti-fuses hold, is never lower afterwards:
no command mends a fuse. (R375, R376) -/
def Obligations.EpochNeverFalls : Prop :=
  ∀ s t : State, Reaches s t → s.epoch ≤ t.epoch

/-- From every state, GLB_MC_RESTART, the expiry of the MC watchdog, the completion of an MC restart, the function-level reset of the physical
function and of a virtual function, and a slice reset answer a next state with the device state unchanged. (R39) -/
def Obligations.DeviceStateKept : Prop :=
  (∀ (s : State) key, ∃ t, Completes (.glbMcRestart key) s t ∧ t.dev.state = s.dev.state) ∧
  (∀ s : State, ∃ t, Completes .mcWatchdogExpiry s t ∧ t.dev.state = s.dev.state) ∧
  (∀ s : State, ∃ t, Completes .mcRestartComplete s t ∧ t.dev.state = s.dev.state) ∧
  (∀ s : State, ∃ t, Completes .functionLevelReset s t ∧ t.dev.state = s.dev.state) ∧
  (∀ (s : State) k, ∃ t, Completes (.vfFlr k) s t ∧ t.dev.state = s.dev.state) ∧
  (∀ (s : State) k, ∃ t, Completes (.sliceReset k) s t ∧ t.dev.state = s.dev.state)

/-- With the collector serving and no instant pending, SNAP, FREEZE and THAW with CNT_AT 0 are pending for 10 us after the command on the base
of SNAP_TB; with another CNT_AT that lies less than 10 us ahead they return INVALID, and with one that lies 10 us ahead or more they are
pending for it. While an instant is pending, each of the three returns BUSY. A command that returns sets CNT_STATUS to its code and changes
no other part of the state than registers. (R482) -/
def Obligations.CommandedInstantsFromCntAt : Prop :=
  (∀ (s : State) n op c, s.reachable = true → s.serves (blockOf R.CNT_CMD) = true → s.dev.mcUp = true → s.snap.pending = none →
    n = (s.now (s.fld R.CNT_CFG F.CNT_CFG_SNAP_TB)).shift (10000 * 2 ^ 24 : Nat) →
    (op, c) ∈ [(1, Instr.cntSnap), (2, .cntFreeze), (3, .cntThaw)] →
    Completes c s
      (if cntAt s = {} then cntEnd { s with snap := { s.snap with pending := some (op, s.fld R.CNT_CFG F.CNT_CFG_SNAP_TB, n) } } .ok
       else if (cntAt s).ge n = false then cntEnd s .invalid
       else cntEnd { s with snap := { s.snap with pending := some (op, s.fld R.CNT_CFG F.CNT_CFG_SNAP_TB, cntAt s) } } .ok)) ∧
  (∀ (s : State) c, s.reachable = true → s.serves (blockOf R.CNT_CMD) = true → s.snap.pending.isSome = true →
    c ∈ [Instr.cntSnap, .cntFreeze, .cntThaw] → Completes c s (cntEnd s .busy)) ∧
  (∀ (s : State) st t, t = cntEnd s st → t.fld R.CNT_STATUS F.CNT_STATUS_STATUS = st.code ∧ t = { s with regs := t.regs })
end

