-- ==== Sys2Proof/Laws/Map.lean ====
section
/-! SUPPORT. Laws of keyed maps: reading after writing, and the canonical form that every write keeps. -/

namespace Sys2Proof.Machine

theorem kget_kdel_same {α : Type} (d : α) (m : KMap α) (k : Nat) : kget d (kdel m k) k = d := by
  induction m with
  | nil => rfl
  | cons e r ih => obtain ⟨j, v⟩ := e; by_cases h : j = k <;> simp [kdel, kget, h, ih]

theorem kget_kdel_other {α : Type} (d : α) (m : KMap α) {k j : Nat} (h : j ≠ k) : kget d (kdel m k) j = kget d m j := by
  induction m with
  | nil => rfl
  | cons e r ih =>
    obtain ⟨i, v⟩ := e
    by_cases hk : i = k
    · subst hk; simp [kdel, kget, ih, Ne.symm h]
    · simp [kdel, kget, hk, ih]

theorem kget_kins_other {α : Type} (d : α) (m : KMap α) {k j : Nat} (v : α) (h : j ≠ k) : kget d (kins m k v) j = kget d m j := by
  induction m with
  | nil => simp [kins, kget, Ne.symm h]
  | cons e r ih =>
    obtain ⟨i, w⟩ := e
    by_cases hk : k < i
    · simp [kins, kget, hk, Ne.symm h]
    · simp [kins, kget, hk, ih]

theorem kget_kins_same {α : Type} (d : α) (m : KMap α) (k : Nat) (v : α) : kget d (kins (kdel m k) k v) k = v := by
  induction m with
  | nil => simp [kdel, kins, kget]
  | cons e r ih =>
    obtain ⟨i, w⟩ := e
    by_cases hk : i = k
    · simp [kdel, hk, ih]
    · by_cases hl : k < i <;> simp [kdel, kins, kget, hk, hl, ih]

/-- A written key reads back what was written. -/
@[simp] theorem kget_kset_same {α : Type} [DecidableEq α] (d : α) (m : KMap α) (k : Nat) (v : α) : kget d (kset d m k v) k = v := by
  unfold kset; split
  · rename_i h; rw [h, kget_kdel_same]
  · exact kget_kins_same d m k v

/-- A write leaves every other key as it was. -/
theorem kget_kset_other {α : Type} [DecidableEq α] (c d : α) (m : KMap α) {k j : Nat} (v : α) (h : j ≠ k) :
    kget c (kset d m k v) j = kget c m j := by
  unfold kset; split
  · exact kget_kdel_other c m h
  · rw [kget_kins_other c _ v h, kget_kdel_other c m h]

/-- Reading any key after a write. -/
theorem kget_kset {α : Type} [DecidableEq α] (d : α) (m : KMap α) (k j : Nat) (v : α) :
    kget d (kset d m k v) j = if j = k then v else kget d m j := by
  by_cases h : j = k
  · subst h; simp
  · simp [h, kget_kset_other d d m v h]

/-! ### The canonical form -/

theorem krising_cons {α : Type} {j : Nat} {v : α} {r : KMap α} (h : krising ((j, v) :: r) = true) : krising r = true := by
  cases r with
  | nil => rfl
  | cons e r => obtain ⟨k, w⟩ := e; simp [krising] at h; exact h.2

theorem krising_head {α : Type} {j : Nat} {v : α} {r : KMap α} (h : krising ((j, v) :: r) = true) : ∀ e ∈ r, j < e.1 := by
  induction r generalizing j v with
  | nil => simp
  | cons e r ih =>
    obtain ⟨k, w⟩ := e
    simp only [krising, Bool.and_eq_true, decide_eq_true_eq] at h
    intro x hx
    rcases List.mem_cons.mp hx with rfl | hx
    · exact h.1
    · exact lt_trans h.1 (ih h.2 x hx)

theorem krising_of_head {α : Type} {j : Nat} {v : α} {r : KMap α} (h : ∀ e ∈ r, j < e.1) (hr : krising r = true) :
    krising ((j, v) :: r) = true := by
  cases r with
  | nil => rfl
  | cons e r => obtain ⟨k, w⟩ := e; simp only [krising, Bool.and_eq_true, decide_eq_true_eq]; exact ⟨h (k, w) (by simp), hr⟩

theorem mem_kdel {α : Type} {m : KMap α} {k : Nat} {e : Nat × α} (h : e ∈ kdel m k) : e ∈ m ∧ e.1 ≠ k := by
  induction m with
  | nil => simp [kdel] at h
  | cons x r ih =>
    obtain ⟨j, v⟩ := x
    by_cases hk : j = k
    · simp only [kdel, hk, if_true] at h
      exact ⟨List.mem_cons_of_mem _ (ih h).1, (ih h).2⟩
    · simp only [kdel, hk, if_false] at h
      rcases List.mem_cons.mp h with rfl | h
      · exact ⟨by simp, hk⟩
      · exact ⟨List.mem_cons_of_mem _ (ih h).1, (ih h).2⟩

theorem krising_kdel {α : Type} {m : KMap α} (k : Nat) (h : krising m = true) : krising (kdel m k) = true := by
  induction m with
  | nil => rfl
  | cons x r ih =>
    obtain ⟨j, v⟩ := x
    by_cases hk : j = k
    · simp only [kdel, hk, if_true]; exact ih (krising_cons h)
    · simp only [kdel, hk, if_false]
      exact krising_of_head (fun e he => krising_head h e (mem_kdel he).1) (ih (krising_cons h))

theorem mem_kins {α : Type} {m : KMap α} {k : Nat} {v : α} {e : Nat × α} (h : e ∈ kins m k v) : e = (k, v) ∨ e ∈ m := by
  induction m with
  | nil => simp [kins] at h; exact .inl h
  | cons x r ih =>
    obtain ⟨j, w⟩ := x
    by_cases hk : k < j
    · simpa [kins, hk] using h
    · simp only [kins, hk, if_false] at h
      rcases List.mem_cons.mp h with rfl | h
      · exact .inr (by simp)
      · exact (ih h).imp id (List.mem_cons_of_mem _)

theorem krising_kins {α : Type} {m : KMap α} (k : Nat) (v : α) (hk : ∀ e ∈ m, e.1 ≠ k) (h : krising m = true) :
    krising (kins m k v) = true := by
  induction m with
  | nil => rfl
  | cons x r ih =>
    obtain ⟨j, w⟩ := x
    by_cases hl : k < j
    · simp only [kins, hl, if_true]
      refine krising_of_head (fun e he => ?_) h
      rcases List.mem_cons.mp he with rfl | he
      · exact hl
      · exact lt_trans hl (krising_head h e he)
    · simp only [kins, hl, if_false]
      have hj : j ≠ k := hk (j, w) (by simp)
      refine krising_of_head (fun e he => ?_) (ih (fun e he => hk e (List.mem_cons_of_mem _ he)) (krising_cons h))
      rcases mem_kins he with rfl | he
      · simp only; omega
      · exact krising_head h e he

/-- Every write keeps the canonical form. -/
theorem kset_wf {α : Type} [DecidableEq α] (d : Nat → α) {m : KMap α} (k : Nat) (v : α) (h : kwf d m = true) :
    kwf d (kset (d k) m k v) = true := by
  simp only [kwf, Bool.and_eq_true, List.all_eq_true, decide_eq_true_eq] at h ⊢
  unfold kset; split
  · exact ⟨krising_kdel k h.1, fun e he => h.2 e (mem_kdel he).1⟩
  · rename_i hv
    refine ⟨krising_kins k v (fun e he => (mem_kdel he).2) (krising_kdel k h.1), fun e he => ?_⟩
    rcases mem_kins he with rfl | he
    · exact hv
    · exact h.2 e (mem_kdel he).1

/-- Taking entries away keeps the canonical form. -/
theorem filter_wf {α : Type} [DecidableEq α] (d : Nat → α) {m : KMap α} (p : Nat × α → Bool) (h : kwf d m = true) :
    kwf d (m.filter p) = true := by
  simp only [kwf, Bool.and_eq_true, List.all_eq_true, decide_eq_true_eq] at h ⊢
  refine ⟨?_, fun e he => h.2 e (List.mem_filter.mp he).1⟩
  have go : ∀ m : KMap α, krising m = true → krising (m.filter p) = true := by
    intro m
    induction m with
    | nil => intro _; rfl
    | cons x r ih =>
      intro h
      obtain ⟨j, w⟩ := x
      by_cases hp : p (j, w) = true
      · rw [List.filter_cons_of_pos hp]
        exact krising_of_head (fun e he => krising_head h e (List.mem_filter.mp he).1) (ih (krising_cons h))
      · rw [List.filter_cons_of_neg hp]; exact ih (krising_cons h)
  exact go m h.1

end Sys2Proof.Machine
end

