-- ==== Sys2Proof/Laws/State.lean ====
section
/-! SUPPORT. What each elementary update of the state changes and what it leaves, field by field; so that no proof unfolds one. -/

namespace Sys2Proof.Machine

variable (s : State)

/-! ### setReg -/

@[simp] theorem State.setReg_pending (a : Nat) (v : Word) : (s.setReg a v).pending = s.pending := rfl
@[simp] theorem State.setReg_out (a : Nat) (v : Word) : (s.setReg a v).out = s.out := rfl
@[simp] theorem State.setReg_freeCtr (a : Nat) (v : Word) : (s.setReg a v).freeCtr = s.freeCtr := rfl
@[simp] theorem State.setReg_regs (a : Nat) (v : Word) : (s.setReg a v).regs = kset (resetVal a) s.regs a v := rfl
@[simp] theorem State.setReg_counters (a : Nat) (v : Word) : (s.setReg a v).counters = s.counters := rfl
@[simp] theorem State.setReg_wraps (a : Nat) (v : Word) : (s.setReg a v).wraps = s.wraps := rfl
@[simp] theorem State.setReg_legacy (a : Nat) (v : Word) : (s.setReg a v).legacy = s.legacy := rfl
@[simp] theorem State.setReg_legacyWraps (a : Nat) (v : Word) : (s.setReg a v).legacyWraps = s.legacyWraps := rfl
@[simp] theorem State.setReg_armed (a : Nat) (v : Word) : (s.setReg a v).armed = s.armed := rfl
@[simp] theorem State.setReg_dev (a : Nat) (v : Word) : (s.setReg a v).dev = s.dev := rfl
@[simp] theorem State.setReg_img (a : Nat) (v : Word) : (s.setReg a v).img = s.img := rfl
@[simp] theorem State.setReg_txn (a : Nat) (v : Word) : (s.setReg a v).txn = s.txn := rfl
@[simp] theorem State.setReg_basic (a : Nat) (v : Word) : (s.setReg a v).basic = s.basic := rfl
@[simp] theorem State.setReg_calUser (a : Nat) (v : Word) : (s.setReg a v).calUser = s.calUser := rfl
@[simp] theorem State.setReg_bypassPermit (a : Nat) (v : Word) : (s.setReg a v).bypassPermit = s.bypassPermit := rfl
@[simp] theorem State.setReg_partition (a : Nat) (v : Word) : (s.setReg a v).partition = s.partition := rfl
@[simp] theorem State.setReg_personality (a : Nat) (v : Word) : (s.setReg a v).personality = s.personality := rfl
@[simp] theorem State.setReg_ports (a : Nat) (v : Word) : (s.setReg a v).ports = s.ports := rfl
@[simp] theorem State.setReg_lanes (a : Nat) (v : Word) : (s.setReg a v).lanes = s.lanes := rfl
@[simp] theorem State.setReg_spares (a : Nat) (v : Word) : (s.setReg a v).spares = s.spares := rfl
@[simp] theorem State.setReg_releasing (a : Nat) (v : Word) : (s.setReg a v).releasing = s.releasing := rfl
@[simp] theorem State.setReg_askIgnored (a : Nat) (v : Word) : (s.setReg a v).askIgnored = s.askIgnored := rfl
@[simp] theorem State.setReg_cls (a : Nat) (v : Word) : (s.setReg a v).cls = s.cls := rfl
@[simp] theorem State.setReg_lpm4 (a : Nat) (v : Word) : (s.setReg a v).lpm4 = s.lpm4 := rfl
@[simp] theorem State.setReg_lpm6 (a : Nat) (v : Word) : (s.setReg a v).lpm6 = s.lpm6 := rfl
@[simp] theorem State.setReg_frames (a : Nat) (v : Word) : (s.setReg a v).frames = s.frames := rfl
@[simp] theorem State.setReg_nextFrame (a : Nat) (v : Word) : (s.setReg a v).nextFrame = s.nextFrame := rfl
@[simp] theorem State.setReg_jobs (a : Nat) (v : Word) : (s.setReg a v).jobs = s.jobs := rfl
@[simp] theorem State.setReg_nextJob (a : Nat) (v : Word) : (s.setReg a v).nextJob = s.nextJob := rfl
@[simp] theorem State.setReg_txAssocs (a : Nat) (v : Word) : (s.setReg a v).txAssocs = s.txAssocs := rfl
@[simp] theorem State.setReg_rxAssocs (a : Nat) (v : Word) : (s.setReg a v).rxAssocs = s.rxAssocs := rfl
@[simp] theorem State.setReg_genHigh (a : Nat) (v : Word) : (s.setReg a v).genHigh = s.genHigh := rfl
@[simp] theorem State.setReg_journal (a : Nat) (v : Word) : (s.setReg a v).journal = s.journal := rfl
@[simp] theorem State.setReg_rills (a : Nat) (v : Word) : (s.setReg a v).rills = s.rills := rfl
@[simp] theorem State.setReg_nextTag (a : Nat) (v : Word) : (s.setReg a v).nextTag = s.nextTag := rfl
@[simp] theorem State.setReg_expTag (a : Nat) (v : Word) : (s.setReg a v).expTag = s.expTag := rfl
@[simp] theorem State.setReg_teps (a : Nat) (v : Word) : (s.setReg a v).teps = s.teps := rfl
@[simp] theorem State.setReg_tepPending (a : Nat) (v : Word) : (s.setReg a v).tepPending = s.tepPending := rfl
@[simp] theorem State.setReg_tepIdent (a : Nat) (v : Word) : (s.setReg a v).tepIdent = s.tepIdent := rfl
@[simp] theorem State.setReg_tmp (a : Nat) (v : Word) : (s.setReg a v).tmp = s.tmp := rfl
@[simp] theorem State.setReg_bases (a : Nat) (v : Word) : (s.setReg a v).bases = s.bases := rfl
@[simp] theorem State.setReg_localTime (a : Nat) (v : Word) : (s.setReg a v).localTime = s.localTime := rfl
@[simp] theorem State.setReg_owner (a : Nat) (v : Word) : (s.setReg a v).owner = s.owner := rfl
@[simp] theorem State.setReg_keyLog (a : Nat) (v : Word) : (s.setReg a v).keyLog = s.keyLog := rfl
@[simp] theorem State.setReg_fuses (a : Nat) (v : Word) : (s.setReg a v).fuses = s.fuses := rfl
@[simp] theorem State.setReg_well (a : Nat) (v : Word) : (s.setReg a v).well = s.well := rfl
@[simp] theorem State.setReg_pair (a : Nat) (v : Word) : (s.setReg a v).pair = s.pair := rfl
@[simp] theorem State.setReg_slices (a : Nat) (v : Word) : (s.setReg a v).slices = s.slices := rfl
@[simp] theorem State.setReg_rings (a : Nat) (v : Word) : (s.setReg a v).rings = s.rings := rfl
@[simp] theorem State.setReg_sched (a : Nat) (v : Word) : (s.setReg a v).sched = s.sched := rfl
@[simp] theorem State.setReg_sluice (a : Nat) (v : Word) : (s.setReg a v).sluice = s.sluice := rfl
@[simp] theorem State.setReg_steps (a : Nat) (v : Word) : (s.setReg a v).steps = s.steps := rfl
@[simp] theorem State.setReg_cmpDone (a : Nat) (v : Word) : (s.setReg a v).cmpDone = s.cmpDone := rfl
@[simp] theorem State.setReg_captured (a : Nat) (v : Word) : (s.setReg a v).captured = s.captured := rfl
@[simp] theorem State.setReg_ppsHigh (a : Nat) (v : Word) : (s.setReg a v).ppsHigh = s.ppsHigh := rfl
@[simp] theorem State.setReg_gates (a : Nat) (v : Word) : (s.setReg a v).gates = s.gates := rfl
@[simp] theorem State.setReg_bwRx (a : Nat) (v : Word) : (s.setReg a v).bwRx = s.bwRx := rfl
@[simp] theorem State.setReg_bwTx (a : Nat) (v : Word) : (s.setReg a v).bwTx = s.bwTx := rfl
@[simp] theorem State.setReg_trunks (a : Nat) (v : Word) : (s.setReg a v).trunks = s.trunks := rfl
@[simp] theorem State.setReg_cistern (a : Nat) (v : Word) : (s.setReg a v).cistern = s.cistern := rfl
@[simp] theorem State.setReg_snap (a : Nat) (v : Word) : (s.setReg a v).snap = s.snap := rfl
@[simp] theorem State.setReg_pke (a : Nat) (v : Word) : (s.setReg a v).pke = s.pke := rfl
@[simp] theorem State.setReg_ident (a : Nat) (v : Word) : (s.setReg a v).ident = s.ident := rfl
@[simp] theorem State.setReg_localOps (a : Nat) (v : Word) : (s.setReg a v).localOps = s.localOps := rfl
@[simp] theorem State.setReg_drbgDown (a : Nat) (v : Word) : (s.setReg a v).drbgDown = s.drbgDown := rfl
@[simp] theorem State.setReg_flashA (a : Nat) (v : Word) : (s.setReg a v).flashA = s.flashA := rfl
@[simp] theorem State.setReg_flashB (a : Nat) (v : Word) : (s.setReg a v).flashB = s.flashB := rfl

/-! ### setFld -/

@[simp] theorem State.setFld_pending (a : Nat) (f : Fld) (v : Nat) : (s.setFld a f v).pending = s.pending := rfl
@[simp] theorem State.setFld_out (a : Nat) (f : Fld) (v : Nat) : (s.setFld a f v).out = s.out := rfl
@[simp] theorem State.setFld_freeCtr (a : Nat) (f : Fld) (v : Nat) : (s.setFld a f v).freeCtr = s.freeCtr := rfl
@[simp] theorem State.setFld_regs (a : Nat) (f : Fld) (v : Nat) : (s.setFld a f v).regs = kset (resetVal a) s.regs a (f.put (s.reg a) v) := rfl
@[simp] theorem State.setFld_counters (a : Nat) (f : Fld) (v : Nat) : (s.setFld a f v).counters = s.counters := rfl
@[simp] theorem State.setFld_wraps (a : Nat) (f : Fld) (v : Nat) : (s.setFld a f v).wraps = s.wraps := rfl
@[simp] theorem State.setFld_legacy (a : Nat) (f : Fld) (v : Nat) : (s.setFld a f v).legacy = s.legacy := rfl
@[simp] theorem State.setFld_legacyWraps (a : Nat) (f : Fld) (v : Nat) : (s.setFld a f v).legacyWraps = s.legacyWraps := rfl
@[simp] theorem State.setFld_armed (a : Nat) (f : Fld) (v : Nat) : (s.setFld a f v).armed = s.armed := rfl
@[simp] theorem State.setFld_dev (a : Nat) (f : Fld) (v : Nat) : (s.setFld a f v).dev = s.dev := rfl
@[simp] theorem State.setFld_img (a : Nat) (f : Fld) (v : Nat) : (s.setFld a f v).img = s.img := rfl
@[simp] theorem State.setFld_txn (a : Nat) (f : Fld) (v : Nat) : (s.setFld a f v).txn = s.txn := rfl
@[simp] theorem State.setFld_basic (a : Nat) (f : Fld) (v : Nat) : (s.setFld a f v).basic = s.basic := rfl
@[simp] theorem State.setFld_calUser (a : Nat) (f : Fld) (v : Nat) : (s.setFld a f v).calUser = s.calUser := rfl
@[simp] theorem State.setFld_bypassPermit (a : Nat) (f : Fld) (v : Nat) : (s.setFld a f v).bypassPermit = s.bypassPermit := rfl
@[simp] theorem State.setFld_partition (a : Nat) (f : Fld) (v : Nat) : (s.setFld a f v).partition = s.partition := rfl
@[simp] theorem State.setFld_personality (a : Nat) (f : Fld) (v : Nat) : (s.setFld a f v).personality = s.personality := rfl
@[simp] theorem State.setFld_ports (a : Nat) (f : Fld) (v : Nat) : (s.setFld a f v).ports = s.ports := rfl
@[simp] theorem State.setFld_lanes (a : Nat) (f : Fld) (v : Nat) : (s.setFld a f v).lanes = s.lanes := rfl
@[simp] theorem State.setFld_spares (a : Nat) (f : Fld) (v : Nat) : (s.setFld a f v).spares = s.spares := rfl
@[simp] theorem State.setFld_releasing (a : Nat) (f : Fld) (v : Nat) : (s.setFld a f v).releasing = s.releasing := rfl
@[simp] theorem State.setFld_askIgnored (a : Nat) (f : Fld) (v : Nat) : (s.setFld a f v).askIgnored = s.askIgnored := rfl
@[simp] theorem State.setFld_cls (a : Nat) (f : Fld) (v : Nat) : (s.setFld a f v).cls = s.cls := rfl
@[simp] theorem State.setFld_lpm4 (a : Nat) (f : Fld) (v : Nat) : (s.setFld a f v).lpm4 = s.lpm4 := rfl
@[simp] theorem State.setFld_lpm6 (a : Nat) (f : Fld) (v : Nat) : (s.setFld a f v).lpm6 = s.lpm6 := rfl
@[simp] theorem State.setFld_frames (a : Nat) (f : Fld) (v : Nat) : (s.setFld a f v).frames = s.frames := rfl
@[simp] theorem State.setFld_nextFrame (a : Nat) (f : Fld) (v : Nat) : (s.setFld a f v).nextFrame = s.nextFrame := rfl
@[simp] theorem State.setFld_jobs (a : Nat) (f : Fld) (v : Nat) : (s.setFld a f v).jobs = s.jobs := rfl
@[simp] theorem State.setFld_nextJob (a : Nat) (f : Fld) (v : Nat) : (s.setFld a f v).nextJob = s.nextJob := rfl
@[simp] theorem State.setFld_txAssocs (a : Nat) (f : Fld) (v : Nat) : (s.setFld a f v).txAssocs = s.txAssocs := rfl
@[simp] theorem State.setFld_rxAssocs (a : Nat) (f : Fld) (v : Nat) : (s.setFld a f v).rxAssocs = s.rxAssocs := rfl
@[simp] theorem State.setFld_genHigh (a : Nat) (f : Fld) (v : Nat) : (s.setFld a f v).genHigh = s.genHigh := rfl
@[simp] theorem State.setFld_journal (a : Nat) (f : Fld) (v : Nat) : (s.setFld a f v).journal = s.journal := rfl
@[simp] theorem State.setFld_rills (a : Nat) (f : Fld) (v : Nat) : (s.setFld a f v).rills = s.rills := rfl
@[simp] theorem State.setFld_nextTag (a : Nat) (f : Fld) (v : Nat) : (s.setFld a f v).nextTag = s.nextTag := rfl
@[simp] theorem State.setFld_expTag (a : Nat) (f : Fld) (v : Nat) : (s.setFld a f v).expTag = s.expTag := rfl
@[simp] theorem State.setFld_teps (a : Nat) (f : Fld) (v : Nat) : (s.setFld a f v).teps = s.teps := rfl
@[simp] theorem State.setFld_tepPending (a : Nat) (f : Fld) (v : Nat) : (s.setFld a f v).tepPending = s.tepPending := rfl
@[simp] theorem State.setFld_tepIdent (a : Nat) (f : Fld) (v : Nat) : (s.setFld a f v).tepIdent = s.tepIdent := rfl
@[simp] theorem State.setFld_tmp (a : Nat) (f : Fld) (v : Nat) : (s.setFld a f v).tmp = s.tmp := rfl
@[simp] theorem State.setFld_bases (a : Nat) (f : Fld) (v : Nat) : (s.setFld a f v).bases = s.bases := rfl
@[simp] theorem State.setFld_localTime (a : Nat) (f : Fld) (v : Nat) : (s.setFld a f v).localTime = s.localTime := rfl
@[simp] theorem State.setFld_owner (a : Nat) (f : Fld) (v : Nat) : (s.setFld a f v).owner = s.owner := rfl
@[simp] theorem State.setFld_keyLog (a : Nat) (f : Fld) (v : Nat) : (s.setFld a f v).keyLog = s.keyLog := rfl
@[simp] theorem State.setFld_fuses (a : Nat) (f : Fld) (v : Nat) : (s.setFld a f v).fuses = s.fuses := rfl
@[simp] theorem State.setFld_well (a : Nat) (f : Fld) (v : Nat) : (s.setFld a f v).well = s.well := rfl
@[simp] theorem State.setFld_pair (a : Nat) (f : Fld) (v : Nat) : (s.setFld a f v).pair = s.pair := rfl
@[simp] theorem State.setFld_slices (a : Nat) (f : Fld) (v : Nat) : (s.setFld a f v).slices = s.slices := rfl
@[simp] theorem State.setFld_rings (a : Nat) (f : Fld) (v : Nat) : (s.setFld a f v).rings = s.rings := rfl
@[simp] theorem State.setFld_sched (a : Nat) (f : Fld) (v : Nat) : (s.setFld a f v).sched = s.sched := rfl
@[simp] theorem State.setFld_sluice (a : Nat) (f : Fld) (v : Nat) : (s.setFld a f v).sluice = s.sluice := rfl
@[simp] theorem State.setFld_steps (a : Nat) (f : Fld) (v : Nat) : (s.setFld a f v).steps = s.steps := rfl
@[simp] theorem State.setFld_cmpDone (a : Nat) (f : Fld) (v : Nat) : (s.setFld a f v).cmpDone = s.cmpDone := rfl
@[simp] theorem State.setFld_captured (a : Nat) (f : Fld) (v : Nat) : (s.setFld a f v).captured = s.captured := rfl
@[simp] theorem State.setFld_ppsHigh (a : Nat) (f : Fld) (v : Nat) : (s.setFld a f v).ppsHigh = s.ppsHigh := rfl
@[simp] theorem State.setFld_gates (a : Nat) (f : Fld) (v : Nat) : (s.setFld a f v).gates = s.gates := rfl
@[simp] theorem State.setFld_bwRx (a : Nat) (f : Fld) (v : Nat) : (s.setFld a f v).bwRx = s.bwRx := rfl
@[simp] theorem State.setFld_bwTx (a : Nat) (f : Fld) (v : Nat) : (s.setFld a f v).bwTx = s.bwTx := rfl
@[simp] theorem State.setFld_trunks (a : Nat) (f : Fld) (v : Nat) : (s.setFld a f v).trunks = s.trunks := rfl
@[simp] theorem State.setFld_cistern (a : Nat) (f : Fld) (v : Nat) : (s.setFld a f v).cistern = s.cistern := rfl
@[simp] theorem State.setFld_snap (a : Nat) (f : Fld) (v : Nat) : (s.setFld a f v).snap = s.snap := rfl
@[simp] theorem State.setFld_pke (a : Nat) (f : Fld) (v : Nat) : (s.setFld a f v).pke = s.pke := rfl
@[simp] theorem State.setFld_ident (a : Nat) (f : Fld) (v : Nat) : (s.setFld a f v).ident = s.ident := rfl
@[simp] theorem State.setFld_localOps (a : Nat) (f : Fld) (v : Nat) : (s.setFld a f v).localOps = s.localOps := rfl
@[simp] theorem State.setFld_drbgDown (a : Nat) (f : Fld) (v : Nat) : (s.setFld a f v).drbgDown = s.drbgDown := rfl
@[simp] theorem State.setFld_flashA (a : Nat) (f : Fld) (v : Nat) : (s.setFld a f v).flashA = s.flashA := rfl
@[simp] theorem State.setFld_flashB (a : Nat) (f : Fld) (v : Nat) : (s.setFld a f v).flashB = s.flashB := rfl

/-! ### emit -/

@[simp] theorem State.emit_pending (o : Out) : (s.emit o).pending = s.pending := rfl
@[simp] theorem State.emit_out (o : Out) : (s.emit o).out = o :: s.out := rfl
@[simp] theorem State.emit_freeCtr (o : Out) : (s.emit o).freeCtr = s.freeCtr := rfl
@[simp] theorem State.emit_regs (o : Out) : (s.emit o).regs = s.regs := rfl
@[simp] theorem State.emit_counters (o : Out) : (s.emit o).counters = s.counters := rfl
@[simp] theorem State.emit_wraps (o : Out) : (s.emit o).wraps = s.wraps := rfl
@[simp] theorem State.emit_legacy (o : Out) : (s.emit o).legacy = s.legacy := rfl
@[simp] theorem State.emit_legacyWraps (o : Out) : (s.emit o).legacyWraps = s.legacyWraps := rfl
@[simp] theorem State.emit_armed (o : Out) : (s.emit o).armed = s.armed := rfl
@[simp] theorem State.emit_dev (o : Out) : (s.emit o).dev = s.dev := rfl
@[simp] theorem State.emit_img (o : Out) : (s.emit o).img = s.img := rfl
@[simp] theorem State.emit_txn (o : Out) : (s.emit o).txn = s.txn := rfl
@[simp] theorem State.emit_basic (o : Out) : (s.emit o).basic = s.basic := rfl
@[simp] theorem State.emit_calUser (o : Out) : (s.emit o).calUser = s.calUser := rfl
@[simp] theorem State.emit_bypassPermit (o : Out) : (s.emit o).bypassPermit = s.bypassPermit := rfl
@[simp] theorem State.emit_partition (o : Out) : (s.emit o).partition = s.partition := rfl
@[simp] theorem State.emit_personality (o : Out) : (s.emit o).personality = s.personality := rfl
@[simp] theorem State.emit_ports (o : Out) : (s.emit o).ports = s.ports := rfl
@[simp] theorem State.emit_lanes (o : Out) : (s.emit o).lanes = s.lanes := rfl
@[simp] theorem State.emit_spares (o : Out) : (s.emit o).spares = s.spares := rfl
@[simp] theorem State.emit_releasing (o : Out) : (s.emit o).releasing = s.releasing := rfl
@[simp] theorem State.emit_askIgnored (o : Out) : (s.emit o).askIgnored = s.askIgnored := rfl
@[simp] theorem State.emit_cls (o : Out) : (s.emit o).cls = s.cls := rfl
@[simp] theorem State.emit_lpm4 (o : Out) : (s.emit o).lpm4 = s.lpm4 := rfl
@[simp] theorem State.emit_lpm6 (o : Out) : (s.emit o).lpm6 = s.lpm6 := rfl
@[simp] theorem State.emit_frames (o : Out) : (s.emit o).frames = s.frames := rfl
@[simp] theorem State.emit_nextFrame (o : Out) : (s.emit o).nextFrame = s.nextFrame := rfl
@[simp] theorem State.emit_jobs (o : Out) : (s.emit o).jobs = s.jobs := rfl
@[simp] theorem State.emit_nextJob (o : Out) : (s.emit o).nextJob = s.nextJob := rfl
@[simp] theorem State.emit_txAssocs (o : Out) : (s.emit o).txAssocs = s.txAssocs := rfl
@[simp] theorem State.emit_rxAssocs (o : Out) : (s.emit o).rxAssocs = s.rxAssocs := rfl
@[simp] theorem State.emit_genHigh (o : Out) : (s.emit o).genHigh = s.genHigh := rfl
@[simp] theorem State.emit_journal (o : Out) : (s.emit o).journal = s.journal := rfl
@[simp] theorem State.emit_rills (o : Out) : (s.emit o).rills = s.rills := rfl
@[simp] theorem State.emit_nextTag (o : Out) : (s.emit o).nextTag = s.nextTag := rfl
@[simp] theorem State.emit_expTag (o : Out) : (s.emit o).expTag = s.expTag := rfl
@[simp] theorem State.emit_teps (o : Out) : (s.emit o).teps = s.teps := rfl
@[simp] theorem State.emit_tepPending (o : Out) : (s.emit o).tepPending = s.tepPending := rfl
@[simp] theorem State.emit_tepIdent (o : Out) : (s.emit o).tepIdent = s.tepIdent := rfl
@[simp] theorem State.emit_tmp (o : Out) : (s.emit o).tmp = s.tmp := rfl
@[simp] theorem State.emit_bases (o : Out) : (s.emit o).bases = s.bases := rfl
@[simp] theorem State.emit_localTime (o : Out) : (s.emit o).localTime = s.localTime := rfl
@[simp] theorem State.emit_owner (o : Out) : (s.emit o).owner = s.owner := rfl
@[simp] theorem State.emit_keyLog (o : Out) : (s.emit o).keyLog = s.keyLog := rfl
@[simp] theorem State.emit_fuses (o : Out) : (s.emit o).fuses = s.fuses := rfl
@[simp] theorem State.emit_well (o : Out) : (s.emit o).well = s.well := rfl
@[simp] theorem State.emit_pair (o : Out) : (s.emit o).pair = s.pair := rfl
@[simp] theorem State.emit_slices (o : Out) : (s.emit o).slices = s.slices := rfl
@[simp] theorem State.emit_rings (o : Out) : (s.emit o).rings = s.rings := rfl
@[simp] theorem State.emit_sched (o : Out) : (s.emit o).sched = s.sched := rfl
@[simp] theorem State.emit_sluice (o : Out) : (s.emit o).sluice = s.sluice := rfl
@[simp] theorem State.emit_steps (o : Out) : (s.emit o).steps = s.steps := rfl
@[simp] theorem State.emit_cmpDone (o : Out) : (s.emit o).cmpDone = s.cmpDone := rfl
@[simp] theorem State.emit_captured (o : Out) : (s.emit o).captured = s.captured := rfl
@[simp] theorem State.emit_ppsHigh (o : Out) : (s.emit o).ppsHigh = s.ppsHigh := rfl
@[simp] theorem State.emit_gates (o : Out) : (s.emit o).gates = s.gates := rfl
@[simp] theorem State.emit_bwRx (o : Out) : (s.emit o).bwRx = s.bwRx := rfl
@[simp] theorem State.emit_bwTx (o : Out) : (s.emit o).bwTx = s.bwTx := rfl
@[simp] theorem State.emit_trunks (o : Out) : (s.emit o).trunks = s.trunks := rfl
@[simp] theorem State.emit_cistern (o : Out) : (s.emit o).cistern = s.cistern := rfl
@[simp] theorem State.emit_snap (o : Out) : (s.emit o).snap = s.snap := rfl
@[simp] theorem State.emit_pke (o : Out) : (s.emit o).pke = s.pke := rfl
@[simp] theorem State.emit_ident (o : Out) : (s.emit o).ident = s.ident := rfl
@[simp] theorem State.emit_localOps (o : Out) : (s.emit o).localOps = s.localOps := rfl
@[simp] theorem State.emit_drbgDown (o : Out) : (s.emit o).drbgDown = s.drbgDown := rfl
@[simp] theorem State.emit_flashA (o : Out) : (s.emit o).flashA = s.flashA := rfl
@[simp] theorem State.emit_flashB (o : Out) : (s.emit o).flashB = s.flashB := rfl

/-! ### useFree -/

@[simp] theorem State.useFree_pending : (s.useFree).pending = s.pending := rfl
@[simp] theorem State.useFree_out : (s.useFree).out = s.out := rfl
@[simp] theorem State.useFree_freeCtr : (s.useFree).freeCtr = s.freeCtr + 1 := rfl
@[simp] theorem State.useFree_regs : (s.useFree).regs = s.regs := rfl
@[simp] theorem State.useFree_counters : (s.useFree).counters = s.counters := rfl
@[simp] theorem State.useFree_wraps : (s.useFree).wraps = s.wraps := rfl
@[simp] theorem State.useFree_legacy : (s.useFree).legacy = s.legacy := rfl
@[simp] theorem State.useFree_legacyWraps : (s.useFree).legacyWraps = s.legacyWraps := rfl
@[simp] theorem State.useFree_armed : (s.useFree).armed = s.armed := rfl
@[simp] theorem State.useFree_dev : (s.useFree).dev = s.dev := rfl
@[simp] theorem State.useFree_img : (s.useFree).img = s.img := rfl
@[simp] theorem State.useFree_txn : (s.useFree).txn = s.txn := rfl
@[simp] theorem State.useFree_basic : (s.useFree).basic = s.basic := rfl
@[simp] theorem State.useFree_calUser : (s.useFree).calUser = s.calUser := rfl
@[simp] theorem State.useFree_bypassPermit : (s.useFree).bypassPermit = s.bypassPermit := rfl
@[simp] theorem State.useFree_partition : (s.useFree).partition = s.partition := rfl
@[simp] theorem State.useFree_personality : (s.useFree).personality = s.personality := rfl
@[simp] theorem State.useFree_ports : (s.useFree).ports = s.ports := rfl
@[simp] theorem State.useFree_lanes : (s.useFree).lanes = s.lanes := rfl
@[simp] theorem State.useFree_spares : (s.useFree).spares = s.spares := rfl
@[simp] theorem State.useFree_releasing : (s.useFree).releasing = s.releasing := rfl
@[simp] theorem State.useFree_askIgnored : (s.useFree).askIgnored = s.askIgnored := rfl
@[simp] theorem State.useFree_cls : (s.useFree).cls = s.cls := rfl
@[simp] theorem State.useFree_lpm4 : (s.useFree).lpm4 = s.lpm4 := rfl
@[simp] theorem State.useFree_lpm6 : (s.useFree).lpm6 = s.lpm6 := rfl
@[simp] theorem State.useFree_frames : (s.useFree).frames = s.frames := rfl
@[simp] theorem State.useFree_nextFrame : (s.useFree).nextFrame = s.nextFrame := rfl
@[simp] theorem State.useFree_jobs : (s.useFree).jobs = s.jobs := rfl
@[simp] theorem State.useFree_nextJob : (s.useFree).nextJob = s.nextJob := rfl
@[simp] theorem State.useFree_txAssocs : (s.useFree).txAssocs = s.txAssocs := rfl
@[simp] theorem State.useFree_rxAssocs : (s.useFree).rxAssocs = s.rxAssocs := rfl
@[simp] theorem State.useFree_genHigh : (s.useFree).genHigh = s.genHigh := rfl
@[simp] theorem State.useFree_journal : (s.useFree).journal = s.journal := rfl
@[simp] theorem State.useFree_rills : (s.useFree).rills = s.rills := rfl
@[simp] theorem State.useFree_nextTag : (s.useFree).nextTag = s.nextTag := rfl
@[simp] theorem State.useFree_expTag : (s.useFree).expTag = s.expTag := rfl
@[simp] theorem State.useFree_teps : (s.useFree).teps = s.teps := rfl
@[simp] theorem State.useFree_tepPending : (s.useFree).tepPending = s.tepPending := rfl
@[simp] theorem State.useFree_tepIdent : (s.useFree).tepIdent = s.tepIdent := rfl
@[simp] theorem State.useFree_tmp : (s.useFree).tmp = s.tmp := rfl
@[simp] theorem State.useFree_bases : (s.useFree).bases = s.bases := rfl
@[simp] theorem State.useFree_localTime : (s.useFree).localTime = s.localTime := rfl
@[simp] theorem State.useFree_owner : (s.useFree).owner = s.owner := rfl
@[simp] theorem State.useFree_keyLog : (s.useFree).keyLog = s.keyLog := rfl
@[simp] theorem State.useFree_fuses : (s.useFree).fuses = s.fuses := rfl
@[simp] theorem State.useFree_well : (s.useFree).well = s.well := rfl
@[simp] theorem State.useFree_pair : (s.useFree).pair = s.pair := rfl
@[simp] theorem State.useFree_slices : (s.useFree).slices = s.slices := rfl
@[simp] theorem State.useFree_rings : (s.useFree).rings = s.rings := rfl
@[simp] theorem State.useFree_sched : (s.useFree).sched = s.sched := rfl
@[simp] theorem State.useFree_sluice : (s.useFree).sluice = s.sluice := rfl
@[simp] theorem State.useFree_steps : (s.useFree).steps = s.steps := rfl
@[simp] theorem State.useFree_cmpDone : (s.useFree).cmpDone = s.cmpDone := rfl
@[simp] theorem State.useFree_captured : (s.useFree).captured = s.captured := rfl
@[simp] theorem State.useFree_ppsHigh : (s.useFree).ppsHigh = s.ppsHigh := rfl
@[simp] theorem State.useFree_gates : (s.useFree).gates = s.gates := rfl
@[simp] theorem State.useFree_bwRx : (s.useFree).bwRx = s.bwRx := rfl
@[simp] theorem State.useFree_bwTx : (s.useFree).bwTx = s.bwTx := rfl
@[simp] theorem State.useFree_trunks : (s.useFree).trunks = s.trunks := rfl
@[simp] theorem State.useFree_cistern : (s.useFree).cistern = s.cistern := rfl
@[simp] theorem State.useFree_snap : (s.useFree).snap = s.snap := rfl
@[simp] theorem State.useFree_pke : (s.useFree).pke = s.pke := rfl
@[simp] theorem State.useFree_ident : (s.useFree).ident = s.ident := rfl
@[simp] theorem State.useFree_localOps : (s.useFree).localOps = s.localOps := rfl
@[simp] theorem State.useFree_drbgDown : (s.useFree).drbgDown = s.drbgDown := rfl
@[simp] theorem State.useFree_flashA : (s.useFree).flashA = s.flashA := rfl
@[simp] theorem State.useFree_flashB : (s.useFree).flashB = s.flashB := rfl

/-! ### setPort -/

@[simp] theorem State.setPort_pending (p : Nat) (x : Port) : (s.setPort p x).pending = s.pending := rfl
@[simp] theorem State.setPort_out (p : Nat) (x : Port) : (s.setPort p x).out = s.out := rfl
@[simp] theorem State.setPort_freeCtr (p : Nat) (x : Port) : (s.setPort p x).freeCtr = s.freeCtr := rfl
@[simp] theorem State.setPort_regs (p : Nat) (x : Port) : (s.setPort p x).regs = s.regs := rfl
@[simp] theorem State.setPort_counters (p : Nat) (x : Port) : (s.setPort p x).counters = s.counters := rfl
@[simp] theorem State.setPort_wraps (p : Nat) (x : Port) : (s.setPort p x).wraps = s.wraps := rfl
@[simp] theorem State.setPort_legacy (p : Nat) (x : Port) : (s.setPort p x).legacy = s.legacy := rfl
@[simp] theorem State.setPort_legacyWraps (p : Nat) (x : Port) : (s.setPort p x).legacyWraps = s.legacyWraps := rfl
@[simp] theorem State.setPort_armed (p : Nat) (x : Port) : (s.setPort p x).armed = s.armed := rfl
@[simp] theorem State.setPort_dev (p : Nat) (x : Port) : (s.setPort p x).dev = s.dev := rfl
@[simp] theorem State.setPort_img (p : Nat) (x : Port) : (s.setPort p x).img = s.img := rfl
@[simp] theorem State.setPort_txn (p : Nat) (x : Port) : (s.setPort p x).txn = s.txn := rfl
@[simp] theorem State.setPort_basic (p : Nat) (x : Port) : (s.setPort p x).basic = s.basic := rfl
@[simp] theorem State.setPort_calUser (p : Nat) (x : Port) : (s.setPort p x).calUser = s.calUser := rfl
@[simp] theorem State.setPort_bypassPermit (p : Nat) (x : Port) : (s.setPort p x).bypassPermit = s.bypassPermit := rfl
@[simp] theorem State.setPort_partition (p : Nat) (x : Port) : (s.setPort p x).partition = s.partition := rfl
@[simp] theorem State.setPort_personality (p : Nat) (x : Port) : (s.setPort p x).personality = s.personality := rfl
@[simp] theorem State.setPort_ports (p : Nat) (x : Port) : (s.setPort p x).ports = kset {} s.ports p x := rfl
@[simp] theorem State.setPort_lanes (p : Nat) (x : Port) : (s.setPort p x).lanes = s.lanes := rfl
@[simp] theorem State.setPort_spares (p : Nat) (x : Port) : (s.setPort p x).spares = s.spares := rfl
@[simp] theorem State.setPort_releasing (p : Nat) (x : Port) : (s.setPort p x).releasing = s.releasing := rfl
@[simp] theorem State.setPort_askIgnored (p : Nat) (x : Port) : (s.setPort p x).askIgnored = s.askIgnored := rfl
@[simp] theorem State.setPort_cls (p : Nat) (x : Port) : (s.setPort p x).cls = s.cls := rfl
@[simp] theorem State.setPort_lpm4 (p : Nat) (x : Port) : (s.setPort p x).lpm4 = s.lpm4 := rfl
@[simp] theorem State.setPort_lpm6 (p : Nat) (x : Port) : (s.setPort p x).lpm6 = s.lpm6 := rfl
@[simp] theorem State.setPort_frames (p : Nat) (x : Port) : (s.setPort p x).frames = s.frames := rfl
@[simp] theorem State.setPort_nextFrame (p : Nat) (x : Port) : (s.setPort p x).nextFrame = s.nextFrame := rfl
@[simp] theorem State.setPort_jobs (p : Nat) (x : Port) : (s.setPort p x).jobs = s.jobs := rfl
@[simp] theorem State.setPort_nextJob (p : Nat) (x : Port) : (s.setPort p x).nextJob = s.nextJob := rfl
@[simp] theorem State.setPort_txAssocs (p : Nat) (x : Port) : (s.setPort p x).txAssocs = s.txAssocs := rfl
@[simp] theorem State.setPort_rxAssocs (p : Nat) (x : Port) : (s.setPort p x).rxAssocs = s.rxAssocs := rfl
@[simp] theorem State.setPort_genHigh (p : Nat) (x : Port) : (s.setPort p x).genHigh = s.genHigh := rfl
@[simp] theorem State.setPort_journal (p : Nat) (x : Port) : (s.setPort p x).journal = s.journal := rfl
@[simp] theorem State.setPort_rills (p : Nat) (x : Port) : (s.setPort p x).rills = s.rills := rfl
@[simp] theorem State.setPort_nextTag (p : Nat) (x : Port) : (s.setPort p x).nextTag = s.nextTag := rfl
@[simp] theorem State.setPort_expTag (p : Nat) (x : Port) : (s.setPort p x).expTag = s.expTag := rfl
@[simp] theorem State.setPort_teps (p : Nat) (x : Port) : (s.setPort p x).teps = s.teps := rfl
@[simp] theorem State.setPort_tepPending (p : Nat) (x : Port) : (s.setPort p x).tepPending = s.tepPending := rfl
@[simp] theorem State.setPort_tepIdent (p : Nat) (x : Port) : (s.setPort p x).tepIdent = s.tepIdent := rfl
@[simp] theorem State.setPort_tmp (p : Nat) (x : Port) : (s.setPort p x).tmp = s.tmp := rfl
@[simp] theorem State.setPort_bases (p : Nat) (x : Port) : (s.setPort p x).bases = s.bases := rfl
@[simp] theorem State.setPort_localTime (p : Nat) (x : Port) : (s.setPort p x).localTime = s.localTime := rfl
@[simp] theorem State.setPort_owner (p : Nat) (x : Port) : (s.setPort p x).owner = s.owner := rfl
@[simp] theorem State.setPort_keyLog (p : Nat) (x : Port) : (s.setPort p x).keyLog = s.keyLog := rfl
@[simp] theorem State.setPort_fuses (p : Nat) (x : Port) : (s.setPort p x).fuses = s.fuses := rfl
@[simp] theorem State.setPort_well (p : Nat) (x : Port) : (s.setPort p x).well = s.well := rfl
@[simp] theorem State.setPort_pair (p : Nat) (x : Port) : (s.setPort p x).pair = s.pair := rfl
@[simp] theorem State.setPort_slices (p : Nat) (x : Port) : (s.setPort p x).slices = s.slices := rfl
@[simp] theorem State.setPort_rings (p : Nat) (x : Port) : (s.setPort p x).rings = s.rings := rfl
@[simp] theorem State.setPort_sched (p : Nat) (x : Port) : (s.setPort p x).sched = s.sched := rfl
@[simp] theorem State.setPort_sluice (p : Nat) (x : Port) : (s.setPort p x).sluice = s.sluice := rfl
@[simp] theorem State.setPort_steps (p : Nat) (x : Port) : (s.setPort p x).steps = s.steps := rfl
@[simp] theorem State.setPort_cmpDone (p : Nat) (x : Port) : (s.setPort p x).cmpDone = s.cmpDone := rfl
@[simp] theorem State.setPort_captured (p : Nat) (x : Port) : (s.setPort p x).captured = s.captured := rfl
@[simp] theorem State.setPort_ppsHigh (p : Nat) (x : Port) : (s.setPort p x).ppsHigh = s.ppsHigh := rfl
@[simp] theorem State.setPort_gates (p : Nat) (x : Port) : (s.setPort p x).gates = s.gates := rfl
@[simp] theorem State.setPort_bwRx (p : Nat) (x : Port) : (s.setPort p x).bwRx = s.bwRx := rfl
@[simp] theorem State.setPort_bwTx (p : Nat) (x : Port) : (s.setPort p x).bwTx = s.bwTx := rfl
@[simp] theorem State.setPort_trunks (p : Nat) (x : Port) : (s.setPort p x).trunks = s.trunks := rfl
@[simp] theorem State.setPort_cistern (p : Nat) (x : Port) : (s.setPort p x).cistern = s.cistern := rfl
@[simp] theorem State.setPort_snap (p : Nat) (x : Port) : (s.setPort p x).snap = s.snap := rfl
@[simp] theorem State.setPort_pke (p : Nat) (x : Port) : (s.setPort p x).pke = s.pke := rfl
@[simp] theorem State.setPort_ident (p : Nat) (x : Port) : (s.setPort p x).ident = s.ident := rfl
@[simp] theorem State.setPort_localOps (p : Nat) (x : Port) : (s.setPort p x).localOps = s.localOps := rfl
@[simp] theorem State.setPort_drbgDown (p : Nat) (x : Port) : (s.setPort p x).drbgDown = s.drbgDown := rfl
@[simp] theorem State.setPort_flashA (p : Nat) (x : Port) : (s.setPort p x).flashA = s.flashA := rfl
@[simp] theorem State.setPort_flashB (p : Nat) (x : Port) : (s.setPort p x).flashB = s.flashB := rfl

/-! ### setLane -/

@[simp] theorem State.setLane_pending (p : Nat) (x : Lane) : (s.setLane p x).pending = s.pending := rfl
@[simp] theorem State.setLane_out (p : Nat) (x : Lane) : (s.setLane p x).out = s.out := rfl
@[simp] theorem State.setLane_freeCtr (p : Nat) (x : Lane) : (s.setLane p x).freeCtr = s.freeCtr := rfl
@[simp] theorem State.setLane_regs (p : Nat) (x : Lane) : (s.setLane p x).regs = s.regs := rfl
@[simp] theorem State.setLane_counters (p : Nat) (x : Lane) : (s.setLane p x).counters = s.counters := rfl
@[simp] theorem State.setLane_wraps (p : Nat) (x : Lane) : (s.setLane p x).wraps = s.wraps := rfl
@[simp] theorem State.setLane_legacy (p : Nat) (x : Lane) : (s.setLane p x).legacy = s.legacy := rfl
@[simp] theorem State.setLane_legacyWraps (p : Nat) (x : Lane) : (s.setLane p x).legacyWraps = s.legacyWraps := rfl
@[simp] theorem State.setLane_armed (p : Nat) (x : Lane) : (s.setLane p x).armed = s.armed := rfl
@[simp] theorem State.setLane_dev (p : Nat) (x : Lane) : (s.setLane p x).dev = s.dev := rfl
@[simp] theorem State.setLane_img (p : Nat) (x : Lane) : (s.setLane p x).img = s.img := rfl
@[simp] theorem State.setLane_txn (p : Nat) (x : Lane) : (s.setLane p x).txn = s.txn := rfl
@[simp] theorem State.setLane_basic (p : Nat) (x : Lane) : (s.setLane p x).basic = s.basic := rfl
@[simp] theorem State.setLane_calUser (p : Nat) (x : Lane) : (s.setLane p x).calUser = s.calUser := rfl
@[simp] theorem State.setLane_bypassPermit (p : Nat) (x : Lane) : (s.setLane p x).bypassPermit = s.bypassPermit := rfl
@[simp] theorem State.setLane_partition (p : Nat) (x : Lane) : (s.setLane p x).partition = s.partition := rfl
@[simp] theorem State.setLane_personality (p : Nat) (x : Lane) : (s.setLane p x).personality = s.personality := rfl
@[simp] theorem State.setLane_ports (p : Nat) (x : Lane) : (s.setLane p x).ports = s.ports := rfl
@[simp] theorem State.setLane_lanes (p : Nat) (x : Lane) : (s.setLane p x).lanes = kset {} s.lanes p x := rfl
@[simp] theorem State.setLane_spares (p : Nat) (x : Lane) : (s.setLane p x).spares = s.spares := rfl
@[simp] theorem State.setLane_releasing (p : Nat) (x : Lane) : (s.setLane p x).releasing = s.releasing := rfl
@[simp] theorem State.setLane_askIgnored (p : Nat) (x : Lane) : (s.setLane p x).askIgnored = s.askIgnored := rfl
@[simp] theorem State.setLane_cls (p : Nat) (x : Lane) : (s.setLane p x).cls = s.cls := rfl
@[simp] theorem State.setLane_lpm4 (p : Nat) (x : Lane) : (s.setLane p x).lpm4 = s.lpm4 := rfl
@[simp] theorem State.setLane_lpm6 (p : Nat) (x : Lane) : (s.setLane p x).lpm6 = s.lpm6 := rfl
@[simp] theorem State.setLane_frames (p : Nat) (x : Lane) : (s.setLane p x).frames = s.frames := rfl
@[simp] theorem State.setLane_nextFrame (p : Nat) (x : Lane) : (s.setLane p x).nextFrame = s.nextFrame := rfl
@[simp] theorem State.setLane_jobs (p : Nat) (x : Lane) : (s.setLane p x).jobs = s.jobs := rfl
@[simp] theorem State.setLane_nextJob (p : Nat) (x : Lane) : (s.setLane p x).nextJob = s.nextJob := rfl
@[simp] theorem State.setLane_txAssocs (p : Nat) (x : Lane) : (s.setLane p x).txAssocs = s.txAssocs := rfl
@[simp] theorem State.setLane_rxAssocs (p : Nat) (x : Lane) : (s.setLane p x).rxAssocs = s.rxAssocs := rfl
@[simp] theorem State.setLane_genHigh (p : Nat) (x : Lane) : (s.setLane p x).genHigh = s.genHigh := rfl
@[simp] theorem State.setLane_journal (p : Nat) (x : Lane) : (s.setLane p x).journal = s.journal := rfl
@[simp] theorem State.setLane_rills (p : Nat) (x : Lane) : (s.setLane p x).rills = s.rills := rfl
@[simp] theorem State.setLane_nextTag (p : Nat) (x : Lane) : (s.setLane p x).nextTag = s.nextTag := rfl
@[simp] theorem State.setLane_expTag (p : Nat) (x : Lane) : (s.setLane p x).expTag = s.expTag := rfl
@[simp] theorem State.setLane_teps (p : Nat) (x : Lane) : (s.setLane p x).teps = s.teps := rfl
@[simp] theorem State.setLane_tepPending (p : Nat) (x : Lane) : (s.setLane p x).tepPending = s.tepPending := rfl
@[simp] theorem State.setLane_tepIdent (p : Nat) (x : Lane) : (s.setLane p x).tepIdent = s.tepIdent := rfl
@[simp] theorem State.setLane_tmp (p : Nat) (x : Lane) : (s.setLane p x).tmp = s.tmp := rfl
@[simp] theorem State.setLane_bases (p : Nat) (x : Lane) : (s.setLane p x).bases = s.bases := rfl
@[simp] theorem State.setLane_localTime (p : Nat) (x : Lane) : (s.setLane p x).localTime = s.localTime := rfl
@[simp] theorem State.setLane_owner (p : Nat) (x : Lane) : (s.setLane p x).owner = s.owner := rfl
@[simp] theorem State.setLane_keyLog (p : Nat) (x : Lane) : (s.setLane p x).keyLog = s.keyLog := rfl
@[simp] theorem State.setLane_fuses (p : Nat) (x : Lane) : (s.setLane p x).fuses = s.fuses := rfl
@[simp] theorem State.setLane_well (p : Nat) (x : Lane) : (s.setLane p x).well = s.well := rfl
@[simp] theorem State.setLane_pair (p : Nat) (x : Lane) : (s.setLane p x).pair = s.pair := rfl
@[simp] theorem State.setLane_slices (p : Nat) (x : Lane) : (s.setLane p x).slices = s.slices := rfl
@[simp] theorem State.setLane_rings (p : Nat) (x : Lane) : (s.setLane p x).rings = s.rings := rfl
@[simp] theorem State.setLane_sched (p : Nat) (x : Lane) : (s.setLane p x).sched = s.sched := rfl
@[simp] theorem State.setLane_sluice (p : Nat) (x : Lane) : (s.setLane p x).sluice = s.sluice := rfl
@[simp] theorem State.setLane_steps (p : Nat) (x : Lane) : (s.setLane p x).steps = s.steps := rfl
@[simp] theorem State.setLane_cmpDone (p : Nat) (x : Lane) : (s.setLane p x).cmpDone = s.cmpDone := rfl
@[simp] theorem State.setLane_captured (p : Nat) (x : Lane) : (s.setLane p x).captured = s.captured := rfl
@[simp] theorem State.setLane_ppsHigh (p : Nat) (x : Lane) : (s.setLane p x).ppsHigh = s.ppsHigh := rfl
@[simp] theorem State.setLane_gates (p : Nat) (x : Lane) : (s.setLane p x).gates = s.gates := rfl
@[simp] theorem State.setLane_bwRx (p : Nat) (x : Lane) : (s.setLane p x).bwRx = s.bwRx := rfl
@[simp] theorem State.setLane_bwTx (p : Nat) (x : Lane) : (s.setLane p x).bwTx = s.bwTx := rfl
@[simp] theorem State.setLane_trunks (p : Nat) (x : Lane) : (s.setLane p x).trunks = s.trunks := rfl
@[simp] theorem State.setLane_cistern (p : Nat) (x : Lane) : (s.setLane p x).cistern = s.cistern := rfl
@[simp] theorem State.setLane_snap (p : Nat) (x : Lane) : (s.setLane p x).snap = s.snap := rfl
@[simp] theorem State.setLane_pke (p : Nat) (x : Lane) : (s.setLane p x).pke = s.pke := rfl
@[simp] theorem State.setLane_ident (p : Nat) (x : Lane) : (s.setLane p x).ident = s.ident := rfl
@[simp] theorem State.setLane_localOps (p : Nat) (x : Lane) : (s.setLane p x).localOps = s.localOps := rfl
@[simp] theorem State.setLane_drbgDown (p : Nat) (x : Lane) : (s.setLane p x).drbgDown = s.drbgDown := rfl
@[simp] theorem State.setLane_flashA (p : Nat) (x : Lane) : (s.setLane p x).flashA = s.flashA := rfl
@[simp] theorem State.setLane_flashB (p : Nat) (x : Lane) : (s.setLane p x).flashB = s.flashB := rfl

/-! ### setSpare -/

@[simp] theorem State.setSpare_pending (p : Nat) (x : Spare) : (s.setSpare p x).pending = s.pending := rfl
@[simp] theorem State.setSpare_out (p : Nat) (x : Spare) : (s.setSpare p x).out = s.out := rfl
@[simp] theorem State.setSpare_freeCtr (p : Nat) (x : Spare) : (s.setSpare p x).freeCtr = s.freeCtr := rfl
@[simp] theorem State.setSpare_regs (p : Nat) (x : Spare) : (s.setSpare p x).regs = s.regs := rfl
@[simp] theorem State.setSpare_counters (p : Nat) (x : Spare) : (s.setSpare p x).counters = s.counters := rfl
@[simp] theorem State.setSpare_wraps (p : Nat) (x : Spare) : (s.setSpare p x).wraps = s.wraps := rfl
@[simp] theorem State.setSpare_legacy (p : Nat) (x : Spare) : (s.setSpare p x).legacy = s.legacy := rfl
@[simp] theorem State.setSpare_legacyWraps (p : Nat) (x : Spare) : (s.setSpare p x).legacyWraps = s.legacyWraps := rfl
@[simp] theorem State.setSpare_armed (p : Nat) (x : Spare) : (s.setSpare p x).armed = s.armed := rfl
@[simp] theorem State.setSpare_dev (p : Nat) (x : Spare) : (s.setSpare p x).dev = s.dev := rfl
@[simp] theorem State.setSpare_img (p : Nat) (x : Spare) : (s.setSpare p x).img = s.img := rfl
@[simp] theorem State.setSpare_txn (p : Nat) (x : Spare) : (s.setSpare p x).txn = s.txn := rfl
@[simp] theorem State.setSpare_basic (p : Nat) (x : Spare) : (s.setSpare p x).basic = s.basic := rfl
@[simp] theorem State.setSpare_calUser (p : Nat) (x : Spare) : (s.setSpare p x).calUser = s.calUser := rfl
@[simp] theorem State.setSpare_bypassPermit (p : Nat) (x : Spare) : (s.setSpare p x).bypassPermit = s.bypassPermit := rfl
@[simp] theorem State.setSpare_partition (p : Nat) (x : Spare) : (s.setSpare p x).partition = s.partition := rfl
@[simp] theorem State.setSpare_personality (p : Nat) (x : Spare) : (s.setSpare p x).personality = s.personality := rfl
@[simp] theorem State.setSpare_ports (p : Nat) (x : Spare) : (s.setSpare p x).ports = s.ports := rfl
@[simp] theorem State.setSpare_lanes (p : Nat) (x : Spare) : (s.setSpare p x).lanes = s.lanes := rfl
@[simp] theorem State.setSpare_spares (p : Nat) (x : Spare) : (s.setSpare p x).spares = kset {} s.spares p x := rfl
@[simp] theorem State.setSpare_releasing (p : Nat) (x : Spare) : (s.setSpare p x).releasing = s.releasing := rfl
@[simp] theorem State.setSpare_askIgnored (p : Nat) (x : Spare) : (s.setSpare p x).askIgnored = s.askIgnored := rfl
@[simp] theorem State.setSpare_cls (p : Nat) (x : Spare) : (s.setSpare p x).cls = s.cls := rfl
@[simp] theorem State.setSpare_lpm4 (p : Nat) (x : Spare) : (s.setSpare p x).lpm4 = s.lpm4 := rfl
@[simp] theorem State.setSpare_lpm6 (p : Nat) (x : Spare) : (s.setSpare p x).lpm6 = s.lpm6 := rfl
@[simp] theorem State.setSpare_frames (p : Nat) (x : Spare) : (s.setSpare p x).frames = s.frames := rfl
@[simp] theorem State.setSpare_nextFrame (p : Nat) (x : Spare) : (s.setSpare p x).nextFrame = s.nextFrame := rfl
@[simp] theorem State.setSpare_jobs (p : Nat) (x : Spare) : (s.setSpare p x).jobs = s.jobs := rfl
@[simp] theorem State.setSpare_nextJob (p : Nat) (x : Spare) : (s.setSpare p x).nextJob = s.nextJob := rfl
@[simp] theorem State.setSpare_txAssocs (p : Nat) (x : Spare) : (s.setSpare p x).txAssocs = s.txAssocs := rfl
@[simp] theorem State.setSpare_rxAssocs (p : Nat) (x : Spare) : (s.setSpare p x).rxAssocs = s.rxAssocs := rfl
@[simp] theorem State.setSpare_genHigh (p : Nat) (x : Spare) : (s.setSpare p x).genHigh = s.genHigh := rfl
@[simp] theorem State.setSpare_journal (p : Nat) (x : Spare) : (s.setSpare p x).journal = s.journal := rfl
@[simp] theorem State.setSpare_rills (p : Nat) (x : Spare) : (s.setSpare p x).rills = s.rills := rfl
@[simp] theorem State.setSpare_nextTag (p : Nat) (x : Spare) : (s.setSpare p x).nextTag = s.nextTag := rfl
@[simp] theorem State.setSpare_expTag (p : Nat) (x : Spare) : (s.setSpare p x).expTag = s.expTag := rfl
@[simp] theorem State.setSpare_teps (p : Nat) (x : Spare) : (s.setSpare p x).teps = s.teps := rfl
@[simp] theorem State.setSpare_tepPending (p : Nat) (x : Spare) : (s.setSpare p x).tepPending = s.tepPending := rfl
@[simp] theorem State.setSpare_tepIdent (p : Nat) (x : Spare) : (s.setSpare p x).tepIdent = s.tepIdent := rfl
@[simp] theorem State.setSpare_tmp (p : Nat) (x : Spare) : (s.setSpare p x).tmp = s.tmp := rfl
@[simp] theorem State.setSpare_bases (p : Nat) (x : Spare) : (s.setSpare p x).bases = s.bases := rfl
@[simp] theorem State.setSpare_localTime (p : Nat) (x : Spare) : (s.setSpare p x).localTime = s.localTime := rfl
@[simp] theorem State.setSpare_owner (p : Nat) (x : Spare) : (s.setSpare p x).owner = s.owner := rfl
@[simp] theorem State.setSpare_keyLog (p : Nat) (x : Spare) : (s.setSpare p x).keyLog = s.keyLog := rfl
@[simp] theorem State.setSpare_fuses (p : Nat) (x : Spare) : (s.setSpare p x).fuses = s.fuses := rfl
@[simp] theorem State.setSpare_well (p : Nat) (x : Spare) : (s.setSpare p x).well = s.well := rfl
@[simp] theorem State.setSpare_pair (p : Nat) (x : Spare) : (s.setSpare p x).pair = s.pair := rfl
@[simp] theorem State.setSpare_slices (p : Nat) (x : Spare) : (s.setSpare p x).slices = s.slices := rfl
@[simp] theorem State.setSpare_rings (p : Nat) (x : Spare) : (s.setSpare p x).rings = s.rings := rfl
@[simp] theorem State.setSpare_sched (p : Nat) (x : Spare) : (s.setSpare p x).sched = s.sched := rfl
@[simp] theorem State.setSpare_sluice (p : Nat) (x : Spare) : (s.setSpare p x).sluice = s.sluice := rfl
@[simp] theorem State.setSpare_steps (p : Nat) (x : Spare) : (s.setSpare p x).steps = s.steps := rfl
@[simp] theorem State.setSpare_cmpDone (p : Nat) (x : Spare) : (s.setSpare p x).cmpDone = s.cmpDone := rfl
@[simp] theorem State.setSpare_captured (p : Nat) (x : Spare) : (s.setSpare p x).captured = s.captured := rfl
@[simp] theorem State.setSpare_ppsHigh (p : Nat) (x : Spare) : (s.setSpare p x).ppsHigh = s.ppsHigh := rfl
@[simp] theorem State.setSpare_gates (p : Nat) (x : Spare) : (s.setSpare p x).gates = s.gates := rfl
@[simp] theorem State.setSpare_bwRx (p : Nat) (x : Spare) : (s.setSpare p x).bwRx = s.bwRx := rfl
@[simp] theorem State.setSpare_bwTx (p : Nat) (x : Spare) : (s.setSpare p x).bwTx = s.bwTx := rfl
@[simp] theorem State.setSpare_trunks (p : Nat) (x : Spare) : (s.setSpare p x).trunks = s.trunks := rfl
@[simp] theorem State.setSpare_cistern (p : Nat) (x : Spare) : (s.setSpare p x).cistern = s.cistern := rfl
@[simp] theorem State.setSpare_snap (p : Nat) (x : Spare) : (s.setSpare p x).snap = s.snap := rfl
@[simp] theorem State.setSpare_pke (p : Nat) (x : Spare) : (s.setSpare p x).pke = s.pke := rfl
@[simp] theorem State.setSpare_ident (p : Nat) (x : Spare) : (s.setSpare p x).ident = s.ident := rfl
@[simp] theorem State.setSpare_localOps (p : Nat) (x : Spare) : (s.setSpare p x).localOps = s.localOps := rfl
@[simp] theorem State.setSpare_drbgDown (p : Nat) (x : Spare) : (s.setSpare p x).drbgDown = s.drbgDown := rfl
@[simp] theorem State.setSpare_flashA (p : Nat) (x : Spare) : (s.setSpare p x).flashA = s.flashA := rfl
@[simp] theorem State.setSpare_flashB (p : Nat) (x : Spare) : (s.setSpare p x).flashB = s.flashB := rfl

/-! ### setCls -/

@[simp] theorem State.setCls_pending (p : Nat) (x : Cls) : (s.setCls p x).pending = s.pending := rfl
@[simp] theorem State.setCls_out (p : Nat) (x : Cls) : (s.setCls p x).out = s.out := rfl
@[simp] theorem State.setCls_freeCtr (p : Nat) (x : Cls) : (s.setCls p x).freeCtr = s.freeCtr := rfl
@[simp] theorem State.setCls_regs (p : Nat) (x : Cls) : (s.setCls p x).regs = s.regs := rfl
@[simp] theorem State.setCls_counters (p : Nat) (x : Cls) : (s.setCls p x).counters = s.counters := rfl
@[simp] theorem State.setCls_wraps (p : Nat) (x : Cls) : (s.setCls p x).wraps = s.wraps := rfl
@[simp] theorem State.setCls_legacy (p : Nat) (x : Cls) : (s.setCls p x).legacy = s.legacy := rfl
@[simp] theorem State.setCls_legacyWraps (p : Nat) (x : Cls) : (s.setCls p x).legacyWraps = s.legacyWraps := rfl
@[simp] theorem State.setCls_armed (p : Nat) (x : Cls) : (s.setCls p x).armed = s.armed := rfl
@[simp] theorem State.setCls_dev (p : Nat) (x : Cls) : (s.setCls p x).dev = s.dev := rfl
@[simp] theorem State.setCls_img (p : Nat) (x : Cls) : (s.setCls p x).img = s.img := rfl
@[simp] theorem State.setCls_txn (p : Nat) (x : Cls) : (s.setCls p x).txn = s.txn := rfl
@[simp] theorem State.setCls_basic (p : Nat) (x : Cls) : (s.setCls p x).basic = s.basic := rfl
@[simp] theorem State.setCls_calUser (p : Nat) (x : Cls) : (s.setCls p x).calUser = s.calUser := rfl
@[simp] theorem State.setCls_bypassPermit (p : Nat) (x : Cls) : (s.setCls p x).bypassPermit = s.bypassPermit := rfl
@[simp] theorem State.setCls_partition (p : Nat) (x : Cls) : (s.setCls p x).partition = s.partition := rfl
@[simp] theorem State.setCls_personality (p : Nat) (x : Cls) : (s.setCls p x).personality = s.personality := rfl
@[simp] theorem State.setCls_ports (p : Nat) (x : Cls) : (s.setCls p x).ports = s.ports := rfl
@[simp] theorem State.setCls_lanes (p : Nat) (x : Cls) : (s.setCls p x).lanes = s.lanes := rfl
@[simp] theorem State.setCls_spares (p : Nat) (x : Cls) : (s.setCls p x).spares = s.spares := rfl
@[simp] theorem State.setCls_releasing (p : Nat) (x : Cls) : (s.setCls p x).releasing = s.releasing := rfl
@[simp] theorem State.setCls_askIgnored (p : Nat) (x : Cls) : (s.setCls p x).askIgnored = s.askIgnored := rfl
@[simp] theorem State.setCls_cls (p : Nat) (x : Cls) : (s.setCls p x).cls = kset {} s.cls p x := rfl
@[simp] theorem State.setCls_lpm4 (p : Nat) (x : Cls) : (s.setCls p x).lpm4 = s.lpm4 := rfl
@[simp] theorem State.setCls_lpm6 (p : Nat) (x : Cls) : (s.setCls p x).lpm6 = s.lpm6 := rfl
@[simp] theorem State.setCls_frames (p : Nat) (x : Cls) : (s.setCls p x).frames = s.frames := rfl
@[simp] theorem State.setCls_nextFrame (p : Nat) (x : Cls) : (s.setCls p x).nextFrame = s.nextFrame := rfl
@[simp] theorem State.setCls_jobs (p : Nat) (x : Cls) : (s.setCls p x).jobs = s.jobs := rfl
@[simp] theorem State.setCls_nextJob (p : Nat) (x : Cls) : (s.setCls p x).nextJob = s.nextJob := rfl
@[simp] theorem State.setCls_txAssocs (p : Nat) (x : Cls) : (s.setCls p x).txAssocs = s.txAssocs := rfl
@[simp] theorem State.setCls_rxAssocs (p : Nat) (x : Cls) : (s.setCls p x).rxAssocs = s.rxAssocs := rfl
@[simp] theorem State.setCls_genHigh (p : Nat) (x : Cls) : (s.setCls p x).genHigh = s.genHigh := rfl
@[simp] theorem State.setCls_journal (p : Nat) (x : Cls) : (s.setCls p x).journal = s.journal := rfl
@[simp] theorem State.setCls_rills (p : Nat) (x : Cls) : (s.setCls p x).rills = s.rills := rfl
@[simp] theorem State.setCls_nextTag (p : Nat) (x : Cls) : (s.setCls p x).nextTag = s.nextTag := rfl
@[simp] theorem State.setCls_expTag (p : Nat) (x : Cls) : (s.setCls p x).expTag = s.expTag := rfl
@[simp] theorem State.setCls_teps (p : Nat) (x : Cls) : (s.setCls p x).teps = s.teps := rfl
@[simp] theorem State.setCls_tepPending (p : Nat) (x : Cls) : (s.setCls p x).tepPending = s.tepPending := rfl
@[simp] theorem State.setCls_tepIdent (p : Nat) (x : Cls) : (s.setCls p x).tepIdent = s.tepIdent := rfl
@[simp] theorem State.setCls_tmp (p : Nat) (x : Cls) : (s.setCls p x).tmp = s.tmp := rfl
@[simp] theorem State.setCls_bases (p : Nat) (x : Cls) : (s.setCls p x).bases = s.bases := rfl
@[simp] theorem State.setCls_localTime (p : Nat) (x : Cls) : (s.setCls p x).localTime = s.localTime := rfl
@[simp] theorem State.setCls_owner (p : Nat) (x : Cls) : (s.setCls p x).owner = s.owner := rfl
@[simp] theorem State.setCls_keyLog (p : Nat) (x : Cls) : (s.setCls p x).keyLog = s.keyLog := rfl
@[simp] theorem State.setCls_fuses (p : Nat) (x : Cls) : (s.setCls p x).fuses = s.fuses := rfl
@[simp] theorem State.setCls_well (p : Nat) (x : Cls) : (s.setCls p x).well = s.well := rfl
@[simp] theorem State.setCls_pair (p : Nat) (x : Cls) : (s.setCls p x).pair = s.pair := rfl
@[simp] theorem State.setCls_slices (p : Nat) (x : Cls) : (s.setCls p x).slices = s.slices := rfl
@[simp] theorem State.setCls_rings (p : Nat) (x : Cls) : (s.setCls p x).rings = s.rings := rfl
@[simp] theorem State.setCls_sched (p : Nat) (x : Cls) : (s.setCls p x).sched = s.sched := rfl
@[simp] theorem State.setCls_sluice (p : Nat) (x : Cls) : (s.setCls p x).sluice = s.sluice := rfl
@[simp] theorem State.setCls_steps (p : Nat) (x : Cls) : (s.setCls p x).steps = s.steps := rfl
@[simp] theorem State.setCls_cmpDone (p : Nat) (x : Cls) : (s.setCls p x).cmpDone = s.cmpDone := rfl
@[simp] theorem State.setCls_captured (p : Nat) (x : Cls) : (s.setCls p x).captured = s.captured := rfl
@[simp] theorem State.setCls_ppsHigh (p : Nat) (x : Cls) : (s.setCls p x).ppsHigh = s.ppsHigh := rfl
@[simp] theorem State.setCls_gates (p : Nat) (x : Cls) : (s.setCls p x).gates = s.gates := rfl
@[simp] theorem State.setCls_bwRx (p : Nat) (x : Cls) : (s.setCls p x).bwRx = s.bwRx := rfl
@[simp] theorem State.setCls_bwTx (p : Nat) (x : Cls) : (s.setCls p x).bwTx = s.bwTx := rfl
@[simp] theorem State.setCls_trunks (p : Nat) (x : Cls) : (s.setCls p x).trunks = s.trunks := rfl
@[simp] theorem State.setCls_cistern (p : Nat) (x : Cls) : (s.setCls p x).cistern = s.cistern := rfl
@[simp] theorem State.setCls_snap (p : Nat) (x : Cls) : (s.setCls p x).snap = s.snap := rfl
@[simp] theorem State.setCls_pke (p : Nat) (x : Cls) : (s.setCls p x).pke = s.pke := rfl
@[simp] theorem State.setCls_ident (p : Nat) (x : Cls) : (s.setCls p x).ident = s.ident := rfl
@[simp] theorem State.setCls_localOps (p : Nat) (x : Cls) : (s.setCls p x).localOps = s.localOps := rfl
@[simp] theorem State.setCls_drbgDown (p : Nat) (x : Cls) : (s.setCls p x).drbgDown = s.drbgDown := rfl
@[simp] theorem State.setCls_flashA (p : Nat) (x : Cls) : (s.setCls p x).flashA = s.flashA := rfl
@[simp] theorem State.setCls_flashB (p : Nat) (x : Cls) : (s.setCls p x).flashB = s.flashB := rfl

/-! ### setFrame -/

@[simp] theorem State.setFrame_pending (p : Nat) (x : Frame) : (s.setFrame p x).pending = s.pending := rfl
@[simp] theorem State.setFrame_out (p : Nat) (x : Frame) : (s.setFrame p x).out = s.out := rfl
@[simp] theorem State.setFrame_freeCtr (p : Nat) (x : Frame) : (s.setFrame p x).freeCtr = s.freeCtr := rfl
@[simp] theorem State.setFrame_regs (p : Nat) (x : Frame) : (s.setFrame p x).regs = s.regs := rfl
@[simp] theorem State.setFrame_counters (p : Nat) (x : Frame) : (s.setFrame p x).counters = s.counters := rfl
@[simp] theorem State.setFrame_wraps (p : Nat) (x : Frame) : (s.setFrame p x).wraps = s.wraps := rfl
@[simp] theorem State.setFrame_legacy (p : Nat) (x : Frame) : (s.setFrame p x).legacy = s.legacy := rfl
@[simp] theorem State.setFrame_legacyWraps (p : Nat) (x : Frame) : (s.setFrame p x).legacyWraps = s.legacyWraps := rfl
@[simp] theorem State.setFrame_armed (p : Nat) (x : Frame) : (s.setFrame p x).armed = s.armed := rfl
@[simp] theorem State.setFrame_dev (p : Nat) (x : Frame) : (s.setFrame p x).dev = s.dev := rfl
@[simp] theorem State.setFrame_img (p : Nat) (x : Frame) : (s.setFrame p x).img = s.img := rfl
@[simp] theorem State.setFrame_txn (p : Nat) (x : Frame) : (s.setFrame p x).txn = s.txn := rfl
@[simp] theorem State.setFrame_basic (p : Nat) (x : Frame) : (s.setFrame p x).basic = s.basic := rfl
@[simp] theorem State.setFrame_calUser (p : Nat) (x : Frame) : (s.setFrame p x).calUser = s.calUser := rfl
@[simp] theorem State.setFrame_bypassPermit (p : Nat) (x : Frame) : (s.setFrame p x).bypassPermit = s.bypassPermit := rfl
@[simp] theorem State.setFrame_partition (p : Nat) (x : Frame) : (s.setFrame p x).partition = s.partition := rfl
@[simp] theorem State.setFrame_personality (p : Nat) (x : Frame) : (s.setFrame p x).personality = s.personality := rfl
@[simp] theorem State.setFrame_ports (p : Nat) (x : Frame) : (s.setFrame p x).ports = s.ports := rfl
@[simp] theorem State.setFrame_lanes (p : Nat) (x : Frame) : (s.setFrame p x).lanes = s.lanes := rfl
@[simp] theorem State.setFrame_spares (p : Nat) (x : Frame) : (s.setFrame p x).spares = s.spares := rfl
@[simp] theorem State.setFrame_releasing (p : Nat) (x : Frame) : (s.setFrame p x).releasing = s.releasing := rfl
@[simp] theorem State.setFrame_askIgnored (p : Nat) (x : Frame) : (s.setFrame p x).askIgnored = s.askIgnored := rfl
@[simp] theorem State.setFrame_cls (p : Nat) (x : Frame) : (s.setFrame p x).cls = s.cls := rfl
@[simp] theorem State.setFrame_lpm4 (p : Nat) (x : Frame) : (s.setFrame p x).lpm4 = s.lpm4 := rfl
@[simp] theorem State.setFrame_lpm6 (p : Nat) (x : Frame) : (s.setFrame p x).lpm6 = s.lpm6 := rfl
@[simp] theorem State.setFrame_frames (p : Nat) (x : Frame) : (s.setFrame p x).frames = kset {} s.frames p x := rfl
@[simp] theorem State.setFrame_nextFrame (p : Nat) (x : Frame) : (s.setFrame p x).nextFrame = s.nextFrame := rfl
@[simp] theorem State.setFrame_jobs (p : Nat) (x : Frame) : (s.setFrame p x).jobs = s.jobs := rfl
@[simp] theorem State.setFrame_nextJob (p : Nat) (x : Frame) : (s.setFrame p x).nextJob = s.nextJob := rfl
@[simp] theorem State.setFrame_txAssocs (p : Nat) (x : Frame) : (s.setFrame p x).txAssocs = s.txAssocs := rfl
@[simp] theorem State.setFrame_rxAssocs (p : Nat) (x : Frame) : (s.setFrame p x).rxAssocs = s.rxAssocs := rfl
@[simp] theorem State.setFrame_genHigh (p : Nat) (x : Frame) : (s.setFrame p x).genHigh = s.genHigh := rfl
@[simp] theorem State.setFrame_journal (p : Nat) (x : Frame) : (s.setFrame p x).journal = s.journal := rfl
@[simp] theorem State.setFrame_rills (p : Nat) (x : Frame) : (s.setFrame p x).rills = s.rills := rfl
@[simp] theorem State.setFrame_nextTag (p : Nat) (x : Frame) : (s.setFrame p x).nextTag = s.nextTag := rfl
@[simp] theorem State.setFrame_expTag (p : Nat) (x : Frame) : (s.setFrame p x).expTag = s.expTag := rfl
@[simp] theorem State.setFrame_teps (p : Nat) (x : Frame) : (s.setFrame p x).teps = s.teps := rfl
@[simp] theorem State.setFrame_tepPending (p : Nat) (x : Frame) : (s.setFrame p x).tepPending = s.tepPending := rfl
@[simp] theorem State.setFrame_tepIdent (p : Nat) (x : Frame) : (s.setFrame p x).tepIdent = s.tepIdent := rfl
@[simp] theorem State.setFrame_tmp (p : Nat) (x : Frame) : (s.setFrame p x).tmp = s.tmp := rfl
@[simp] theorem State.setFrame_bases (p : Nat) (x : Frame) : (s.setFrame p x).bases = s.bases := rfl
@[simp] theorem State.setFrame_localTime (p : Nat) (x : Frame) : (s.setFrame p x).localTime = s.localTime := rfl
@[simp] theorem State.setFrame_owner (p : Nat) (x : Frame) : (s.setFrame p x).owner = s.owner := rfl
@[simp] theorem State.setFrame_keyLog (p : Nat) (x : Frame) : (s.setFrame p x).keyLog = s.keyLog := rfl
@[simp] theorem State.setFrame_fuses (p : Nat) (x : Frame) : (s.setFrame p x).fuses = s.fuses := rfl
@[simp] theorem State.setFrame_well (p : Nat) (x : Frame) : (s.setFrame p x).well = s.well := rfl
@[simp] theorem State.setFrame_pair (p : Nat) (x : Frame) : (s.setFrame p x).pair = s.pair := rfl
@[simp] theorem State.setFrame_slices (p : Nat) (x : Frame) : (s.setFrame p x).slices = s.slices := rfl
@[simp] theorem State.setFrame_rings (p : Nat) (x : Frame) : (s.setFrame p x).rings = s.rings := rfl
@[simp] theorem State.setFrame_sched (p : Nat) (x : Frame) : (s.setFrame p x).sched = s.sched := rfl
@[simp] theorem State.setFrame_sluice (p : Nat) (x : Frame) : (s.setFrame p x).sluice = s.sluice := rfl
@[simp] theorem State.setFrame_steps (p : Nat) (x : Frame) : (s.setFrame p x).steps = s.steps := rfl
@[simp] theorem State.setFrame_cmpDone (p : Nat) (x : Frame) : (s.setFrame p x).cmpDone = s.cmpDone := rfl
@[simp] theorem State.setFrame_captured (p : Nat) (x : Frame) : (s.setFrame p x).captured = s.captured := rfl
@[simp] theorem State.setFrame_ppsHigh (p : Nat) (x : Frame) : (s.setFrame p x).ppsHigh = s.ppsHigh := rfl
@[simp] theorem State.setFrame_gates (p : Nat) (x : Frame) : (s.setFrame p x).gates = s.gates := rfl
@[simp] theorem State.setFrame_bwRx (p : Nat) (x : Frame) : (s.setFrame p x).bwRx = s.bwRx := rfl
@[simp] theorem State.setFrame_bwTx (p : Nat) (x : Frame) : (s.setFrame p x).bwTx = s.bwTx := rfl
@[simp] theorem State.setFrame_trunks (p : Nat) (x : Frame) : (s.setFrame p x).trunks = s.trunks := rfl
@[simp] theorem State.setFrame_cistern (p : Nat) (x : Frame) : (s.setFrame p x).cistern = s.cistern := rfl
@[simp] theorem State.setFrame_snap (p : Nat) (x : Frame) : (s.setFrame p x).snap = s.snap := rfl
@[simp] theorem State.setFrame_pke (p : Nat) (x : Frame) : (s.setFrame p x).pke = s.pke := rfl
@[simp] theorem State.setFrame_ident (p : Nat) (x : Frame) : (s.setFrame p x).ident = s.ident := rfl
@[simp] theorem State.setFrame_localOps (p : Nat) (x : Frame) : (s.setFrame p x).localOps = s.localOps := rfl
@[simp] theorem State.setFrame_drbgDown (p : Nat) (x : Frame) : (s.setFrame p x).drbgDown = s.drbgDown := rfl
@[simp] theorem State.setFrame_flashA (p : Nat) (x : Frame) : (s.setFrame p x).flashA = s.flashA := rfl
@[simp] theorem State.setFrame_flashB (p : Nat) (x : Frame) : (s.setFrame p x).flashB = s.flashB := rfl

/-! ### setJob -/

@[simp] theorem State.setJob_pending (p : Nat) (x : Job) : (s.setJob p x).pending = s.pending := rfl
@[simp] theorem State.setJob_out (p : Nat) (x : Job) : (s.setJob p x).out = s.out := rfl
@[simp] theorem State.setJob_freeCtr (p : Nat) (x : Job) : (s.setJob p x).freeCtr = s.freeCtr := rfl
@[simp] theorem State.setJob_regs (p : Nat) (x : Job) : (s.setJob p x).regs = s.regs := rfl
@[simp] theorem State.setJob_counters (p : Nat) (x : Job) : (s.setJob p x).counters = s.counters := rfl
@[simp] theorem State.setJob_wraps (p : Nat) (x : Job) : (s.setJob p x).wraps = s.wraps := rfl
@[simp] theorem State.setJob_legacy (p : Nat) (x : Job) : (s.setJob p x).legacy = s.legacy := rfl
@[simp] theorem State.setJob_legacyWraps (p : Nat) (x : Job) : (s.setJob p x).legacyWraps = s.legacyWraps := rfl
@[simp] theorem State.setJob_armed (p : Nat) (x : Job) : (s.setJob p x).armed = s.armed := rfl
@[simp] theorem State.setJob_dev (p : Nat) (x : Job) : (s.setJob p x).dev = s.dev := rfl
@[simp] theorem State.setJob_img (p : Nat) (x : Job) : (s.setJob p x).img = s.img := rfl
@[simp] theorem State.setJob_txn (p : Nat) (x : Job) : (s.setJob p x).txn = s.txn := rfl
@[simp] theorem State.setJob_basic (p : Nat) (x : Job) : (s.setJob p x).basic = s.basic := rfl
@[simp] theorem State.setJob_calUser (p : Nat) (x : Job) : (s.setJob p x).calUser = s.calUser := rfl
@[simp] theorem State.setJob_bypassPermit (p : Nat) (x : Job) : (s.setJob p x).bypassPermit = s.bypassPermit := rfl
@[simp] theorem State.setJob_partition (p : Nat) (x : Job) : (s.setJob p x).partition = s.partition := rfl
@[simp] theorem State.setJob_personality (p : Nat) (x : Job) : (s.setJob p x).personality = s.personality := rfl
@[simp] theorem State.setJob_ports (p : Nat) (x : Job) : (s.setJob p x).ports = s.ports := rfl
@[simp] theorem State.setJob_lanes (p : Nat) (x : Job) : (s.setJob p x).lanes = s.lanes := rfl
@[simp] theorem State.setJob_spares (p : Nat) (x : Job) : (s.setJob p x).spares = s.spares := rfl
@[simp] theorem State.setJob_releasing (p : Nat) (x : Job) : (s.setJob p x).releasing = s.releasing := rfl
@[simp] theorem State.setJob_askIgnored (p : Nat) (x : Job) : (s.setJob p x).askIgnored = s.askIgnored := rfl
@[simp] theorem State.setJob_cls (p : Nat) (x : Job) : (s.setJob p x).cls = s.cls := rfl
@[simp] theorem State.setJob_lpm4 (p : Nat) (x : Job) : (s.setJob p x).lpm4 = s.lpm4 := rfl
@[simp] theorem State.setJob_lpm6 (p : Nat) (x : Job) : (s.setJob p x).lpm6 = s.lpm6 := rfl
@[simp] theorem State.setJob_frames (p : Nat) (x : Job) : (s.setJob p x).frames = s.frames := rfl
@[simp] theorem State.setJob_nextFrame (p : Nat) (x : Job) : (s.setJob p x).nextFrame = s.nextFrame := rfl
@[simp] theorem State.setJob_jobs (p : Nat) (x : Job) : (s.setJob p x).jobs = kset {} s.jobs p x := rfl
@[simp] theorem State.setJob_nextJob (p : Nat) (x : Job) : (s.setJob p x).nextJob = s.nextJob := rfl
@[simp] theorem State.setJob_txAssocs (p : Nat) (x : Job) : (s.setJob p x).txAssocs = s.txAssocs := rfl
@[simp] theorem State.setJob_rxAssocs (p : Nat) (x : Job) : (s.setJob p x).rxAssocs = s.rxAssocs := rfl
@[simp] theorem State.setJob_genHigh (p : Nat) (x : Job) : (s.setJob p x).genHigh = s.genHigh := rfl
@[simp] theorem State.setJob_journal (p : Nat) (x : Job) : (s.setJob p x).journal = s.journal := rfl
@[simp] theorem State.setJob_rills (p : Nat) (x : Job) : (s.setJob p x).rills = s.rills := rfl
@[simp] theorem State.setJob_nextTag (p : Nat) (x : Job) : (s.setJob p x).nextTag = s.nextTag := rfl
@[simp] theorem State.setJob_expTag (p : Nat) (x : Job) : (s.setJob p x).expTag = s.expTag := rfl
@[simp] theorem State.setJob_teps (p : Nat) (x : Job) : (s.setJob p x).teps = s.teps := rfl
@[simp] theorem State.setJob_tepPending (p : Nat) (x : Job) : (s.setJob p x).tepPending = s.tepPending := rfl
@[simp] theorem State.setJob_tepIdent (p : Nat) (x : Job) : (s.setJob p x).tepIdent = s.tepIdent := rfl
@[simp] theorem State.setJob_tmp (p : Nat) (x : Job) : (s.setJob p x).tmp = s.tmp := rfl
@[simp] theorem State.setJob_bases (p : Nat) (x : Job) : (s.setJob p x).bases = s.bases := rfl
@[simp] theorem State.setJob_localTime (p : Nat) (x : Job) : (s.setJob p x).localTime = s.localTime := rfl
@[simp] theorem State.setJob_owner (p : Nat) (x : Job) : (s.setJob p x).owner = s.owner := rfl
@[simp] theorem State.setJob_keyLog (p : Nat) (x : Job) : (s.setJob p x).keyLog = s.keyLog := rfl
@[simp] theorem State.setJob_fuses (p : Nat) (x : Job) : (s.setJob p x).fuses = s.fuses := rfl
@[simp] theorem State.setJob_well (p : Nat) (x : Job) : (s.setJob p x).well = s.well := rfl
@[simp] theorem State.setJob_pair (p : Nat) (x : Job) : (s.setJob p x).pair = s.pair := rfl
@[simp] theorem State.setJob_slices (p : Nat) (x : Job) : (s.setJob p x).slices = s.slices := rfl
@[simp] theorem State.setJob_rings (p : Nat) (x : Job) : (s.setJob p x).rings = s.rings := rfl
@[simp] theorem State.setJob_sched (p : Nat) (x : Job) : (s.setJob p x).sched = s.sched := rfl
@[simp] theorem State.setJob_sluice (p : Nat) (x : Job) : (s.setJob p x).sluice = s.sluice := rfl
@[simp] theorem State.setJob_steps (p : Nat) (x : Job) : (s.setJob p x).steps = s.steps := rfl
@[simp] theorem State.setJob_cmpDone (p : Nat) (x : Job) : (s.setJob p x).cmpDone = s.cmpDone := rfl
@[simp] theorem State.setJob_captured (p : Nat) (x : Job) : (s.setJob p x).captured = s.captured := rfl
@[simp] theorem State.setJob_ppsHigh (p : Nat) (x : Job) : (s.setJob p x).ppsHigh = s.ppsHigh := rfl
@[simp] theorem State.setJob_gates (p : Nat) (x : Job) : (s.setJob p x).gates = s.gates := rfl
@[simp] theorem State.setJob_bwRx (p : Nat) (x : Job) : (s.setJob p x).bwRx = s.bwRx := rfl
@[simp] theorem State.setJob_bwTx (p : Nat) (x : Job) : (s.setJob p x).bwTx = s.bwTx := rfl
@[simp] theorem State.setJob_trunks (p : Nat) (x : Job) : (s.setJob p x).trunks = s.trunks := rfl
@[simp] theorem State.setJob_cistern (p : Nat) (x : Job) : (s.setJob p x).cistern = s.cistern := rfl
@[simp] theorem State.setJob_snap (p : Nat) (x : Job) : (s.setJob p x).snap = s.snap := rfl
@[simp] theorem State.setJob_pke (p : Nat) (x : Job) : (s.setJob p x).pke = s.pke := rfl
@[simp] theorem State.setJob_ident (p : Nat) (x : Job) : (s.setJob p x).ident = s.ident := rfl
@[simp] theorem State.setJob_localOps (p : Nat) (x : Job) : (s.setJob p x).localOps = s.localOps := rfl
@[simp] theorem State.setJob_drbgDown (p : Nat) (x : Job) : (s.setJob p x).drbgDown = s.drbgDown := rfl
@[simp] theorem State.setJob_flashA (p : Nat) (x : Job) : (s.setJob p x).flashA = s.flashA := rfl
@[simp] theorem State.setJob_flashB (p : Nat) (x : Job) : (s.setJob p x).flashB = s.flashB := rfl

/-! ### setRill -/

@[simp] theorem State.setRill_pending (p : Nat) (x : Rill) : (s.setRill p x).pending = s.pending := rfl
@[simp] theorem State.setRill_out (p : Nat) (x : Rill) : (s.setRill p x).out = s.out := rfl
@[simp] theorem State.setRill_freeCtr (p : Nat) (x : Rill) : (s.setRill p x).freeCtr = s.freeCtr := rfl
@[simp] theorem State.setRill_regs (p : Nat) (x : Rill) : (s.setRill p x).regs = s.regs := rfl
@[simp] theorem State.setRill_counters (p : Nat) (x : Rill) : (s.setRill p x).counters = s.counters := rfl
@[simp] theorem State.setRill_wraps (p : Nat) (x : Rill) : (s.setRill p x).wraps = s.wraps := rfl
@[simp] theorem State.setRill_legacy (p : Nat) (x : Rill) : (s.setRill p x).legacy = s.legacy := rfl
@[simp] theorem State.setRill_legacyWraps (p : Nat) (x : Rill) : (s.setRill p x).legacyWraps = s.legacyWraps := rfl
@[simp] theorem State.setRill_armed (p : Nat) (x : Rill) : (s.setRill p x).armed = s.armed := rfl
@[simp] theorem State.setRill_dev (p : Nat) (x : Rill) : (s.setRill p x).dev = s.dev := rfl
@[simp] theorem State.setRill_img (p : Nat) (x : Rill) : (s.setRill p x).img = s.img := rfl
@[simp] theorem State.setRill_txn (p : Nat) (x : Rill) : (s.setRill p x).txn = s.txn := rfl
@[simp] theorem State.setRill_basic (p : Nat) (x : Rill) : (s.setRill p x).basic = s.basic := rfl
@[simp] theorem State.setRill_calUser (p : Nat) (x : Rill) : (s.setRill p x).calUser = s.calUser := rfl
@[simp] theorem State.setRill_bypassPermit (p : Nat) (x : Rill) : (s.setRill p x).bypassPermit = s.bypassPermit := rfl
@[simp] theorem State.setRill_partition (p : Nat) (x : Rill) : (s.setRill p x).partition = s.partition := rfl
@[simp] theorem State.setRill_personality (p : Nat) (x : Rill) : (s.setRill p x).personality = s.personality := rfl
@[simp] theorem State.setRill_ports (p : Nat) (x : Rill) : (s.setRill p x).ports = s.ports := rfl
@[simp] theorem State.setRill_lanes (p : Nat) (x : Rill) : (s.setRill p x).lanes = s.lanes := rfl
@[simp] theorem State.setRill_spares (p : Nat) (x : Rill) : (s.setRill p x).spares = s.spares := rfl
@[simp] theorem State.setRill_releasing (p : Nat) (x : Rill) : (s.setRill p x).releasing = s.releasing := rfl
@[simp] theorem State.setRill_askIgnored (p : Nat) (x : Rill) : (s.setRill p x).askIgnored = s.askIgnored := rfl
@[simp] theorem State.setRill_cls (p : Nat) (x : Rill) : (s.setRill p x).cls = s.cls := rfl
@[simp] theorem State.setRill_lpm4 (p : Nat) (x : Rill) : (s.setRill p x).lpm4 = s.lpm4 := rfl
@[simp] theorem State.setRill_lpm6 (p : Nat) (x : Rill) : (s.setRill p x).lpm6 = s.lpm6 := rfl
@[simp] theorem State.setRill_frames (p : Nat) (x : Rill) : (s.setRill p x).frames = s.frames := rfl
@[simp] theorem State.setRill_nextFrame (p : Nat) (x : Rill) : (s.setRill p x).nextFrame = s.nextFrame := rfl
@[simp] theorem State.setRill_jobs (p : Nat) (x : Rill) : (s.setRill p x).jobs = s.jobs := rfl
@[simp] theorem State.setRill_nextJob (p : Nat) (x : Rill) : (s.setRill p x).nextJob = s.nextJob := rfl
@[simp] theorem State.setRill_txAssocs (p : Nat) (x : Rill) : (s.setRill p x).txAssocs = s.txAssocs := rfl
@[simp] theorem State.setRill_rxAssocs (p : Nat) (x : Rill) : (s.setRill p x).rxAssocs = s.rxAssocs := rfl
@[simp] theorem State.setRill_genHigh (p : Nat) (x : Rill) : (s.setRill p x).genHigh = s.genHigh := rfl
@[simp] theorem State.setRill_journal (p : Nat) (x : Rill) : (s.setRill p x).journal = s.journal := rfl
@[simp] theorem State.setRill_rills (p : Nat) (x : Rill) : (s.setRill p x).rills = kset {} s.rills p x := rfl
@[simp] theorem State.setRill_nextTag (p : Nat) (x : Rill) : (s.setRill p x).nextTag = s.nextTag := rfl
@[simp] theorem State.setRill_expTag (p : Nat) (x : Rill) : (s.setRill p x).expTag = s.expTag := rfl
@[simp] theorem State.setRill_teps (p : Nat) (x : Rill) : (s.setRill p x).teps = s.teps := rfl
@[simp] theorem State.setRill_tepPending (p : Nat) (x : Rill) : (s.setRill p x).tepPending = s.tepPending := rfl
@[simp] theorem State.setRill_tepIdent (p : Nat) (x : Rill) : (s.setRill p x).tepIdent = s.tepIdent := rfl
@[simp] theorem State.setRill_tmp (p : Nat) (x : Rill) : (s.setRill p x).tmp = s.tmp := rfl
@[simp] theorem State.setRill_bases (p : Nat) (x : Rill) : (s.setRill p x).bases = s.bases := rfl
@[simp] theorem State.setRill_localTime (p : Nat) (x : Rill) : (s.setRill p x).localTime = s.localTime := rfl
@[simp] theorem State.setRill_owner (p : Nat) (x : Rill) : (s.setRill p x).owner = s.owner := rfl
@[simp] theorem State.setRill_keyLog (p : Nat) (x : Rill) : (s.setRill p x).keyLog = s.keyLog := rfl
@[simp] theorem State.setRill_fuses (p : Nat) (x : Rill) : (s.setRill p x).fuses = s.fuses := rfl
@[simp] theorem State.setRill_well (p : Nat) (x : Rill) : (s.setRill p x).well = s.well := rfl
@[simp] theorem State.setRill_pair (p : Nat) (x : Rill) : (s.setRill p x).pair = s.pair := rfl
@[simp] theorem State.setRill_slices (p : Nat) (x : Rill) : (s.setRill p x).slices = s.slices := rfl
@[simp] theorem State.setRill_rings (p : Nat) (x : Rill) : (s.setRill p x).rings = s.rings := rfl
@[simp] theorem State.setRill_sched (p : Nat) (x : Rill) : (s.setRill p x).sched = s.sched := rfl
@[simp] theorem State.setRill_sluice (p : Nat) (x : Rill) : (s.setRill p x).sluice = s.sluice := rfl
@[simp] theorem State.setRill_steps (p : Nat) (x : Rill) : (s.setRill p x).steps = s.steps := rfl
@[simp] theorem State.setRill_cmpDone (p : Nat) (x : Rill) : (s.setRill p x).cmpDone = s.cmpDone := rfl
@[simp] theorem State.setRill_captured (p : Nat) (x : Rill) : (s.setRill p x).captured = s.captured := rfl
@[simp] theorem State.setRill_ppsHigh (p : Nat) (x : Rill) : (s.setRill p x).ppsHigh = s.ppsHigh := rfl
@[simp] theorem State.setRill_gates (p : Nat) (x : Rill) : (s.setRill p x).gates = s.gates := rfl
@[simp] theorem State.setRill_bwRx (p : Nat) (x : Rill) : (s.setRill p x).bwRx = s.bwRx := rfl
@[simp] theorem State.setRill_bwTx (p : Nat) (x : Rill) : (s.setRill p x).bwTx = s.bwTx := rfl
@[simp] theorem State.setRill_trunks (p : Nat) (x : Rill) : (s.setRill p x).trunks = s.trunks := rfl
@[simp] theorem State.setRill_cistern (p : Nat) (x : Rill) : (s.setRill p x).cistern = s.cistern := rfl
@[simp] theorem State.setRill_snap (p : Nat) (x : Rill) : (s.setRill p x).snap = s.snap := rfl
@[simp] theorem State.setRill_pke (p : Nat) (x : Rill) : (s.setRill p x).pke = s.pke := rfl
@[simp] theorem State.setRill_ident (p : Nat) (x : Rill) : (s.setRill p x).ident = s.ident := rfl
@[simp] theorem State.setRill_localOps (p : Nat) (x : Rill) : (s.setRill p x).localOps = s.localOps := rfl
@[simp] theorem State.setRill_drbgDown (p : Nat) (x : Rill) : (s.setRill p x).drbgDown = s.drbgDown := rfl
@[simp] theorem State.setRill_flashA (p : Nat) (x : Rill) : (s.setRill p x).flashA = s.flashA := rfl
@[simp] theorem State.setRill_flashB (p : Nat) (x : Rill) : (s.setRill p x).flashB = s.flashB := rfl

/-! ### setTrunk -/

@[simp] theorem State.setTrunk_pending (p : Nat) (x : Trunk) : (s.setTrunk p x).pending = s.pending := rfl
@[simp] theorem State.setTrunk_out (p : Nat) (x : Trunk) : (s.setTrunk p x).out = s.out := rfl
@[simp] theorem State.setTrunk_freeCtr (p : Nat) (x : Trunk) : (s.setTrunk p x).freeCtr = s.freeCtr := rfl
@[simp] theorem State.setTrunk_regs (p : Nat) (x : Trunk) : (s.setTrunk p x).regs = s.regs := rfl
@[simp] theorem State.setTrunk_counters (p : Nat) (x : Trunk) : (s.setTrunk p x).counters = s.counters := rfl
@[simp] theorem State.setTrunk_wraps (p : Nat) (x : Trunk) : (s.setTrunk p x).wraps = s.wraps := rfl
@[simp] theorem State.setTrunk_legacy (p : Nat) (x : Trunk) : (s.setTrunk p x).legacy = s.legacy := rfl
@[simp] theorem State.setTrunk_legacyWraps (p : Nat) (x : Trunk) : (s.setTrunk p x).legacyWraps = s.legacyWraps := rfl
@[simp] theorem State.setTrunk_armed (p : Nat) (x : Trunk) : (s.setTrunk p x).armed = s.armed := rfl
@[simp] theorem State.setTrunk_dev (p : Nat) (x : Trunk) : (s.setTrunk p x).dev = s.dev := rfl
@[simp] theorem State.setTrunk_img (p : Nat) (x : Trunk) : (s.setTrunk p x).img = s.img := rfl
@[simp] theorem State.setTrunk_txn (p : Nat) (x : Trunk) : (s.setTrunk p x).txn = s.txn := rfl
@[simp] theorem State.setTrunk_basic (p : Nat) (x : Trunk) : (s.setTrunk p x).basic = s.basic := rfl
@[simp] theorem State.setTrunk_calUser (p : Nat) (x : Trunk) : (s.setTrunk p x).calUser = s.calUser := rfl
@[simp] theorem State.setTrunk_bypassPermit (p : Nat) (x : Trunk) : (s.setTrunk p x).bypassPermit = s.bypassPermit := rfl
@[simp] theorem State.setTrunk_partition (p : Nat) (x : Trunk) : (s.setTrunk p x).partition = s.partition := rfl
@[simp] theorem State.setTrunk_personality (p : Nat) (x : Trunk) : (s.setTrunk p x).personality = s.personality := rfl
@[simp] theorem State.setTrunk_ports (p : Nat) (x : Trunk) : (s.setTrunk p x).ports = s.ports := rfl
@[simp] theorem State.setTrunk_lanes (p : Nat) (x : Trunk) : (s.setTrunk p x).lanes = s.lanes := rfl
@[simp] theorem State.setTrunk_spares (p : Nat) (x : Trunk) : (s.setTrunk p x).spares = s.spares := rfl
@[simp] theorem State.setTrunk_releasing (p : Nat) (x : Trunk) : (s.setTrunk p x).releasing = s.releasing := rfl
@[simp] theorem State.setTrunk_askIgnored (p : Nat) (x : Trunk) : (s.setTrunk p x).askIgnored = s.askIgnored := rfl
@[simp] theorem State.setTrunk_cls (p : Nat) (x : Trunk) : (s.setTrunk p x).cls = s.cls := rfl
@[simp] theorem State.setTrunk_lpm4 (p : Nat) (x : Trunk) : (s.setTrunk p x).lpm4 = s.lpm4 := rfl
@[simp] theorem State.setTrunk_lpm6 (p : Nat) (x : Trunk) : (s.setTrunk p x).lpm6 = s.lpm6 := rfl
@[simp] theorem State.setTrunk_frames (p : Nat) (x : Trunk) : (s.setTrunk p x).frames = s.frames := rfl
@[simp] theorem State.setTrunk_nextFrame (p : Nat) (x : Trunk) : (s.setTrunk p x).nextFrame = s.nextFrame := rfl
@[simp] theorem State.setTrunk_jobs (p : Nat) (x : Trunk) : (s.setTrunk p x).jobs = s.jobs := rfl
@[simp] theorem State.setTrunk_nextJob (p : Nat) (x : Trunk) : (s.setTrunk p x).nextJob = s.nextJob := rfl
@[simp] theorem State.setTrunk_txAssocs (p : Nat) (x : Trunk) : (s.setTrunk p x).txAssocs = s.txAssocs := rfl
@[simp] theorem State.setTrunk_rxAssocs (p : Nat) (x : Trunk) : (s.setTrunk p x).rxAssocs = s.rxAssocs := rfl
@[simp] theorem State.setTrunk_genHigh (p : Nat) (x : Trunk) : (s.setTrunk p x).genHigh = s.genHigh := rfl
@[simp] theorem State.setTrunk_journal (p : Nat) (x : Trunk) : (s.setTrunk p x).journal = s.journal := rfl
@[simp] theorem State.setTrunk_rills (p : Nat) (x : Trunk) : (s.setTrunk p x).rills = s.rills := rfl
@[simp] theorem State.setTrunk_nextTag (p : Nat) (x : Trunk) : (s.setTrunk p x).nextTag = s.nextTag := rfl
@[simp] theorem State.setTrunk_expTag (p : Nat) (x : Trunk) : (s.setTrunk p x).expTag = s.expTag := rfl
@[simp] theorem State.setTrunk_teps (p : Nat) (x : Trunk) : (s.setTrunk p x).teps = s.teps := rfl
@[simp] theorem State.setTrunk_tepPending (p : Nat) (x : Trunk) : (s.setTrunk p x).tepPending = s.tepPending := rfl
@[simp] theorem State.setTrunk_tepIdent (p : Nat) (x : Trunk) : (s.setTrunk p x).tepIdent = s.tepIdent := rfl
@[simp] theorem State.setTrunk_tmp (p : Nat) (x : Trunk) : (s.setTrunk p x).tmp = s.tmp := rfl
@[simp] theorem State.setTrunk_bases (p : Nat) (x : Trunk) : (s.setTrunk p x).bases = s.bases := rfl
@[simp] theorem State.setTrunk_localTime (p : Nat) (x : Trunk) : (s.setTrunk p x).localTime = s.localTime := rfl
@[simp] theorem State.setTrunk_owner (p : Nat) (x : Trunk) : (s.setTrunk p x).owner = s.owner := rfl
@[simp] theorem State.setTrunk_keyLog (p : Nat) (x : Trunk) : (s.setTrunk p x).keyLog = s.keyLog := rfl
@[simp] theorem State.setTrunk_fuses (p : Nat) (x : Trunk) : (s.setTrunk p x).fuses = s.fuses := rfl
@[simp] theorem State.setTrunk_well (p : Nat) (x : Trunk) : (s.setTrunk p x).well = s.well := rfl
@[simp] theorem State.setTrunk_pair (p : Nat) (x : Trunk) : (s.setTrunk p x).pair = s.pair := rfl
@[simp] theorem State.setTrunk_slices (p : Nat) (x : Trunk) : (s.setTrunk p x).slices = s.slices := rfl
@[simp] theorem State.setTrunk_rings (p : Nat) (x : Trunk) : (s.setTrunk p x).rings = s.rings := rfl
@[simp] theorem State.setTrunk_sched (p : Nat) (x : Trunk) : (s.setTrunk p x).sched = s.sched := rfl
@[simp] theorem State.setTrunk_sluice (p : Nat) (x : Trunk) : (s.setTrunk p x).sluice = s.sluice := rfl
@[simp] theorem State.setTrunk_steps (p : Nat) (x : Trunk) : (s.setTrunk p x).steps = s.steps := rfl
@[simp] theorem State.setTrunk_cmpDone (p : Nat) (x : Trunk) : (s.setTrunk p x).cmpDone = s.cmpDone := rfl
@[simp] theorem State.setTrunk_captured (p : Nat) (x : Trunk) : (s.setTrunk p x).captured = s.captured := rfl
@[simp] theorem State.setTrunk_ppsHigh (p : Nat) (x : Trunk) : (s.setTrunk p x).ppsHigh = s.ppsHigh := rfl
@[simp] theorem State.setTrunk_gates (p : Nat) (x : Trunk) : (s.setTrunk p x).gates = s.gates := rfl
@[simp] theorem State.setTrunk_bwRx (p : Nat) (x : Trunk) : (s.setTrunk p x).bwRx = s.bwRx := rfl
@[simp] theorem State.setTrunk_bwTx (p : Nat) (x : Trunk) : (s.setTrunk p x).bwTx = s.bwTx := rfl
@[simp] theorem State.setTrunk_trunks (p : Nat) (x : Trunk) : (s.setTrunk p x).trunks = kset {} s.trunks p x := rfl
@[simp] theorem State.setTrunk_cistern (p : Nat) (x : Trunk) : (s.setTrunk p x).cistern = s.cistern := rfl
@[simp] theorem State.setTrunk_snap (p : Nat) (x : Trunk) : (s.setTrunk p x).snap = s.snap := rfl
@[simp] theorem State.setTrunk_pke (p : Nat) (x : Trunk) : (s.setTrunk p x).pke = s.pke := rfl
@[simp] theorem State.setTrunk_ident (p : Nat) (x : Trunk) : (s.setTrunk p x).ident = s.ident := rfl
@[simp] theorem State.setTrunk_localOps (p : Nat) (x : Trunk) : (s.setTrunk p x).localOps = s.localOps := rfl
@[simp] theorem State.setTrunk_drbgDown (p : Nat) (x : Trunk) : (s.setTrunk p x).drbgDown = s.drbgDown := rfl
@[simp] theorem State.setTrunk_flashA (p : Nat) (x : Trunk) : (s.setTrunk p x).flashA = s.flashA := rfl
@[simp] theorem State.setTrunk_flashB (p : Nat) (x : Trunk) : (s.setTrunk p x).flashB = s.flashB := rfl

/-! ### setSlice -/

@[simp] theorem State.setSlice_pending (p : Nat) (x : HostSlice) : (s.setSlice p x).pending = s.pending := rfl
@[simp] theorem State.setSlice_out (p : Nat) (x : HostSlice) : (s.setSlice p x).out = s.out := rfl
@[simp] theorem State.setSlice_freeCtr (p : Nat) (x : HostSlice) : (s.setSlice p x).freeCtr = s.freeCtr := rfl
@[simp] theorem State.setSlice_regs (p : Nat) (x : HostSlice) : (s.setSlice p x).regs = s.regs := rfl
@[simp] theorem State.setSlice_counters (p : Nat) (x : HostSlice) : (s.setSlice p x).counters = s.counters := rfl
@[simp] theorem State.setSlice_wraps (p : Nat) (x : HostSlice) : (s.setSlice p x).wraps = s.wraps := rfl
@[simp] theorem State.setSlice_legacy (p : Nat) (x : HostSlice) : (s.setSlice p x).legacy = s.legacy := rfl
@[simp] theorem State.setSlice_legacyWraps (p : Nat) (x : HostSlice) : (s.setSlice p x).legacyWraps = s.legacyWraps := rfl
@[simp] theorem State.setSlice_armed (p : Nat) (x : HostSlice) : (s.setSlice p x).armed = s.armed := rfl
@[simp] theorem State.setSlice_dev (p : Nat) (x : HostSlice) : (s.setSlice p x).dev = s.dev := rfl
@[simp] theorem State.setSlice_img (p : Nat) (x : HostSlice) : (s.setSlice p x).img = s.img := rfl
@[simp] theorem State.setSlice_txn (p : Nat) (x : HostSlice) : (s.setSlice p x).txn = s.txn := rfl
@[simp] theorem State.setSlice_basic (p : Nat) (x : HostSlice) : (s.setSlice p x).basic = s.basic := rfl
@[simp] theorem State.setSlice_calUser (p : Nat) (x : HostSlice) : (s.setSlice p x).calUser = s.calUser := rfl
@[simp] theorem State.setSlice_bypassPermit (p : Nat) (x : HostSlice) : (s.setSlice p x).bypassPermit = s.bypassPermit := rfl
@[simp] theorem State.setSlice_partition (p : Nat) (x : HostSlice) : (s.setSlice p x).partition = s.partition := rfl
@[simp] theorem State.setSlice_personality (p : Nat) (x : HostSlice) : (s.setSlice p x).personality = s.personality := rfl
@[simp] theorem State.setSlice_ports (p : Nat) (x : HostSlice) : (s.setSlice p x).ports = s.ports := rfl
@[simp] theorem State.setSlice_lanes (p : Nat) (x : HostSlice) : (s.setSlice p x).lanes = s.lanes := rfl
@[simp] theorem State.setSlice_spares (p : Nat) (x : HostSlice) : (s.setSlice p x).spares = s.spares := rfl
@[simp] theorem State.setSlice_releasing (p : Nat) (x : HostSlice) : (s.setSlice p x).releasing = s.releasing := rfl
@[simp] theorem State.setSlice_askIgnored (p : Nat) (x : HostSlice) : (s.setSlice p x).askIgnored = s.askIgnored := rfl
@[simp] theorem State.setSlice_cls (p : Nat) (x : HostSlice) : (s.setSlice p x).cls = s.cls := rfl
@[simp] theorem State.setSlice_lpm4 (p : Nat) (x : HostSlice) : (s.setSlice p x).lpm4 = s.lpm4 := rfl
@[simp] theorem State.setSlice_lpm6 (p : Nat) (x : HostSlice) : (s.setSlice p x).lpm6 = s.lpm6 := rfl
@[simp] theorem State.setSlice_frames (p : Nat) (x : HostSlice) : (s.setSlice p x).frames = s.frames := rfl
@[simp] theorem State.setSlice_nextFrame (p : Nat) (x : HostSlice) : (s.setSlice p x).nextFrame = s.nextFrame := rfl
@[simp] theorem State.setSlice_jobs (p : Nat) (x : HostSlice) : (s.setSlice p x).jobs = s.jobs := rfl
@[simp] theorem State.setSlice_nextJob (p : Nat) (x : HostSlice) : (s.setSlice p x).nextJob = s.nextJob := rfl
@[simp] theorem State.setSlice_txAssocs (p : Nat) (x : HostSlice) : (s.setSlice p x).txAssocs = s.txAssocs := rfl
@[simp] theorem State.setSlice_rxAssocs (p : Nat) (x : HostSlice) : (s.setSlice p x).rxAssocs = s.rxAssocs := rfl
@[simp] theorem State.setSlice_genHigh (p : Nat) (x : HostSlice) : (s.setSlice p x).genHigh = s.genHigh := rfl
@[simp] theorem State.setSlice_journal (p : Nat) (x : HostSlice) : (s.setSlice p x).journal = s.journal := rfl
@[simp] theorem State.setSlice_rills (p : Nat) (x : HostSlice) : (s.setSlice p x).rills = s.rills := rfl
@[simp] theorem State.setSlice_nextTag (p : Nat) (x : HostSlice) : (s.setSlice p x).nextTag = s.nextTag := rfl
@[simp] theorem State.setSlice_expTag (p : Nat) (x : HostSlice) : (s.setSlice p x).expTag = s.expTag := rfl
@[simp] theorem State.setSlice_teps (p : Nat) (x : HostSlice) : (s.setSlice p x).teps = s.teps := rfl
@[simp] theorem State.setSlice_tepPending (p : Nat) (x : HostSlice) : (s.setSlice p x).tepPending = s.tepPending := rfl
@[simp] theorem State.setSlice_tepIdent (p : Nat) (x : HostSlice) : (s.setSlice p x).tepIdent = s.tepIdent := rfl
@[simp] theorem State.setSlice_tmp (p : Nat) (x : HostSlice) : (s.setSlice p x).tmp = s.tmp := rfl
@[simp] theorem State.setSlice_bases (p : Nat) (x : HostSlice) : (s.setSlice p x).bases = s.bases := rfl
@[simp] theorem State.setSlice_localTime (p : Nat) (x : HostSlice) : (s.setSlice p x).localTime = s.localTime := rfl
@[simp] theorem State.setSlice_owner (p : Nat) (x : HostSlice) : (s.setSlice p x).owner = s.owner := rfl
@[simp] theorem State.setSlice_keyLog (p : Nat) (x : HostSlice) : (s.setSlice p x).keyLog = s.keyLog := rfl
@[simp] theorem State.setSlice_fuses (p : Nat) (x : HostSlice) : (s.setSlice p x).fuses = s.fuses := rfl
@[simp] theorem State.setSlice_well (p : Nat) (x : HostSlice) : (s.setSlice p x).well = s.well := rfl
@[simp] theorem State.setSlice_pair (p : Nat) (x : HostSlice) : (s.setSlice p x).pair = s.pair := rfl
@[simp] theorem State.setSlice_slices (p : Nat) (x : HostSlice) : (s.setSlice p x).slices = kset {} s.slices p x := rfl
@[simp] theorem State.setSlice_rings (p : Nat) (x : HostSlice) : (s.setSlice p x).rings = s.rings := rfl
@[simp] theorem State.setSlice_sched (p : Nat) (x : HostSlice) : (s.setSlice p x).sched = s.sched := rfl
@[simp] theorem State.setSlice_sluice (p : Nat) (x : HostSlice) : (s.setSlice p x).sluice = s.sluice := rfl
@[simp] theorem State.setSlice_steps (p : Nat) (x : HostSlice) : (s.setSlice p x).steps = s.steps := rfl
@[simp] theorem State.setSlice_cmpDone (p : Nat) (x : HostSlice) : (s.setSlice p x).cmpDone = s.cmpDone := rfl
@[simp] theorem State.setSlice_captured (p : Nat) (x : HostSlice) : (s.setSlice p x).captured = s.captured := rfl
@[simp] theorem State.setSlice_ppsHigh (p : Nat) (x : HostSlice) : (s.setSlice p x).ppsHigh = s.ppsHigh := rfl
@[simp] theorem State.setSlice_gates (p : Nat) (x : HostSlice) : (s.setSlice p x).gates = s.gates := rfl
@[simp] theorem State.setSlice_bwRx (p : Nat) (x : HostSlice) : (s.setSlice p x).bwRx = s.bwRx := rfl
@[simp] theorem State.setSlice_bwTx (p : Nat) (x : HostSlice) : (s.setSlice p x).bwTx = s.bwTx := rfl
@[simp] theorem State.setSlice_trunks (p : Nat) (x : HostSlice) : (s.setSlice p x).trunks = s.trunks := rfl
@[simp] theorem State.setSlice_cistern (p : Nat) (x : HostSlice) : (s.setSlice p x).cistern = s.cistern := rfl
@[simp] theorem State.setSlice_snap (p : Nat) (x : HostSlice) : (s.setSlice p x).snap = s.snap := rfl
@[simp] theorem State.setSlice_pke (p : Nat) (x : HostSlice) : (s.setSlice p x).pke = s.pke := rfl
@[simp] theorem State.setSlice_ident (p : Nat) (x : HostSlice) : (s.setSlice p x).ident = s.ident := rfl
@[simp] theorem State.setSlice_localOps (p : Nat) (x : HostSlice) : (s.setSlice p x).localOps = s.localOps := rfl
@[simp] theorem State.setSlice_drbgDown (p : Nat) (x : HostSlice) : (s.setSlice p x).drbgDown = s.drbgDown := rfl
@[simp] theorem State.setSlice_flashA (p : Nat) (x : HostSlice) : (s.setSlice p x).flashA = s.flashA := rfl
@[simp] theorem State.setSlice_flashB (p : Nat) (x : HostSlice) : (s.setSlice p x).flashB = s.flashB := rfl

/-! ### Units by number are apart -/

@[simp] theorem State.setReg_port_at (a : Nat) (v : Word) (q : Nat) : (s.setReg a v).port q = s.port q := rfl
@[simp] theorem State.setReg_lane_at (a : Nat) (v : Word) (q : Nat) : (s.setReg a v).lane q = s.lane q := rfl
@[simp] theorem State.setReg_spare_at (a : Nat) (v : Word) (q : Nat) : (s.setReg a v).spare q = s.spare q := rfl
@[simp] theorem State.setReg_clsOf_at (a : Nat) (v : Word) (q : Nat) : (s.setReg a v).clsOf q = s.clsOf q := rfl
@[simp] theorem State.setReg_frame_at (a : Nat) (v : Word) (q : Nat) : (s.setReg a v).frame q = s.frame q := rfl
@[simp] theorem State.setReg_job_at (a : Nat) (v : Word) (q : Nat) : (s.setReg a v).job q = s.job q := rfl
@[simp] theorem State.setReg_rill_at (a : Nat) (v : Word) (q : Nat) : (s.setReg a v).rill q = s.rill q := rfl
@[simp] theorem State.setReg_trunk_at (a : Nat) (v : Word) (q : Nat) : (s.setReg a v).trunk q = s.trunk q := rfl
@[simp] theorem State.setReg_slice_at (a : Nat) (v : Word) (q : Nat) : (s.setReg a v).slice q = s.slice q := rfl
@[simp] theorem State.setFld_port_at (a : Nat) (f : Fld) (v : Nat) (q : Nat) : (s.setFld a f v).port q = s.port q := rfl
@[simp] theorem State.setFld_lane_at (a : Nat) (f : Fld) (v : Nat) (q : Nat) : (s.setFld a f v).lane q = s.lane q := rfl
@[simp] theorem State.setFld_spare_at (a : Nat) (f : Fld) (v : Nat) (q : Nat) : (s.setFld a f v).spare q = s.spare q := rfl
@[simp] theorem State.setFld_clsOf_at (a : Nat) (f : Fld) (v : Nat) (q : Nat) : (s.setFld a f v).clsOf q = s.clsOf q := rfl
@[simp] theorem State.setFld_frame_at (a : Nat) (f : Fld) (v : Nat) (q : Nat) : (s.setFld a f v).frame q = s.frame q := rfl
@[simp] theorem State.setFld_job_at (a : Nat) (f : Fld) (v : Nat) (q : Nat) : (s.setFld a f v).job q = s.job q := rfl
@[simp] theorem State.setFld_rill_at (a : Nat) (f : Fld) (v : Nat) (q : Nat) : (s.setFld a f v).rill q = s.rill q := rfl
@[simp] theorem State.setFld_trunk_at (a : Nat) (f : Fld) (v : Nat) (q : Nat) : (s.setFld a f v).trunk q = s.trunk q := rfl
@[simp] theorem State.setFld_slice_at (a : Nat) (f : Fld) (v : Nat) (q : Nat) : (s.setFld a f v).slice q = s.slice q := rfl
@[simp] theorem State.emit_port_at (o : Out) (q : Nat) : (s.emit o).port q = s.port q := rfl
@[simp] theorem State.emit_lane_at (o : Out) (q : Nat) : (s.emit o).lane q = s.lane q := rfl
@[simp] theorem State.emit_spare_at (o : Out) (q : Nat) : (s.emit o).spare q = s.spare q := rfl
@[simp] theorem State.emit_clsOf_at (o : Out) (q : Nat) : (s.emit o).clsOf q = s.clsOf q := rfl
@[simp] theorem State.emit_frame_at (o : Out) (q : Nat) : (s.emit o).frame q = s.frame q := rfl
@[simp] theorem State.emit_job_at (o : Out) (q : Nat) : (s.emit o).job q = s.job q := rfl
@[simp] theorem State.emit_rill_at (o : Out) (q : Nat) : (s.emit o).rill q = s.rill q := rfl
@[simp] theorem State.emit_trunk_at (o : Out) (q : Nat) : (s.emit o).trunk q = s.trunk q := rfl
@[simp] theorem State.emit_slice_at (o : Out) (q : Nat) : (s.emit o).slice q = s.slice q := rfl
@[simp] theorem State.useFree_port_at (q : Nat) : (s.useFree).port q = s.port q := rfl
@[simp] theorem State.useFree_lane_at (q : Nat) : (s.useFree).lane q = s.lane q := rfl
@[simp] theorem State.useFree_spare_at (q : Nat) : (s.useFree).spare q = s.spare q := rfl
@[simp] theorem State.useFree_clsOf_at (q : Nat) : (s.useFree).clsOf q = s.clsOf q := rfl
@[simp] theorem State.useFree_frame_at (q : Nat) : (s.useFree).frame q = s.frame q := rfl
@[simp] theorem State.useFree_job_at (q : Nat) : (s.useFree).job q = s.job q := rfl
@[simp] theorem State.useFree_rill_at (q : Nat) : (s.useFree).rill q = s.rill q := rfl
@[simp] theorem State.useFree_trunk_at (q : Nat) : (s.useFree).trunk q = s.trunk q := rfl
@[simp] theorem State.useFree_slice_at (q : Nat) : (s.useFree).slice q = s.slice q := rfl
@[simp] theorem State.setPort_lane_at (p : Nat) (x : Port) (q : Nat) : (s.setPort p x).lane q = s.lane q := rfl
@[simp] theorem State.setPort_spare_at (p : Nat) (x : Port) (q : Nat) : (s.setPort p x).spare q = s.spare q := rfl
@[simp] theorem State.setPort_clsOf_at (p : Nat) (x : Port) (q : Nat) : (s.setPort p x).clsOf q = s.clsOf q := rfl
@[simp] theorem State.setPort_frame_at (p : Nat) (x : Port) (q : Nat) : (s.setPort p x).frame q = s.frame q := rfl
@[simp] theorem State.setPort_job_at (p : Nat) (x : Port) (q : Nat) : (s.setPort p x).job q = s.job q := rfl
@[simp] theorem State.setPort_rill_at (p : Nat) (x : Port) (q : Nat) : (s.setPort p x).rill q = s.rill q := rfl
@[simp] theorem State.setPort_trunk_at (p : Nat) (x : Port) (q : Nat) : (s.setPort p x).trunk q = s.trunk q := rfl
@[simp] theorem State.setPort_slice_at (p : Nat) (x : Port) (q : Nat) : (s.setPort p x).slice q = s.slice q := rfl
@[simp] theorem State.setLane_port_at (p : Nat) (x : Lane) (q : Nat) : (s.setLane p x).port q = s.port q := rfl
@[simp] theorem State.setLane_spare_at (p : Nat) (x : Lane) (q : Nat) : (s.setLane p x).spare q = s.spare q := rfl
@[simp] theorem State.setLane_clsOf_at (p : Nat) (x : Lane) (q : Nat) : (s.setLane p x).clsOf q = s.clsOf q := rfl
@[simp] theorem State.setLane_frame_at (p : Nat) (x : Lane) (q : Nat) : (s.setLane p x).frame q = s.frame q := rfl
@[simp] theorem State.setLane_job_at (p : Nat) (x : Lane) (q : Nat) : (s.setLane p x).job q = s.job q := rfl
@[simp] theorem State.setLane_rill_at (p : Nat) (x : Lane) (q : Nat) : (s.setLane p x).rill q = s.rill q := rfl
@[simp] theorem State.setLane_trunk_at (p : Nat) (x : Lane) (q : Nat) : (s.setLane p x).trunk q = s.trunk q := rfl
@[simp] theorem State.setLane_slice_at (p : Nat) (x : Lane) (q : Nat) : (s.setLane p x).slice q = s.slice q := rfl
@[simp] theorem State.setSpare_port_at (p : Nat) (x : Spare) (q : Nat) : (s.setSpare p x).port q = s.port q := rfl
@[simp] theorem State.setSpare_lane_at (p : Nat) (x : Spare) (q : Nat) : (s.setSpare p x).lane q = s.lane q := rfl
@[simp] theorem State.setSpare_clsOf_at (p : Nat) (x : Spare) (q : Nat) : (s.setSpare p x).clsOf q = s.clsOf q := rfl
@[simp] theorem State.setSpare_frame_at (p : Nat) (x : Spare) (q : Nat) : (s.setSpare p x).frame q = s.frame q := rfl
@[simp] theorem State.setSpare_job_at (p : Nat) (x : Spare) (q : Nat) : (s.setSpare p x).job q = s.job q := rfl
@[simp] theorem State.setSpare_rill_at (p : Nat) (x : Spare) (q : Nat) : (s.setSpare p x).rill q = s.rill q := rfl
@[simp] theorem State.setSpare_trunk_at (p : Nat) (x : Spare) (q : Nat) : (s.setSpare p x).trunk q = s.trunk q := rfl
@[simp] theorem State.setSpare_slice_at (p : Nat) (x : Spare) (q : Nat) : (s.setSpare p x).slice q = s.slice q := rfl
@[simp] theorem State.setCls_port_at (p : Nat) (x : Cls) (q : Nat) : (s.setCls p x).port q = s.port q := rfl
@[simp] theorem State.setCls_lane_at (p : Nat) (x : Cls) (q : Nat) : (s.setCls p x).lane q = s.lane q := rfl
@[simp] theorem State.setCls_spare_at (p : Nat) (x : Cls) (q : Nat) : (s.setCls p x).spare q = s.spare q := rfl
@[simp] theorem State.setCls_frame_at (p : Nat) (x : Cls) (q : Nat) : (s.setCls p x).frame q = s.frame q := rfl
@[simp] theorem State.setCls_job_at (p : Nat) (x : Cls) (q : Nat) : (s.setCls p x).job q = s.job q := rfl
@[simp] theorem State.setCls_rill_at (p : Nat) (x : Cls) (q : Nat) : (s.setCls p x).rill q = s.rill q := rfl
@[simp] theorem State.setCls_trunk_at (p : Nat) (x : Cls) (q : Nat) : (s.setCls p x).trunk q = s.trunk q := rfl
@[simp] theorem State.setCls_slice_at (p : Nat) (x : Cls) (q : Nat) : (s.setCls p x).slice q = s.slice q := rfl
@[simp] theorem State.setFrame_port_at (p : Nat) (x : Frame) (q : Nat) : (s.setFrame p x).port q = s.port q := rfl
@[simp] theorem State.setFrame_lane_at (p : Nat) (x : Frame) (q : Nat) : (s.setFrame p x).lane q = s.lane q := rfl
@[simp] theorem State.setFrame_spare_at (p : Nat) (x : Frame) (q : Nat) : (s.setFrame p x).spare q = s.spare q := rfl
@[simp] theorem State.setFrame_clsOf_at (p : Nat) (x : Frame) (q : Nat) : (s.setFrame p x).clsOf q = s.clsOf q := rfl
@[simp] theorem State.setFrame_job_at (p : Nat) (x : Frame) (q : Nat) : (s.setFrame p x).job q = s.job q := rfl
@[simp] theorem State.setFrame_rill_at (p : Nat) (x : Frame) (q : Nat) : (s.setFrame p x).rill q = s.rill q := rfl
@[simp] theorem State.setFrame_trunk_at (p : Nat) (x : Frame) (q : Nat) : (s.setFrame p x).trunk q = s.trunk q := rfl
@[simp] theorem State.setFrame_slice_at (p : Nat) (x : Frame) (q : Nat) : (s.setFrame p x).slice q = s.slice q := rfl
@[simp] theorem State.setJob_port_at (p : Nat) (x : Job) (q : Nat) : (s.setJob p x).port q = s.port q := rfl
@[simp] theorem State.setJob_lane_at (p : Nat) (x : Job) (q : Nat) : (s.setJob p x).lane q = s.lane q := rfl
@[simp] theorem State.setJob_spare_at (p : Nat) (x : Job) (q : Nat) : (s.setJob p x).spare q = s.spare q := rfl
@[simp] theorem State.setJob_clsOf_at (p : Nat) (x : Job) (q : Nat) : (s.setJob p x).clsOf q = s.clsOf q := rfl
@[simp] theorem State.setJob_frame_at (p : Nat) (x : Job) (q : Nat) : (s.setJob p x).frame q = s.frame q := rfl
@[simp] theorem State.setJob_rill_at (p : Nat) (x : Job) (q : Nat) : (s.setJob p x).rill q = s.rill q := rfl
@[simp] theorem State.setJob_trunk_at (p : Nat) (x : Job) (q : Nat) : (s.setJob p x).trunk q = s.trunk q := rfl
@[simp] theorem State.setJob_slice_at (p : Nat) (x : Job) (q : Nat) : (s.setJob p x).slice q = s.slice q := rfl
@[simp] theorem State.setRill_port_at (p : Nat) (x : Rill) (q : Nat) : (s.setRill p x).port q = s.port q := rfl
@[simp] theorem State.setRill_lane_at (p : Nat) (x : Rill) (q : Nat) : (s.setRill p x).lane q = s.lane q := rfl
@[simp] theorem State.setRill_spare_at (p : Nat) (x : Rill) (q : Nat) : (s.setRill p x).spare q = s.spare q := rfl
@[simp] theorem State.setRill_clsOf_at (p : Nat) (x : Rill) (q : Nat) : (s.setRill p x).clsOf q = s.clsOf q := rfl
@[simp] theorem State.setRill_frame_at (p : Nat) (x : Rill) (q : Nat) : (s.setRill p x).frame q = s.frame q := rfl
@[simp] theorem State.setRill_job_at (p : Nat) (x : Rill) (q : Nat) : (s.setRill p x).job q = s.job q := rfl
@[simp] theorem State.setRill_trunk_at (p : Nat) (x : Rill) (q : Nat) : (s.setRill p x).trunk q = s.trunk q := rfl
@[simp] theorem State.setRill_slice_at (p : Nat) (x : Rill) (q : Nat) : (s.setRill p x).slice q = s.slice q := rfl
@[simp] theorem State.setTrunk_port_at (p : Nat) (x : Trunk) (q : Nat) : (s.setTrunk p x).port q = s.port q := rfl
@[simp] theorem State.setTrunk_lane_at (p : Nat) (x : Trunk) (q : Nat) : (s.setTrunk p x).lane q = s.lane q := rfl
@[simp] theorem State.setTrunk_spare_at (p : Nat) (x : Trunk) (q : Nat) : (s.setTrunk p x).spare q = s.spare q := rfl
@[simp] theorem State.setTrunk_clsOf_at (p : Nat) (x : Trunk) (q : Nat) : (s.setTrunk p x).clsOf q = s.clsOf q := rfl
@[simp] theorem State.setTrunk_frame_at (p : Nat) (x : Trunk) (q : Nat) : (s.setTrunk p x).frame q = s.frame q := rfl
@[simp] theorem State.setTrunk_job_at (p : Nat) (x : Trunk) (q : Nat) : (s.setTrunk p x).job q = s.job q := rfl
@[simp] theorem State.setTrunk_rill_at (p : Nat) (x : Trunk) (q : Nat) : (s.setTrunk p x).rill q = s.rill q := rfl
@[simp] theorem State.setTrunk_slice_at (p : Nat) (x : Trunk) (q : Nat) : (s.setTrunk p x).slice q = s.slice q := rfl
@[simp] theorem State.setSlice_port_at (p : Nat) (x : HostSlice) (q : Nat) : (s.setSlice p x).port q = s.port q := rfl
@[simp] theorem State.setSlice_lane_at (p : Nat) (x : HostSlice) (q : Nat) : (s.setSlice p x).lane q = s.lane q := rfl
@[simp] theorem State.setSlice_spare_at (p : Nat) (x : HostSlice) (q : Nat) : (s.setSlice p x).spare q = s.spare q := rfl
@[simp] theorem State.setSlice_clsOf_at (p : Nat) (x : HostSlice) (q : Nat) : (s.setSlice p x).clsOf q = s.clsOf q := rfl
@[simp] theorem State.setSlice_frame_at (p : Nat) (x : HostSlice) (q : Nat) : (s.setSlice p x).frame q = s.frame q := rfl
@[simp] theorem State.setSlice_job_at (p : Nat) (x : HostSlice) (q : Nat) : (s.setSlice p x).job q = s.job q := rfl
@[simp] theorem State.setSlice_rill_at (p : Nat) (x : HostSlice) (q : Nat) : (s.setSlice p x).rill q = s.rill q := rfl
@[simp] theorem State.setSlice_trunk_at (p : Nat) (x : HostSlice) (q : Nat) : (s.setSlice p x).trunk q = s.trunk q := rfl

end Sys2Proof.Machine
end

