-- ==== Sys2Proof/Laws/Ops.lean ====
section
/-! SUPPORT. What reading a register, a field or a unit answers after the shared operations; and everything a register access, an
alarm, a counter, a status write and a diagnosis can do. -/

namespace Sys2Proof.Machine

/-! ### Byte strings -/

@[simp] theorem slice_length (l : List Byte) (o n : Nat) : (slice l o n).length = n := by
  unfold slice; simp

@[simp] theorem xorBytes_length (a b : List Byte) : (xorBytes a b).length = min a.length b.length := by simp [xorBytes]

/-- AES answers 16 bytes, whatever its key. -/
@[simp] theorem aes_length (key block : List Byte) : (aes key block).length = 16 := by simp [aes, aesShift]

/-! ### Words and fields -/

theorem Fld.mask_bit (f : Fld) (i : Nat) : f.mask.getLsbD i = (decide (i < 32) && (decide (f.lo ≤ i) && decide (i - f.lo < f.len))) := by
  simp [Fld.mask, BitVec.getLsbD_ofNat, Nat.testBit_mul_two_pow, Nat.testBit_two_pow_sub_one]

/-- The bits of a word with a field given a value: inside the field the value's, outside the word's. -/
theorem Fld.put_bit (f : Fld) (w : Word) (v i : Nat) : (f.put w v).getLsbD i =
    if f.lo ≤ i ∧ i < f.lo + f.len then decide (i < 32) && v.testBit (i - f.lo) else w.getLsbD i := by
  have hw : 32 ≤ i → w.getLsbD i = false := fun h => BitVec.getLsbD_of_ge _ _ h
  simp only [Fld.put, BitVec.getLsbD_or, BitVec.getLsbD_and, BitVec.getLsbD_not, Fld.mask_bit, BitVec.getLsbD_ofNat,
    Nat.testBit_mul_two_pow, Nat.testBit_mod_two_pow]
  by_cases h1 : f.lo ≤ i
  · have h4 : (i - f.lo < f.len) ↔ (i < f.lo + f.len) := by omega
    by_cases h2 : i < f.lo + f.len <;> by_cases h3 : i < 32 <;> simp [h1, h2, h3, h4]
    exact hw (by omega)
  · by_cases h3 : i < 32 <;> simp [h1, h3]
    exact hw (by omega)

theorem Fld.get_eq (f : Fld) (w : Word) : f.get w = (w.extractLsb' f.lo f.len).toNat := by
  simp [Fld.get, BitVec.extractLsb'_toNat, Nat.shiftRight_eq_div_pow]

/-- A field reads as the value it was given, cut to its width. -/
@[simp] theorem Fld.get_put_same (f : Fld) (w : Word) (v : Nat) (h : f.lo + f.len ≤ 32 := by decide) :
    f.get (f.put w v) = v % 2 ^ f.len := by
  rw [Fld.get_eq]
  apply Nat.eq_of_testBit_eq
  intro i
  rw [BitVec.testBit_toNat, BitVec.getLsbD_extractLsb', Fld.put_bit, Nat.testBit_mod_two_pow]
  by_cases hi : i < f.len
  · have : f.lo + i < 32 := by omega
    simp [hi, this]
  · simp [hi]

/-- A write of one field leaves a field of other bits alone. -/
theorem Fld.get_put_other (f g : Fld) (w : Word) (v : Nat) (h : g.lo + g.len ≤ f.lo ∨ f.lo + f.len ≤ g.lo) :
    g.get (f.put w v) = g.get w := by
  rw [Fld.get_eq, Fld.get_eq]
  apply Nat.eq_of_testBit_eq
  intro i
  rw [BitVec.testBit_toNat, BitVec.testBit_toNat, BitVec.getLsbD_extractLsb', BitVec.getLsbD_extractLsb', Fld.put_bit]
  by_cases hi : i < g.len
  · have : ¬ (f.lo ≤ g.lo + i ∧ g.lo + i < f.lo + f.len) := by omega
    simp [hi, this]
  · simp [hi]

/-! ### Registers -/

/-- A register reads as it was written, and every other register as before. -/
theorem State.reg_setReg (s : State) (a b : Nat) (v : Word) : (s.setReg a v).reg b = if b = a then v else s.reg b := by
  unfold State.reg
  by_cases h : b = a
  · subst h; simp
  · simp [h, kget_kset_other]

@[simp] theorem State.reg_setReg_same (s : State) (a : Nat) (v : Word) : (s.setReg a v).reg a = v := by simp [State.reg_setReg]

theorem State.reg_setReg_other (s : State) {a b : Nat} (v : Word) (h : b ≠ a) : (s.setReg a v).reg b = s.reg b := by
  simp [State.reg_setReg, h]

/-- A write of a field changes no other register. -/
theorem State.reg_setFld_other (s : State) {a b : Nat} (f : Fld) (v : Nat) (h : b ≠ a) : (s.setFld a f v).reg b = s.reg b :=
  s.reg_setReg_other _ h

theorem State.reg_setFld_same (s : State) (a : Nat) (f : Fld) (v : Nat) : (s.setFld a f v).reg a = f.put (s.reg a) v :=
  s.reg_setReg_same _ _

@[simp] theorem State.fld_setFld_same (s : State) (a : Nat) (f : Fld) (v : Nat) (h : f.lo + f.len ≤ 32 := by decide) :
    (s.setFld a f v).fld a f = v % 2 ^ f.len := by
  unfold State.fld; rw [State.reg_setFld_same, Fld.get_put_same f _ _ h]

theorem State.fld_setFld_field (s : State) (a : Nat) (f g : Fld) (v : Nat) (h : g.lo + g.len ≤ f.lo ∨ f.lo + f.len ≤ g.lo) :
    (s.setFld a f v).fld a g = s.fld a g := by
  unfold State.fld; rw [State.reg_setFld_same, Fld.get_put_other f g _ _ h]

theorem State.fld_setFld_reg (s : State) {a b : Nat} (f g : Fld) (v : Nat) (h : b ≠ a) : (s.setFld a f v).fld b g = s.fld b g := by
  unfold State.fld; rw [State.reg_setFld_other _ _ _ h]

theorem State.fld_setReg_reg (s : State) {a b : Nat} (g : Fld) (v : Word) (h : b ≠ a) : (s.setReg a v).fld b g = s.fld b g := by
  unfold State.fld; rw [State.reg_setReg_other _ _ h]

/-- Registers are all that a register read looks at. -/
theorem State.reg_congr {s t : State} (h : t.regs = s.regs) (a : Nat) : t.reg a = s.reg a := by unfold State.reg; rw [h]

theorem State.fld_congr {s t : State} (h : t.regs = s.regs) (a : Nat) (f : Fld) : t.fld a f = s.fld a f := by
  unfold State.fld; rw [State.reg_congr h]

@[simp] theorem State.reg_emit (s : State) (o : Out) (a : Nat) : (s.emit o).reg a = s.reg a := rfl
@[simp] theorem State.reg_useFree (s : State) (a : Nat) : s.useFree.reg a = s.reg a := rfl
@[simp] theorem State.reg_setPort (s : State) (p : Nat) (x : Port) (a : Nat) : (s.setPort p x).reg a = s.reg a := rfl
@[simp] theorem State.reg_setLane (s : State) (p : Nat) (x : Lane) (a : Nat) : (s.setLane p x).reg a = s.reg a := rfl
@[simp] theorem State.reg_setSpare (s : State) (p : Nat) (x : Spare) (a : Nat) : (s.setSpare p x).reg a = s.reg a := rfl
@[simp] theorem State.reg_setCls (s : State) (p : Nat) (x : Cls) (a : Nat) : (s.setCls p x).reg a = s.reg a := rfl
@[simp] theorem State.reg_setFrame (s : State) (p : Nat) (x : Frame) (a : Nat) : (s.setFrame p x).reg a = s.reg a := rfl
@[simp] theorem State.reg_setJob (s : State) (p : Nat) (x : Job) (a : Nat) : (s.setJob p x).reg a = s.reg a := rfl
@[simp] theorem State.reg_setRill (s : State) (p : Nat) (x : Rill) (a : Nat) : (s.setRill p x).reg a = s.reg a := rfl
@[simp] theorem State.reg_setTrunk (s : State) (p : Nat) (x : Trunk) (a : Nat) : (s.setTrunk p x).reg a = s.reg a := rfl
@[simp] theorem State.reg_setSlice (s : State) (p : Nat) (x : HostSlice) (a : Nat) : (s.setSlice p x).reg a = s.reg a := rfl

@[simp] theorem State.fld_emit (s : State) (o : Out) (a : Nat) (f : Fld) : (s.emit o).fld a f = s.fld a f := rfl
@[simp] theorem State.fld_useFree (s : State) (a : Nat) (f : Fld) : s.useFree.fld a f = s.fld a f := rfl
@[simp] theorem State.fld_setPort (s : State) (p : Nat) (x : Port) (a : Nat) (f : Fld) : (s.setPort p x).fld a f = s.fld a f := rfl
@[simp] theorem State.fld_setLane (s : State) (p : Nat) (x : Lane) (a : Nat) (f : Fld) : (s.setLane p x).fld a f = s.fld a f := rfl
@[simp] theorem State.fld_setSpare (s : State) (p : Nat) (x : Spare) (a : Nat) (f : Fld) : (s.setSpare p x).fld a f = s.fld a f := rfl
@[simp] theorem State.fld_setCls (s : State) (p : Nat) (x : Cls) (a : Nat) (f : Fld) : (s.setCls p x).fld a f = s.fld a f := rfl
@[simp] theorem State.fld_setFrame (s : State) (p : Nat) (x : Frame) (a : Nat) (f : Fld) : (s.setFrame p x).fld a f = s.fld a f := rfl
@[simp] theorem State.fld_setJob (s : State) (p : Nat) (x : Job) (a : Nat) (f : Fld) : (s.setJob p x).fld a f = s.fld a f := rfl
@[simp] theorem State.fld_setRill (s : State) (p : Nat) (x : Rill) (a : Nat) (f : Fld) : (s.setRill p x).fld a f = s.fld a f := rfl
@[simp] theorem State.fld_setTrunk (s : State) (p : Nat) (x : Trunk) (a : Nat) (f : Fld) : (s.setTrunk p x).fld a f = s.fld a f := rfl
@[simp] theorem State.fld_setSlice (s : State) (p : Nat) (x : HostSlice) (a : Nat) (f : Fld) : (s.setSlice p x).fld a f = s.fld a f := rfl

/-! ### Units by number -/

theorem State.port_setPort (s : State) (p q : Nat) (x : Port) : (s.setPort p x).port q = if q = p then x else s.port q := kget_kset _ _ _ _ _
theorem State.lane_setLane (s : State) (p q : Nat) (x : Lane) : (s.setLane p x).lane q = if q = p then x else s.lane q := kget_kset _ _ _ _ _
theorem State.spare_setSpare (s : State) (p q : Nat) (x : Spare) : (s.setSpare p x).spare q = if q = p then x else s.spare q := kget_kset _ _ _ _ _
theorem State.clsOf_setCls (s : State) (p q : Nat) (x : Cls) : (s.setCls p x).clsOf q = if q = p then x else s.clsOf q := kget_kset _ _ _ _ _
theorem State.frame_setFrame (s : State) (p q : Nat) (x : Frame) : (s.setFrame p x).frame q = if q = p then x else s.frame q := kget_kset _ _ _ _ _
theorem State.job_setJob (s : State) (p q : Nat) (x : Job) : (s.setJob p x).job q = if q = p then x else s.job q := kget_kset _ _ _ _ _
theorem State.rill_setRill (s : State) (p q : Nat) (x : Rill) : (s.setRill p x).rill q = if q = p then x else s.rill q := kget_kset _ _ _ _ _
theorem State.trunk_setTrunk (s : State) (p q : Nat) (x : Trunk) : (s.setTrunk p x).trunk q = if q = p then x else s.trunk q := kget_kset _ _ _ _ _
theorem State.slice_setSlice (s : State) (p q : Nat) (x : HostSlice) : (s.setSlice p x).slice q = if q = p then x else s.slice q := kget_kset _ _ _ _ _

/-! ### Accesses, alarms and counters -/

/-- An access of a block that is served acts; one of a block that is not sets GLB_ERR.STATE, and DENIED in its status where it commands;
one that does not reach the register path does nothing. -/
theorem State.access_served {s : State} {a : Nat} {k : State → State} (hr : s.reachable = true) (hs : s.serves (blockOf a) = true) :
    s.access a k = k s := by simp [State.access, hr, hs]

theorem State.access_unserved {s : State} {a : Nat} {k : State → State} (hr : s.reachable = true) (hs : s.serves (blockOf a) = false) :
    s.access a k = s.deny a := by simp [State.access, hr, hs]

theorem State.accessWrite_served {s : State} {a : Nat} {k : State → State} (hr : s.reachable = true) (hs : s.serves (blockOf a) = true) :
    s.accessWrite a k = k s := by simp [State.accessWrite, hr, hs]

theorem State.accessWrite_unserved {s : State} {a : Nat} {k : State → State} (hr : s.reachable = true) (hs : s.serves (blockOf a) = false) :
    s.accessWrite a k = s.raiseErr F.GLB_ERR_STATE a := by simp [State.accessWrite, hr, hs]

theorem State.access_unreachable {s : State} {a : Nat} {k : State → State} (hr : s.reachable = false) : s.access a k = s := by
  simp [State.access, hr]

/-- An interrupt writes the pending word of a masked vector or puts one message in the log, and nothing else. -/
theorem State.interrupt_cases (s : State) (fn : Fn) (v : Nat) :
    s.interrupt fn v = s.setFld (msixPba fn) ⟨v, 1⟩ 1 ∨ s.interrupt fn v = s.emit (.msix fn v) := by
  unfold State.interrupt; split
  · exact .inl rfl
  · exact .inr rfl

/-- An interrupt changes no register but the pending word of its function. -/
theorem State.reg_interrupt_other (s : State) (fn : Fn) (v : Nat) {a : Nat} (h : a ≠ msixPba fn) : (s.interrupt fn v).reg a = s.reg a := by
  rcases s.interrupt_cases fn v with e | e <;> rw [e]
  · exact s.reg_setFld_other _ _ h
  · rfl

/-- An interrupt changes registers and the log alone. -/
theorem State.interrupt_frame (s : State) (fn : Fn) (v : Nat) :
    s.interrupt fn v = { s with regs := (s.interrupt fn v).regs, out := (s.interrupt fn v).out } := by
  rcases s.interrupt_cases fn v with e | e <;> rw [e] <;> rfl

/-- An alarm changes registers and the log alone. -/
theorem State.alarm_frame (s : State) (a : Nat) (f : Fld) :
    s.alarm a f = { s with regs := (s.alarm a f).regs, out := (s.alarm a f).out } := by
  unfold State.alarm; split
  · rfl
  · conv_lhs => rw [State.interrupt_frame]
    rfl

/-- An alarm changes no register but its own and the pending word of the physical function. -/
theorem State.reg_alarm_other (s : State) {a b : Nat} (f : Fld) (h : b ≠ a) (hp : b ≠ msixPba .pf) : (s.alarm a f).reg b = s.reg b := by
  unfold State.alarm; split
  · rfl
  · rw [State.reg_interrupt_other _ _ _ hp, State.reg_setFld_other _ _ _ h]

/-- An alarm leaves its bit at 1. -/
theorem State.alarm_flag (s : State) (a : Nat) (f : Fld) (h : f.len = 1) (hl : f.lo + f.len ≤ 32) (hp : a ≠ msixPba .pf) :
    (s.alarm a f).flag a f = true := by
  unfold State.alarm; split
  · assumption
  · unfold State.flag State.fld
    rw [State.reg_interrupt_other _ _ _ hp]
    have := State.fld_setFld_same s a f 1 hl
    unfold State.fld at this
    rw [this, h]; rfl

theorem State.addArms_frame (s : State) (i n k : Nat) : s.addArms i n k = { s with armed := (s.addArms i n k).armed } := by
  induction k with
  | zero => rfl
  | succ k ih =>
    unfold State.addArms
    dsimp only
    split
    · conv_lhs => rw [ih]
    · conv_lhs => rw [ih]

theorem addLegacy_fold_frame (l : List Nat) (n : Nat) (s : State) : l.foldl (fun t i => t.addLegacy n i) s =
    { s with legacy := (l.foldl (fun t i => t.addLegacy n i) s).legacy, legacyWraps := (l.foldl (fun t i => t.addLegacy n i) s).legacyWraps } := by
  induction l generalizing s with
  | nil => rfl
  | cons a l ih =>
    rw [List.foldl_cons]
    conv_lhs => rw [ih]
    rfl

/-- Counting changes counters alone: the native ones, the legacy ones and what the arms have counted. -/
theorem State.countN_frame (s : State) (c : Ctr) (n : Nat) : s.countN c n =
    { s with counters := (s.countN c n).counters, wraps := (s.countN c n).wraps, armed := (s.countN c n).armed,
             legacy := (s.countN c n).legacy, legacyWraps := (s.countN c n).legacyWraps } := by
  unfold State.countN
  dsimp only
  conv_lhs => rw [addLegacy_fold_frame, State.addArms_frame]
  conv_rhs => rw [addLegacy_fold_frame, State.addArms_frame]
  rfl

theorem State.count_frame (s : State) (c : Ctr) : s.count c =
    { s with counters := (s.count c).counters, wraps := (s.count c).wraps, armed := (s.count c).armed,
             legacy := (s.count c).legacy, legacyWraps := (s.count c).legacyWraps } := State.countN_frame s c 1

@[simp] theorem State.regs_count (s : State) (c : Ctr) : (s.count c).regs = s.regs := by rw [State.count_frame]
@[simp] theorem State.reg_count (s : State) (c : Ctr) (a : Nat) : (s.count c).reg a = s.reg a := State.reg_congr (by simp) a

/-- A counter that counts one event has advanced by one, modulo 2^64, and no other native counter has moved. -/
theorem State.count_counters (s : State) (c : Ctr) (i : Nat) : kget 0 (s.count c).counters i =
    if i = c.index then (kget 0 s.counters i + 1) % 2 ^ 64 else kget 0 s.counters i := by
  have : (s.count c).counters = kset 0 s.counters c.index ((kget 0 s.counters c.index + 1) % 2 ^ 64) := by
    unfold State.count State.countN
    dsimp only
    rw [addLegacy_fold_frame, State.addArms_frame]; rfl
  rw [this, kget_kset]; split
  · rename_i h; rw [h]
  · rfl

/-! ### What a diagnosis can change -/

/-- `t` is `s` but for what sending on the link, an alarm and the pair's own record change. -/
def LinkOnly (s t : State) : Prop :=
  t = { s with regs := t.regs, out := t.out, pair := t.pair, freeCtr := t.freeCtr, counters := t.counters, wraps := t.wraps,
               armed := t.armed, legacy := t.legacy, legacyWraps := t.legacyWraps }

theorem LinkOnly.refl (s : State) : LinkOnly s s := rfl

theorem LinkOnly.trans {s t u : State} (h : LinkOnly s t) (g : LinkOnly t u) : LinkOnly s u := by
  unfold LinkOnly at *; rw [g, h]

theorem LinkOnly.alarm (s : State) (a : Nat) (f : Fld) : LinkOnly s (s.alarm a f) := by unfold LinkOnly; rw [State.alarm_frame]

theorem LinkOnly.count (s : State) (c : Ctr) : LinkOnly s (s.count c) := by unfold LinkOnly; rw [State.count_frame]

theorem LinkOnly.pair (s : State) (p : Pair) : LinkOnly s { s with pair := p } := rfl

theorem LinkOnly.emit (s : State) (o : Out) : LinkOnly s (s.emit o) := rfl

theorem LinkOnly.sendLink (s : State) (f : List Byte) : LinkOnly s (sendLink s f) := rfl

theorem LinkOnly.pumpFrames (n : Nat) : ∀ s, LinkOnly s (pumpFrames s n) := by
  induction n with
  | zero => exact fun _ => rfl
  | succ n ih =>
    intro s; unfold Machine.pumpFrames; split
    · exact (LinkOnly.trans (t := sendFrame s) (by exact LinkOnly.sendLink { s with pair := _ } _) (ih _))
    · rfl

theorem LinkOnly.pump (s : State) : LinkOnly s (pump s) := by
  unfold Machine.pump; split
  · exact LinkOnly.pumpFrames _ _
  · rfl

theorem LinkOnly.sendUrgent (s : State) (r : List Byte) : LinkOnly s (sendUrgent s r) := by
  unfold Machine.sendUrgent; split
  · exact ((LinkOnly.pair s _).trans (LinkOnly.count _ _)).trans (LinkOnly.pump _)
  · rfl

theorem LinkOnly.startGiveUp (s : State) (c : Nat) : LinkOnly s (startGiveUp s c) :=
  LinkOnly.trans (t := (s.modPair _).emit .handover) rfl (LinkOnly.sendUrgent _ _)

theorem LinkOnly.tryGiveUp (s : State) (c : Nat) : LinkOnly s (tryGiveUp s c).1 := by
  unfold Machine.tryGiveUp; split
  · rfl
  · split
    · exact LinkOnly.startGiveUp _ _
    · exact LinkOnly.alarm _ _ _

theorem LinkOnly.addFault (s : State) (n : Nat) : LinkOnly s (addFault s n) := by
  unfold Machine.addFault
  extract_lets a p t
  have h : LinkOnly s t := by
    dsimp only [t]; split
    · rfl
    · exact (LinkOnly.alarm s _ _).trans (LinkOnly.pair _ _)
  split
  · exact h.trans (LinkOnly.pair _ _)
  · exact h

theorem LinkOnly.becomeReady (s : State) : LinkOnly s (becomeReady s) := by unfold Machine.becomeReady; split <;> rfl

/-- A diagnosis changes the link, the alarms and the pair's own record alone (R443). -/
theorem LinkOnly.diagnose (s : State) (n : Nat) (b : Bool) : LinkOnly s (diagnose s n b) := by
  unfold Machine.diagnose; split
  · rfl
  · split
    · dsimp only; split
      · exact (LinkOnly.addFault _ _).trans (LinkOnly.tryGiveUp _ _)
      · exact LinkOnly.addFault _ _
    · exact LinkOnly.trans (t := s.modPair _) rfl (LinkOnly.becomeReady _)

end Sys2Proof.Machine
end

