-- ==== Sys2Proof/Laws/Steady.lean ====
section
/-! SUPPORT. What no operation of the block disturbs: the queue of waiting commands, the canonical form of the register map,
and the epoch, which never goes down. One law for each operation on the state, in the order of the model's files. -/

namespace Sys2Proof.Machine

/-- State `s`, reached from `z` inside a command, has the same queue, a register map still canonical, and no lower epoch. -/
structure Steady (z s : State) : Prop where
  queue : s.pending = z.pending
  canon : RegsWf z → RegsWf s
  epoch : z.epoch ≤ s.epoch

/-- The same of an answer. -/
structure SteadyRes (z : State) (r : Res) : Prop where
  of : ∀ t, r = .next t → Steady z t

/-- The same of an optional state. -/
structure SteadyOpt (z : State) (o : Option State) : Prop where
  at_some : ∀ t, o = some t → Steady z t

theorem Steady.refl (z : State) : Steady z z := ⟨rfl, id, le_rfl⟩

theorem Steady.trans {x y z : State} (a : Steady x y) (b : Steady y z) : Steady x z :=
  ⟨b.queue.trans a.queue, fun h => b.canon (a.canon h), le_trans a.epoch b.epoch⟩

theorem epoch_congr {s t : State} (h : t.fuses = s.fuses) : t.epoch = s.epoch := by unfold State.epoch; rw [h]

/-- `Steady` as a property of the three fields it reads. -/
structure SteadyCore (z : State) (q : List Instr) (r : KMap Word) (f : Fuses) : Prop where
  of : ∀ s : State, s.pending = q → s.regs = r → s.fuses = f → Steady z s

theorem Steady.core {z s : State} (h : SteadyCore z s.pending s.regs s.fuses) : Steady z s := h.of s rfl rfl rfl

/-- A change of other fields. -/
theorem SteadyCore.same {z s : State} (h : Steady z s) : SteadyCore z s.pending s.regs s.fuses := by
  refine ⟨fun t hq hr hf => ⟨hq.trans h.queue, fun w => ?_, ?_⟩⟩
  · have := h.canon w; unfold RegsWf at *; rw [hr]; exact this
  · rw [epoch_congr hf]; exact h.epoch

theorem epoch_congr_blown {s t : State} (h : t.fuses.blown = s.fuses.blown) : t.epoch = s.epoch := by unfold State.epoch; rw [h]

/-- A change of the fuses' other fields. -/
theorem SteadyCore.fuses {z s : State} {f : Fuses} (h : Steady z s) (hb : f.blown = s.fuses.blown) : SteadyCore z s.pending s.regs f :=
  ⟨fun t hq hr hf => ⟨hq.trans h.queue, fun w => by have := h.canon w; unfold RegsWf at *; rw [hr]; exact this,
    le_trans h.epoch (le_of_eq (epoch_congr_blown (by rw [hf, hb])).symm)⟩⟩

/-- A change of the register map that keeps its form. -/
theorem SteadyCore.regs {z s : State} {r : KMap Word} (h : Steady z s) (hr : RegsWf s → kwf resetVal r = true) :
    SteadyCore z s.pending r s.fuses :=
  ⟨fun t hq he hf => ⟨hq.trans h.queue, fun w => by unfold RegsWf; rw [he]; exact hr (h.canon w), by rw [epoch_congr hf]; exact h.epoch⟩⟩

/-- A register map built by writes alone is canonical. -/
theorem foldl_kset_wf {l : List Nat} {f : Nat → Word} {m : KMap Word} (h : kwf resetVal m = true) :
    kwf resetVal (l.foldl (fun (m : KMap Word) a => kset (resetVal a) m a (f a)) m) = true := by
  induction l generalizing m with
  | nil => exact h
  | cons a l ih => exact ih (kset_wf resetVal a (f a) h)

theorem Steady.ite {z a b : State} {c : Prop} [Decidable c] (x : Steady z a) (y : Steady z b) : Steady z (if c then a else b) := by
  split <;> assumption

theorem Steady.ite1 {α : Type} {z : State} {a b : State × α} {c : Prop} [Decidable c] (x : Steady z a.1) (y : Steady z b.1) :
    Steady z (if c then a else b).1 := by split <;> assumption

theorem Steady.ite2 {α : Type} {z : State} {a b : α × State} {c : Prop} [Decidable c] (x : Steady z a.2) (y : Steady z b.2) :
    Steady z (if c then a else b).2 := by split <;> assumption

theorem SteadyRes.ite {z : State} {a b : Res} {c : Prop} [Decidable c] (x : SteadyRes z a) (y : SteadyRes z b) :
    SteadyRes z (if c then a else b) := by split <;> assumption

theorem SteadyRes.next {z s : State} (h : Steady z s) : SteadyRes z (.next s) := ⟨by rintro t ⟨⟩; exact h⟩

theorem SteadyOpt.ite {z : State} {a b : Option State} {c : Prop} [Decidable c] (x : SteadyOpt z a) (y : SteadyOpt z b) :
    SteadyOpt z (if c then a else b) := by split <;> assumption

theorem SteadyOpt.some {z s : State} (h : Steady z s) : SteadyOpt z (some s) := ⟨by rintro t ⟨⟩; exact h⟩

theorem SteadyOpt.none {z : State} : SteadyOpt z none := ⟨by rintro t ⟨⟩⟩

theorem Steady.fst {α : Type} {z t : State} {p : State × α} {a : α} (h : Steady z p.1) (e : p = (t, a)) : Steady z t := by subst e; exact h

theorem Steady.snd {α : Type} {z t : State} {p : α × State} {a : α} (h : Steady z p.2) (e : p = (a, t)) : Steady z t := by subst e; exact h

theorem Steady.third {α β : Type} {z t : State} {p : α × β × State} {a : α} {b : β} (h : Steady z p.2.2) (e : p = (a, b, t)) :
    Steady z t := by subst e; exact h

theorem Steady.mid {α β : Type} {z t : State} {p : α × State × β} {a : α} {b : β} (h : Steady z p.2.1) (e : p = (a, t, b)) :
    Steady z t := by subst e; exact h

theorem SteadyOpt.of {z t : State} {o : Option State} (h : SteadyOpt z o) (e : o = Option.some t) : Steady z t := h.at_some t e

theorem Steady.getD {z s : State} {o : Option State} (h : SteadyOpt z o) (k : Steady z s) : Steady z (o.getD s) := by
  cases o with
  | none => exact k
  | some t => exact h.at_some t rfl

theorem Steady.foldl {α : Type} {z : State} {f : State → α → State} {l : List α} {s : State}
    (hf : ∀ x a, Steady z x → Steady z (f x a)) (h : Steady z s) : Steady z (l.foldl f s) := by
  induction l generalizing s with
  | nil => exact h
  | cons a l ih => exact ih (hf s a h)

theorem Steady.foldr {α : Type} {z : State} {f : α → State → State} {l : List α} {s : State}
    (hf : ∀ x a, Steady z x → Steady z (f a x)) (h : Steady z s) : Steady z (l.foldr f s) := by
  induction l with
  | nil => exact h
  | cons a l ih => exact hf _ a ih

theorem Steady.foldl1 {α β : Type} {z : State} {f : State × β → α → State × β} {l : List α} {s : State × β}
    (hf : ∀ x a, Steady z x.1 → Steady z (f x a).1) (h : Steady z s.1) : Steady z (l.foldl f s).1 := by
  induction l generalizing s with
  | nil => exact h
  | cons a l ih => exact ih (hf s a h)

theorem Steady.foldl2 {α β : Type} {z : State} {f : β × State → α → β × State} {l : List α} {s : β × State}
    (hf : ∀ x a, Steady z x.2 → Steady z (f x a).2) (h : Steady z s.2) : Steady z (l.foldl f s).2 := by
  induction l generalizing s with
  | nil => exact h
  | cons a l ih => exact ih (hf s a h)

theorem State.setReg_steady {z s : State} (h : Steady z s) (a : Nat) (v : Word) : Steady z (s.setReg a v) :=
  ⟨h.queue, fun w => kset_wf resetVal a v (h.canon w), h.epoch⟩

end Sys2Proof.Machine
end

