-- ==== Sys2Proof/Laws/SteadyOps.lean ====
section
/-! SUPPORT. What the shared operations, and the link to the partner leave alone: the queue, the canonical register map, the epoch's floor. -/

namespace Sys2Proof.Machine

theorem State.setFld_steady {z s : State} (h : Steady z s) (x1 x2 x3) : Steady z (State.setFld s x1 x2 x3) := by
  unfold State.setFld
  with_reducible repeat' first
    | exact h | assumption | apply State.setReg_steady

theorem State.setReg64_steady {z s : State} (h : Steady z s) (x1 x2 x3) : Steady z (State.setReg64 s x1 x2 x3) := by
  unfold State.setReg64
  with_reducible repeat' first
    | exact h | assumption | apply State.setReg_steady

theorem State.setWin_steady {z s : State} (h : Steady z s) (a l n) : Steady z (State.setWin s a l n) := by
  induction n generalizing s a l with
  | zero => exact h
  | succ n ih => exact ih (State.setReg_steady h _ _) _ _

theorem State.setPort_steady {z s : State} (h : Steady z s) (x1 x2) : Steady z (State.setPort s x1 x2) := by
  unfold State.setPort
  with_reducible repeat' first
    | exact h | assumption | apply Steady.ite | (apply Steady.core; dsimp only; apply SteadyCore.same)

theorem State.setLane_steady {z s : State} (h : Steady z s) (x1 x2) : Steady z (State.setLane s x1 x2) := by
  unfold State.setLane
  with_reducible repeat' first
    | exact h | assumption | apply Steady.ite | (apply Steady.core; dsimp only; apply SteadyCore.same)

theorem State.setSpare_steady {z s : State} (h : Steady z s) (x1 x2) : Steady z (State.setSpare s x1 x2) := by
  unfold State.setSpare
  with_reducible repeat' first
    | exact h | assumption | apply Steady.ite | (apply Steady.core; dsimp only; apply SteadyCore.same)

theorem State.setCls_steady {z s : State} (h : Steady z s) (x1 x2) : Steady z (State.setCls s x1 x2) := by
  unfold State.setCls
  with_reducible repeat' first
    | exact h | assumption | apply Steady.ite | (apply Steady.core; dsimp only; apply SteadyCore.same)

theorem State.setFrame_steady {z s : State} (h : Steady z s) (x1 x2) : Steady z (State.setFrame s x1 x2) := by
  unfold State.setFrame
  with_reducible repeat' first
    | exact h | assumption | apply Steady.ite | (apply Steady.core; dsimp only; apply SteadyCore.same)

theorem State.setJob_steady {z s : State} (h : Steady z s) (x1 x2) : Steady z (State.setJob s x1 x2) := by
  unfold State.setJob
  with_reducible repeat' first
    | exact h | assumption | apply Steady.ite | (apply Steady.core; dsimp only; apply SteadyCore.same)

theorem State.setRill_steady {z s : State} (h : Steady z s) (x1 x2) : Steady z (State.setRill s x1 x2) := by
  unfold State.setRill
  with_reducible repeat' first
    | exact h | assumption | apply Steady.ite | (apply Steady.core; dsimp only; apply SteadyCore.same)

theorem State.setAssoc_steady {z s : State} (h : Steady z s) (x1 x2 x3) : Steady z (State.setAssoc s x1 x2 x3) := by
  unfold State.setAssoc
  with_reducible repeat' first
    | exact h | assumption | apply Steady.ite | (apply Steady.core; dsimp only; apply SteadyCore.same)

theorem State.free_steady {z s : State} (h : Steady z s) (x1) : Steady z (State.free s x1).2 := by
  unfold State.free; dsimp only
  with_reducible repeat' first
    | exact h | assumption | apply Steady.ite | apply Steady.ite2 | (apply Steady.core; dsimp only; apply SteadyCore.same)

theorem State.useFree_steady {z s : State} (h : Steady z s) : Steady z (State.useFree s) := by
  unfold State.useFree
  with_reducible repeat' first
    | exact h | assumption | apply Steady.ite | (apply Steady.core; dsimp only; apply SteadyCore.same)

theorem State.emit_steady {z s : State} (h : Steady z s) (x1) : Steady z (State.emit s x1) := by
  unfold State.emit
  with_reducible repeat' first
    | exact h | assumption | apply Steady.ite | (apply Steady.core; dsimp only; apply SteadyCore.same)

theorem State.interrupt_steady {z s : State} (h : Steady z s) (x1 x2) : Steady z (State.interrupt s x1 x2) := by
  unfold State.interrupt
  with_reducible repeat' first
    | exact h | assumption | apply State.setFld_steady | apply State.emit_steady | apply Steady.ite

theorem State.alarm_steady {z s : State} (h : Steady z s) (x1 x2) : Steady z (State.alarm s x1 x2) := by
  unfold State.alarm
  with_reducible repeat' first
    | exact h | assumption | apply State.interrupt_steady | apply State.setFld_steady | apply Steady.ite

theorem State.raiseErr_steady {z s : State} (h : Steady z s) (x1 x2) : Steady z (State.raiseErr s x1 x2) := by
  unfold State.raiseErr
  with_reducible repeat' first
    | exact h | assumption | apply State.setFld_steady | apply Steady.ite

theorem State.addNative_steady {z s : State} (h : Steady z s) (x1 x2) : Steady z (State.addNative s x1 x2) := by
  unfold State.addNative; dsimp only
  with_reducible repeat' first
    | exact h | assumption | apply Steady.ite | (apply Steady.core; dsimp only; apply SteadyCore.same)

theorem State.addLegacy_steady {z s : State} (h : Steady z s) (x1 x2) : Steady z (State.addLegacy s x1 x2) := by
  unfold State.addLegacy; dsimp only
  with_reducible repeat' first
    | exact h | assumption | apply Steady.ite | (apply Steady.core; dsimp only; apply SteadyCore.same)

theorem State.addArms_steady {z s : State} (h : Steady z s) (i n k) : Steady z (State.addArms s i n k) := by
  induction k with
  | zero => exact h
  | succ k ih =>
    unfold State.addArms; dsimp only
    refine Steady.ite (Steady.core ?_) ih; dsimp only; exact SteadyCore.same ih

theorem State.countN_steady {z s : State} (h : Steady z s) (x1 x2) : Steady z (State.countN s x1 x2) := by
  unfold State.countN; dsimp only
  with_reducible repeat' first
    | exact h | assumption | apply State.addArms_steady | apply State.addNative_steady | apply State.addLegacy_steady | apply Steady.ite
    | apply Steady.foldl | apply Steady.foldl1 | apply Steady.foldl2 | intro _ _ _ _ | (intro _ _ _; try dsimp only)

theorem State.count_steady {z s : State} (h : Steady z s) (x1) : Steady z (State.count s x1) := by
  unfold State.count
  with_reducible repeat' first
    | exact h | assumption | apply State.countN_steady

theorem State.clearCtr_steady {z s : State} (h : Steady z s) (x1) : Steady z (State.clearCtr s x1) := by
  unfold State.clearCtr
  with_reducible repeat' first
    | exact h | assumption | apply Steady.ite | (apply Steady.core; dsimp only; apply SteadyCore.same)

theorem State.clearCtrs_steady {z s : State} (h : Steady z s) (i n) : Steady z (State.clearCtrs s i n) := by
  induction n with
  | zero => exact h
  | succ n ih => exact State.clearCtr_steady ih _

theorem State.deny_steady {z s : State} (h : Steady z s) (x1) : Steady z (State.deny s x1) := by
  unfold State.deny; try dsimp only
  with_reducible repeat' first
    | exact h | assumption | apply State.raiseErr_steady | apply State.setFld_steady | apply Steady.ite | intro _ _ _ _ | intro _ _ _
    | (intro _ _; try dsimp only) | split

theorem State.access_steady {z s : State} (h : Steady z s) (x1 x2) (hx2 : ∀ y0, Steady z y0 → Steady z (x2 y0)) :
    Steady z (State.access s x1 x2) := by
  unfold State.access
  with_reducible repeat' first
    | exact h | assumption | apply State.deny_steady | apply hx2 | apply Steady.ite | split

theorem State.accessWrite_steady {z s : State} (h : Steady z s) (x1 x2) (hx2 : ∀ y0, Steady z y0 → Steady z (x2 y0)) :
    Steady z (State.accessWrite s x1 x2) := by
  unfold State.accessWrite
  with_reducible repeat' first
    | exact h | assumption | apply State.raiseErr_steady | apply hx2 | apply Steady.ite

theorem State.freeCells_steady {z s : State} (h : Steady z s) (x1) : Steady z (State.freeCells s x1) := by
  unfold State.freeCells; dsimp only
  with_reducible repeat' first
    | exact h | assumption | apply Steady.ite | (apply Steady.core; dsimp only; apply SteadyCore.same)

theorem State.releaseCopy_steady {z s : State} (h : Steady z s) (x1) : Steady z (State.releaseCopy s x1) := by
  unfold State.releaseCopy; dsimp only
  with_reducible repeat' first
    | exact h | assumption | apply State.setFrame_steady | apply State.freeCells_steady | apply Steady.ite

theorem State.emptied_steady {z s : State} (h : Steady z s) (x1 x2) : Steady z (State.emptied s x1 x2) := by
  unfold State.emptied
  with_reducible repeat' first
    | exact h | assumption | apply Steady.ite | intro _ _ _ _ | intro _ _ _ | (intro _ _; try dsimp only)
    | (apply Steady.core; dsimp only; apply SteadyCore.same) | split

theorem State.endJob_steady {z s : State} (h : Steady z s) (x1 x2) : Steady z (State.endJob s x1 x2) := by
  unfold State.endJob; try dsimp only
  with_reducible repeat' first
    | exact h | assumption | apply State.setJob_steady | apply State.emptied_steady | apply State.releaseCopy_steady | apply Steady.ite
    | intro _ _ _ _ | intro _ _ _ | (intro _ _; try dsimp only) | (apply Steady.core; dsimp only; apply SteadyCore.same) | split

theorem State.dropJob_steady {z s : State} (h : Steady z s) (x1) : Steady z (State.dropJob s x1) := by
  unfold State.dropJob
  with_reducible repeat' first
    | exact h | assumption | apply State.endJob_steady

theorem State.cutJob_steady {z s : State} (h : Steady z s) (x1) : Steady z (State.cutJob s x1) := by
  unfold State.cutJob; try dsimp only
  with_reducible repeat' first
    | exact h | assumption | apply State.dropJob_steady | apply State.setJob_steady | apply Steady.ite | intro _ _ _ _ | intro _ _ _
    | (intro _ _; try dsimp only) | (apply Steady.core; dsimp only; apply SteadyCore.same) | split

theorem State.cutFrame_steady {z s : State} (h : Steady z s) (x1) : Steady z (State.cutFrame s x1) := by
  unfold State.cutFrame
  with_reducible repeat' first
    | exact h | assumption | apply State.cutJob_steady | apply Steady.ite | apply Steady.foldl | apply Steady.foldl1 | apply Steady.foldl2
    | intro _ _ _ _ | intro _ _ _ | (intro _ _; try dsimp only)

theorem State.dropQueuedIn_steady {z s : State} (h : Steady z s) (e c l) : Steady z (State.dropQueuedIn s e c l) := by
  induction l with
  | nil => exact h
  | cons j l ih =>
    unfold State.dropQueuedIn; dsimp only
    exact Steady.ite (State.count_steady (State.dropJob_steady ih _) _) ih

theorem State.dropQueued_steady {z s : State} (h : Steady z s) (x1 x2) : Steady z (State.dropQueued s x1 x2) := by
  unfold State.dropQueued
  with_reducible repeat' first
    | exact h | assumption | apply State.dropQueuedIn_steady

theorem State.addJob_steady {z s : State} (h : Steady z s) (x1) : Steady z (State.addJob s x1) := by
  unfold State.addJob; dsimp only
  with_reducible repeat' first
    | exact h | assumption | apply State.setJob_steady | apply State.setFrame_steady | apply Steady.ite
    | (apply Steady.core; dsimp only; apply SteadyCore.same)

theorem State.reach_steady {z s : State} (h : Steady z s) (x1 x2) : Steady z (State.reach s x1 x2) := by
  unfold State.reach
  with_reducible repeat' first
    | exact h | assumption | apply Steady.ite | (apply Steady.core; dsimp only; apply SteadyCore.same)

theorem State.reachIn_steady {z s : State} (h : Steady z s) (x1 x2 x3) : Steady z (State.reachIn s x1 x2 x3) := by
  unfold State.reachIn; try dsimp only
  with_reducible repeat' first
    | exact h | assumption | apply State.reach_steady | apply Steady.ite | intro _ _ _ _ | intro _ _ _ | (intro _ _; try dsimp only)
    | (apply Steady.core; dsimp only; apply SteadyCore.same) | split

theorem sendLink_steady {z s : State} (h : Steady z s) (x1) : Steady z (sendLink s x1) := by
  unfold sendLink; try dsimp only
  with_reducible repeat' first
    | exact h | assumption | apply State.free_steady | apply State.emit_steady | apply Steady.ite | apply Steady.ite1 | apply Steady.ite2
    | apply Steady.foldl | apply Steady.foldl1 | apply Steady.foldl2 | intro _ _ _ _ | intro _ _ _ | (intro _ _; try dsimp only)
    | (apply Steady.core; dsimp only; apply SteadyCore.same) | (refine Steady.snd ?_ (by assumption); apply State.free_steady) | split

theorem newLine_steady {z s : State} (h : Steady z s) (n) : Steady z (newLine s n).2 := by
  induction n generalizing s with
  | zero => exact h
  | succ n ih => exact ih (State.free_steady h (2 ^ 58))

theorem sendFrame_steady {z s : State} (h : Steady z s) : Steady z (sendFrame s) := by
  unfold sendFrame; try dsimp only
  with_reducible repeat' first
    | exact h | assumption | apply sendLink_steady | apply Steady.ite | intro _ _ _ _ | intro _ _ _ | (intro _ _; try dsimp only)
    | (apply Steady.core; dsimp only; apply SteadyCore.same)

theorem pumpFrames_steady {z s : State} (h : Steady z s) (n) : Steady z (pumpFrames s n) := by
  induction n generalizing s with
  | zero => exact h
  | succ n ih => unfold pumpFrames; exact Steady.ite (ih (sendFrame_steady h)) h

theorem pump_steady {z s : State} (h : Steady z s) : Steady z (pump s) := by
  unfold pump
  with_reducible repeat' first
    | exact h | assumption | apply pumpFrames_steady | apply Steady.ite

theorem sendRec_steady {z s : State} (h : Steady z s) (x1) : Steady z (sendRec s x1) := by
  unfold sendRec; dsimp only
  with_reducible repeat' first
    | exact h | assumption | apply pump_steady | apply State.count_steady | apply Steady.ite
    | (apply Steady.core; dsimp only; apply SteadyCore.same)

theorem sendUrgent_steady {z s : State} (h : Steady z s) (x1) : Steady z (sendUrgent s x1) := by
  unfold sendUrgent; dsimp only
  with_reducible repeat' first
    | exact h | assumption | apply pump_steady | apply State.count_steady | apply Steady.ite
    | (apply Steady.core; dsimp only; apply SteadyCore.same)

theorem mirror_steady {z s : State} (h : Steady z s) (x1) : Steady z (mirror s x1) := by
  unfold mirror
  with_reducible repeat' first
    | exact h | assumption | apply sendRec_steady | apply Steady.ite

theorem becomeReady_steady {z s : State} (h : Steady z s) : Steady z (becomeReady s) := by
  unfold becomeReady; dsimp only
  with_reducible repeat' first
    | exact h | assumption | apply Steady.ite | (apply Steady.core; dsimp only; apply SteadyCore.same)

theorem addFault_steady {z s : State} (h : Steady z s) (x1) : Steady z (addFault s x1) := by
  unfold addFault; dsimp only
  with_reducible repeat' first
    | exact h | assumption | apply State.alarm_steady | apply Steady.ite | (apply Steady.core; dsimp only; apply SteadyCore.same)

theorem State.modPair_steady {z s : State} (h : Steady z s) (x1) : Steady z (State.modPair s x1) := by
  unfold State.modPair
  with_reducible repeat' first
    | exact h | assumption | apply Steady.ite | (apply Steady.core; dsimp only; apply SteadyCore.same)

theorem startGiveUp_steady {z s : State} (h : Steady z s) (x1) : Steady z (startGiveUp s x1) := by
  unfold startGiveUp; dsimp only
  with_reducible repeat' first
    | exact h | assumption | apply State.modPair_steady | apply sendUrgent_steady | apply State.emit_steady

theorem tryGiveUp_steady {z s : State} (h : Steady z s) (x1) : Steady z (tryGiveUp s x1).1 := by
  unfold tryGiveUp
  with_reducible repeat' first
    | exact h | assumption | apply startGiveUp_steady | apply State.alarm_steady | apply Steady.ite | apply Steady.ite1

theorem diagnose_steady {z s : State} (h : Steady z s) (x1 x2) : Steady z (diagnose s x1 x2) := by
  unfold diagnose; dsimp only
  with_reducible repeat' first
    | exact h | assumption | apply addFault_steady | apply tryGiveUp_steady | apply becomeReady_steady | apply State.modPair_steady
    | apply Steady.ite

theorem leavePair_steady {z s : State} (h : Steady z s) : Steady z (leavePair s) := State.modPair_steady h _

theorem journalFault_steady {z s : State} (h : Steady z s) : Steady z (journalFault s) := by
  unfold journalFault; dsimp only
  with_reducible repeat' first
    | exact h | assumption | apply diagnose_steady | apply State.modPair_steady | apply Steady.ite

theorem deriveIdentity_steady {z s : State} (h : Steady z s) (x1 x2) : Steady z (deriveIdentity s x1 x2) := by
  unfold deriveIdentity; dsimp only
  with_reducible repeat' first
    | exact h | assumption | apply State.useFree_steady | apply Steady.ite | (apply Steady.core; dsimp only; apply SteadyCore.same)

theorem lateIdentity_steady {z s : State} (h : Steady z s) : Steady z (lateIdentity s) := by
  unfold lateIdentity
  with_reducible repeat' first
    | exact h | assumption | apply deriveIdentity_steady | apply Steady.ite

end Sys2Proof.Machine
end

