-- ==== Sys2Proof/Laws/SteadyAssoc.lean ====
section
/-! SUPPORT. What the association commands and the journal leave alone: the queue, the canonical register map, the epoch's floor. -/

namespace Sys2Proof.Machine

theorem saAlarm_steady {z s : State} (h : Steady z s) (x1 x2) : Steady z (saAlarm s x1 x2) := by
  unfold saAlarm
  with_reducible repeat' first
    | exact h | assumption | apply State.setFld_steady | apply State.alarm_steady | apply Steady.ite
    | split

theorem saEnd_steady {z s : State} (h : Steady z s) (x1 x2) : Steady z (saEnd s x1 x2) := by
  unfold saEnd; dsimp only
  with_reducible repeat' first
    | exact h | assumption | apply State.setFld_steady | apply State.interrupt_steady | apply Steady.ite
    | split

theorem reject_steady {z s : State} (h : Steady z s) (x1 x2) : Steady z (reject s x1 x2) := by
  unfold reject; dsimp only
  with_reducible repeat' first
    | exact h | assumption | apply State.setFld_steady | apply State.setReg_steady | apply Steady.ite

theorem putSlot_steady {z s : State} (h : Steady z s) (x1 x2 x3 x4) : Steady z (putSlot s x1 x2 x3 x4) := by
  unfold putSlot
  with_reducible repeat' first
    | exact h | assumption | apply State.setAssoc_steady

theorem changeSlot_steady {z s : State} (h : Steady z s) (x1 x2 x3 x4) : Steady z (changeSlot s x1 x2 x3 x4) := by
  unfold changeSlot; dsimp only
  with_reducible repeat' first
    | exact h | assumption | apply putSlot_steady | apply mirror_steady

theorem kstDone_steady {z s : State} (h : Steady z s) : Steady z (kstDone s) := by
  unfold kstDone
  with_reducible repeat' first
    | exact h | assumption | apply State.interrupt_steady | apply State.setFld_steady

theorem updateLoaded_steady {z s : State} (h : Steady z s) (x1 x2) : Steady z (updateLoaded s x1 x2) := by
  unfold updateLoaded; dsimp only
  with_reducible repeat' first
    | exact h | assumption | apply State.setFld_steady | apply kstDone_steady | apply Steady.ite

theorem loadEnds_steady {z s : State} (h : Steady z s) (x1 x2) : Steady z (loadEnds s x1 x2) := by
  unfold loadEnds; dsimp only
  with_reducible repeat' first
    | exact h | assumption | apply saEnd_steady | apply updateLoaded_steady | apply Steady.ite
    | split

theorem clearSlot_steady {z s : State} (h : Steady z s) (x1 x2 x3) : Steady z (clearSlot s x1 x2 x3) := by
  unfold clearSlot; dsimp only
  with_reducible repeat' first
    | exact h | assumption | apply loadEnds_steady | apply changeSlot_steady | apply Steady.ite

theorem raiseGen_steady {z s : State} (h : Steady z s) (x1 x2 x3) : Steady z (raiseGen s x1 x2 x3) := by
  unfold raiseGen
  with_reducible repeat' first
    | exact h | assumption | apply Steady.ite | (apply Steady.core; dsimp only; apply SteadyCore.same)

theorem journalAppend_steady {z s : State} (h : Steady z s) (x1 x2) : Steady z (journalAppend s x1 x2) := by
  unfold journalAppend; dsimp only
  with_reducible repeat' first
    | exact h | assumption | apply Steady.ite | (apply Steady.core; dsimp only; apply SteadyCore.same)

theorem journalCompact_steady {z s : State} (h : Steady z s) : Steady z (journalCompact s) := by
  unfold journalCompact; dsimp only
  with_reducible repeat' first
    | exact h | assumption | apply journalAppend_steady | apply Steady.ite | apply Steady.foldl | apply Steady.foldl1 | apply Steady.foldl2
    | intro _ _ _ _ | (intro _ _ _; try dsimp only) | (apply Steady.core; dsimp only; apply SteadyCore.same)

theorem journalGen_steady {z s : State} (h : Steady z s) (x1 x2 x3 x4) : Steady z (journalGen s x1 x2 x3 x4) := by
  unfold journalGen; dsimp only
  with_reducible repeat' first
    | exact h | assumption | apply journalCompact_steady | apply raiseGen_steady | apply journalAppend_steady | apply Steady.ite

theorem startLoad_steady {z s : State} (h : Steady z s) (x1 x2 x3 x4) : Steady z (startLoad s x1 x2 x3 x4) := by
  unfold startLoad
  with_reducible repeat' first
    | exact h | assumption | apply changeSlot_steady

/-- A derivation that answers a state. -/
theorem derive_steady {z s t : State} (h : Steady z s) {rx i g an spi cmd auto} (e : derive s rx i g an spi cmd auto = .ok t) : Steady z t := by
  unfold derive at e; dsimp only at e
  repeat' (split at e <;> try cases e)
  all_goals exact startLoad_steady h _ _ _ _

theorem autoNext_steady {z s : State} (h : Steady z s) (i) : Steady z (autoNext s i) := by
  unfold autoNext; dsimp only
  refine Steady.ite (Steady.ite ?_ (State.setAssoc_steady h _ _ _)) (State.setAssoc_steady h _ _ _)
  split
  · exact derive_steady (State.setAssoc_steady h _ _ _) (by assumption)
  · exact saAlarm_steady (State.setAssoc_steady h _ _ _) _ _

theorem switchSlot_steady {z s : State} (h : Steady z s) (x1) : Steady z (switchSlot s x1) := by
  unfold switchSlot; dsimp only
  with_reducible repeat' first
    | exact h | assumption | apply State.setAssoc_steady | apply changeSlot_steady | apply State.count_steady | apply Steady.ite
    | split

theorem installAssoc_steady {z s : State} (h : Steady z s) (x1 x2 x3) : Steady z (installAssoc s x1 x2 x3) := by
  unfold installAssoc; dsimp only
  with_reducible repeat' first
    | exact h | assumption | apply State.setAssoc_steady | apply State.clearCtrs_steady

theorem drainAssoc_steady {z s : State} (h : Steady z s) (x1 x2) : Steady z (drainAssoc s x1 x2) := by
  unfold drainAssoc; dsimp only
  with_reducible repeat' first
    | exact h | assumption | apply clearSlot_steady | apply State.setAssoc_steady

theorem removeAssoc_steady {z s : State} (h : Steady z s) (x1 x2) : Steady z (removeAssoc s x1 x2) := by
  unfold removeAssoc; dsimp only
  with_reducible repeat' first
    | exact h | assumption | apply State.setAssoc_steady | apply drainAssoc_steady | apply Steady.ite

theorem saCommand_steady {z s : State} (h : Steady z s) (fn o k)
    (hk : ∀ b i y, Steady z y → Steady z (k b i y).1) : SteadyRes z (saCommand fn o k s) := by
  have go : ∀ (y : State) (b : Bool) (j : Nat), Steady z y → Steady z (match k b j y with
      | (t, some st) => saEnd t fn st
      | (t, none) => t.setFld (aSaStatus fn) F.SA_STATUS_BUSY 1) := by
    intro y b j hy
    have := hk b j y hy
    split
    · rename_i e; rw [e] at this; exact saEnd_steady this _ _
    · rename_i e; rw [e] at this; exact State.setFld_steady this _ _ _
  unfold saCommand; dsimp only
  refine SteadyRes.next (State.access_steady h _ _ (fun y hy => Steady.ite hy (Steady.ite (saEnd_steady hy _ _) ?_)))
  split
  · exact go _ _ _ hy
  · exact Steady.ite (saEnd_steady hy _ _) (go _ _ _ hy)

theorem execSaInstall_steady {z s : State} (h : Steady z s) (x0) : SteadyRes z (execSaInstall x0 s) := by
  unfold execSaInstall; dsimp only
  with_reducible repeat' first
    | exact h | assumption | apply SteadyRes.next | apply SteadyRes.ite | apply saCommand_steady | apply installAssoc_steady
    | apply Steady.ite | (intro _ _ _ _; try dsimp only) | split

theorem execSaRemove_steady {z s : State} (h : Steady z s) (x0) : SteadyRes z (execSaRemove x0 s) := by
  unfold execSaRemove
  with_reducible repeat' first
    | exact h | assumption | apply SteadyRes.next | apply SteadyRes.ite | apply saCommand_steady | apply removeAssoc_steady
    | apply Steady.ite | (intro _ _ _ _; try dsimp only) | split

theorem execSaRead_steady {z s : State} (h : Steady z s) (x0) : SteadyRes z (execSaRead x0 s) := by
  unfold execSaRead; dsimp only
  with_reducible repeat' first
    | exact h | assumption | apply SteadyRes.next | apply SteadyRes.ite | apply saCommand_steady | apply State.setWin_steady
    | apply Steady.ite | (intro _ _ _ _; try dsimp only) | split

theorem execSaReadSlot_steady {z s : State} (h : Steady z s) (x0) : SteadyRes z (execSaReadSlot x0 s) := by
  unfold execSaReadSlot
  with_reducible repeat' first
    | exact h | assumption | apply SteadyRes.next | apply SteadyRes.ite | apply saCommand_steady | apply State.setWin_steady
    | apply Steady.ite | (intro _ _ _ _; try dsimp only) | split

theorem execSaDerive_steady {z s : State} (h : Steady z s) (fn) : SteadyRes z (execSaDerive fn s) := by
  unfold execSaDerive; dsimp only
  refine saCommand_steady h _ _ _ (fun b i y hy => Steady.ite1 hy (Steady.ite1 hy (Steady.ite1 hy ?_)))
  split
  · exact derive_steady hy (by assumption)
  · exact hy

theorem execSaSwitch_steady {z s : State} (h : Steady z s) (x0) : SteadyRes z (execSaSwitch x0 s) := by
  unfold execSaSwitch; dsimp only
  with_reducible repeat' first
    | exact h | assumption | apply SteadyRes.next | apply SteadyRes.ite | apply saCommand_steady | apply switchSlot_steady
    | apply Steady.ite | (intro _ _ _ _; try dsimp only) | split

theorem execSaArmTime_steady {z s : State} (h : Steady z s) (x0) : SteadyRes z (execSaArmTime x0 s) := by
  unfold execSaArmTime; dsimp only
  with_reducible repeat' first
    | exact h | assumption | apply SteadyRes.next | apply SteadyRes.ite | apply saCommand_steady | apply State.setAssoc_steady
    | apply Steady.ite | (intro _ _ _ _; try dsimp only) | split

theorem execSaRetire_steady {z s : State} (h : Steady z s) (x0) : SteadyRes z (execSaRetire x0 s) := by
  unfold execSaRetire; dsimp only
  with_reducible repeat' first
    | exact h | assumption | apply SteadyRes.next | apply SteadyRes.ite | apply saCommand_steady | apply clearSlot_steady
    | apply State.setAssoc_steady | apply Steady.ite | (intro _ _ _ _; try dsimp only)
    | split

theorem execSaModify_steady {z s : State} (h : Steady z s) (x0) : SteadyRes z (execSaModify x0 s) := by
  unfold execSaModify; dsimp only
  with_reducible repeat' first
    | exact h | assumption | apply SteadyRes.next | apply SteadyRes.ite | apply saCommand_steady | apply State.setAssoc_steady
    | apply Steady.ite | (intro _ _ _ _; try dsimp only) | split

theorem loadFailed_steady {z s : State} (h : Steady z s) (x1 x2) : Steady z (loadFailed s x1 x2) := by
  unfold loadFailed; try dsimp only
  with_reducible repeat' first
    | exact h | assumption | apply journalFault_steady | apply clearSlot_steady | apply saAlarm_steady | apply reject_steady
    | apply State.setAssoc_steady | apply Steady.ite | intro _ _ _ _ | intro _ _ _ | (intro _ _; try dsimp only)
    | (apply Steady.core; dsimp only; apply SteadyCore.same) | split

theorem txLoaded_steady {z s : State} (h : Steady z s) (x1 x2) : Steady z (txLoaded s x1 x2) := by
  unfold txLoaded; dsimp only
  with_reducible repeat' first
    | exact h | assumption | apply journalGen_steady | apply becomeReady_steady | apply sendRec_steady | apply putSlot_steady
    | apply changeSlot_steady | apply loadEnds_steady | apply mirror_steady | apply autoNext_steady | apply Steady.ite

theorem rxLoaded_steady {z s : State} (h : Steady z s) (x1 x2) : Steady z (rxLoaded s x1 x2) := by
  unfold rxLoaded; dsimp only
  with_reducible repeat' first
    | exact h | assumption | apply State.setAssoc_steady | apply changeSlot_steady | apply loadEnds_steady | apply mirror_steady

theorem execSlotLoadComplete_steady {z s : State} (h : Steady z s) (x0 x1 x2 x3) : SteadyRes z (execSlotLoadComplete x0 x1 x2 x3 s) := by
  unfold execSlotLoadComplete; dsimp only
  with_reducible repeat' first
    | exact h | assumption | apply SteadyRes.next | apply SteadyRes.ite | apply rxLoaded_steady | apply loadFailed_steady
    | apply txLoaded_steady

theorem execSlotDrainComplete_steady {z s : State} (h : Steady z s) (x0 x1) : SteadyRes z (execSlotDrainComplete x0 x1 s) := by
  unfold execSlotDrainComplete; dsimp only
  with_reducible repeat' first
    | exact h | assumption | apply SteadyRes.next | apply SteadyRes.ite | apply autoNext_steady | apply clearSlot_steady

theorem execAutoNextRetry_steady {z s : State} (h : Steady z s) (x0) : SteadyRes z (execAutoNextRetry x0 s) := by
  unfold execAutoNextRetry
  with_reducible repeat' first
    | exact h | assumption | apply SteadyRes.next | apply SteadyRes.ite | apply autoNext_steady

theorem execRxRetireTimerExpiry_steady {z s : State} (h : Steady z s) (x0) : SteadyRes z (execRxRetireTimerExpiry x0 s) := by
  unfold execRxRetireTimerExpiry; dsimp only
  with_reducible repeat' first
    | exact h | assumption | apply SteadyRes.next | apply SteadyRes.ite | apply clearSlot_steady | apply State.setAssoc_steady
    | apply Steady.ite | split

theorem execFollowCandidateReady_steady {z s : State} (h : Steady z s) (x0 x1) : SteadyRes z (execFollowCandidateReady x0 x1 s) := by
  unfold execFollowCandidateReady; dsimp only
  with_reducible repeat' first
    | exact h | assumption | apply SteadyRes.next | apply SteadyRes.ite | apply putSlot_steady | apply clearSlot_steady
    | apply saAlarm_steady | apply Steady.ite | split

theorem execAssocRemoveDrainComplete_steady {z s : State} (h : Steady z s) (x0 x1) : SteadyRes z (execAssocRemoveDrainComplete x0 x1 s) := by
  unfold execAssocRemoveDrainComplete
  with_reducible repeat' first
    | exact h | assumption | apply SteadyRes.next | apply SteadyRes.ite | apply drainAssoc_steady

end Sys2Proof.Machine
end

