-- ==== Sys2Proof/Laws/SteadyPorts.lean ====
section
/-! SUPPORT. What the lanes, spares and ports leave alone: the queue, the canonical register map, the epoch's floor. -/

namespace Sys2Proof.Machine

theorem portEdge_steady {z s : State} (h : Steady z s) (x0 x1) : Steady z (portEdge x0 x1 s) := by
  unfold portEdge; dsimp only
  with_reducible repeat' first
    | exact h | assumption | apply State.setPort_steady | apply State.dropQueued_steady | apply Steady.ite

theorem State.setTrunk_steady {z s : State} (h : Steady z s) (x1 x2) : Steady z (State.setTrunk s x1 x2) := by
  unfold State.setTrunk
  with_reducible repeat' first
    | exact h | assumption | apply Steady.ite | (apply Steady.core; dsimp only; apply SteadyCore.same)

theorem tribEdge_steady {z s : State} (h : Steady z s) (x0 x2) : Steady z (tribEdge x0 s x2) := by
  unfold tribEdge; dsimp only
  with_reducible repeat' first
    | exact h | assumption | apply State.setPort_steady | apply State.dropQueued_steady | apply Steady.ite

theorem updateDefects_steady {z s : State} (h : Steady z s) (x1) : Steady z (updateDefects s x1) := by
  unfold updateDefects; dsimp only
  with_reducible repeat' first
    | exact h | assumption | apply State.setReg_steady | apply State.setTrunk_steady | apply tribEdge_steady | apply Steady.ite
    | apply Steady.foldl | apply Steady.foldl1 | apply Steady.foldl2 | intro _ _ _ _ | (intro _ _ _; try dsimp only)

theorem trunkLanes_steady {z s : State} (h : Steady z s) (x1 x2) : Steady z (trunkLanes s x1 x2) := by
  unfold trunkLanes; dsimp only
  with_reducible repeat' first
    | exact h | assumption | apply State.alarm_steady | apply updateDefects_steady | apply State.setTrunk_steady | apply Steady.ite

theorem trunkEdge_steady {z : State} (s : State) (t) {k : State} (h : Steady z k) : Steady z (trunkEdge s t k) := by
  unfold trunkEdge
  with_reducible repeat' first
    | exact h | assumption | apply State.dropQueued_steady | apply Steady.ite

theorem laneEdge_steady {z s : State} (h : Steady z s) (x0 x1 x3) : Steady z (laneEdge x0 x1 s x3) := by
  unfold laneEdge
  with_reducible repeat' first
    | exact h | assumption | apply portEdge_steady | apply trunkEdge_steady | apply trunkLanes_steady | apply Steady.ite | split

theorem sendSteer_steady {z s : State} (h : Steady z s) (x1 x2 x3 x4) : Steady z (sendSteer s x1 x2 x3 x4) := by
  unfold sendSteer; dsimp only
  with_reducible repeat' first
    | exact h | assumption | apply State.setSpare_steady | apply State.emit_steady

theorem goIdle_steady {z s : State} (h : Steady z s) (x1) : Steady z (goIdle s x1) := by
  unfold goIdle; try dsimp only
  with_reducible repeat' first
    | exact h | assumption | apply State.setSpare_steady | apply sendSteer_steady | apply Steady.ite | intro _ _ _ _ | intro _ _ _
    | (intro _ _; try dsimp only) | (apply Steady.core; dsimp only; apply SteadyCore.same) | split

theorem tickLanes_steady {z s : State} (h : Steady z s) : Steady z (tickLanes s) := by
  unfold tickLanes
  with_reducible repeat' first
    | exact h | assumption | apply Steady.ite | intro _ _ _ _ | intro _ _ _ | (intro _ _; try dsimp only)
    | (apply Steady.core; dsimp only; apply SteadyCore.same) | split

theorem moveOnto_steady {z s : State} (h : Steady z s) (x1 x2 x3) : Steady z (moveOnto s x1 x2 x3) := by
  unfold moveOnto; try dsimp only
  with_reducible repeat' first
    | exact h | assumption | apply State.setSpare_steady | apply State.emit_steady | apply Steady.ite | apply Steady.foldl
    | apply Steady.foldl1 | apply Steady.foldl2 | intro _ _ _ _ | intro _ _ _ | (intro _ _; try dsimp only)
    | (apply Steady.core; dsimp only; apply SteadyCore.same)

theorem askSpare_steady {z s : State} (h : Steady z s) (x1 x2) : Steady z (askSpare s x1 x2) := by
  unfold askSpare; dsimp only
  with_reducible repeat' first
    | exact h | assumption | apply sendSteer_steady | apply State.setSpare_steady | apply Steady.ite
    | split

theorem ownMove_steady {z s : State} (h : Steady z s) (x1) : Steady z (ownMove s x1) := by
  unfold ownMove
  with_reducible repeat' first
    | exact h | assumption | apply moveOnto_steady | apply Steady.ite | split

theorem requestSparing_steady {z s : State} (h : Steady z s) (x1 x2) : Steady z (requestSparing s x1 x2) := by
  unfold requestSparing
  with_reducible repeat' first
    | exact h | assumption | apply laneEdge_steady | apply ownMove_steady | apply askSpare_steady | apply Steady.ite | split

theorem execLaneMarkerLock_steady {z s : State} (h : Steady z s) (x0 x1 x2 x3 x4) : SteadyRes z (execLaneMarkerLock x0 x1 x2 x3 x4 s) := by
  unfold execLaneMarkerLock; try dsimp only
  with_reducible repeat' first
    | exact h | assumption | apply SteadyRes.next | apply SteadyRes.ite | apply State.setSpare_steady | apply State.setLane_steady
    | apply laneEdge_steady | apply State.setFld_steady | apply Steady.ite | intro _ _ _ _ | intro _ _ _ | (intro _ _; try dsimp only)
    | (apply Steady.core; dsimp only; apply SteadyCore.same) | split

theorem loseSpare_steady {z s : State} (h : Steady z s) (x1) : Steady z (loseSpare s x1) := by
  unfold loseSpare; try dsimp only
  with_reducible repeat' first
    | exact h | assumption | apply laneEdge_steady | apply State.setLane_steady | apply requestSparing_steady | apply Steady.ite
    | intro _ _ _ _ | intro _ _ _ | (intro _ _; try dsimp only) | (apply Steady.core; dsimp only; apply SteadyCore.same) | split

theorem faultLane_steady {z s : State} (h : Steady z s) (x1 x2) : Steady z (faultLane s x1 x2) := by
  unfold faultLane; try dsimp only
  with_reducible repeat' first
    | exact h | assumption | apply State.setFld_steady | apply State.setPort_steady | apply laneEdge_steady | apply requestSparing_steady
    | apply State.setSpare_steady | apply loseSpare_steady | apply State.setLane_steady | apply Steady.ite | apply Steady.foldl
    | apply Steady.foldl1 | apply Steady.foldl2 | intro _ _ _ _ | intro _ _ _ | (intro _ _; try dsimp only)
    | (apply Steady.core; dsimp only; apply SteadyCore.same) | split

theorem execTrainTimeout_steady {z s : State} (h : Steady z s) (x0) : SteadyRes z (execTrainTimeout x0 s) := by
  unfold execTrainTimeout
  with_reducible repeat' first
    | exact h | assumption | apply SteadyRes.next | apply SteadyRes.ite | apply faultLane_steady

theorem execLaneFault_steady {z s : State} (h : Steady z s) (x0 x1) : SteadyRes z (execLaneFault x0 x1 s) := by
  unfold execLaneFault
  with_reducible repeat' first
    | exact h | assumption | apply SteadyRes.next | apply SteadyRes.ite | apply faultLane_steady

theorem execLaneDegrade_steady {z s : State} (h : Steady z s) (x0) : SteadyRes z (execLaneDegrade x0 s) := by
  unfold execLaneDegrade; try dsimp only
  with_reducible repeat' first
    | exact h | assumption | apply SteadyRes.next | apply SteadyRes.ite | apply State.setFld_steady | apply requestSparing_steady
    | apply State.setLane_steady | apply Steady.ite | intro _ _ _ _ | intro _ _ _ | (intro _ _; try dsimp only)
    | (apply Steady.core; dsimp only; apply SteadyCore.same) | split

theorem execLaneFaultClear_steady {z s : State} (h : Steady z s) (x0) : SteadyRes z (execLaneFaultClear x0 s) := by
  unfold execLaneFaultClear; dsimp only
  with_reducible repeat' first
    | exact h | assumption | apply SteadyRes.next | apply SteadyRes.ite | apply State.setLane_steady | apply laneEdge_steady

theorem laneFreed_steady {z : State} (s : State) (l) {k : State} (h : Steady z k) : Steady z (laneFreed s l k) := by
  unfold laneFreed
  with_reducible repeat' first
    | exact h | assumption | apply laneEdge_steady | apply State.setLane_steady

theorem releaseAccepted_steady {z s : State} (h : Steady z s) (x1 x2) : Steady z (releaseAccepted s x1 x2) := by
  unfold releaseAccepted; try dsimp only
  with_reducible repeat' first
    | exact h | assumption | apply goIdle_steady | apply State.setSpare_steady | apply laneFreed_steady | apply Steady.ite | intro _ _ _ _
    | intro _ _ _ | (intro _ _; try dsimp only) | (apply Steady.core; dsimp only; apply SteadyCore.same) | split

theorem execSteeringBlockAccept_steady {z s : State} (h : Steady z s) (x0 x1) : SteadyRes z (execSteeringBlockAccept x0 x1 s) := by
  unfold execSteeringBlockAccept; try dsimp only
  with_reducible repeat' first
    | exact h | assumption | apply SteadyRes.next | apply SteadyRes.ite | apply State.setSpare_steady | apply State.setLane_steady
    | apply moveOnto_steady | apply goIdle_steady | apply releaseAccepted_steady | apply Steady.ite | intro _ _ _ _ | intro _ _ _
    | (intro _ _; try dsimp only) | (apply Steady.core; dsimp only; apply SteadyCore.same) | split

theorem execPartnerOkTimeout_steady {z s : State} (h : Steady z s) (x0) : SteadyRes z (execPartnerOkTimeout x0 s) := by
  unfold execPartnerOkTimeout; dsimp only
  with_reducible repeat' first
    | exact h | assumption | apply SteadyRes.next | apply SteadyRes.ite | apply State.setSpare_steady

theorem execSpareAlign_steady {z s : State} (h : Steady z s) (x0) : SteadyRes z (execSpareAlign x0 s) := by
  unfold execSpareAlign; dsimp only
  with_reducible repeat' first
    | exact h | assumption | apply SteadyRes.next | apply SteadyRes.ite | apply laneEdge_steady | apply State.setLane_steady
    | apply State.setSpare_steady | apply Steady.ite | split

theorem execAskTimeout_steady {z s : State} (h : Steady z s) (x0) : SteadyRes z (execAskTimeout x0 s) := by
  unfold execAskTimeout; try dsimp only
  with_reducible repeat' first
    | exact h | assumption | apply SteadyRes.next | apply SteadyRes.ite | apply goIdle_steady | apply sendSteer_steady
    | apply State.setSpare_steady | apply State.setFld_steady | apply Steady.ite | intro _ _ _ _ | intro _ _ _
    | (intro _ _; try dsimp only) | (apply Steady.core; dsimp only; apply SteadyCore.same) | split

theorem spareStatus_steady {z s : State} (h : Steady z s) (x1 x2) : Steady z (spareStatus s x1 x2) := by
  unfold spareStatus
  with_reducible repeat' first
    | exact h | assumption | apply State.setFld_steady

theorem steerTo_steady {z s : State} (h : Steady z s) (x1 x2 x3 x4) : Steady z (steerTo s x1 x2 x3 x4) := by
  unfold steerTo; try dsimp only
  with_reducible repeat' first
    | exact h | assumption | apply State.setSpare_steady | apply State.setLane_steady | apply State.setPort_steady | apply laneEdge_steady
    | apply Steady.ite | intro _ _ _ _ | intro _ _ _ | (intro _ _; try dsimp only)
    | (apply Steady.core; dsimp only; apply SteadyCore.same) | split

theorem spareCommand_steady {z s : State} (h : Steady z s) (x1 x2) (hx2 : ∀ y0, Steady z y0 → Steady z (x2 y0)) : Steady z (spareCommand s x1 x2) := by
  unfold spareCommand
  with_reducible repeat' first
    | exact h | assumption | apply State.access_steady | apply spareStatus_steady | apply hx2 | apply Steady.ite | intro _ _

theorem steerCmd_steady {z s : State} (h : Steady z s) (x1 x2 x3 x4 x5) : Steady z (steerCmd s x1 x2 x3 x4 x5) := by
  unfold steerCmd; try dsimp only
  with_reducible repeat' first
    | exact h | assumption | apply spareCommand_steady | apply spareStatus_steady | apply steerTo_steady | apply Steady.ite
    | intro _ _ _ _ | intro _ _ _ | (intro _ _; try dsimp only) | split

theorem execSteerTransmit_steady {z s : State} (h : Steady z s) (x0 x1 x2) : SteadyRes z (execSteerTransmit x0 x1 x2 s) := by
  unfold execSteerTransmit
  with_reducible repeat' first
    | exact h | assumption | apply SteadyRes.next | apply SteadyRes.ite | apply steerCmd_steady

theorem execSteerReceive_steady {z s : State} (h : Steady z s) (x0 x1 x2) : SteadyRes z (execSteerReceive x0 x1 x2 s) := by
  unfold execSteerReceive
  with_reducible repeat' first
    | exact h | assumption | apply SteadyRes.next | apply SteadyRes.ite | apply steerCmd_steady

theorem execSteerBoth_steady {z s : State} (h : Steady z s) (x0 x1 x2) : SteadyRes z (execSteerBoth x0 x1 x2 s) := by
  unfold execSteerBoth
  with_reducible repeat' first
    | exact h | assumption | apply SteadyRes.next | apply SteadyRes.ite | apply steerCmd_steady

theorem freeOf_steady {z s : State} (h : Steady z s) (x1 x2) : Steady z (freeOf s x1 x2) := by
  unfold freeOf; try dsimp only
  with_reducible repeat' first
    | exact h | assumption | apply State.setSpare_steady | apply laneFreed_steady | apply goIdle_steady | apply Steady.ite | intro _ _ _ _
    | intro _ _ _ | (intro _ _; try dsimp only) | (apply Steady.core; dsimp only; apply SteadyCore.same) | split

theorem releaseSpare_steady {z s : State} (h : Steady z s) (x1 x2) : Steady z (releaseSpare s x1 x2) := by
  unfold releaseSpare
  with_reducible repeat' first
    | exact h | assumption | apply freeOf_steady | apply sendSteer_steady | apply Steady.ite | split

theorem execSpareRelease_steady {z s : State} (h : Steady z s) (x0 x1 x2) : SteadyRes z (execSpareRelease x0 x1 x2 s) := by
  unfold execSpareRelease; try dsimp only
  with_reducible repeat' first
    | exact h | assumption | apply SteadyRes.next | apply SteadyRes.ite | apply spareCommand_steady | apply spareStatus_steady
    | apply sendSteer_steady | apply freeOf_steady | apply Steady.ite | intro _ _ _ _ | intro _ _ _ | (intro _ _; try dsimp only)
    | (apply Steady.core; dsimp only; apply SteadyCore.same) | split

theorem finishRelease_steady {z s : State} (h : Steady z s) (x1) : Steady z (finishRelease s x1) := by
  unfold finishRelease
  with_reducible repeat' first
    | exact h | assumption | apply freeOf_steady | apply spareStatus_steady | apply Steady.ite
    | (apply Steady.core; dsimp only; apply SteadyCore.same) | split

theorem execPortUp_steady {z s : State} (h : Steady z s) (x0) : SteadyRes z (execPortUp x0 s) := by
  unfold execPortUp; dsimp only
  with_reducible repeat' first
    | exact h | assumption | apply SteadyRes.next | apply SteadyRes.ite | apply State.access_steady | apply State.setPort_steady
    | apply Steady.ite | intro _ _ _ _ | intro _ _ _ | (intro _ _; try dsimp only)

theorem execPortSleep_steady {z s : State} (h : Steady z s) (x0) : SteadyRes z (execPortSleep x0 s) := by
  unfold execPortSleep; dsimp only
  with_reducible repeat' first
    | exact h | assumption | apply SteadyRes.next | apply SteadyRes.ite | apply State.access_steady | apply State.setPort_steady
    | apply State.dropQueued_steady | apply State.setFld_steady | apply Steady.ite | intro _ _ _ _ | intro _ _ _
    | (intro _ _; try dsimp only)

theorem execSleepReached_steady {z s : State} (h : Steady z s) (x0) : SteadyRes z (execSleepReached x0 s) := by
  unfold execSleepReached; dsimp only
  with_reducible repeat' first
    | exact h | assumption | apply SteadyRes.next | apply SteadyRes.ite | apply State.setPort_steady

theorem wakePort_steady {z s : State} (h : Steady z s) (x1 x2) : Steady z (wakePort s x1 x2) := by
  unfold wakePort; dsimp only
  with_reducible repeat' first
    | exact h | assumption | apply State.setPort_steady | apply Steady.ite

theorem execPortWake_steady {z s : State} (h : Steady z s) (x0) : SteadyRes z (execPortWake x0 s) := by
  unfold execPortWake
  with_reducible repeat' first
    | exact h | assumption | apply SteadyRes.next | apply SteadyRes.ite | apply State.access_steady | apply wakePort_steady
    | apply Steady.ite | intro _ _ _ _ | intro _ _ _ | (intro _ _; try dsimp only)

theorem wakeDrop_steady {z s : State} (h : Steady z s) (x1) : Steady z (wakeDrop s x1) := by
  unfold wakeDrop
  with_reducible repeat' first
    | exact h | assumption | apply State.setFld_steady | apply State.count_steady

theorem execWakePatternMatch_steady {z s : State} (h : Steady z s) (x0 x1) : SteadyRes z (execWakePatternMatch x0 x1 s) := by
  unfold execWakePatternMatch; dsimp only
  with_reducible repeat' first
    | exact h | assumption | apply SteadyRes.next | apply SteadyRes.ite | apply wakePort_steady | apply wakeDrop_steady
    | apply State.setPort_steady | apply Steady.ite | split

theorem execLinkChangeWake_steady {z s : State} (h : Steady z s) (x0 x1 x2 x3) : SteadyRes z (execLinkChangeWake x0 x1 x2 x3 s) := by
  unfold execLinkChangeWake; try dsimp only
  with_reducible repeat' first
    | exact h | assumption | apply SteadyRes.next | apply SteadyRes.ite | apply State.setPort_steady | apply wakePort_steady
    | apply Steady.ite | intro _ _ _ _ | intro _ _ _ | (intro _ _; try dsimp only)
    | (apply Steady.core; dsimp only; apply SteadyCore.same) | split

theorem execWakeComplete_steady {z s : State} (h : Steady z s) (x0) : SteadyRes z (execWakeComplete x0 s) := by
  unfold execWakeComplete; dsimp only
  with_reducible repeat' first
    | exact h | assumption | apply SteadyRes.next | apply SteadyRes.ite | apply State.setPort_steady

theorem execPreemptVerify_steady {z s : State} (h : Steady z s) (x0 x1) : SteadyRes z (execPreemptVerify x0 x1 s) := by
  unfold execPreemptVerify; dsimp only
  with_reducible repeat' first
    | exact h | assumption | apply SteadyRes.next | apply SteadyRes.ite | apply State.setPort_steady

theorem execReceivePcsChange_steady {z s : State} (h : Steady z s) (x0 x1 x2 x3) : SteadyRes z (execReceivePcsChange x0 x1 x2 x3 s) := by
  unfold execReceivePcsChange; dsimp only
  with_reducible repeat' first
    | exact h | assumption | apply SteadyRes.next | apply SteadyRes.ite | apply portEdge_steady | apply State.setPort_steady

theorem newCoders_steady {z s : State} (h : Steady z s) (n) : Steady z (newCoders s n).2 := by
  induction n generalizing s with
  | zero => exact h
  | succ n ih => exact ih (State.free_steady h (2 ^ 58))

theorem sendStream_steady {z s : State} (h : Steady z s) (x1 x2) : Steady z (sendStream s x1 x2) := by
  unfold sendStream; try dsimp only
  with_reducible repeat' first
    | exact h | assumption | apply newCoders_steady | apply State.setTrunk_steady | apply trunkLanes_steady | apply State.emit_steady
    | apply Steady.ite | apply Steady.ite1 | apply Steady.ite2 | apply Steady.foldl | apply Steady.foldl1 | apply Steady.foldl2
    | intro _ _ _ _ | intro _ _ _ | (intro _ _; try dsimp only) | (apply Steady.core; dsimp only; apply SteadyCore.same)
    | (refine Steady.snd ?_ (by assumption); apply newCoders_steady) | split

end Sys2Proof.Machine
end

