-- ==== Sys2Proof/Laws/SteadyTables.lean ====
section
/-! SUPPORT. What the tables, the classifier and the rills leave alone: the queue, the canonical register map, the epoch's floor. -/

namespace Sys2Proof.Machine

theorem State.modEm_steady {z s : State} (h : Steady z s) (x1 x2) : Steady z (State.modEm s x1 x2) := by
  unfold State.modEm; dsimp only
  with_reducible repeat' first
    | exact h | assumption | apply State.setCls_steady

theorem emInsert_steady {z s : State} (h : Steady z s) {g e k t} (q : emInsert s g e = some (k, t)) : Steady z t := by
  unfold emInsert at q
  rw [Option.map_eq_some_iff] at q
  obtain ⟨u, _, e⟩ := q
  cases e
  exact State.modEm_steady (State.useFree_steady h) _ _

theorem State.setLpm_steady {z s : State} (h : Steady z s) (x1 x2) : Steady z (State.setLpm s x1 x2) := by
  unfold State.setLpm
  with_reducible repeat' first
    | exact h | assumption | apply Steady.ite | (apply Steady.core; dsimp only; apply SteadyCore.same)

theorem keepOld_steady {z s : State} (h : Steady z s) (x1 x2) : Steady z (keepOld s x1 x2) := by
  unfold keepOld
  with_reducible repeat' first
    | exact h | assumption | apply State.setCls_steady | apply Steady.ite | apply Steady.foldl | apply Steady.foldl1 | apply Steady.foldl2
    | intro _ _ _ _ | intro _ _ _ | (intro _ _; try dsimp only) | (apply Steady.core; dsimp only; apply SteadyCore.same)

theorem swapReplica_steady {z s : State} (h : Steady z s) : Steady z (swapReplica s) := by
  unfold swapReplica
  with_reducible repeat' first
    | exact h | assumption | apply State.setCls_steady | apply Steady.ite | intro _ _ _ _ | intro _ _ _ | (intro _ _; try dsimp only)
    | (apply Steady.core; dsimp only; apply SteadyCore.same) | split

theorem learnRequest_steady {z s : State} (h : Steady z s) (x1 x2) : Steady z (learnRequest s x1 x2) := by
  unfold learnRequest; dsimp only
  with_reducible repeat' first
    | exact h | assumption | apply State.setCls_steady | apply State.alarm_steady | apply State.count_steady | apply Steady.ite

theorem stationMove_steady {z s : State} (h : Steady z s) (x1 x2 x3 x4) : Steady z (stationMove s x1 x2 x3 x4) := by
  unfold stationMove; dsimp only
  with_reducible repeat' first
    | exact h | assumption | apply State.count_steady | apply State.modEm_steady | apply State.alarm_steady | apply Steady.ite

theorem execLearnApply_steady {z s : State} (h : Steady z s) (g) : SteadyRes z (execLearnApply g s) := by
  unfold execLearnApply; dsimp only
  split
  · exact SteadyRes.next h
  · have hc : ∀ c, Steady z (s.setCls g c) := fun c => State.setCls_steady h _ _
    split
    · split
      · exact SteadyRes.next (State.count_steady (emInsert_steady (hc _) (by assumption)) _)
      · exact SteadyRes.next (State.alarm_steady (State.count_steady (State.useFree_steady (hc _)) _) _ _)
    · refine SteadyRes.ite (SteadyRes.next (State.modEm_steady (hc _) _ _)) (SteadyRes.ite (SteadyRes.ite (SteadyRes.next ?_) (SteadyRes.next ?_))
        (SteadyRes.ite (SteadyRes.next (hc _)) (SteadyRes.next (stationMove_steady (hc _) _ _ _ _))))
      · exact State.cutFrame_steady (State.alarm_steady (State.count_steady (hc _) _) _ _) _
      · exact State.alarm_steady (State.count_steady (hc _) _) _ _

theorem execPinHoldExpiry_steady {z s : State} (h : Steady z s) (x0 x1) : SteadyRes z (execPinHoldExpiry x0 x1 s) := by
  unfold execPinHoldExpiry; dsimp only
  with_reducible repeat' first
    | exact h | assumption | apply SteadyRes.next | apply SteadyRes.ite | apply State.modEm_steady

theorem execMoveWindowRestart_steady {z s : State} (h : Steady z s) (x0) : SteadyRes z (execMoveWindowRestart x0 s) := by
  unfold execMoveWindowRestart; dsimp only
  with_reducible repeat' first
    | exact h | assumption | apply SteadyRes.next | apply SteadyRes.ite | apply State.modEm_steady

theorem sweepVisit_steady {z s : State} (h : Steady z s) (x1 x2 x3) : Steady z (sweepVisit s x1 x2 x3) := by
  unfold sweepVisit; try dsimp only
  with_reducible repeat' first
    | exact h | assumption | apply State.modEm_steady | apply State.count_steady | apply Steady.ite | intro _ _ _ _ | intro _ _ _
    | (intro _ _; try dsimp only) | (apply Steady.core; dsimp only; apply SteadyCore.same) | split

theorem execAgeingSweepVisit_steady {z s : State} (h : Steady z s) (x0 x1 x2) : SteadyRes z (execAgeingSweepVisit x0 x1 x2 s) := by
  unfold execAgeingSweepVisit
  with_reducible repeat' first
    | exact h | assumption | apply SteadyRes.next | apply SteadyRes.ite | apply sweepVisit_steady | apply Steady.ite | split

theorem execTrieWordRepair_steady {z s : State} (h : Steady z s) (x0) : SteadyRes z (execTrieWordRepair x0 s) := by
  unfold execTrieWordRepair; dsimp only
  with_reducible repeat' first
    | exact h | assumption | apply SteadyRes.next | apply SteadyRes.ite | apply State.setCls_steady

theorem tblIssue_steady {z s : State} (h : Steady z s) (g c op) (hop : ∀ y, Steady z y → Steady z (op y).state) : Steady z (tblIssue s g c op) := by
  unfold tblIssue; dsimp only
  refine State.access_steady h _ _ (fun y hy => Steady.ite hy (Steady.ite (State.setFld_steady hy _ _ _) ?_))
  refine State.setFld_steady (State.setCls_steady ?_ _ _) _ _ _
  split
  · exact keepOld_steady (hop y hy) _ _
  · exact hop y hy

theorem tblReadOp_steady {z s : State} (h : Steady z s) (g t) : Steady z (tblReadOp g t s).state := by
  unfold tblReadOp; try dsimp only
  repeat' (first | with_reducible exact h | with_reducible exact State.modEm_steady h _ _ | with_reducible exact State.setLpm_steady h _ _ |
    with_reducible exact emInsert_steady h (by assumption) | with_reducible exact State.useFree_steady h |
    exact Steady.foldl (fun x a hx => sweepVisit_steady hx _ _) h | split)

theorem tblWriteOp_steady {z s : State} (h : Steady z s) (g t) : Steady z (tblWriteOp g t s).state := by
  unfold tblWriteOp; try dsimp only
  repeat' (first | with_reducible exact h | with_reducible exact State.modEm_steady h _ _ | with_reducible exact State.setLpm_steady h _ _ |
    with_reducible exact emInsert_steady h (by assumption) | with_reducible exact State.useFree_steady h |
    exact Steady.foldl (fun x a hx => sweepVisit_steady hx _ _) h | split)

theorem tblInsertOp_steady {z s : State} (h : Steady z s) (g t b) : Steady z (tblInsertOp g t b s).state := by
  unfold tblInsertOp; try dsimp only
  repeat' (first | with_reducible exact h | with_reducible exact State.modEm_steady h _ _ | with_reducible exact State.setLpm_steady h _ _ |
    with_reducible exact emInsert_steady h (by assumption) | with_reducible exact State.useFree_steady h |
    exact Steady.foldl (fun x a hx => sweepVisit_steady hx _ _) h | split)

theorem tblDeleteOp_steady {z s : State} (h : Steady z s) (g t b) : Steady z (tblDeleteOp g t b s).state := by
  unfold tblDeleteOp; try dsimp only
  repeat' (first | with_reducible exact h | with_reducible exact State.modEm_steady h _ _ | with_reducible exact State.setLpm_steady h _ _ |
    with_reducible exact emInsert_steady h (by assumption) | with_reducible exact State.useFree_steady h |
    exact Steady.foldl (fun x a hx => sweepVisit_steady hx _ _) h | split)

theorem tblSearchOp_steady {z s : State} (h : Steady z s) (g t) : Steady z (tblSearchOp g t s).state := by
  unfold tblSearchOp; try dsimp only
  repeat' (first | with_reducible exact h | with_reducible exact State.modEm_steady h _ _ | with_reducible exact State.setLpm_steady h _ _ |
    with_reducible exact emInsert_steady h (by assumption) | with_reducible exact State.useFree_steady h |
    exact Steady.foldl (fun x a hx => sweepVisit_steady hx _ _) h | split)

theorem tblFlushOp_steady {z s : State} (h : Steady z s) (g t f) : Steady z (tblFlushOp g t f s).state := by
  unfold tblFlushOp; try dsimp only
  repeat' (first | with_reducible exact h | with_reducible exact State.modEm_steady h _ _ | with_reducible exact State.setLpm_steady h _ _ |
    with_reducible exact emInsert_steady h (by assumption) | with_reducible exact State.useFree_steady h |
    exact Steady.foldl (fun x a hx => sweepVisit_steady hx _ _) h | split)

theorem tblAgeOp_steady {z s : State} (h : Steady z s) (g t) : Steady z (tblAgeOp g t s).state := by
  unfold tblAgeOp
  split
  · exact Steady.foldl (fun x a hx => sweepVisit_steady hx _ _ _) h
  · exact h

theorem execTblRead_steady {z s : State} (h : Steady z s) (g t) : SteadyRes z (execTblRead g t s) :=
  SteadyRes.next (tblIssue_steady h _ _ _ (fun y hy => tblReadOp_steady hy _ _))

theorem execTblWrite_steady {z s : State} (h : Steady z s) (g t) : SteadyRes z (execTblWrite g t s) :=
  SteadyRes.next (tblIssue_steady h _ _ _ (fun y hy => tblWriteOp_steady hy _ _))

theorem execTblInsert_steady {z s : State} (h : Steady z s) (g t) : SteadyRes z (execTblInsert g t s) :=
  SteadyRes.next (tblIssue_steady h _ _ _ (fun y hy => tblInsertOp_steady hy _ _ _))

theorem execTblDelete_steady {z s : State} (h : Steady z s) (g t) : SteadyRes z (execTblDelete g t s) :=
  SteadyRes.next (tblIssue_steady h _ _ _ (fun y hy => tblDeleteOp_steady hy _ _ _))

theorem execTblSearch_steady {z s : State} (h : Steady z s) (g t) : SteadyRes z (execTblSearch g t s) :=
  SteadyRes.next (tblIssue_steady h _ _ _ (fun y hy => tblSearchOp_steady hy _ _))

theorem execTblFlush_steady {z s : State} (h : Steady z s) (g t f) : SteadyRes z (execTblFlush g t f s) :=
  SteadyRes.next (tblIssue_steady h _ _ _ (fun y hy => tblFlushOp_steady hy _ _ _))

theorem execTblAge_steady {z s : State} (h : Steady z s) (g t) : SteadyRes z (execTblAge g t s) :=
  SteadyRes.next (tblIssue_steady h _ _ _ (fun y hy => tblAgeOp_steady hy _ _))

theorem execTblCmdDone_steady {z s : State} (h : Steady z s) (x0) : SteadyRes z (execTblCmdDone x0 s) := by
  unfold execTblCmdDone; try dsimp only
  with_reducible repeat' first
    | exact h | assumption | apply SteadyRes.next | apply SteadyRes.ite | apply State.setCls_steady | apply State.setFld_steady
    | apply State.setWin_steady | apply Steady.ite | apply Steady.ite1 | apply Steady.ite2 | apply Steady.foldl | apply Steady.foldl1
    | apply Steady.foldl2 | intro _ _ _ _ | intro _ _ _ | (intro _ _; try dsimp only)
    | (apply Steady.core; dsimp only; apply SteadyCore.same) | split

theorem execFrameArrival_steady {z s : State} (h : Steady z s) (x0 x1 x2) : SteadyRes z (execFrameArrival x0 x1 x2 s) := by
  unfold execFrameArrival; dsimp only
  with_reducible repeat' first
    | exact h | assumption | apply SteadyRes.next | apply SteadyRes.ite | apply wakeDrop_steady | apply State.count_steady
    | apply State.setFld_steady | apply State.setFrame_steady | apply Steady.ite | (apply Steady.core; dsimp only; apply SteadyCore.same)

theorem failJobs_steady {z s : State} (h : Steady z s) (f l) : Steady z (failJobs s f l) := by
  induction l with
  | nil => exact h
  | cons j l ih =>
    unfold failJobs; dsimp only
    exact Steady.ite ih (Steady.ite (State.dropJob_steady ih _) (Steady.ite (State.setJob_steady ih _ _) (State.setJob_steady ih _ _)))

theorem failFrame_steady {z s : State} (h : Steady z s) (x1) : Steady z (failFrame s x1) := by
  unfold failFrame; dsimp only
  with_reducible repeat' first
    | exact h | assumption | apply State.setFrame_steady | apply failJobs_steady | apply Steady.ite

theorem goodFrame_steady {z s : State} (h : Steady z s) (x1 x2) : Steady z (goodFrame s x1 x2) := by
  unfold goodFrame; dsimp only
  with_reducible repeat' first
    | exact h | assumption | apply State.countN_steady | apply State.count_steady | apply State.setFrame_steady | apply learnRequest_steady
    | apply Steady.ite | split

theorem lateMalformed_steady {z s : State} (h : Steady z s) (x1 x2) : Steady z (lateMalformed s x1 x2) := by
  unfold lateMalformed; try dsimp only
  with_reducible repeat' first
    | exact h | assumption | apply State.count_steady | apply State.cutFrame_steady | apply Steady.ite | intro _ _ _ _ | intro _ _ _
    | (intro _ _; try dsimp only) | split

theorem execFrameEnd_steady {z s : State} (h : Steady z s) (x0 x1 x2 x3 x4) : SteadyRes z (execFrameEnd x0 x1 x2 x3 x4 s) := by
  unfold execFrameEnd; try dsimp only
  with_reducible repeat' first
    | exact h | assumption | apply SteadyRes.next | apply SteadyRes.ite | apply goodFrame_steady | apply lateMalformed_steady
    | apply failFrame_steady | apply State.count_steady | apply State.setFld_steady | apply State.setFrame_steady | apply Steady.ite
    | intro _ _ _ _ | intro _ _ _ | (intro _ _; try dsimp only) | (apply Steady.core; dsimp only; apply SteadyCore.same) | split

theorem emLookup_steady {z s : State} (h : Steady z s) (x1 x2 x3) : Steady z (emLookup s x1 x2 x3).2 := by
  unfold emLookup; dsimp only
  with_reducible repeat' first
    | exact h | assumption | apply State.alarm_steady | apply State.count_steady | apply State.modEm_steady | apply Steady.ite
    | apply Steady.ite2 | split

theorem classifyOut_steady {z s : State} (h : Steady z s) (x1 x2 x3 x4) : Steady z (classifyOut s x1 x2 x3 x4).2.2 := by
  unfold classifyOut; try dsimp only
  with_reducible repeat' first
    | exact h | assumption | apply State.setCls_steady | apply State.count_steady | apply emLookup_steady | apply State.alarm_steady
    | apply Steady.ite | apply Steady.ite1 | apply Steady.ite2 | intro _ _ _ _ | intro _ _ _ | (intro _ _; try dsimp only)
    | (apply Steady.core; dsimp only; apply SteadyCore.same) | (refine Steady.snd ?_ (by assumption); apply emLookup_steady) | split

theorem unknownSci_steady {z s : State} (h : Steady z s) (x1 x2) : Steady z (unknownSci s x1 x2).2.2 := by
  unfold unknownSci; dsimp only
  with_reducible repeat' first
    | exact h | assumption | apply State.addLegacy_steady

theorem bridgeIn_steady {z s : State} (h : Steady z s) (x1 x2 x3 x4 x5 x6 x7 x8) : Steady z (bridgeIn s x1 x2 x3 x4 x5 x6 x7 x8).2.2 := by
  unfold bridgeIn; try dsimp only
  with_reducible repeat' first
    | exact h | assumption | apply emLookup_steady | apply Steady.ite | apply Steady.ite1 | apply Steady.ite2 | intro _ _ _ _
    | intro _ _ _ | (intro _ _; try dsimp only) | (apply Steady.core; dsimp only; apply SteadyCore.same)
    | (refine Steady.snd ?_ (by assumption); apply emLookup_steady) | split

theorem classifyIn_steady {z s : State} (h : Steady z s) (x1 x2 x3 x4 x5 x6) : Steady z (classifyIn s x1 x2 x3 x4 x5 x6).2.2 := by
  unfold classifyIn; try dsimp only
  with_reducible repeat' first
    | exact h | assumption | apply emLookup_steady | apply unknownSci_steady | apply bridgeIn_steady | apply Steady.ite
    | apply Steady.ite1 | apply Steady.ite2 | intro _ _ _ _ | intro _ _ _ | (intro _ _; try dsimp only)
    | (refine Steady.snd ?_ (by assumption); apply emLookup_steady) | (refine Steady.third ?_ (by assumption); apply unknownSci_steady)
    | (refine Steady.third ?_ (by assumption); apply bridgeIn_steady) | split

theorem placeResult_steady {z s : State} (h : Steady z s) (x0 x1 x2 x3 x5) : Steady z (placeResult x0 x1 x2 x3 s x5) := by
  unfold placeResult
  with_reducible repeat' first
    | exact h | assumption | apply State.addJob_steady | apply State.count_steady | apply Steady.ite
    | split

theorem placeVerdict_steady {z s : State} (h : Steady z s) (x1 x2 x3 x4 x5) : Steady z (placeVerdict s x1 x2 x3 x4 x5) := by
  unfold placeVerdict; dsimp only
  with_reducible repeat' first
    | exact h | assumption | apply State.count_steady | apply placeResult_steady | apply State.countN_steady | apply Steady.ite
    | apply Steady.foldl | apply Steady.foldl1 | apply Steady.foldl2 | intro _ _ _ _ | (intro _ _ _; try dsimp only)
    | split

theorem keepLearn_steady {z s : State} (h : Steady z s) (x1 x2 x3) : Steady z (keepLearn s x1 x2 x3) := by
  unfold keepLearn; dsimp only
  with_reducible repeat' first
    | exact h | assumption | apply learnRequest_steady | apply State.setFrame_steady | apply Steady.ite
    | split

theorem classifyPort_steady {z s : State} (h : Steady z s) (x1 x2 x3) : Steady z (classifyPort s x1 x2 x3) := by
  unfold classifyPort; try dsimp only
  with_reducible repeat' first
    | exact h | assumption | apply State.count_steady | apply placeResult_steady | apply classifyOut_steady | apply classifyIn_steady
    | apply keepLearn_steady | apply placeVerdict_steady | apply Steady.ite | apply Steady.ite1 | apply Steady.ite2 | intro _ _ _ _
    | intro _ _ _ | (intro _ _; try dsimp only) | (apply Steady.core; dsimp only; apply SteadyCore.same)
    | (refine Steady.third ?_ (by assumption); apply classifyOut_steady)
    | (refine Steady.third ?_ (by assumption); apply classifyIn_steady) | split

theorem classifyTrib_steady {z s : State} (h : Steady z s) (x1) : Steady z (classifyTrib s x1) := by
  unfold classifyTrib; try dsimp only
  with_reducible repeat' first
    | exact h | assumption | apply State.count_steady | apply placeResult_steady | apply State.addJob_steady | apply Steady.ite
    | intro _ _ _ _ | intro _ _ _ | (intro _ _; try dsimp only) | (apply Steady.core; dsimp only; apply SteadyCore.same) | split

theorem execHeaderRecordClassify_steady {z s : State} (h : Steady z s) (x0 x1 x2) : SteadyRes z (execHeaderRecordClassify x0 x1 x2 s) := by
  unfold execHeaderRecordClassify; try dsimp only
  with_reducible repeat' first
    | exact h | assumption | apply SteadyRes.next | apply SteadyRes.ite | apply classifyPort_steady | apply State.setFrame_steady
    | apply classifyTrib_steady | apply Steady.ite | intro _ _ _ _ | intro _ _ _ | (intro _ _; try dsimp only)
    | (apply Steady.core; dsimp only; apply SteadyCore.same) | split

theorem egressCount_steady {z s : State} (h : Steady z s) (x1 x2) : Steady z (egressCount s x1 x2) := by
  unfold egressCount
  with_reducible repeat' first
    | exact h | assumption | apply State.count_steady | apply Steady.ite

theorem closedCount_steady {z s : State} (h : Steady z s) (x1) : Steady z (closedCount s x1) := by
  unfold closedCount
  with_reducible repeat' first
    | exact h | assumption | apply egressCount_steady

theorem autoSwitch_steady {z s : State} (h : Steady z s) (x1) : Steady z (autoSwitch s x1) := by
  unfold autoSwitch; dsimp only
  with_reducible repeat' first
    | exact h | assumption | apply switchSlot_steady | apply saAlarm_steady | apply State.setAssoc_steady | apply Steady.ite

theorem takePn_steady {z s : State} (h : Steady z s) (x1 x2) : Steady z (takePn s x1 x2) := by
  unfold takePn; dsimp only
  with_reducible repeat' first
    | exact h | assumption | apply saAlarm_steady | apply changeSlot_steady | apply putSlot_steady | apply mirror_steady | apply Steady.ite

theorem stallAlarm_steady {z s : State} (h : Steady z s) (x1) : Steady z (stallAlarm s x1) := by
  unfold stallAlarm; dsimp only
  with_reducible repeat' first
    | exact h | assumption | apply saAlarm_steady | apply State.alarm_steady | apply Steady.ite

theorem execReservationBoundaryRecord_steady {z s : State} (h : Steady z s) (x0 x1) : SteadyRes z (execReservationBoundaryRecord x0 x1 s) := by
  unfold execReservationBoundaryRecord; dsimp only
  with_reducible repeat' first
    | exact h | assumption | apply SteadyRes.next | apply SteadyRes.ite | apply putSlot_steady | apply Steady.ite | split

theorem startProbe_steady {z s : State} (h : Steady z s) (x1 x2) : Steady z (startProbe s x1 x2) := by
  unfold startProbe; dsimp only
  with_reducible repeat' first
    | exact h | assumption | apply changeSlot_steady | apply Steady.ite | split

theorem rxCheck_steady {z s : State} (h : Steady z s) (i b p) :
    (∀ k n t, rxCheck s i b p = .inl (k, n, t) → Steady z t) ∧ (∀ c t, rxCheck s i b p = .inr (c, t) → Steady z t) := by
  constructor
  · intro k n t e; unfold rxCheck at e; dsimp only at e
    repeat' (split at e <;> try cases e)
    all_goals (first | with_reducible exact h | exact Steady.ite (putSlot_steady (State.setFrame_steady h _ _) _ _ _ _) (State.setFrame_steady h _ _))
  · intro c t e; unfold rxCheck at e; dsimp only at e
    repeat' (split at e <;> try cases e)
    all_goals (first | with_reducible exact h | exact Steady.ite (startProbe_steady h _ _) h)

theorem dropAt_steady {z s : State} (h : Steady z s) (x1 x2 x3) : Steady z (dropAt s x1 x2 x3) := by
  unfold dropAt
  with_reducible repeat' first
    | exact h | assumption | apply State.endJob_steady | apply State.count_steady

theorem takeContext_steady {z s : State} (h : Steady z s) (x1 x2 x3 x4) : Steady z (takeContext s x1 x2 x3 x4) := by
  unfold takeContext; dsimp only
  with_reducible repeat' first
    | exact h | assumption | apply State.setJob_steady | apply State.count_steady | apply Steady.ite
    | (apply Steady.core; dsimp only; apply SteadyCore.same)

theorem dispatchOn_steady {z s : State} (h : Steady z s) (j r m) : Steady z (dispatchOn s j r m) := by
  unfold dispatchOn; dsimp only
  split
  · exact takeContext_steady h _ _ _ _
  · refine Steady.ite (dropAt_steady h _ _ _) ?_
    have ha := autoSwitch_steady h (s := s)
    split
    · exact dropAt_steady (ha _) _ _ _
    · exact dropAt_steady (ha _) _ _ _
    · exact stallAlarm_steady (ha _) _
    · exact takeContext_steady (takePn_steady (ha _) _ _) _ _ _ _
  · refine Steady.ite (dropAt_steady h _ _ _) ?_
    split
    · exact takeContext_steady ((rxCheck_steady h _ _ _).1 _ _ _ (by assumption)) _ _ _ _
    · exact dropAt_steady ((rxCheck_steady h _ _ _).2 _ _ (by assumption)) _ _ _

theorem execDispatch_steady {z s : State} (h : Steady z s) (x0 x1) : SteadyRes z (execDispatch x0 x1 s) := by
  unfold execDispatch; dsimp only
  with_reducible repeat' first
    | exact h | assumption | apply SteadyRes.next | apply SteadyRes.ite | apply State.endJob_steady | apply closedCount_steady
    | apply dropAt_steady | apply dispatchOn_steady | apply Steady.ite | split

theorem readKey_steady {z s : State} (h : Steady z s) (x1) : Steady z (readKey s x1) := by
  unfold readKey; dsimp only
  with_reducible repeat' first
    | exact h | assumption | apply State.setJob_steady | apply Steady.ite | (apply Steady.core; dsimp only; apply SteadyCore.same) | split

theorem settleTep_steady {z s : State} (h : Steady z s) : Steady z (settleTep s) := by
  unfold settleTep
  with_reducible repeat' first
    | exact h | assumption | apply State.setFld_steady | apply Steady.ite | (apply Steady.core; dsimp only; apply SteadyCore.same) | split

theorem execBeatFeed_steady {z s : State} (h : Steady z s) (x0 x1 x2) : SteadyRes z (execBeatFeed x0 x1 x2 s) := by
  unfold execBeatFeed; try dsimp only
  with_reducible repeat' first
    | exact h | assumption | apply SteadyRes.next | apply SteadyRes.ite | apply settleTep_steady | apply State.count_steady
    | apply State.setJob_steady | apply readKey_steady | apply State.cutFrame_steady | apply State.alarm_steady | apply Steady.ite
    | intro _ _ _ _ | intro _ _ _ | (intro _ _; try dsimp only) | (apply Steady.core; dsimp only; apply SteadyCore.same) | split

theorem finishRill_steady {z s : State} (h : Steady z s) (x1 x2) : Steady z (finishRill s x1 x2) := by
  unfold finishRill; try dsimp only
  with_reducible repeat' first
    | exact h | assumption | apply State.setJob_steady | apply State.count_steady | apply Steady.ite | intro _ _ _ _ | intro _ _ _
    | (intro _ _; try dsimp only) | (apply Steady.core; dsimp only; apply SteadyCore.same) | split

theorem flows_steady {z s : State} (h : Steady z s) (x1) : Steady z (flows s x1) := by
  unfold flows
  with_reducible repeat' first
    | exact h | assumption | apply State.setRill_steady | apply Steady.ite | (apply Steady.core; dsimp only; apply SteadyCore.same)
    | split

theorem execRillBeatExit_steady {z s : State} (h : Steady z s) (x0) : SteadyRes z (execRillBeatExit x0 s) := by
  unfold execRillBeatExit; try dsimp only
  with_reducible repeat' first
    | exact h | assumption | apply SteadyRes.next | apply SteadyRes.ite | apply finishRill_steady | apply State.setJob_steady
    | apply flows_steady | apply State.count_steady | apply Steady.ite | intro _ _ _ _ | intro _ _ _ | (intro _ _; try dsimp only)
    | (apply Steady.core; dsimp only; apply SteadyCore.same) | split

theorem settle_steady {z s : State} (h : Steady z s) (x1) : Steady z (settle s x1) := by
  unfold settle; dsimp only
  with_reducible repeat' first
    | exact h | assumption | apply State.releaseCopy_steady | apply State.setJob_steady | apply Steady.ite

theorem passOn_steady {z s : State} (h : Steady z s) (x1 x2) : Steady z (passOn s x1 x2) := by
  unfold passOn; try dsimp only
  with_reducible repeat' first
    | exact h | assumption | apply changeSlot_steady | apply State.setAssoc_steady | apply putSlot_steady | apply mirror_steady
    | apply clearSlot_steady | apply Steady.ite | intro _ _ _ _ | intro _ _ _ | (intro _ _; try dsimp only)
    | (apply Steady.core; dsimp only; apply SteadyCore.same) | split

theorem failOn_steady {z s : State} (h : Steady z s) (x1 x2) : Steady z (failOn s x1 x2) := by
  unfold failOn; try dsimp only
  with_reducible repeat' first
    | exact h | assumption | apply clearSlot_steady | apply saAlarm_steady | apply putSlot_steady | apply Steady.ite | intro _ _ _ _
    | intro _ _ _ | (intro _ _; try dsimp only) | (apply Steady.core; dsimp only; apply SteadyCore.same) | split

theorem judgeSlotPass_steady {z s : State} (h : Steady z s) (x1 x2 x3) : Steady z (judgeSlotPass s x1 x2 x3) := by
  unfold judgeSlotPass; try dsimp only
  with_reducible repeat' first
    | exact h | assumption | apply passOn_steady | apply failOn_steady | apply Steady.ite | intro _ _ _ _ | intro _ _ _
    | (intro _ _; try dsimp only) | split

theorem releaseLearn_steady {z s : State} (h : Steady z s) (x1 x2) : Steady z (releaseLearn s x1 x2) := by
  unfold releaseLearn; dsimp only
  with_reducible repeat' first
    | exact h | assumption | apply State.setFrame_steady | apply learnRequest_steady | apply Steady.ite
    | split

theorem completeAssoc_steady {z s : State} (h : Steady z s) (x1) : Steady z (completeAssoc s x1) := by
  unfold completeAssoc; try dsimp only
  with_reducible repeat' first
    | exact h | assumption | apply putSlot_steady | apply State.count_steady | apply judgeSlotPass_steady | apply releaseLearn_steady
    | apply State.countN_steady | apply Steady.ite | intro _ _ _ _ | intro _ _ _ | (intro _ _; try dsimp only)
    | (apply Steady.core; dsimp only; apply SteadyCore.same) | split

theorem execVerdictReturn_steady {z s : State} (h : Steady z s) (x0) : SteadyRes z (execVerdictReturn x0 s) := by
  unfold execVerdictReturn; dsimp only
  with_reducible repeat' first
    | exact h | assumption | apply SteadyRes.next | apply SteadyRes.ite | apply completeAssoc_steady | apply State.setJob_steady
    | apply settle_steady

theorem startFence_steady {z s : State} (h : Steady z s) (x1 x2 x3) : Steady z (startFence s x1 x2 x3) := by
  unfold startFence; try dsimp only
  with_reducible repeat' first
    | exact h | assumption | apply State.setRill_steady | apply State.setFld_steady | apply Steady.ite | intro _ _ _ _ | intro _ _ _
    | (intro _ _; try dsimp only) | (apply Steady.core; dsimp only; apply SteadyCore.same) | split

theorem rilEnd_steady {z s : State} (h : Steady z s) (x1) : Steady z (rilEnd s x1) := by
  unfold rilEnd
  with_reducible repeat' first
    | exact h | assumption | apply State.setFld_steady

theorem rilCommand_steady {z s : State} (h : Steady z s) (x0 x1) (hx1 : ∀ y0, Steady z y0 → Steady z (x1 y0)) : SteadyRes z (rilCommand x0 x1 s) := by
  unfold rilCommand
  with_reducible repeat' first
    | exact h | assumption | apply SteadyRes.next | apply SteadyRes.ite | apply State.access_steady | apply rilEnd_steady | apply hx1
    | apply Steady.ite | intro _ _ _ _ | intro _ _ _ | (intro _ _; try dsimp only)

theorem execRilWithdraw_steady {z s : State} (h : Steady z s) (x0 x1) : SteadyRes z (execRilWithdraw x0 x1 s) := by
  unfold execRilWithdraw; try dsimp only
  with_reducible repeat' first
    | exact h | assumption | apply SteadyRes.next | apply SteadyRes.ite | apply rilCommand_steady | apply rilEnd_steady
    | apply State.setRill_steady | apply startFence_steady | apply Steady.ite | intro _ _ _ _ | intro _ _ _ | (intro _ _; try dsimp only)
    | (apply Steady.core; dsimp only; apply SteadyCore.same) | split

theorem execRilRestore_steady {z s : State} (h : Steady z s) (x0) : SteadyRes z (execRilRestore x0 s) := by
  unfold execRilRestore; try dsimp only
  with_reducible repeat' first
    | exact h | assumption | apply SteadyRes.next | apply SteadyRes.ite | apply rilCommand_steady | apply rilEnd_steady
    | apply State.setRill_steady | apply startFence_steady | apply Steady.ite | intro _ _ _ _ | intro _ _ _ | (intro _ _; try dsimp only)
    | (apply Steady.core; dsimp only; apply SteadyCore.same) | split

theorem execRillFault_steady {z s : State} (h : Steady z s) (x0 x1 x2) : SteadyRes z (execRillFault x0 x1 x2 s) := by
  unfold execRillFault; try dsimp only
  with_reducible repeat' first
    | exact h | assumption | apply SteadyRes.next | apply SteadyRes.ite | apply State.alarm_steady | apply State.setRill_steady
    | apply startFence_steady | apply Steady.ite | intro _ _ _ _ | intro _ _ _ | (intro _ _; try dsimp only)
    | (apply Steady.core; dsimp only; apply SteadyCore.same) | split

theorem execSpareInService_steady {z s : State} (h : Steady z s) (x0) : SteadyRes z (execSpareInService x0 s) := by
  unfold execSpareInService; dsimp only
  with_reducible repeat' first
    | exact h | assumption | apply SteadyRes.next | apply SteadyRes.ite | apply State.setRill_steady | apply Steady.ite | split

theorem noteRill_steady {z k : State} (h : Steady z k) (s x1) : Steady z (noteRill s x1 k) := by
  unfold noteRill
  with_reducible repeat' first
    | exact h | assumption | apply diagnose_steady | apply Steady.ite

theorem fenceDone_steady {z s : State} (h : Steady z s) (x1) : Steady z (fenceDone s x1) := by
  unfold fenceDone; dsimp only
  with_reducible repeat' first
    | exact h | assumption | apply noteRill_steady | apply State.setRill_steady | apply State.setFld_steady | apply Steady.ite

theorem execFenceComplete_steady {z s : State} (h : Steady z s) (x0) : SteadyRes z (execFenceComplete x0 s) := by
  unfold execFenceComplete
  with_reducible repeat' first
    | exact h | assumption | apply SteadyRes.next | apply SteadyRes.ite | apply fenceDone_steady

theorem loseJob_steady {z s : State} (h : Steady z s) (x1) : Steady z (loseJob s x1) := by
  unfold loseJob; try dsimp only
  with_reducible repeat' first
    | exact h | assumption | apply settle_steady | apply completeAssoc_steady | apply State.setJob_steady | apply State.count_steady
    | apply putSlot_steady | apply releaseLearn_steady | apply judgeSlotPass_steady | apply State.alarm_steady | apply Steady.ite
    | intro _ _ _ _ | intro _ _ _ | (intro _ _; try dsimp only) | (apply Steady.core; dsimp only; apply SteadyCore.same) | split

theorem execFenceDeadline_steady {z s : State} (h : Steady z s) (x0) : SteadyRes z (execFenceDeadline x0 s) := by
  unfold execFenceDeadline
  with_reducible repeat' first
    | exact h | assumption | apply SteadyRes.next | apply SteadyRes.ite | apply settleTep_steady | apply fenceDone_steady
    | apply loseJob_steady | apply Steady.ite | apply Steady.foldl | apply Steady.foldl1 | apply Steady.foldl2 | intro _ _ _ _
    | intro _ _ _ | (intro _ _; try dsimp only) | split

theorem execKatRun_steady {z s : State} (h : Steady z s) (x0 x1) : SteadyRes z (execKatRun x0 x1 s) := by
  unfold execKatRun; dsimp only
  with_reducible repeat' first
    | exact h | assumption | apply SteadyRes.next | apply SteadyRes.ite | apply State.setFld_steady | apply State.setRill_steady
    | apply State.alarm_steady

theorem endKat_steady {z s : State} (h : Steady z s) (x1) : Steady z (endKat s x1) := by
  unfold endKat; try dsimp only
  with_reducible repeat' first
    | exact h | assumption | apply noteRill_steady | apply State.setRill_steady | apply State.setFld_steady | apply State.alarm_steady | apply Steady.ite
    | intro _ _ _ _ | intro _ _ _ | (intro _ _; try dsimp only) | (apply Steady.core; dsimp only; apply SteadyCore.same) | split

theorem tickRills_steady {z s : State} (h : Steady z s) : Steady z (tickRills s) := by
  unfold tickRills
  with_reducible repeat' first
    | exact h | assumption | apply settleTep_steady | apply endKat_steady | apply Steady.ite | apply Steady.foldl | apply Steady.foldl1
    | apply Steady.foldl2 | intro _ _ _ _ | intro _ _ _ | (intro _ _; try dsimp only)

theorem execRillWakeComplete_steady {z s : State} (h : Steady z s) (x0) : SteadyRes z (execRillWakeComplete x0 s) := by
  unfold execRillWakeComplete; dsimp only
  with_reducible repeat' first
    | exact h | assumption | apply SteadyRes.next | apply SteadyRes.ite | apply State.setRill_steady

theorem tepCommand_steady {z s : State} (h : Steady z s) (k) (hk : ∀ y, Steady z y → Steady z (k y)) : SteadyRes z (tepCommand k s) := by
  unfold tepCommand
  exact SteadyRes.next (State.access_steady h _ _ (fun y hy => Steady.ite hy (hk y hy)))

theorem tepEnd_steady {z s : State} (h : Steady z s) (x1) : Steady z (tepEnd s x1) := by
  unfold tepEnd
  with_reducible repeat' first
    | exact h | assumption | apply State.setFld_steady | apply Steady.ite

theorem replaceTep_steady {z s : State} (h : Steady z s) (x1 x2) : Steady z (replaceTep s x1 x2) := by
  unfold replaceTep
  with_reducible repeat' first
    | exact h | assumption | apply settleTep_steady | apply State.setFld_steady | apply Steady.ite
    | (apply Steady.core; dsimp only; apply SteadyCore.same)

theorem execTepRead_steady {z s : State} (h : Steady z s) (x0) : SteadyRes z (execTepRead x0 s) := by
  unfold execTepRead
  exact tepCommand_steady h _ (fun y hy => tepEnd_steady (State.setWin_steady hy _ _ _) _)

theorem execTepWrite_steady {z s : State} (h : Steady z s) (x0) : SteadyRes z (execTepWrite x0 s) := by
  unfold execTepWrite
  exact tepCommand_steady h _ (fun y hy => Steady.ite (replaceTep_steady hy _ _) (tepEnd_steady hy _))

theorem execTepClear_steady {z s : State} (h : Steady z s) (x0) : SteadyRes z (execTepClear x0 s) := by
  unfold execTepClear
  exact tepCommand_steady h _ (fun y hy => replaceTep_steady hy _ _)

end Sys2Proof.Machine
end

