-- ==== Sys2Proof/Laws/SteadyTime.lean ====
section
/-! SUPPORT. What the counters and the time bases leave alone: the queue, the canonical register map, the epoch's floor. -/

namespace Sys2Proof.Machine

theorem skipImage_steady {z s : State} (h : Steady z s) : Steady z (skipImage s) := by
  unfold skipImage; dsimp only
  with_reducible repeat' first
    | exact h | assumption | apply Steady.ite | (apply Steady.core; dsimp only; apply SteadyCore.same)

theorem takeSnapshot_steady {z s : State} (h : Steady z s) (x1 x2 x3) : Steady z (takeSnapshot s x1 x2 x3) := by
  unfold takeSnapshot; dsimp only
  with_reducible repeat' first
    | exact h | assumption | apply skipImage_steady | apply State.emit_steady | apply Steady.ite
    | (apply Steady.core; dsimp only; apply SteadyCore.same)

theorem execSnapshotImageDone_steady {z s : State} (h : Steady z s) (x0) : SteadyRes z (execSnapshotImageDone x0 s) := by
  unfold execSnapshotImageDone; dsimp only
  with_reducible repeat' first
    | exact h | assumption | apply SteadyRes.next | apply SteadyRes.ite | apply State.emit_steady | apply State.alarm_steady
    | apply Steady.ite | (apply Steady.core; dsimp only; apply SteadyCore.same) | split

theorem execSnapshotInstant_steady {z s : State} (h : Steady z s) : SteadyRes z (execSnapshotInstant s) := by
  unfold execSnapshotInstant; dsimp only
  with_reducible repeat' first
    | exact h | assumption | apply SteadyRes.next | apply SteadyRes.ite | apply takeSnapshot_steady | apply State.reach_steady

theorem stepSnap_steady {z s : State} (h : Steady z s) (x1 x2 x3) : Steady z (stepSnap s x1 x2 x3) := by
  unfold stepSnap
  with_reducible repeat' first
    | exact h | assumption | apply takeSnapshot_steady | apply Steady.ite

theorem cntEnd_steady {z s : State} (h : Steady z s) (x1) : Steady z (cntEnd s x1) := by
  unfold cntEnd
  with_reducible repeat' first
    | exact h | assumption | apply State.setFld_steady

theorem cntInstant_steady {z s : State} (h : Steady z s) (x0) : Steady z (cntInstant x0 s) := by
  unfold cntInstant; dsimp only
  with_reducible repeat' first
    | exact h | assumption | apply State.access_steady | apply cntEnd_steady | apply Steady.ite | intro _ _ _ _ | intro _ _ _
    | (intro _ _; try dsimp only) | (apply Steady.core; dsimp only; apply SteadyCore.same)

theorem execCntSnap_steady {z s : State} (h : Steady z s) : SteadyRes z (execCntSnap s) := by
  unfold execCntSnap
  with_reducible repeat' first
    | exact h | assumption | apply SteadyRes.next | apply SteadyRes.ite | apply cntInstant_steady

theorem execCntFreeze_steady {z s : State} (h : Steady z s) : SteadyRes z (execCntFreeze s) := by
  unfold execCntFreeze
  with_reducible repeat' first
    | exact h | assumption | apply SteadyRes.next | apply SteadyRes.ite | apply cntInstant_steady

theorem execCntThaw_steady {z s : State} (h : Steady z s) : SteadyRes z (execCntThaw s) := by
  unfold execCntThaw
  with_reducible repeat' first
    | exact h | assumption | apply SteadyRes.next | apply SteadyRes.ite | apply cntInstant_steady

theorem execCntClearWrap_steady {z s : State} (h : Steady z s) (x0) : SteadyRes z (execCntClearWrap x0 s) := by
  unfold execCntClearWrap
  with_reducible repeat' first
    | exact h | assumption | apply SteadyRes.next | apply SteadyRes.ite | apply State.access_steady | apply cntEnd_steady | apply Steady.ite
    | intro _ _ _ _ | intro _ _ _ | (intro _ _; try dsimp only) | (apply Steady.core; dsimp only; apply SteadyCore.same)

theorem atInstant_steady {z s : State} (h : Steady z s) (x0 x2 x3) : Steady z (atInstant x0 s x2 x3) := by
  unfold atInstant
  with_reducible repeat' first
    | exact h | assumption | apply takeSnapshot_steady | apply Steady.ite | (apply Steady.core; dsimp only; apply SteadyCore.same) | split

theorem snap_steady {z u : State} (h : Steady z u) (x) : Steady z { u with snap := x } := by
  apply Steady.core; dsimp only; exact SteadyCore.same h

theorem execCommandedInstant_steady {z s : State} (h : Steady z s) : SteadyRes z (execCommandedInstant s) := by
  unfold execCommandedInstant
  split
  · exact SteadyRes.next h
  · have hs := fun b t x => snap_steady (State.reach_steady h b t) x
    refine SteadyRes.next ?_
    unfold atInstant
    split
    · exact takeSnapshot_steady (hs _ _ _) _ _ _
    · exact snap_steady (hs _ _ _) _

theorem execCntArmIdxWrite_steady {z s : State} (h : Steady z s) (x0 x1) : SteadyRes z (execCntArmIdxWrite x0 x1 s) := by
  unfold execCntArmIdxWrite; dsimp only
  with_reducible repeat' first
    | exact h | assumption | apply SteadyRes.next | apply SteadyRes.ite | apply State.access_steady | apply cntEnd_steady
    | apply State.setReg_steady | apply Steady.ite | intro _ _ _ _ | intro _ _ _ | (intro _ _; try dsimp only)
    | (apply Steady.core; dsimp only; apply SteadyCore.same)

theorem execArmFire_steady {z s : State} (h : Steady z s) (x0) : SteadyRes z (execArmFire x0 s) := by
  unfold execArmFire; dsimp only
  with_reducible repeat' first
    | exact h | assumption | apply SteadyRes.next | apply SteadyRes.ite | apply State.interrupt_steady | apply State.setFld_steady
    | apply Steady.ite | (apply Steady.core; dsimp only; apply SteadyCore.same)

theorem latchHigh_steady {z s : State} (h : Steady z s) (x1 x2) : Steady z (latchHigh s x1 x2) := by
  unfold latchHigh; dsimp only
  with_reducible repeat' first
    | exact h | assumption | apply Steady.ite | (apply Steady.core; dsimp only; apply SteadyCore.same)

theorem readLow_steady {z s : State} (h : Steady z s) (x0 x1 x2 x3) : Steady z (readLow x0 x1 x2 x3 s) := by
  unfold readLow
  with_reducible repeat' first
    | exact h | assumption | apply State.emit_steady | apply State.raiseErr_steady | apply latchHigh_steady | apply Steady.ite

theorem execCntRdLoRead_steady {z s : State} (h : Steady z s) : SteadyRes z (execCntRdLoRead s) := by
  unfold execCntRdLoRead
  with_reducible repeat' first
    | exact h | assumption | apply SteadyRes.next | apply SteadyRes.ite | apply readLow_steady

theorem execLegLoRead_steady {z s : State} (h : Steady z s) (x0) : SteadyRes z (execLegLoRead x0 s) := by
  unfold execLegLoRead; dsimp only
  with_reducible repeat' first
    | exact h | assumption | apply SteadyRes.next | apply SteadyRes.ite | apply readLow_steady

theorem tickBases_steady {z s : State} (h : Steady z s) : Steady z (tickBases s) := by
  unfold tickBases
  with_reducible repeat' first
    | exact h | assumption | apply Steady.ite | apply Steady.foldl | apply Steady.foldl1 | apply Steady.foldl2 | intro _ _ _ _
    | (intro _ _ _; try dsimp only) | (apply Steady.core; dsimp only; apply SteadyCore.same)

theorem tickLocal_steady {z s : State} (h : Steady z s) : Steady z (tickLocal s) := by
  unfold tickLocal
  with_reducible repeat' first
    | exact h | assumption | apply Steady.ite | intro _ _ _ _ | intro _ _ _ | (intro _ _; try dsimp only)
    | (apply Steady.core; dsimp only; apply SteadyCore.same)

theorem idleTick_steady {z s : State} (h : Steady z s) : Steady z (idleTick s) := by
  unfold idleTick
  with_reducible repeat' first
    | exact h | assumption | apply swapReplica_steady | apply tickRills_steady | apply finishRelease_steady | apply tickLanes_steady
    | apply tickLocal_steady | apply tickBases_steady | apply Steady.ite | split

theorem execTbIncrWrite_steady {z s : State} (h : Steady z s) (x0 x1) : SteadyRes z (execTbIncrWrite x0 x1 s) := by
  unfold execTbIncrWrite
  with_reducible repeat' first
    | exact h | assumption | apply SteadyRes.next | apply SteadyRes.ite | apply State.access_steady | apply State.setReg_steady
    | apply State.alarm_steady | apply Steady.ite | intro _ _ _ _ | intro _ _ _ | (intro _ _; try dsimp only)

theorem tbEnd_steady {z s : State} (h : Steady z s) (x1 x2) : Steady z (tbEnd s x1 x2) := by
  unfold tbEnd
  with_reducible repeat' first
    | exact h | assumption | apply State.setFld_steady

theorem scheduleStep_steady {z s : State} (h : Steady z s) (x1 x2) : Steady z (scheduleStep s x1 x2) := by
  unfold scheduleStep
  with_reducible repeat' first
    | exact h | assumption | apply Steady.ite | (apply Steady.core; dsimp only; apply SteadyCore.same)

theorem execTbStep_steady {z s : State} (h : Steady z s) (x0) : SteadyRes z (execTbStep x0 s) := by
  unfold execTbStep; dsimp only
  with_reducible repeat' first
    | exact h | assumption | apply SteadyRes.next | apply SteadyRes.ite | apply State.access_steady | apply tbEnd_steady
    | apply State.setFld_steady | apply scheduleStep_steady | apply State.alarm_steady | apply Steady.ite | intro _ _ _ _ | intro _ _ _
    | (intro _ _; try dsimp only)

theorem execTbArmForce_steady {z s : State} (h : Steady z s) (x0) : SteadyRes z (execTbArmForce x0 s) := by
  unfold execTbArmForce
  with_reducible repeat' first
    | exact h | assumption | apply SteadyRes.next | apply SteadyRes.ite | apply State.access_steady | apply State.setFld_steady
    | apply tbEnd_steady | apply Steady.ite | intro _ _ _ _ | intro _ _ _ | (intro _ _; try dsimp only)

theorem execArmForceExpiry_steady {z s : State} (h : Steady z s) (x0) : SteadyRes z (execArmForceExpiry x0 s) := by
  unfold execArmForceExpiry
  with_reducible repeat' first
    | exact h | assumption | apply SteadyRes.next | apply SteadyRes.ite | apply State.setFld_steady

theorem setCmpTarget_steady {z s : State} (h : Steady z s) (x1 x2) : Steady z (setCmpTarget s x1 x2) := by
  unfold setCmpTarget
  with_reducible repeat' first
    | exact h | assumption | apply State.setReg_steady

theorem advanceCmp_steady {z s : State} (h : Steady z s) (x1) : Steady z (advanceCmp s x1) := by
  unfold advanceCmp; dsimp only
  with_reducible repeat' first
    | exact h | assumption | apply setCmpTarget_steady | apply Steady.ite | (apply Steady.core; dsimp only; apply SteadyCore.same)

theorem latchWindows_steady {z s : State} (h : Steady z s) : Steady z (latchWindows s) := by
  unfold latchWindows; dsimp only
  with_reducible repeat' first
    | exact h | assumption | apply State.setReg64_steady | apply Steady.ite | apply Steady.foldl | apply Steady.foldl1 | apply Steady.foldl2
    | intro _ _ _ _ | (intro _ _ _; try dsimp only) | (apply Steady.core; dsimp only; apply SteadyCore.same)

theorem loadGates_steady {z s : State} (h : Steady z s) (x1) : Steady z (loadGates s x1) := by
  unfold loadGates; dsimp only
  with_reducible repeat' first
    | exact h | assumption | apply Steady.ite | (apply Steady.core; dsimp only; apply SteadyCore.same)

theorem gates_steady {z u : State} (h : Steady z u) (x) : Steady z { u with gates := x } := by
  apply Steady.core; dsimp only; exact SteadyCore.same h

theorem gateCycle_steady {z s : State} (h : Steady z s) (x1) : Steady z (gateCycle s x1) := by
  unfold gateCycle; try dsimp only
  with_reducible repeat' first
    | exact h | assumption | apply advanceCmp_steady | apply State.reachIn_steady | apply Steady.ite | intro _ _ _ _ | intro _ _ _
    | (intro _ _; try dsimp only) | (apply Steady.core; dsimp only; apply SteadyCore.same) | split

theorem execGateCycleStart_steady {z s : State} (h : Steady z s) (x0) : SteadyRes z (execGateCycleStart x0 s) := by
  unfold execGateCycleStart
  with_reducible repeat' first
    | exact h | assumption | apply SteadyRes.next | apply SteadyRes.ite | apply gateCycle_steady

theorem park_steady {z s : State} (h : Steady z s) (x1) : Steady z (park s x1) := by
  unfold park; try dsimp only
  with_reducible repeat' first
    | exact h | assumption | apply State.setJob_steady | apply Steady.ite | intro _ _ _ _ | intro _ _ _ | (intro _ _; try dsimp only)
    | (apply Steady.core; dsimp only; apply SteadyCore.same)

theorem preemptAtGate_steady {z s : State} (h : Steady z s) (x1) : Steady z (preemptAtGate s x1) := by
  unfold preemptAtGate
  with_reducible repeat' first
    | exact h | assumption | apply park_steady | apply Steady.ite | intro _ _ _ _ | intro _ _ _ | (intro _ _; try dsimp only) | split

theorem execGateEntryBoundary_steady {z s : State} (h : Steady z s) (x0) : SteadyRes z (execGateEntryBoundary x0 s) := by
  unfold execGateEntryBoundary; try dsimp only
  with_reducible repeat' first
    | exact h | assumption | apply SteadyRes.next | apply SteadyRes.ite | apply preemptAtGate_steady | apply State.reachIn_steady
    | apply Steady.ite | intro _ _ _ _ | intro _ _ _ | (intro _ _; try dsimp only) | split

theorem cmpAct_steady {z s : State} (h : Steady z s) (x1) : Steady z (cmpAct s x1) := by
  unfold cmpAct
  with_reducible repeat' first
    | exact h | assumption | apply advanceCmp_steady | apply gateCycle_steady | apply latchWindows_steady | apply State.emit_steady
    | apply Steady.ite | (apply Steady.core; dsimp only; apply SteadyCore.same) | split

theorem reachTarget_steady {z s : State} (h : Steady z s) (x1) : Steady z (reachTarget s x1) := by
  unfold reachTarget; try dsimp only
  with_reducible repeat' first
    | exact h | assumption | apply State.reachIn_steady | apply State.reach_steady | apply Steady.ite | intro _ _ _ _ | intro _ _ _
    | (intro _ _; try dsimp only) | split

theorem execComparatorFire_steady {z s : State} (h : Steady z s) (x0) : SteadyRes z (execComparatorFire x0 s) := by
  unfold execComparatorFire
  with_reducible repeat' first
    | exact h | assumption | apply SteadyRes.next | apply SteadyRes.ite | apply cmpAct_steady | apply State.reachIn_steady
    | apply reachTarget_steady | apply Steady.ite | apply Steady.getD | intro _ _ _ _ | intro _ _ _ | (intro _ _; try dsimp only) | split

theorem execPpsOutPulseEnd_steady {z s : State} (h : Steady z s) (x0) : SteadyRes z (execPpsOutPulseEnd x0 s) := by
  unfold execPpsOutPulseEnd
  with_reducible repeat' first
    | exact h | assumption | apply SteadyRes.next | apply SteadyRes.ite | apply Steady.ite
    | (apply Steady.core; dsimp only; apply SteadyCore.same)

theorem execPpsInEdge_steady {z s : State} (h : Steady z s) : SteadyRes z (execPpsInEdge s) := by
  unfold execPpsInEdge; dsimp only
  with_reducible repeat' first
    | exact h | assumption | apply SteadyRes.next | apply SteadyRes.ite | apply State.setReg_steady | apply State.setFld_steady
    | apply Steady.ite | apply Steady.foldl | apply Steady.foldl1 | apply Steady.foldl2 | intro _ _ _ _ | (intro _ _ _; try dsimp only)

theorem execPpsLoss_steady {z s : State} (h : Steady z s) : SteadyRes z (execPpsLoss s) := by
  unfold execPpsLoss
  with_reducible repeat' first
    | exact h | assumption | apply SteadyRes.next | apply SteadyRes.ite | apply State.alarm_steady

theorem execGpioCapture_steady {z s : State} (h : Steady z s) (x0 x1) : SteadyRes z (execGpioCapture x0 x1 s) := by
  unfold execGpioCapture; try dsimp only
  with_reducible repeat' first
    | exact h | assumption | apply SteadyRes.next | apply SteadyRes.ite | apply State.setFld_steady | apply setCmpTarget_steady
    | apply Steady.ite | intro _ _ _ _ | intro _ _ _ | (intro _ _; try dsimp only)
    | (apply Steady.core; dsimp only; apply SteadyCore.same) | split

theorem execBwWindowBoundary_steady {z s : State} (h : Steady z s) : SteadyRes z (execBwWindowBoundary s) := by
  unfold execBwWindowBoundary; dsimp only
  with_reducible repeat' first
    | exact h | assumption | apply SteadyRes.next | apply SteadyRes.ite | apply advanceCmp_steady | apply latchWindows_steady
    | apply State.reach_steady

theorem stepCmp_steady {z s : State} (h : Steady z s) (x1 x2 x3 x4) : Steady z (stepCmp s x1 x2 x3 x4) := by
  unfold stepCmp; try dsimp only
  with_reducible repeat' first
    | exact h | assumption | apply cmpAct_steady | apply advanceCmp_steady | apply setCmpTarget_steady | apply State.setReg_steady
    | apply Steady.ite | intro _ _ _ _ | intro _ _ _ | (intro _ _; try dsimp only) | split

theorem stepGate_steady {z s : State} (h : Steady z s) (x1 x2 x3 x4) : Steady z (stepGate s x1 x2 x3 x4) := by
  unfold stepGate; try dsimp only
  with_reducible repeat' first
    | exact h | assumption | apply Steady.ite | intro _ _ _ _ | intro _ _ _ | (intro _ _; try dsimp only)
    | (apply Steady.core; dsimp only; apply SteadyCore.same) | split

theorem stepLaunch_steady {z s : State} (h : Steady z s) (x1) : Steady z (stepLaunch s x1) := by
  unfold stepLaunch; dsimp only
  with_reducible repeat' first
    | exact h | assumption | apply State.count_steady | apply State.setJob_steady | apply Steady.ite | apply Steady.foldl
    | apply Steady.foldl1 | apply Steady.foldl2 | intro _ _ _ _ | (intro _ _ _; try dsimp only)
    | split

theorem stepBins_steady {z s : State} (h : Steady z s) (x1) : Steady z (stepBins s x1) := by
  unfold stepBins; dsimp only
  with_reducible repeat' first
    | exact h | assumption | apply Steady.ite | (apply Steady.core; dsimp only; apply SteadyCore.same)

theorem takeStep_steady {z s : State} (h : Steady z s) (x1 x2) : Steady z (takeStep s x1 x2) := by
  unfold takeStep; try dsimp only
  with_reducible repeat' first
    | exact h | assumption | apply stepCmp_steady | apply stepGate_steady | apply stepSnap_steady | apply stepBins_steady
    | apply stepLaunch_steady | apply Steady.ite | apply Steady.foldl | apply Steady.foldl1 | apply Steady.foldl2 | intro _ _ _ _
    | intro _ _ _ | (intro _ _; try dsimp only) | (apply Steady.core; dsimp only; apply SteadyCore.same)

theorem takeStep_if {z s u : State} (h : Steady z s) (hu : Steady z u) (p : Bool) (b m new) :
    SteadyRes z (if p then .next (takeStep { u with steps := m } b new) else .next s) :=
  SteadyRes.ite (SteadyRes.next (takeStep_steady (by apply Steady.core; dsimp only; exact SteadyCore.same hu) _ _)) (SteadyRes.next h)

theorem execStepInstant_steady {z s : State} (h : Steady z s) (b) : SteadyRes z (execStepInstant b s) :=
  takeStep_if h (State.reach_steady h b (kget ({} : StepReq) s.steps b).instant) (kget ({} : StepReq) s.steps b).pending b
    (kset {} (s.reach b (kget ({} : StepReq) s.steps b).instant).steps b {}) ((s.reach b (kget ({} : StepReq) s.steps b).instant).steppedBy b (kget ({} : StepReq) s.steps b).amount)

theorem execTbSnapFracRead_steady {z s : State} (h : Steady z s) (x0) : SteadyRes z (execTbSnapFracRead x0 s) := by
  unfold execTbSnapFracRead; dsimp only
  with_reducible repeat' first
    | exact h | assumption | apply SteadyRes.next | apply SteadyRes.ite | apply State.emit_steady | apply State.raiseErr_steady
    | apply State.setReg_steady

theorem partLocal_steady {z s : State} (h : Steady z s) (x1) : Steady z (partLocal s x1) := by
  unfold partLocal
  with_reducible repeat' first
    | exact h | assumption | apply Steady.ite | apply Steady.foldl | apply Steady.foldl1 | apply Steady.foldl2 | intro _ _ _ _
    | intro _ _ _ | (intro _ _; try dsimp only) | (apply Steady.core; dsimp only; apply SteadyCore.same)

theorem joinLocal_steady {z s : State} (h : Steady z s) (x1) : Steady z (joinLocal s x1) := by
  unfold joinLocal
  with_reducible repeat' first
    | exact h | assumption | apply Steady.ite | apply Steady.foldl | apply Steady.foldl1 | apply Steady.foldl2 | intro _ _ _ _
    | intro _ _ _ | (intro _ _; try dsimp only) | (apply Steady.core; dsimp only; apply SteadyCore.same)

theorem execTimeUnlock_steady {z s : State} (h : Steady z s) (x0) : SteadyRes z (execTimeUnlock x0 s) := by
  unfold execTimeUnlock
  with_reducible repeat' first
    | exact h | assumption | apply SteadyRes.next | apply SteadyRes.ite | apply partLocal_steady | apply State.setFld_steady
    | apply State.alarm_steady | apply Steady.ite | split

theorem execTimeLockRegained_steady {z s : State} (h : Steady z s) (x0) : SteadyRes z (execTimeLockRegained x0 s) := by
  unfold execTimeLockRegained
  with_reducible repeat' first
    | exact h | assumption | apply SteadyRes.next | apply SteadyRes.ite | apply joinLocal_steady | apply State.setFld_steady
    | apply Steady.ite | split

theorem execLaunchEligible_steady {z s : State} (h : Steady z s) (x0) : SteadyRes z (execLaunchEligible x0 s) := by
  unfold execLaunchEligible; try dsimp only
  with_reducible repeat' first
    | exact h | assumption | apply SteadyRes.next | apply SteadyRes.ite | apply State.reachIn_steady | apply State.setJob_steady
    | apply Steady.ite | intro _ _ _ _ | intro _ _ _ | (intro _ _; try dsimp only)
    | (apply Steady.core; dsimp only; apply SteadyCore.same) | split

theorem execLaunchRelease_steady {z s : State} (h : Steady z s) (x0) : SteadyRes z (execLaunchRelease x0 s) := by
  unfold execLaunchRelease; try dsimp only
  with_reducible repeat' first
    | exact h | assumption | apply SteadyRes.next | apply SteadyRes.ite | apply State.reachIn_steady | apply State.count_steady
    | apply State.setJob_steady | apply Steady.ite | intro _ _ _ _ | intro _ _ _ | (intro _ _; try dsimp only)
    | (apply Steady.core; dsimp only; apply SteadyCore.same) | split

theorem execLaunchLate_steady {z s : State} (h : Steady z s) (x0) : SteadyRes z (execLaunchLate x0 s) := by
  unfold execLaunchLate; try dsimp only
  with_reducible repeat' first
    | exact h | assumption | apply SteadyRes.next | apply SteadyRes.ite | apply State.reachIn_steady | apply State.setJob_steady
    | apply State.count_steady | apply Steady.ite | intro _ _ _ _ | intro _ _ _ | (intro _ _; try dsimp only)
    | (apply Steady.core; dsimp only; apply SteadyCore.same) | split

end Sys2Proof.Machine
end

