-- ==== Sys2Proof/Laws/SteadySched.lean ====
section
/-! SUPPORT. What the cistern, the scheduler and the crypto engines leave alone: the queue, the canonical register map, the epoch's floor. -/

namespace Sys2Proof.Machine

theorem allocCells_steady {z s t : State} (h : Steady z s) {o f n l} (q : allocCells s o f n = some (l, t)) : Steady z t := by
  induction n generalizing s t l with
  | zero => unfold allocCells at q; cases q; exact h
  | succ n ih =>
    unfold allocCells at q; dsimp only at q
    split at q
    · cases q
    · rw [Option.map_eq_some_iff] at q
      obtain ⟨x, hx, e⟩ := q
      cases e
      exact ih (by apply Steady.core; dsimp only [State.free]; exact SteadyCore.same h) hx

theorem newKey_steady {z s : State} (h : Steady z s) (x1 x2) : Steady z (newKey s x1 x2) := by
  unfold newKey; dsimp only
  with_reducible repeat' first
    | exact h | assumption | apply State.useFree_steady | apply Steady.ite | (apply Steady.core; dsimp only; apply SteadyCore.same)

theorem rotate_steady {z s : State} (h : Steady z s) (x1) : SteadyOpt z (rotate s x1) := by
  unfold rotate; dsimp only
  with_reducible repeat' first
    | exact h | assumption | exact SteadyOpt.none | apply SteadyOpt.some | apply SteadyOpt.ite | apply newKey_steady | apply Steady.ite
    | apply Steady.foldl | apply Steady.foldl1 | apply Steady.foldl2 | (apply Steady.core; dsimp only; apply SteadyCore.same) | split

theorem tagRegions_steady {z s : State} (h : Steady z s) : Steady z (tagRegions s) := by
  unfold tagRegions; dsimp only
  with_reducible repeat' first
    | exact h | assumption | apply newKey_steady | apply Steady.ite | apply Steady.foldl | apply Steady.foldl1 | apply Steady.foldl2
    | intro _ _ _ _ | (intro _ _ _; try dsimp only) | (apply Steady.core; dsimp only; apply SteadyCore.same) | split

theorem abortSpills_steady {z s : State} (h : Steady z s) : Steady z (abortSpills s) := by
  unfold abortSpills; try dsimp only
  with_reducible repeat' first
    | exact h | assumption | apply State.freeCells_steady | apply State.setFrame_steady | apply Steady.ite | apply Steady.foldl
    | apply Steady.foldl1 | apply Steady.foldl2 | intro _ _ _ _ | intro _ _ _ | (intro _ _; try dsimp only)
    | (apply Steady.core; dsimp only; apply SteadyCore.same)

theorem initCistern_steady {z s : State} (h : Steady z s) : Steady z (initCistern s) := by
  unfold initCistern; try dsimp only
  with_reducible repeat' first
    | exact h | assumption | apply abortSpills_steady | apply tagRegions_steady | apply State.useFree_steady | apply Steady.ite
    | intro _ _ _ _ | intro _ _ _ | (intro _ _; try dsimp only) | (apply Steady.core; dsimp only; apply SteadyCore.same) | split

theorem dropSpilled_steady {z s : State} (h : Steady z s) (x1 x2) : Steady z (dropSpilled s x1 x2) := by
  unfold dropSpilled
  with_reducible repeat' first
    | exact h | assumption | apply State.count_steady | apply State.cutFrame_steady | apply Steady.ite

theorem dropAllSpilled_steady {z s : State} (h : Steady z s) : Steady z (dropAllSpilled s) := by
  unfold dropAllSpilled; dsimp only
  with_reducible repeat' first
    | exact h | assumption | apply State.free_steady | apply dropSpilled_steady | apply Steady.ite | apply Steady.ite2 | apply Steady.foldl
    | apply Steady.foldl1 | apply Steady.foldl2 | intro _ _ _ _ | (intro _ _ _; try dsimp only)

theorem unhold_steady {z s : State} (h : Steady z s) (x1) : Steady z (unhold s x1) := by
  unfold unhold; dsimp only
  with_reducible repeat' first
    | exact h | assumption | apply Steady.ite | apply Steady.foldl | apply Steady.foldl1 | apply Steady.foldl2
    | (apply Steady.core; dsimp only; apply SteadyCore.same)

theorem activate_steady {z s : State} (h : Steady z s) (x1) : Steady z (activate s x1) := by
  unfold activate; dsimp only
  with_reducible repeat' first
    | exact h | assumption | apply Steady.ite | (apply Steady.core; dsimp only; apply SteadyCore.same)

theorem applySub_steady {z s : State} (h : Steady z s) (x1 x2) : Steady z (applySub s x1 x2) := by
  unfold applySub; try dsimp only
  with_reducible repeat' first
    | exact h | assumption | apply activate_steady | apply unhold_steady | apply State.setReg_steady | apply Steady.ite
    | apply Steady.foldl | apply Steady.foldl1 | apply Steady.foldl2 | intro _ _ _ _ | intro _ _ _ | (intro _ _; try dsimp only)
    | (apply Steady.core; dsimp only; apply SteadyCore.same) | split

theorem scheduleEntry_steady {z s : State} (h : Steady z s) (x1 x2) : Steady z (scheduleEntry s x1 x2) := by
  unfold scheduleEntry; dsimp only
  with_reducible repeat' first
    | exact h | assumption | apply unhold_steady | apply Steady.ite | apply Steady.foldl | apply Steady.foldl1 | apply Steady.foldl2
    | (apply Steady.core; dsimp only; apply SteadyCore.same)

theorem applyEntry_steady {z s : State} (h : Steady z s) (x1 x2 x3) : Steady z (applyEntry s x1 x2 x3) := by
  unfold applyEntry
  with_reducible repeat' first
    | exact h | assumption | apply applySub_steady | apply scheduleEntry_steady | apply Steady.ite
    | split

theorem takeDue_steady {z s : State} (h : Steady z s) (x1) : Steady z (takeDue s x1) := by
  unfold takeDue; dsimp only
  with_reducible repeat' first
    | exact h | assumption | apply State.setReg_steady | apply Steady.ite | apply Steady.foldl | apply Steady.foldl1 | apply Steady.foldl2
    | intro _ _ _ _ | (intro _ _ _; try dsimp only) | (apply Steady.core; dsimp only; apply SteadyCore.same) | split

theorem settled_steady {z s : State} (h : Steady z s) : Steady z (settled s) := by
  unfold settled
  with_reducible repeat' first
    | exact h | assumption | apply State.setReg_steady | apply Steady.ite | apply Steady.foldl | apply Steady.foldl1 | apply Steady.foldl2
    | intro _ _ _ _ | (intro _ _ _; try dsimp only) | split

theorem noteOvercommit_steady {z s : State} (h : Steady z s) : Steady z (noteOvercommit s) := by
  unfold noteOvercommit
  with_reducible repeat' first
    | exact h | assumption | apply State.alarm_steady | apply Steady.ite | split

theorem takePort_steady {z s : State} (h : Steady z s) (x1) : Steady z (takePort s x1) := by
  unfold takePort
  with_reducible repeat' first
    | exact h | assumption | apply noteOvercommit_steady | apply takeDue_steady | apply Steady.ite | split

theorem takeService_steady {z s : State} (h : Steady z s) (x1) : Steady z (takeService s x1) := by
  unfold takeService; try dsimp only
  with_reducible repeat' first
    | exact h | assumption | apply noteOvercommit_steady | apply takeDue_steady | apply Steady.ite | intro _ _ _ _ | intro _ _ _
    | (intro _ _; try dsimp only) | (apply Steady.core; dsimp only; apply SteadyCore.same) | split

theorem execBucketRefill_steady {z s : State} (h : Steady z s) (x0) : SteadyRes z (execBucketRefill x0 s) := by
  unfold execBucketRefill; try dsimp only
  with_reducible repeat' first
    | exact h | assumption | apply SteadyRes.next | apply SteadyRes.ite | apply takeService_steady | apply takePort_steady
    | apply Steady.ite | intro _ _ _ _ | intro _ _ _ | (intro _ _; try dsimp only)
    | (apply Steady.core; dsimp only; apply SteadyCore.same) | split

theorem debitFor_steady {z s : State} (h : Steady z s) (x1 x2 x3 x4 x5) : Steady z (debitFor s x1 x2 x3 x4 x5) := by
  unfold debitFor; dsimp only
  with_reducible repeat' first
    | exact h | assumption | apply State.countN_steady | apply Steady.ite | (apply Steady.core; dsimp only; apply SteadyCore.same)

theorem selectEntry_steady {z s : State} (h : Steady z s) (x1 x2 x3 x4 x5) : Steady z (selectEntry s x1 x2 x3 x4 x5) := by
  unfold selectEntry; try dsimp only
  with_reducible repeat' first
    | exact h | assumption | apply debitFor_steady | apply State.setJob_steady | apply State.emptied_steady | apply Steady.ite
    | intro _ _ _ _ | intro _ _ _ | (intro _ _; try dsimp only) | (apply Steady.core; dsimp only; apply SteadyCore.same) | split

theorem dropNever_steady {z s : State} (h : Steady z s) (x1) : Steady z (dropNever s x1) := by
  unfold dropNever; dsimp only
  with_reducible repeat' first
    | exact h | assumption | apply State.endJob_steady | apply State.count_steady | apply Steady.ite | apply Steady.foldl
    | apply Steady.foldl1 | apply Steady.foldl2 | intro _ _ _ _ | (intro _ _ _; try dsimp only)

theorem selectOne_steady {z s : State} (h : Steady z s) (x1) : Steady z (selectOne s x1).1 := by
  unfold selectOne
  with_reducible repeat' first
    | exact h | assumption | apply selectEntry_steady | apply Steady.ite | apply Steady.ite1
    | split

theorem selectNode_steady {z s : State} (h : Steady z s) (n k) : Steady z (selectNode s n k).1 := by
  induction k generalizing s with
  | zero => exact h
  | succ k ih => unfold selectNode; dsimp only; exact Steady.ite1 (ih (selectOne_steady h _)) (selectOne_steady h _)

theorem selectCycle_steady {z s : State} (h : Steady z s) (a b l) : Steady z (selectCycle s a b l) := by
  induction l generalizing s a b with
  | nil => exact h
  | cons n l ih =>
    unfold selectCycle; dsimp only
    exact Steady.ite (ih (selectNode_steady (dropNever_steady h _) _ _) _ _) (ih (selectNode_steady (dropNever_steady h _) _ _) _ _)

theorem execSchedulerSelect_steady {z s : State} (h : Steady z s) (x0) : SteadyRes z (execSchedulerSelect x0 s) := by
  unfold execSchedulerSelect; dsimp only
  with_reducible repeat' first
    | exact h | assumption | apply SteadyRes.next | apply SteadyRes.ite | apply selectCycle_steady

theorem execQueueAdmission_steady {z s : State} (h : Steady z s) (x0) : SteadyRes z (execQueueAdmission x0 s) := by
  unfold execQueueAdmission; dsimp only
  with_reducible repeat' first
    | exact h | assumption | apply SteadyRes.next | apply SteadyRes.ite | apply State.setJob_steady | apply State.endJob_steady
    | apply State.count_steady | apply closedCount_steady | apply State.alarm_steady | apply activate_steady | apply Steady.ite
    | apply Steady.getD | (apply Steady.core; dsimp only; apply SteadyCore.same)

theorem sensorOut_steady {z s : State} (h : Steady z s) (x1) : Steady z (sensorOut s x1) := by
  unfold sensorOut
  with_reducible repeat' first
    | exact h | assumption | apply State.setFld_steady | apply State.alarm_steady

theorem readSensors_steady {z s : State} (h : Steady z s) (x1) : Steady z (readSensors s x1) := by
  unfold readSensors; try dsimp only
  with_reducible repeat' first
    | exact h | assumption | apply Steady.ite | apply Steady.foldl | apply Steady.foldl1 | apply Steady.foldl2 | intro _ _ _ _
    | intro _ _ _ | (intro _ _; try dsimp only) | (apply Steady.core; dsimp only; apply SteadyCore.same) | split

theorem checkSensors_steady {z s : State} (h : Steady z s) : Steady z (checkSensors s) := by
  unfold checkSensors
  with_reducible repeat' first
    | exact h | assumption | apply sensorOut_steady | apply Steady.ite | apply Steady.foldl | apply Steady.foldl1 | apply Steady.foldl2
    | intro _ _ _ _ | intro _ _ _ | (intro _ _; try dsimp only) | split

theorem sluiceAlarms_steady {z s : State} (h : Steady z s) : Steady z (sluiceAlarms s) := by
  unfold sluiceAlarms; dsimp only
  with_reducible repeat' first
    | exact h | assumption | apply State.alarm_steady | apply Steady.ite

theorem gateRills_steady {z s : State} (h : Steady z s) (x1 x2 x3) : Steady z (gateRills s x1 x2 x3).1 := by
  unfold gateRills; dsimp only
  with_reducible repeat' first
    | exact h | assumption | apply State.setRill_steady | apply Steady.ite | apply Steady.ite1
    | (apply Steady.core; dsimp only; apply SteadyCore.same) | split

theorem execSluiceTick_steady {z s : State} (h : Steady z s) (x0 x1 x2) : SteadyRes z (execSluiceTick x0 x1 x2 s) := by
  unfold execSluiceTick; try dsimp only
  with_reducible repeat' first
    | exact h | assumption | apply SteadyRes.next | apply SteadyRes.ite | apply readSensors_steady | apply State.setFld_steady
    | apply sluiceAlarms_steady | apply gateRills_steady | apply Steady.ite | apply Steady.ite1 | apply Steady.ite2 | apply Steady.getD
    | intro _ _ _ _ | intro _ _ _ | (intro _ _; try dsimp only) | (apply Steady.core; dsimp only; apply SteadyCore.same)
    | (refine Steady.fst ?_ (by assumption); apply gateRills_steady) | split

theorem execSlowLoop_steady {z s : State} (h : Steady z s) : SteadyRes z (execSlowLoop s) := by
  unfold execSlowLoop; try dsimp only
  with_reducible repeat' first
    | exact h | assumption | apply SteadyRes.next | apply SteadyRes.ite | apply checkSensors_steady | apply State.setFld_steady
    | apply Steady.ite | intro _ _ _ _ | intro _ _ _ | (intro _ _; try dsimp only)
    | (apply Steady.core; dsimp only; apply SteadyCore.same) | split

end Sys2Proof.Machine
end

