-- ==== Sys2Proof/Laws/SteadyCascade.lean ====
section
/-! SUPPORT. What the trunks leave alone: the queue, the canonical register map, the epoch's floor. -/

namespace Sys2Proof.Machine

theorem askEpoch_steady {z s : State} (h : Steady z s) (x1) : SteadyOpt z (askEpoch s x1) := by
  unfold askEpoch; dsimp only
  with_reducible repeat' first
    | exact h | assumption | exact SteadyOpt.none | apply SteadyOpt.some | apply SteadyOpt.ite | apply State.setTrunk_steady
    | apply mirror_steady

theorem epochExhausted_steady {z s : State} (h : Steady z s) (x1) : Steady z (epochExhausted s x1) := by
  unfold epochExhausted
  with_reducible repeat' first
    | exact h | assumption | apply State.alarm_steady

theorem startTrunk_steady {z s : State} (h : Steady z s) (x1) : Steady z (startTrunk s x1) := by
  unfold startTrunk; dsimp only
  with_reducible repeat' first
    | exact h | assumption | apply State.setTrunk_steady | apply trunkLanes_steady | apply askEpoch_steady | apply epochExhausted_steady
    | apply Steady.ite | apply Steady.getD

theorem epochSwitch_steady {z s : State} (h : Steady z s) (x1) : Steady z (epochSwitch s x1).1 := by
  unfold epochSwitch; dsimp only
  with_reducible repeat' first
    | exact h | assumption | apply askEpoch_steady | apply epochExhausted_steady | apply Steady.ite | apply Steady.ite1
    | (refine SteadyOpt.of ?_ (by assumption); apply askEpoch_steady) | split

theorem casCommand_steady {z s : State} (h : Steady z s) (x0 x1) (hx1 : ∀ y0, Steady z y0 → Steady z (x1 y0).1) :
    SteadyRes z (casCommand x0 x1 s) := by
  unfold casCommand; dsimp only
  with_reducible repeat' first
    | exact h | assumption | apply SteadyRes.next | apply SteadyRes.ite | apply State.access_steady | apply State.setFld_steady | apply hx1
    | apply Steady.ite | intro _ _ _ _ | intro _ _ _ | (intro _ _; try dsimp only)

theorem execEpochSwitch_steady {z s : State} (h : Steady z s) (x0) : SteadyRes z (execEpochSwitch x0 s) := by
  unfold execEpochSwitch
  with_reducible repeat' first
    | exact h | assumption | apply SteadyRes.next | apply SteadyRes.ite | apply casCommand_steady | apply epochSwitch_steady
    | apply Steady.ite | apply Steady.ite1 | intro _ _ _ _ | intro _ _ _ | (intro _ _; try dsimp only)

theorem execEpochPeriodExpiry_steady {z s : State} (h : Steady z s) (x0) : SteadyRes z (execEpochPeriodExpiry x0 s) := by
  unfold execEpochPeriodExpiry
  with_reducible repeat' first
    | exact h | assumption | apply SteadyRes.next | apply SteadyRes.ite | apply epochSwitch_steady

theorem execEpochConfirmed_steady {z s : State} (h : Steady z s) (x0 x1) : SteadyRes z (execEpochConfirmed x0 x1 s) := by
  unfold execEpochConfirmed; dsimp only
  with_reducible repeat' first
    | exact h | assumption | apply SteadyRes.next | apply SteadyRes.ite | apply journalFault_steady | apply State.setTrunk_steady
    | apply State.alarm_steady | apply State.free_steady | apply journalGen_steady | apply becomeReady_steady | apply sendRec_steady
    | apply Steady.ite | apply Steady.ite2 | split

theorem execEpochJournalRetry_steady {z s : State} (h : Steady z s) (x0) : SteadyRes z (execEpochJournalRetry x0 s) := by
  unfold execEpochJournalRetry; dsimp only
  with_reducible repeat' first
    | exact h | assumption | apply SteadyRes.next | apply SteadyRes.ite | apply askEpoch_steady | apply epochExhausted_steady
    | apply State.setTrunk_steady | apply Steady.ite | apply Steady.getD

theorem execMapSwitch_steady {z s : State} (h : Steady z s) (x0) : SteadyRes z (execMapSwitch x0 s) := by
  unfold execMapSwitch; dsimp only
  with_reducible repeat' first
    | exact h | assumption | apply SteadyRes.next | apply SteadyRes.ite | apply casCommand_steady | apply State.setTrunk_steady
    | apply Steady.ite | intro _ _ _ _ | intro _ _ _ | (intro _ _; try dsimp only)
    | split

theorem execRealign_steady {z s : State} (h : Steady z s) (x0) : SteadyRes z (execRealign x0 s) := by
  unfold execRealign; dsimp only
  with_reducible repeat' first
    | exact h | assumption | apply SteadyRes.next | apply SteadyRes.ite | apply casCommand_steady | apply updateDefects_steady
    | apply State.setTrunk_steady | apply Steady.ite | intro _ _ _ _ | intro _ _ _ | (intro _ _; try dsimp only)
    | split

theorem laySharesStep_steady {z : State} (s t m c) {acc : List Byte × State × List (Nat × Nat)} (h : Steady z acc.2.1) (i) :
    Steady z (laySharesStep s t m c acc i).2.1 := by
  unfold laySharesStep; dsimp only
  split
  · exact State.setTrunk_steady h _ _
  · exact State.setTrunk_steady h _ _

theorem foldl_mid {α β γ : Type} {z : State} {f : α × State × β → γ → α × State × β} {l : List γ} {a : α × State × β}
    (hf : ∀ x c, Steady z x.2.1 → Steady z (f x c).2.1) (h : Steady z a.2.1) : Steady z (l.foldl f a).2.1 := by
  induction l generalizing a with
  | nil => exact h
  | cons c l ih => exact ih (hf a c h)

theorem nextFrame_steady {z s : State} (h : Steady z s) (t c) : Steady z (nextFrame t c s).2 := by
  unfold nextFrame
  extract_lets x y
  split
  rename_i ops w _
  extract_lets u
  have hu : Steady z u := State.setTrunk_steady h _ _
  clear_value u
  split
  rename_i p v js e
  have hv : Steady z v := by
    have := foldl_mid (l := tribsOf u t) (f := laySharesStep u t w.txMap c) (a := (List.replicate 16256 (0 : Byte), u, [])) (fun a i ha => laySharesStep_steady u t _ c ha i) hu
    rw [e] at this; exact this
  extract_lets x2 mapNext ep cd head iv ct a b
  have ha : Steady z a := State.setTrunk_steady hv _ _
  have hb : Steady z b := Steady.ite (State.setFld_steady ha _ _ _) ha
  clear_value b a
  exact State.count_steady (State.useFree_steady hb) _

theorem execCascadeFrameSend_steady {z s : State} (h : Steady z s) (t c) : SteadyRes z (execCascadeFrameSend t c s) := by
  unfold execCascadeFrameSend
  exact SteadyRes.ite (SteadyRes.next h) (SteadyRes.ite (SteadyRes.next (sendStream_steady (State.emit_steady (nextFrame_steady h _ _) _) _ _))
    (SteadyRes.next (sendStream_steady h _ _)))

theorem execOpsSend_steady {z s : State} (h : Steady z s) (x0 x1) : SteadyRes z (execOpsSend x0 x1 s) := by
  unfold execOpsSend; dsimp only
  with_reducible repeat' first
    | exact h | assumption | apply SteadyRes.next | apply SteadyRes.ite | apply State.access_steady | apply State.setFld_steady
    | apply State.setTrunk_steady | apply Steady.ite | intro _ _ _ _ | intro _ _ _ | (intro _ _; try dsimp only)

theorem deliverTrib_steady {z s : State} (h : Steady z s) (x1 x2 x3) : Steady z (deliverTrib s x1 x2 x3) := by
  unfold deliverTrib; dsimp only
  with_reducible repeat' first
    | exact h | assumption | apply State.count_steady | apply State.setFrame_steady | apply Steady.ite
    | (apply Steady.core; dsimp only; apply SteadyCore.same)

theorem receiveFramed_steady {z s : State} (h : Steady z s) (x1 x2 x3) : Steady z (receiveFramed s x1 x2 x3) := by
  unfold receiveFramed; dsimp only
  with_reducible repeat' first
    | exact h | assumption | apply State.setTrunk_steady | apply State.count_steady | apply deliverTrib_steady | apply Steady.ite
    | apply Steady.foldl | apply Steady.foldl1 | apply Steady.foldl2 | intro _ _ _ _ | (intro _ _ _; try dsimp only)

theorem receiveClear_steady {z s : State} (h : Steady z s) (x1 x2 x3 x4 x5) : Steady z (receiveClear s x1 x2 x3 x4 x5) := by
  unfold receiveClear; dsimp only
  with_reducible repeat' first
    | exact h | assumption | apply State.count_steady | apply State.alarm_steady | apply State.countN_steady | apply State.emit_steady
    | apply State.setTrunk_steady | apply Steady.ite | apply Steady.getD | split

theorem wantKey_steady {z s : State} (h : Steady z s) (x1 x2) : Steady z (wantKey s x1 x2) := by
  unfold wantKey; dsimp only
  with_reducible repeat' first
    | exact h | assumption | apply State.setTrunk_steady | apply Steady.ite

theorem execEpochKeyDerived_steady {z s : State} (h : Steady z s) (x0) : SteadyRes z (execEpochKeyDerived x0 s) := by
  unfold execEpochKeyDerived; dsimp only
  with_reducible repeat' first
    | exact h | assumption | apply SteadyRes.next | apply SteadyRes.ite | apply State.setTrunk_steady | apply Steady.ite | split

theorem acceptPair_steady {z s : State} (h : Steady z s) (x1 x2 x3) : Steady z (acceptPair s x1 x2 x3) := by
  unfold acceptPair; dsimp only
  with_reducible repeat' first
    | exact h | assumption | apply State.setTrunk_steady | apply State.free_steady | apply journalGen_steady | apply mirror_steady
    | apply Steady.ite

theorem acceptMap_steady {z s : State} (h : Steady z s) (x1 x2 x3) : Steady z (acceptMap s x1 x2 x3) := by
  unfold acceptMap; dsimp only
  with_reducible repeat' first
    | exact h | assumption | apply State.setTrunk_steady | apply State.count_steady | apply State.alarm_steady | apply Steady.ite

theorem acceptFail_steady {z s : State} (h : Steady z s) (x1 x2) : Steady z (acceptFail s x1 x2) := by
  unfold acceptFail; dsimp only
  with_reducible repeat' first
    | exact h | assumption | apply State.setTrunk_steady | apply Steady.ite | apply Steady.foldl | apply Steady.foldl1 | apply Steady.foldl2
    | intro _ _ _ _ | (intro _ _ _; try dsimp only)

theorem opsGap_steady {z s : State} (h : Steady z s) (x1) : Steady z (opsGap s x1) := by
  unfold opsGap; dsimp only
  with_reducible repeat' first
    | exact h | assumption | apply State.setTrunk_steady | apply State.setFld_steady

theorem opsOverflow_steady {z s : State} (h : Steady z s) (x1) : Steady z (opsOverflow s x1) := by
  unfold opsOverflow; dsimp only
  with_reducible repeat' first
    | exact h | assumption | apply State.setFld_steady

theorem opsDeliver_steady {z s : State} (h : Steady z s) (x1) : Steady z (opsDeliver s x1) := by
  unfold opsDeliver; dsimp only
  with_reducible repeat' first
    | exact h | assumption | apply opsOverflow_steady | apply State.setTrunk_steady | apply State.setWin_steady | apply State.setReg_steady
    | apply Steady.ite | split

theorem acceptOps_steady {z s : State} (h : Steady z s) (x1 x2) : Steady z (acceptOps s x1 x2) := by
  unfold acceptOps; dsimp only
  with_reducible repeat' first
    | exact h | assumption | apply opsGap_steady | apply State.setTrunk_steady | apply opsOverflow_steady | apply opsDeliver_steady
    | apply Steady.ite

theorem deliver_steady {z s : State} (h : Steady z s) (x1 x2 x3) : Steady z (deliver s x1 x2 x3) := by
  unfold deliver; dsimp only
  with_reducible repeat' first
    | exact h | assumption | apply receiveClear_steady | apply receiveFramed_steady | apply Steady.ite | apply Steady.foldl
    | apply Steady.foldl1 | apply Steady.foldl2 | intro _ _ _ _ | (intro _ _ _; try dsimp only)

theorem discard_steady {z s : State} (h : Steady z s) (x1 x2) : Steady z (discard s x1 x2) := by
  unfold discard; dsimp only
  with_reducible repeat' first
    | exact h | assumption | apply receiveClear_steady | apply State.setTrunk_steady | apply Steady.ite | apply Steady.foldl
    | apply Steady.foldl1 | apply Steady.foldl2 | intro _ _ _ _ | (intro _ _ _; try dsimp only)

theorem stepAlign_steady {z s : State} (h : Steady z s) (x1 x2 x3) : Steady z (stepAlign s x1 x2 x3) := by
  unfold stepAlign; dsimp only
  with_reducible repeat' first
    | exact h | assumption | apply State.setTrunk_steady | apply State.setFld_steady | apply Steady.ite
    | split

theorem receiveJudged_steady {z s : State} (h : Steady z s) (x1 x2 x3) : Steady z (receiveJudged s x1 x2 x3) := by
  unfold receiveJudged; dsimp only
  with_reducible repeat' first
    | exact h | assumption | apply State.count_steady | apply State.alarm_steady | apply wantKey_steady | apply State.setTrunk_steady
    | apply acceptMap_steady | apply acceptPair_steady | apply acceptOps_steady | apply acceptFail_steady | apply deliver_steady
    | apply discard_steady | apply stepAlign_steady | apply Steady.ite

theorem execCascadeFrameReceive_steady {z s : State} (h : Steady z s) (x0 x1 x2 x3 x4) : SteadyRes z (execCascadeFrameReceive x0 x1 x2 x3 x4 s) := by
  unfold execCascadeFrameReceive; dsimp only
  with_reducible repeat' first
    | exact h | assumption | apply SteadyRes.next | apply SteadyRes.ite | apply State.countN_steady | apply State.setTrunk_steady
    | apply receiveJudged_steady | apply updateDefects_steady | apply Steady.ite
    | split

theorem setSlip_steady {z s : State} (h : Steady z s) (x1 x2 x3) : Steady z (setSlip s x1 x2 x3) := by
  unfold setSlip; dsimp only
  with_reducible repeat' first
    | exact h | assumption | apply updateDefects_steady | apply State.setTrunk_steady

theorem execTribBufferSlip_steady {z s : State} (h : Steady z s) (x0 x1) : SteadyRes z (execTribBufferSlip x0 x1 s) := by
  unfold execTribBufferSlip
  with_reducible repeat' first
    | exact h | assumption | apply SteadyRes.next | apply SteadyRes.ite | apply setSlip_steady | apply State.count_steady

theorem execDslipClear_steady {z s : State} (h : Steady z s) (x0 x1) : SteadyRes z (execDslipClear x0 x1 s) := by
  unfold execDslipClear
  with_reducible repeat' first
    | exact h | assumption | apply SteadyRes.next | apply SteadyRes.ite | apply setSlip_steady

theorem execPmSecondBoundary_steady {z s : State} (h : Steady z s) (x0) : SteadyRes z (execPmSecondBoundary x0 s) := by
  unfold execPmSecondBoundary; try dsimp only
  with_reducible repeat' first
    | exact h | assumption | apply SteadyRes.next | apply SteadyRes.ite | apply State.reachIn_steady | apply State.setTrunk_steady
    | apply Steady.ite | apply Steady.getD | intro _ _ _ _ | intro _ _ _ | (intro _ _; try dsimp only)
    | (apply Steady.core; dsimp only; apply SteadyCore.same) | split

theorem loadPm_steady {z s : State} (h : Steady z s) (x1 x2) : Steady z (loadPm s x1 x2) := by
  unfold loadPm; dsimp only
  with_reducible repeat' first
    | exact h | assumption | apply State.setReg_steady

theorem execCasPmSelWrite_steady {z s : State} (h : Steady z s) (x0 x1) : SteadyRes z (execCasPmSelWrite x0 x1 s) := by
  unfold execCasPmSelWrite; dsimp only
  with_reducible repeat' first
    | exact h | assumption | apply SteadyRes.next | apply SteadyRes.ite | apply State.access_steady | apply State.setFld_steady
    | apply loadPm_steady | apply State.setTrunk_steady | apply Steady.ite | intro _ _ _ _ | intro _ _ _ | (intro _ _; try dsimp only)

end Sys2Proof.Machine
end

