-- ==== Sys2Proof/Laws/SteadyHost.lean ====
section
/-! SUPPORT. What the host interface and the merge leave alone: the queue, the canonical register map, the epoch's floor. -/

namespace Sys2Proof.Machine

theorem State.setSlice_steady {z s : State} (h : Steady z s) (x1 x2) : Steady z (State.setSlice s x1 x2) := by
  unfold State.setSlice
  with_reducible repeat' first
    | exact h | assumption | apply Steady.ite | (apply Steady.core; dsimp only; apply SteadyCore.same)

theorem slAlarm_steady {z s : State} (h : Steady z s) (x1 x2) : Steady z (slAlarm s x1 x2) := by
  unfold slAlarm
  with_reducible repeat' first
    | exact h | assumption | apply State.interrupt_steady | apply State.setFld_steady | apply Steady.ite

theorem slNote_steady {z s : State} (h : Steady z s) (x1 x2 x3) : Steady z (slNote s x1 x2 x3) := by
  unfold slNote
  with_reducible repeat' first
    | exact h | assumption | apply slAlarm_steady | apply State.count_steady | apply Steady.ite
    | split

theorem slCountN_steady {z s : State} (h : Steady z s) (x1 x2 x3) : Steady z (slCountN s x1 x2 x3) := by
  unfold slCountN
  with_reducible repeat' first
    | exact h | assumption | apply State.countN_steady | apply Steady.ite | split

theorem doorbell_steady {z s : State} (h : Steady z s) (x0 x1 x2 x3 x4) : Steady z (doorbell x0 x1 x2 x3 x4 s) := by
  unfold doorbell; dsimp only
  with_reducible repeat' first
    | exact h | assumption | apply State.access_steady | apply State.setFld_steady | apply slNote_steady | apply Steady.ite | intro _ _ _ _
    | intro _ _ _ | (intro _ _; try dsimp only)

theorem execTxqDoorbell_steady {z s : State} (h : Steady z s) (x0 x1 x2) : SteadyRes z (execTxqDoorbell x0 x1 x2 s) := by
  unfold execTxqDoorbell
  with_reducible repeat' first
    | exact h | assumption | apply SteadyRes.next | apply SteadyRes.ite | apply doorbell_steady

theorem execRxqDoorbell_steady {z s : State} (h : Steady z s) (x0 x1 x2) : SteadyRes z (execRxqDoorbell x0 x1 x2 s) := by
  unfold execRxqDoorbell
  with_reducible repeat' first
    | exact h | assumption | apply SteadyRes.next | apply SteadyRes.ite | apply doorbell_steady

theorem signalRing_steady {z s : State} (h : Steady z s) (x1 x2) : Steady z (signalRing s x1 x2) := by
  unfold signalRing; dsimp only
  with_reducible repeat' first
    | exact h | assumption | apply State.interrupt_steady | apply Steady.ite | (apply Steady.core; dsimp only; apply SteadyCore.same)

theorem execInterruptCoalesceExpiry_steady {z s : State} (h : Steady z s) (x0 x1) : SteadyRes z (execInterruptCoalesceExpiry x0 x1 s) := by
  unfold execInterruptCoalesceExpiry; dsimp only
  with_reducible repeat' first
    | exact h | assumption | apply SteadyRes.next | apply SteadyRes.ite | apply State.interrupt_steady | apply Steady.ite
    | (apply Steady.core; dsimp only; apply SteadyCore.same)

theorem execTxCompletionWrite_steady {z s : State} (h : Steady z s) (x0 x1) : SteadyRes z (execTxCompletionWrite x0 x1 s) := by
  unfold execTxCompletionWrite; dsimp only
  with_reducible repeat' first
    | exact h | assumption | apply SteadyRes.next | apply SteadyRes.ite | apply State.setJob_steady | apply State.emit_steady
    | apply slCountN_steady | apply signalRing_steady | apply Steady.ite | apply Steady.getD
    | (apply Steady.core; dsimp only; apply SteadyCore.same) | split

theorem failDesc_steady {z s : State} (h : Steady z s) (x1 x2 x3 x4 x5) : Steady z (failDesc s x1 x2 x3 x4 x5) := by
  unfold failDesc; dsimp only
  with_reducible repeat' first
    | exact h | assumption | apply State.setJob_steady | apply Steady.ite | (apply Steady.core; dsimp only; apply SteadyCore.same)

theorem dmaError_steady {z s : State} (h : Steady z s) (x1) : Steady z (dmaError s x1) := by
  unfold dmaError
  with_reducible repeat' first
    | exact h | assumption | apply slNote_steady | apply State.count_steady

theorem execDescriptorFetch_steady {z s : State} (h : Steady z s) (x0 x1 x2 x3) : SteadyRes z (execDescriptorFetch x0 x1 x2 x3 s) := by
  unfold execDescriptorFetch; dsimp only
  with_reducible repeat' first
    | exact h | assumption | apply State.emit_steady | apply SteadyRes.next | apply SteadyRes.ite | apply State.setFld_steady | apply failDesc_steady
    | apply dmaError_steady | apply State.useFree_steady | apply State.countN_steady | apply State.count_steady
    | apply State.setFrame_steady | apply State.addJob_steady | apply Steady.ite | (apply Steady.core; dsimp only; apply SteadyCore.same)
    | split

theorem freeStatus_steady {z s : State} (h : Steady z s) (x1) : Steady z (freeStatus s x1).2 := by
  unfold freeStatus; dsimp only
  with_reducible repeat' first
    | exact h | assumption | apply State.useFree_steady

theorem sliceCommand_steady {z s : State} (h : Steady z s) (x0) (hx0 : ∀ y0, Steady z y0 → Steady z (x0 y0).1) : SteadyRes z (sliceCommand x0 s) := by
  unfold sliceCommand; dsimp only
  with_reducible repeat' first
    | exact h | assumption | apply SteadyRes.next | apply SteadyRes.ite | apply State.access_steady | apply State.setFld_steady | apply hx0
    | apply Steady.ite | intro _ _ _ _ | intro _ _ _ | (intro _ _; try dsimp only)

theorem sliceOpen_steady {z s : State} (h : Steady z s) : Steady z (sliceOpen s).1 := by
  unfold sliceOpen; dsimp only
  with_reducible repeat' first
    | exact h | assumption | apply freeStatus_steady

theorem sliceUnbound_steady {z s : State} (h : Steady z s) : Steady z (sliceUnbound s).1 := by
  unfold sliceUnbound; try dsimp only
  with_reducible repeat' first
    | exact h | assumption | apply freeStatus_steady | apply Steady.ite | apply Steady.ite1 | apply Steady.ite2 | intro _ _ _ _
    | intro _ _ _ | (intro _ _; try dsimp only) | (refine Steady.snd ?_ (by assumption); apply freeStatus_steady) | split

theorem clearRings_steady {z s : State} (h : Steady z s) (x1) : Steady z (clearRings s x1) := by
  unfold clearRings; dsimp only
  with_reducible repeat' first
    | exact h | assumption | apply State.setFld_steady | apply Steady.ite | apply Steady.foldl | apply Steady.foldl1 | apply Steady.foldl2
    | intro _ _ _ _ | (intro _ _ _; try dsimp only) | (apply Steady.core; dsimp only; apply SteadyCore.same)

theorem dropDone_steady {z s : State} (h : Steady z s) (x1) : Steady z (dropDone s x1) := by
  unfold dropDone
  with_reducible repeat' first
    | exact h | assumption | apply Steady.ite | (apply Steady.core; dsimp only; apply SteadyCore.same)

theorem clearSliceCtrs_steady {z s : State} (h : Steady z s) (x1) : Steady z (clearSliceCtrs s x1) := by
  unfold clearSliceCtrs
  with_reducible repeat' first
    | exact h | assumption | apply State.clearCtrs_steady

theorem execSliceBind_steady {z s : State} (h : Steady z s) (x0 x1 x2) : SteadyRes z (execSliceBind x0 x1 x2 s) := by
  unfold execSliceBind; dsimp only
  with_reducible repeat' first
    | exact h | assumption | apply SteadyRes.next | apply SteadyRes.ite | apply sliceCommand_steady | apply State.setSlice_steady
    | apply clearSliceCtrs_steady | apply clearRings_steady | apply Steady.ite | intro _ _ _ _ | intro _ _ _ | (intro _ _; try dsimp only)
    | split

theorem execSliceFence_steady {z s : State} (h : Steady z s) (x0) : SteadyRes z (execSliceFence x0 s) := by
  unfold execSliceFence; dsimp only
  with_reducible repeat' first
    | exact h | assumption | apply SteadyRes.next | apply SteadyRes.ite | apply sliceCommand_steady | apply State.setSlice_steady
    | apply sliceOpen_steady | apply Steady.ite | apply Steady.ite1 | intro _ _ _ _ | intro _ _ _ | (intro _ _; try dsimp only)

theorem execSliceResume_steady {z s : State} (h : Steady z s) (x0) : SteadyRes z (execSliceResume x0 s) := by
  unfold execSliceResume; dsimp only
  with_reducible repeat' first
    | exact h | assumption | apply SteadyRes.next | apply SteadyRes.ite | apply sliceCommand_steady | apply State.setSlice_steady
    | apply sliceOpen_steady | apply Steady.ite | apply Steady.ite1 | intro _ _ _ _ | intro _ _ _ | (intro _ _; try dsimp only)

theorem resetSlice_steady {z s : State} (h : Steady z s) (x1) : Steady z (resetSlice s x1) := by
  unfold resetSlice; dsimp only
  with_reducible repeat' first
    | exact h | assumption | apply removeAssoc_steady | apply dropDone_steady | apply clearRings_steady | apply clearSliceCtrs_steady
    | apply State.setReg_steady | apply Steady.ite | apply Steady.foldl | apply Steady.foldl1 | apply Steady.foldl2 | intro _ _ _ _
    | (intro _ _ _; try dsimp only)

theorem execSliceReset_steady {z s : State} (h : Steady z s) (x0) : SteadyRes z (execSliceReset x0 s) := by
  unfold execSliceReset
  with_reducible repeat' first
    | exact h | assumption | apply SteadyRes.next | apply SteadyRes.ite | apply sliceCommand_steady | apply resetSlice_steady
    | apply sliceUnbound_steady | apply Steady.ite | apply Steady.ite1 | apply Steady.ite2 | intro _ _ _ _ | intro _ _ _
    | (intro _ _; try dsimp only) | (refine Steady.fst ?_ (by assumption); apply sliceUnbound_steady) | split

theorem execSliceUnbind_steady {z s : State} (h : Steady z s) (x0) : SteadyRes z (execSliceUnbind x0 s) := by
  unfold execSliceUnbind
  with_reducible repeat' first
    | exact h | assumption | apply SteadyRes.next | apply SteadyRes.ite | apply sliceCommand_steady | apply State.interrupt_steady
    | apply State.setSlice_steady | apply resetSlice_steady | apply sliceOpen_steady | apply Steady.ite | apply Steady.ite1 | intro _ _ _ _
    | intro _ _ _ | (intro _ _; try dsimp only) | split

theorem silenceSlice_steady {z s : State} (h : Steady z s) (x1) : Steady z (silenceSlice s x1) := by
  unfold silenceSlice; dsimp only
  with_reducible repeat' first
    | exact h | assumption | apply State.setSlice_steady | apply State.setFld_steady | apply State.dropJob_steady | apply State.count_steady
    | apply Steady.ite | apply Steady.foldl | apply Steady.foldl1 | apply Steady.foldl2 | intro _ _ _ _ | (intro _ _ _; try dsimp only)

theorem clearMsix_steady {z s : State} (h : Steady z s) (k) : Steady z (clearMsix s k) := by
  apply Steady.core; unfold clearMsix; dsimp only
  exact SteadyCore.regs h (fun w => filter_wf resetVal _ w)

theorem execVfFlr_steady {z s : State} (h : Steady z s) (x0) : SteadyRes z (execVfFlr x0 s) := by
  unfold execVfFlr
  with_reducible repeat' first
    | exact h | assumption | apply SteadyRes.next | apply SteadyRes.ite | apply clearMsix_steady | apply silenceSlice_steady
    | apply Steady.ite

theorem execVfBusMasterClear_steady {z s : State} (h : Steady z s) (x0) : SteadyRes z (execVfBusMasterClear x0 s) := by
  unfold execVfBusMasterClear
  with_reducible repeat' first
    | exact h | assumption | apply SteadyRes.next | apply SteadyRes.ite | apply silenceSlice_steady

theorem execSliceQuiesced_steady {z s : State} (h : Steady z s) (x0) : SteadyRes z (execSliceQuiesced x0 s) := by
  unfold execSliceQuiesced; dsimp only
  with_reducible repeat' first
    | exact h | assumption | apply SteadyRes.next | apply SteadyRes.ite | apply dropDone_steady | apply State.interrupt_steady
    | apply State.setSlice_steady | apply Steady.ite | apply Steady.foldl | apply Steady.foldl1 | apply Steady.foldl2 | intro _ _ _ _
    | (intro _ _ _; try dsimp only) | (apply Steady.core; dsimp only; apply SteadyCore.same)

theorem unbindAll_steady {z s : State} (h : Steady z s) : Steady z (unbindAll s) := by
  unfold unbindAll
  with_reducible repeat' first
    | exact h | assumption | apply State.interrupt_steady | apply State.setSlice_steady | apply resetSlice_steady | apply Steady.ite
    | apply Steady.foldl | apply Steady.foldl1 | apply Steady.foldl2 | intro _ _ _ _ | (intro _ _ _; try dsimp only)

theorem editFrame_steady {z s : State} (h : Steady z s) (x1 x2 x3) : Steady z (editFrame s x1 x2 x3).2 := by
  unfold editFrame; dsimp only
  with_reducible repeat' first
    | exact h | assumption | apply State.count_steady | apply Steady.ite | apply Steady.ite2 | apply Steady.foldl | apply Steady.foldl1
    | apply Steady.foldl2 | split

theorem noBuffer_steady {z s : State} (h : Steady z s) (x1) : Steady z (noBuffer s x1) := by
  unfold noBuffer
  with_reducible repeat' first
    | exact h | assumption | apply State.count_steady | apply slNote_steady | apply Steady.ite
    | split

theorem writeToHost_steady {z s : State} (h : Steady z s) (x1 x2 x3) : Steady z (writeToHost s x1 x2 x3) := by
  unfold writeToHost; dsimp only
  with_reducible repeat' first
    | exact h | assumption | apply noBuffer_steady | apply State.emit_steady | apply signalRing_steady | apply State.setFld_steady
    | apply State.useFree_steady | apply dmaError_steady | apply slNote_steady | apply State.countN_steady | apply State.count_steady
    | apply slCountN_steady | apply Steady.ite | split

theorem mergeDone_steady {z s : State} (h : Steady z s) (x1 x2) : Steady z (mergeDone s x1 x2) := by
  unfold mergeDone; dsimp only
  with_reducible repeat' first
    | exact h | assumption | apply settle_steady | apply State.setJob_steady | apply Steady.ite
    | (apply Steady.core; dsimp only; apply SteadyCore.same)

theorem countSent_steady {z s : State} (h : Steady z s) (x1 x2) : Steady z (countSent s x1 x2) := by
  unfold countSent
  with_reducible repeat' first
    | exact h | assumption | apply slCountN_steady | apply Steady.ite | split

theorem sendPort_steady {z s : State} (h : Steady z s) (x1 x2) : Steady z (sendPort s x1 x2) := by
  unfold sendPort; dsimp only
  with_reducible repeat' first
    | exact h | assumption | apply editFrame_steady | apply State.count_steady | apply State.emit_steady | apply mergeDone_steady
    | apply countSent_steady | apply State.countN_steady | apply State.setJob_steady | apply Steady.ite

theorem sendTrib_steady {z s : State} (h : Steady z s) (x1 x2) : Steady z (sendTrib s x1 x2) := by
  unfold sendTrib; dsimp only
  with_reducible repeat' first
    | exact h | assumption | apply State.setTrunk_steady | apply egressCount_steady | apply State.countN_steady | apply mergeDone_steady
    | apply Steady.ite

theorem sendFinished_steady {z s : State} (h : Steady z s) (x1 x2) : Steady z (sendFinished s x1 x2) := by
  unfold sendFinished; dsimp only
  with_reducible repeat' first
    | exact h | assumption | apply mergeDone_steady | apply writeToHost_steady | apply sendTrib_steady | apply State.count_steady
    | apply sendPort_steady | apply Steady.ite

theorem markStomp_steady {z s : State} (h : Steady z s) (x1) : Steady z (markStomp s x1) := by
  unfold markStomp; try dsimp only
  with_reducible repeat' first
    | exact h | assumption | apply State.setJob_steady | apply Steady.ite | intro _ _ _ _ | intro _ _ _ | (intro _ _; try dsimp only)
    | (apply Steady.core; dsimp only; apply SteadyCore.same) | split

theorem endLost_steady {z s : State} (h : Steady z s) (x1 x2) : Steady z (endLost s x1 x2) := by
  unfold endLost; dsimp only
  with_reducible repeat' first
    | exact h | assumption | apply mergeDone_steady | apply sendFinished_steady | apply State.setJob_steady | apply Steady.ite

theorem holdFirst_steady {z s : State} (h : Steady z s) (x1) : SteadyOpt z (holdFirst s x1) := by
  unfold holdFirst; dsimp only
  with_reducible repeat' first
    | exact h | assumption | exact SteadyOpt.none | apply SteadyOpt.some | apply SteadyOpt.ite | apply mergeDone_steady
    | apply State.count_steady | apply noBuffer_steady | apply State.setJob_steady | apply Steady.ite

theorem releaseBeat_steady {z s : State} (h : Steady z s) (x1 x2) : Steady z (releaseBeat s x1 x2) := by
  unfold releaseBeat; try dsimp only
  with_reducible repeat' first
    | exact h | assumption | apply State.setJob_steady | apply sendFinished_steady | apply markStomp_steady | apply Steady.ite
    | intro _ _ _ _ | intro _ _ _ | (intro _ _; try dsimp only) | (apply Steady.core; dsimp only; apply SteadyCore.same) | split

theorem mergeStep_steady {z s : State} (h : Steady z s) (e j d) : Steady z (mergeStep s e j d) := by
  unfold mergeStep; dsimp only
  refine Steady.ite (mergeDone_steady (State.count_steady h _) _ _) (Steady.ite (mergeDone_steady h _ _) (Steady.ite (endLost_steady h _ _)
    (Steady.ite (mergeDone_steady (egressCount_steady h _ _) _ _) ?_)))
  split
  · rename_i q
    split at q
    · exact (holdFirst_steady h _).at_some _ q
    · cases q
  · exact releaseBeat_steady h _ _

theorem execMergeRelease_steady {z s : State} (h : Steady z s) (x0 x1) : SteadyRes z (execMergeRelease x0 x1 s) := by
  unfold execMergeRelease; try dsimp only
  with_reducible repeat' first
    | exact h | assumption | apply SteadyRes.next | apply SteadyRes.ite | apply park_steady | apply mergeStep_steady | apply Steady.ite
    | intro _ _ _ _ | intro _ _ _ | (intro _ _; try dsimp only) | split

end Sys2Proof.Machine
end

