-- ==== Sys2Proof/Laws/SteadyPair.lean ====
section
/-! SUPPORT. What the pair leaves alone: the queue, the canonical register map, the epoch's floor. -/

namespace Sys2Proof.Machine

theorem clearAllSlots_steady {z s : State} (h : Steady z s) : Steady z (clearAllSlots s) := by
  unfold clearAllSlots; dsimp only
  with_reducible repeat' first
    | exact h | assumption | apply clearSlot_steady | apply Steady.ite | apply Steady.foldl | apply Steady.foldl1 | apply Steady.foldl2
    | intro _ _ _ _ | (intro _ _ _; try dsimp only)

theorem discardMirrored_steady {z s : State} (h : Steady z s) : Steady z (discardMirrored s) := by
  unfold discardMirrored; dsimp only
  with_reducible repeat' first
    | exact h | assumption | apply clearAllSlots_steady | apply Steady.ite | (apply Steady.core; dsimp only; apply SteadyCore.same)

theorem enterStandby_steady {z s : State} (h : Steady z s) : Steady z (enterStandby s) := by
  unfold enterStandby; dsimp only
  with_reducible repeat' first
    | exact h | assumption | apply discardMirrored_steady | apply Steady.ite | (apply Steady.core; dsimp only; apply SteadyCore.same)

theorem resyncSlot_steady {z s : State} (h : Steady z s) (x0 x2) : Steady z (resyncSlot x0 s x2) := by
  unfold resyncSlot; dsimp only
  with_reducible repeat' first
    | exact h | assumption | apply putSlot_steady | apply sendRec_steady | apply Steady.ite

theorem resyncRes_steady {z s : State} (h : Steady z s) (x1) : Steady z (resyncRes s x1) := by
  unfold resyncRes; dsimp only
  with_reducible repeat' first
    | exact h | assumption | apply sendRec_steady

theorem resyncMark_steady {z s : State} (h : Steady z s) (x1) : Steady z (resyncMark s x1) := by
  unfold resyncMark; dsimp only
  with_reducible repeat' first
    | exact h | assumption | apply sendRec_steady | apply putSlot_steady | apply Steady.ite

theorem resyncTrunk_steady {z s : State} (h : Steady z s) (x1) : Steady z (resyncTrunk s x1) := by
  unfold resyncTrunk; dsimp only
  with_reducible repeat' first
    | exact h | assumption | apply State.setTrunk_steady | apply sendRec_steady | apply Steady.ite

theorem resync_steady {z s : State} (h : Steady z s) : Steady z (resync s) := by
  unfold resync; dsimp only
  with_reducible repeat' first
    | exact h | assumption | apply sendRec_steady | apply State.modPair_steady | apply resyncSlot_steady | apply resyncMark_steady
    | apply resyncRes_steady | apply resyncTrunk_steady | apply Steady.ite | apply Steady.foldl | apply Steady.foldl1 | apply Steady.foldl2
    | intro _ _ _ _ | (intro _ _ _; try dsimp only)

theorem ousted_steady {z s : State} (h : Steady z s) : Steady z (ousted s) := by
  unfold ousted
  with_reducible repeat' first
    | exact h | assumption | apply startGiveUp_steady | apply Steady.ite

theorem paiCommand_steady {z s : State} (h : Steady z s) (x0) (hx0 : ∀ y0, Steady z y0 → Steady z (x0 y0).1) : SteadyRes z (paiCommand x0 s) := by
  unfold paiCommand; dsimp only
  with_reducible repeat' first
    | exact h | assumption | apply SteadyRes.next | apply SteadyRes.ite | apply State.access_steady | apply State.setFld_steady | apply hx0
    | apply Steady.ite | intro _ _ _ _ | intro _ _ _ | (intro _ _; try dsimp only)

theorem execGiveUp_steady {z s : State} (h : Steady z s) : SteadyRes z (execGiveUp s) := by
  unfold execGiveUp
  with_reducible repeat' first
    | exact h | assumption | apply SteadyRes.next | apply SteadyRes.ite | apply paiCommand_steady | apply tryGiveUp_steady
    | apply Steady.ite | apply Steady.ite1 | intro _ _ _ _ | intro _ _ _ | (intro _ _; try dsimp only)

theorem discardUnbegun_steady {z s : State} (h : Steady z s) (x1) : Steady z (discardUnbegun s x1) := by
  unfold discardUnbegun; dsimp only
  with_reducible repeat' first
    | exact h | assumption | apply egressCount_steady | apply State.setJob_steady | apply Steady.ite

theorem execGiveUpDiscardDeadline_steady {z s : State} (h : Steady z s) : SteadyRes z (execGiveUpDiscardDeadline s) := by
  unfold execGiveUpDiscardDeadline; dsimp only
  with_reducible repeat' first
    | exact h | assumption | apply SteadyRes.next | apply SteadyRes.ite | apply discardUnbegun_steady | apply enterStandby_steady
    | apply State.modPair_steady | apply Steady.ite | apply Steady.foldl | apply Steady.foldl1 | apply Steady.foldl2 | intro _ _ _ _
    | (intro _ _ _; try dsimp only)

theorem execDiagnosisFault_steady {z s : State} (h : Steady z s) (x0 x1) : SteadyRes z (execDiagnosisFault x0 x1 s) := by
  unfold execDiagnosisFault
  with_reducible repeat' first
    | exact h | assumption | apply SteadyRes.next | apply SteadyRes.ite | apply diagnose_steady

theorem trigger_steady {z s : State} (h : Steady z s) : Steady z (trigger s) := by
  unfold trigger
  with_reducible repeat' first
    | exact h | assumption | apply State.modPair_steady | apply Steady.ite

theorem execTakeOver_steady {z s : State} (h : Steady z s) : SteadyRes z (execTakeOver s) := by
  unfold execTakeOver
  with_reducible repeat' first
    | exact h | assumption | apply SteadyRes.next | apply SteadyRes.ite | apply paiCommand_steady | apply trigger_steady | apply Steady.ite
    | intro _ _ _ _ | intro _ _ _ | (intro _ _; try dsimp only) | split

theorem takeTrunk_steady {z s : State} (h : Steady z s) (x0 x2) : Steady z (takeTrunk x0 s x2) := by
  unfold takeTrunk; dsimp only
  with_reducible repeat' first
    | exact h | assumption | apply startTrunk_steady | apply State.setTrunk_steady | apply Steady.ite

theorem execTakeOverComplete_steady {z s : State} (h : Steady z s) : SteadyRes z (execTakeOverComplete s) := by
  unfold execTakeOverComplete; dsimp only
  with_reducible repeat' first
    | exact h | assumption | apply SteadyRes.next | apply SteadyRes.ite | apply takeTrunk_steady | apply sendUrgent_steady
    | apply State.count_steady | apply Steady.ite | apply Steady.foldl | apply Steady.foldl1 | apply Steady.foldl2 | intro _ _ _ _
    | (intro _ _ _; try dsimp only) | (apply Steady.core; dsimp only; apply SteadyCore.same)

theorem execPartnerGone_steady {z s : State} (h : Steady z s) : SteadyRes z (execPartnerGone s) := by
  unfold execPartnerGone
  with_reducible repeat' first
    | exact h | assumption | apply SteadyRes.next | apply SteadyRes.ite | apply paiCommand_steady | apply State.modPair_steady
    | apply Steady.ite | intro _ _ _ _ | intro _ _ _ | (intro _ _; try dsimp only)
    | split

theorem execPeerActiveChange_steady {z s : State} (h : Steady z s) (x0) : SteadyRes z (execPeerActiveChange x0 s) := by
  unfold execPeerActiveChange; dsimp only
  with_reducible repeat' first
    | exact h | assumption | apply SteadyRes.next | apply SteadyRes.ite | apply State.modPair_steady | apply ousted_steady
    | apply Steady.ite

theorem execPeerHandoverRise_steady {z s : State} (h : Steady z s) : SteadyRes z (execPeerHandoverRise s) := by
  unfold execPeerHandoverRise; dsimp only
  with_reducible repeat' first
    | exact h | assumption | apply SteadyRes.next | apply SteadyRes.ite | apply State.modPair_steady | apply trigger_steady
    | apply Steady.ite

theorem execHbLoss_steady {z s : State} (h : Steady z s) : SteadyRes z (execHbLoss s) := by
  unfold execHbLoss; dsimp only
  with_reducible repeat' first
    | exact h | assumption | apply SteadyRes.next | apply SteadyRes.ite | apply State.modPair_steady | apply State.alarm_steady
    | apply trigger_steady | apply Steady.ite

theorem execHeartbeatSend_steady {z s : State} (h : Steady z s) : SteadyRes z (execHeartbeatSend s) := by
  unfold execHeartbeatSend; dsimp only
  with_reducible repeat' first
    | exact h | assumption | apply SteadyRes.next | apply SteadyRes.ite | apply State.modPair_steady | apply sendRec_steady
    | apply Steady.ite | apply Steady.foldl | apply Steady.foldl1 | apply Steady.foldl2 | intro _ _ _ _ | (intro _ _ _; try dsimp only)

theorem finishStart_steady {z s : State} (h : Steady z s) (x1) : Steady z (finishStart s x1) := by
  unfold finishStart; dsimp only
  with_reducible repeat' first
    | exact h | assumption | apply State.useFree_steady | apply State.setReg_steady | apply enterStandby_steady | apply startTrunk_steady
    | apply Steady.ite | apply Steady.foldl | apply Steady.foldl1 | apply Steady.foldl2 | intro _ _ _ _ | (intro _ _ _; try dsimp only)
    | (apply Steady.core; dsimp only; apply SteadyCore.same)

theorem execNegWaitTimeout_steady {z s : State} (h : Steady z s) : SteadyRes z (execNegWaitTimeout s) := by
  unfold execNegWaitTimeout
  with_reducible repeat' first
    | exact h | assumption | apply SteadyRes.next | apply SteadyRes.ite | apply finishStart_steady

theorem setTrain_steady {z s : State} (h : Steady z s) (x1) : Steady z (setTrain s x1) := by
  unfold setTrain
  with_reducible repeat' first
    | exact h | assumption | apply State.modPair_steady

theorem linkDown_steady {z s : State} (h : Steady z s) : Steady z (linkDown s) := by
  unfold linkDown
  with_reducible repeat' first
    | exact h | assumption | apply State.modPair_steady

theorem applyAqd_steady {z s : State} (h : Steady z s) : Steady z (applyAqd s) := by
  unfold applyAqd
  with_reducible repeat' first
    | exact h | assumption | apply linkDown_steady

theorem execAqdClockDetect_steady {z s : State} (h : Steady z s) : SteadyRes z (execAqdClockDetect s) := by
  unfold execAqdClockDetect
  with_reducible repeat' first
    | exact h | assumption | apply SteadyRes.next | apply SteadyRes.ite | apply setTrain_steady | apply Steady.ite

theorem execAqdDeskewLock_steady {z s : State} (h : Steady z s) : SteadyRes z (execAqdDeskewLock s) := by
  unfold execAqdDeskewLock; try dsimp only
  with_reducible repeat' first
    | exact h | assumption | apply SteadyRes.next | apply SteadyRes.ite | apply State.modPair_steady | apply newLine_steady
    | apply sendLink_steady | apply State.useFree_steady | apply Steady.ite | apply Steady.ite1 | apply Steady.ite2 | intro _ _ _ _
    | intro _ _ _ | (intro _ _; try dsimp only) | (apply Steady.core; dsimp only; apply SteadyCore.same)
    | (refine Steady.snd ?_ (by assumption); apply newLine_steady) | split

theorem execConfigFrameReceive_steady {z s : State} (h : Steady z s) (x0) : SteadyRes z (execConfigFrameReceive x0 s) := by
  unfold execConfigFrameReceive; try dsimp only
  with_reducible repeat' first
    | exact h | assumption | apply SteadyRes.next | apply SteadyRes.ite | apply State.alarm_steady | apply setTrain_steady
    | apply State.modPair_steady | apply sendLink_steady | apply Steady.ite | intro _ _ _ _ | intro _ _ _ | (intro _ _; try dsimp only)
    | (apply Steady.core; dsimp only; apply SteadyCore.same) | split

theorem linkCameUp_steady {z s : State} (h : Steady z s) (x1) : Steady z (linkCameUp s x1) := by
  unfold linkCameUp; dsimp only
  with_reducible repeat' first
    | exact h | assumption | apply State.modPair_steady | apply finishStart_steady | apply resync_steady | apply Steady.ite

theorem execAuthFrameReceive_steady {z s : State} (h : Steady z s) (x0 x1) : SteadyRes z (execAuthFrameReceive x0 x1 s) := by
  unfold execAuthFrameReceive
  with_reducible repeat' first
    | exact h | assumption | apply SteadyRes.next | apply SteadyRes.ite | apply linkCameUp_steady | apply setTrain_steady
    | apply State.alarm_steady

theorem execAqdTrainingTimeout_steady {z s : State} (h : Steady z s) : SteadyRes z (execAqdTrainingTimeout s) := by
  unfold execAqdTrainingTimeout; dsimp only
  with_reducible repeat' first
    | exact h | assumption | apply SteadyRes.next | apply SteadyRes.ite | apply setTrain_steady | apply State.alarm_steady
    | apply Steady.ite

theorem execAqdFailedRetry_steady {z s : State} (h : Steady z s) : SteadyRes z (execAqdFailedRetry s) := by
  unfold execAqdFailedRetry
  with_reducible repeat' first
    | exact h | assumption | apply SteadyRes.next | apply SteadyRes.ite | apply linkDown_steady | apply Steady.ite

theorem execAqdLinkDown_steady {z s : State} (h : Steady z s) : SteadyRes z (execAqdLinkDown s) := by
  unfold execAqdLinkDown
  with_reducible repeat' first
    | exact h | assumption | apply SteadyRes.next | apply SteadyRes.ite | apply linkDown_steady | apply State.alarm_steady
    | apply Steady.ite

theorem loadMirrored_steady {z s : State} (h : Steady z s) (x1 x2 x3 x4) : Steady z (loadMirrored s x1 x2 x3 x4) := by
  unfold loadMirrored; dsimp only
  with_reducible repeat' first
    | exact h | assumption | apply State.alarm_steady | apply putSlot_steady | apply Steady.ite
    | split

theorem applySlot_steady {z s : State} (h : Steady z s) (x1 x2) : Steady z (applySlot s x1 x2) := by
  unfold applySlot; dsimp only
  with_reducible repeat' first
    | exact h | assumption | apply putSlot_steady | apply loadMirrored_steady | apply Steady.ite

theorem applyRes_steady {z s : State} (h : Steady z s) (x1) : Steady z (applyRes s x1) := by
  unfold applyRes; dsimp only
  with_reducible repeat' first
    | exact h | assumption | apply putSlot_steady | apply Steady.ite

theorem applyMark_steady {z s : State} (h : Steady z s) (x1) : Steady z (applyMark s x1) := by
  unfold applyMark; dsimp only
  with_reducible repeat' first
    | exact h | assumption | apply putSlot_steady | apply Steady.ite

theorem applyTb_steady {z s : State} (h : Steady z s) (x1) : Steady z (applyTb s x1) := by
  unfold applyTb; try dsimp only
  with_reducible repeat' first
    | exact h | assumption | apply State.setFld_steady | apply State.setReg_steady | apply takeStep_steady | apply State.free_steady
    | apply Steady.ite | apply Steady.ite1 | apply Steady.ite2 | intro _ _ _ _ | intro _ _ _ | (intro _ _; try dsimp only)
    | (apply Steady.core; dsimp only; apply SteadyCore.same) | (refine Steady.snd ?_ (by assumption); apply State.free_steady) | split

theorem applyJournaled_steady {z s : State} (h : Steady z s) (x1) : Steady z (applyJournaled s x1) := by
  unfold applyJournaled; dsimp only
  with_reducible repeat' first
    | exact h | assumption | apply Steady.ite | (apply Steady.core; dsimp only; apply SteadyCore.same)

theorem dualActive_steady {z s : State} (h : Steady z s) (x1) : Steady z (dualActive s x1) := by
  unfold dualActive; dsimp only
  with_reducible repeat' first
    | exact h | assumption | apply State.alarm_steady | apply ousted_steady | apply Steady.ite

theorem applyHb_steady {z s : State} (h : Steady z s) (x1) : Steady z (applyHb s x1) := by
  unfold applyHb; dsimp only
  with_reducible repeat' first
    | exact h | assumption | apply State.modPair_steady | apply discardMirrored_steady | apply dualActive_steady | apply resync_steady
    | apply Steady.ite | split

theorem applyMirror_steady {z s : State} (h : Steady z s) (x1 x2) : Steady z (applyMirror s x1 x2) := by
  unfold applyMirror; dsimp only
  with_reducible repeat' first
    | exact h | assumption | apply applyRes_steady | apply applySlot_steady | apply applyMark_steady | apply State.setTrunk_steady
    | apply applyTb_steady | apply trigger_steady | apply State.modPair_steady | apply discardMirrored_steady | apply becomeReady_steady
    | apply Steady.ite | split

theorem applyRecord_steady {z s : State} (h : Steady z s) (x1 x2) : Steady z (applyRecord s x1 x2) := by
  unfold applyRecord; dsimp only
  with_reducible repeat' first
    | exact h | assumption | apply State.count_steady | apply applyHb_steady | apply State.modPair_steady | apply ousted_steady
    | apply applyMirror_steady | apply applyJournaled_steady | apply Steady.ite

theorem acknowledge_steady {z s : State} (h : Steady z s) (x1) : Steady z (acknowledge s x1) := by
  unfold acknowledge; dsimp only
  with_reducible repeat' first
    | exact h | assumption | apply putSlot_steady | apply Steady.ite

theorem takeAck_steady {z s : State} (h : Steady z s) (x1) : Steady z (takeAck s x1) := by
  unfold takeAck; dsimp only
  with_reducible repeat' first
    | exact h | assumption | apply acknowledge_steady | apply Steady.ite | apply Steady.foldl | apply Steady.foldl1 | apply Steady.foldl2
    | intro _ _ _ _ | (intro _ _ _; try dsimp only) | (apply Steady.core; dsimp only; apply SteadyCore.same)

theorem receiveRecords_steady {z s : State} (h : Steady z s) (x1) : Steady z (receiveRecords s x1) := by
  unfold receiveRecords; dsimp only
  with_reducible repeat' first
    | exact h | assumption | apply State.modPair_steady | apply applyRecord_steady | apply State.alarm_steady | apply Steady.ite
    | apply Steady.foldl | apply Steady.foldl1 | apply Steady.foldl2 | intro _ _ _ _ | (intro _ _ _; try dsimp only)

theorem tagFailed_steady {z s : State} (h : Steady z s) : Steady z (tagFailed s) := by
  unfold tagFailed; dsimp only
  with_reducible repeat' first
    | exact h | assumption | apply State.alarm_steady | apply State.count_steady | apply linkDown_steady | apply State.modPair_steady
    | apply Steady.ite

theorem execDataFrameReceive_steady {z s : State} (h : Steady z s) (x0) : SteadyRes z (execDataFrameReceive x0 s) := by
  unfold execDataFrameReceive
  with_reducible repeat' first
    | exact h | assumption | apply SteadyRes.next | apply SteadyRes.ite | apply tagFailed_steady | apply receiveRecords_steady
    | apply takeAck_steady | apply State.modPair_steady

theorem execRetransmitTimeout_steady {z s : State} (h : Steady z s) : SteadyRes z (execRetransmitTimeout s) := by
  unfold execRetransmitTimeout
  with_reducible repeat' first
    | exact h | assumption | apply SteadyRes.next | apply SteadyRes.ite | apply pump_steady | apply State.modPair_steady
    | apply State.count_steady

theorem aqdCommand_steady {z s : State} (h : Steady z s) (x0) (hx0 : ∀ y0, Steady z y0 → Steady z (x0 y0).1) : SteadyRes z (aqdCommand x0 s) := by
  unfold aqdCommand; dsimp only
  with_reducible repeat' first
    | exact h | assumption | apply SteadyRes.next | apply SteadyRes.ite | apply State.access_steady | apply State.setFld_steady | apply hx0
    | apply Steady.ite | intro _ _ _ _ | intro _ _ _ | (intro _ _; try dsimp only)

theorem execAqdDeep_steady {z s : State} (h : Steady z s) : SteadyRes z (execAqdDeep s) := by
  unfold execAqdDeep; dsimp only
  with_reducible repeat' first
    | exact h | assumption | apply SteadyRes.next | apply SteadyRes.ite | apply aqdCommand_steady | apply setTrain_steady | apply Steady.ite
    | intro _ _ _ _ | intro _ _ _ | (intro _ _; try dsimp only) | split

theorem execAqdWake_steady {z s : State} (h : Steady z s) : SteadyRes z (execAqdWake s) := by
  unfold execAqdWake; dsimp only
  with_reducible repeat' first
    | exact h | assumption | apply SteadyRes.next | apply SteadyRes.ite | apply aqdCommand_steady | apply setTrain_steady
    | apply freeStatus_steady | apply Steady.ite | apply Steady.ite2 | intro _ _ _ _ | intro _ _ _ | (intro _ _; try dsimp only)
    | split

theorem execPartnerClockWake_steady {z s : State} (h : Steady z s) : SteadyRes z (execPartnerClockWake s) := by
  unfold execPartnerClockWake
  with_reducible repeat' first
    | exact h | assumption | apply SteadyRes.next | apply SteadyRes.ite | apply setTrain_steady | apply Steady.ite

theorem execLinkSleepEntry_steady {z s : State} (h : Steady z s) (x0) : SteadyRes z (execLinkSleepEntry x0 s) := by
  unfold execLinkSleepEntry
  with_reducible repeat' first
    | exact h | assumption | apply SteadyRes.next | apply SteadyRes.ite | apply State.modPair_steady | apply Steady.ite

theorem execLinkSleepExit_steady {z s : State} (h : Steady z s) (x0) : SteadyRes z (execLinkSleepExit x0 s) := by
  unfold execLinkSleepExit
  with_reducible repeat' first
    | exact h | assumption | apply SteadyRes.next | apply SteadyRes.ite | apply State.modPair_steady | apply Steady.ite

end Sys2Proof.Machine
end

