-- ==== Sys2Proof/Laws/SteadyTamper.lean ====
section
/-! SUPPORT. What tamper response and the spill store leave alone: the queue, the canonical register map, the epoch's floor. -/

namespace Sys2Proof.Machine

theorem pushStartLog_steady {z s : State} (h : Steady z s) (x1) : Steady z (pushStartLog s x1) := by
  unfold pushStartLog; dsimp only
  with_reducible repeat' first
    | exact h | assumption | apply State.setReg_steady | apply Steady.ite | apply Steady.foldl | apply Steady.foldl1 | apply Steady.foldl2
    | intro _ _ _ _ | (intro _ _ _; try dsimp only)

theorem endStart_steady {z s : State} (h : Steady z s) (x1 x2) : Steady z (endStart s x1 x2) := by
  unfold endStart; dsimp only
  with_reducible repeat' first
    | exact h | assumption | apply pushStartLog_steady | apply Steady.ite | (apply Steady.core; dsimp only; apply SteadyCore.same)

theorem latchSource_steady {z s : State} (h : Steady z s) (x1 x2) : Steady z (latchSource s x1 x2) := by
  unfold latchSource; dsimp only
  with_reducible repeat' first
    | exact h | assumption | apply State.useFree_steady | apply Steady.ite | (apply Steady.core; dsimp only; apply SteadyCore.same)

theorem eraseWell_steady {z s : State} (h : Steady z s) : Steady z (eraseWell s) := by
  unfold eraseWell; dsimp only
  with_reducible repeat' first
    | exact h | assumption | apply Steady.ite | (apply Steady.core; dsimp only; apply SteadyCore.same)

theorem discardTxn_steady {z s : State} (h : Steady z s) : Steady z (discardTxn s) := by
  unfold discardTxn
  with_reducible repeat' first
    | exact h | assumption | apply Steady.ite | (apply Steady.core; dsimp only; apply SteadyCore.same)

theorem enterHalt_steady {z s : State} (h : Steady z s) : Steady z (enterHalt s) := by
  unfold enterHalt; dsimp only
  with_reducible repeat' first
    | exact h | assumption | apply leavePair_steady | apply leavePair_steady | apply lateIdentity_steady | apply discardTxn_steady | apply endStart_steady | apply Steady.ite
    | (apply Steady.core; dsimp only; apply SteadyCore.same)

theorem respond_steady {z s : State} (h : Steady z s) (x1) : Steady z (respond s x1) := by
  unfold respond; dsimp only
  with_reducible repeat' first
    | exact h | assumption | apply State.interrupt_steady | apply diagnose_steady | apply enterHalt_steady | apply eraseWell_steady
    | apply Steady.ite | (apply Steady.core; dsimp only; apply SteadyCore.same)

theorem fireSources_steady {z s : State} (h : Steady z s) (x1) : Steady z (fireSources s x1) := by
  unfold fireSources; dsimp only
  with_reducible repeat' first
    | exact h | assumption | apply latchSource_steady | apply respond_steady | apply eraseWell_steady | apply Steady.ite
    | apply Steady.foldl | apply Steady.foldl1 | apply Steady.foldl2 | intro _ _ _ _ | (intro _ _ _; try dsimp only)
    | (apply Steady.core; dsimp only; apply SteadyCore.same)

theorem fireSource_steady {z s : State} (h : Steady z s) (x1) : Steady z (fireSource s x1) := by
  unfold fireSource
  with_reducible repeat' first
    | exact h | assumption | apply fireSources_steady

theorem execTamperSourceLatch_steady {z s : State} (h : Steady z s) (x0 x1) : SteadyRes z (execTamperSourceLatch x0 x1 s) := by
  unfold execTamperSourceLatch; dsimp only
  with_reducible repeat' first
    | exact h | assumption | apply SteadyRes.next | apply SteadyRes.ite | apply fireSources_steady | apply Steady.ite
    | (apply Steady.core; dsimp only; apply SteadyCore.same)

theorem execUndervoltageDelayExpiry_steady {z s : State} (h : Steady z s) (x0) : SteadyRes z (execUndervoltageDelayExpiry x0 s) := by
  unfold execUndervoltageDelayExpiry; dsimp only
  with_reducible repeat' first
    | exact h | assumption | apply SteadyRes.next | apply SteadyRes.ite | apply fireSource_steady | apply Steady.ite
    | (apply Steady.core; dsimp only; apply SteadyCore.same)

theorem closeWindow_steady {z s : State} (h : Steady z s) : Steady z (closeWindow s) := by
  unfold closeWindow; dsimp only
  with_reducible repeat' first
    | exact h | assumption | apply Steady.ite | (apply Steady.core; dsimp only; apply SteadyCore.same)

theorem execCellSample_steady {z s : State} (h : Steady z s) (x0 x1) : SteadyRes z (execCellSample x0 x1 s) := by
  unfold execCellSample; dsimp only
  with_reducible repeat' first
    | exact h | assumption | apply SteadyRes.next | apply SteadyRes.ite | apply fireSources_steady | apply closeWindow_steady
    | apply Steady.ite | (apply Steady.core; dsimp only; apply SteadyCore.same)

theorem execTemperatureReading_steady {z s : State} (h : Steady z s) (x0 x1 x2) : SteadyRes z (execTemperatureReading x0 x1 x2 s) := by
  unfold execTemperatureReading; dsimp only
  with_reducible repeat' first
    | exact h | assumption | apply SteadyRes.next | apply SteadyRes.ite | apply fireSources_steady | apply Steady.ite
    | (apply Steady.core; dsimp only; apply SteadyCore.same)

theorem execWellBrownOut_steady {z s : State} (h : Steady z s) : SteadyRes z (execWellBrownOut s) := by
  unfold execWellBrownOut; dsimp only
  with_reducible repeat' first
    | exact h | assumption | apply SteadyRes.next | apply SteadyRes.ite | apply State.setReg_steady | apply Steady.ite | apply Steady.foldl
    | apply Steady.foldl1 | apply Steady.foldl2 | intro _ _ _ _ | (intro _ _ _; try dsimp only)
    | (apply Steady.core; dsimp only; apply SteadyCore.same)

theorem tmpCommand_steady {z s : State} (h : Steady z s) (x0 x1) (hx1 : ∀ y0, Steady z y0 → Steady z (x1 y0).1) :
    SteadyRes z (tmpCommand x0 x1 s) := by
  unfold tmpCommand; dsimp only
  with_reducible repeat' first
    | exact h | assumption | apply SteadyRes.next | apply SteadyRes.ite | apply State.access_steady | apply State.setFld_steady | apply hx1
    | apply Steady.ite | intro _ _ _ _ | intro _ _ _ | (intro _ _; try dsimp only)
    | split

theorem portsAsAtStart_steady {z s : State} (h : Steady z s) : Steady z (portsAsAtStart s) := by
  unfold portsAsAtStart; dsimp only
  with_reducible repeat' first
    | exact h | assumption | apply State.setPort_steady | apply Steady.ite | apply Steady.foldl | apply Steady.foldl1 | apply Steady.foldl2
    | intro _ _ _ _ | (intro _ _ _; try dsimp only)

theorem execTmpRelease_steady {z s : State} (h : Steady z s) : SteadyRes z (execTmpRelease s) := by
  unfold execTmpRelease; dsimp only
  with_reducible repeat' first
    | exact h | assumption | apply SteadyRes.next | apply SteadyRes.ite | apply tmpCommand_steady | apply diagnose_steady
    | apply portsAsAtStart_steady | apply Steady.ite | intro _ _ _ _ | intro _ _ _ | (intro _ _; try dsimp only)
    | (apply Steady.core; dsimp only; apply SteadyCore.same) | split

theorem openWindow_steady {z s : State} (h : Steady z s) (x0) : Steady z (openWindow x0 s).1 := by
  unfold openWindow; dsimp only
  with_reducible repeat' first
    | exact h | assumption | apply Steady.ite | apply Steady.ite1 | (apply Steady.core; dsimp only; apply SteadyCore.same)

theorem execTmpServiceA_steady {z s : State} (h : Steady z s) : SteadyRes z (execTmpServiceA s) := by
  unfold execTmpServiceA
  with_reducible repeat' first
    | exact h | assumption | apply SteadyRes.next | apply SteadyRes.ite | apply tmpCommand_steady | apply openWindow_steady
    | apply Steady.ite | apply Steady.ite1 | intro _ _ _ _ | intro _ _ _ | (intro _ _; try dsimp only)

theorem execTmpServiceB_steady {z s : State} (h : Steady z s) : SteadyRes z (execTmpServiceB s) := by
  unfold execTmpServiceB
  with_reducible repeat' first
    | exact h | assumption | apply SteadyRes.next | apply SteadyRes.ite | apply tmpCommand_steady | apply openWindow_steady
    | apply Steady.ite | apply Steady.ite1 | intro _ _ _ _ | intro _ _ _ | (intro _ _; try dsimp only)

theorem execTmpEndService_steady {z s : State} (h : Steady z s) : SteadyRes z (execTmpEndService s) := by
  unfold execTmpEndService; dsimp only
  with_reducible repeat' first
    | exact h | assumption | apply SteadyRes.next | apply SteadyRes.ite | apply tmpCommand_steady | apply closeWindow_steady
    | apply freeStatus_steady | apply Steady.ite | apply Steady.ite2 | intro _ _ _ _ | intro _ _ _ | (intro _ _; try dsimp only)
    | split

theorem execServiceWindowExpiry_steady {z s : State} (h : Steady z s) : SteadyRes z (execServiceWindowExpiry s) := by
  unfold execServiceWindowExpiry
  with_reducible repeat' first
    | exact h | assumption | apply SteadyRes.next | apply SteadyRes.ite | apply closeWindow_steady

theorem execTmpZeroiseArm_steady {z s : State} (h : Steady z s) : SteadyRes z (execTmpZeroiseArm s) := by
  unfold execTmpZeroiseArm; dsimp only
  with_reducible repeat' first
    | exact h | assumption | apply SteadyRes.next | apply SteadyRes.ite | apply tmpCommand_steady | apply Steady.ite | intro _ _ _ _
    | intro _ _ _ | (intro _ _; try dsimp only) | (apply Steady.core; dsimp only; apply SteadyCore.same)

theorem execTmpZeroiseAll_steady {z s : State} (h : Steady z s) (x0) : SteadyRes z (execTmpZeroiseAll x0 s) := by
  unfold execTmpZeroiseAll; dsimp only
  with_reducible repeat' first
    | exact h | assumption | apply SteadyRes.next | apply SteadyRes.ite | apply tmpCommand_steady | apply fireSource_steady
    | apply Steady.ite | intro _ _ _ _ | intro _ _ _ | (intro _ _; try dsimp only) | (apply Steady.core; dsimp only; apply SteadyCore.same)
    | split

theorem execTmpFlagsClear_steady {z s : State} (h : Steady z s) (x0) : SteadyRes z (execTmpFlagsClear x0 s) := by
  unfold execTmpFlagsClear; dsimp only
  with_reducible repeat' first
    | exact h | assumption | apply SteadyRes.next | apply SteadyRes.ite | apply State.access_steady | apply Steady.ite | intro _ _ _ _
    | intro _ _ _ | (intro _ _; try dsimp only) | (apply Steady.core; dsimp only; apply SteadyCore.same)

theorem execSmbusZeroiseWrite_steady {z s : State} (h : Steady z s) (x0 x1) : SteadyRes z (execSmbusZeroiseWrite x0 x1 s) := by
  unfold execSmbusZeroiseWrite; dsimp only
  with_reducible repeat' first
    | exact h | assumption | apply SteadyRes.next | apply SteadyRes.ite | apply fireSource_steady | apply Steady.ite
    | (apply Steady.core; dsimp only; apply SteadyCore.same)

theorem execSmbusZeroiseArmExpiry_steady {z s : State} (h : Steady z s) : SteadyRes z (execSmbusZeroiseArmExpiry s) := by
  unfold execSmbusZeroiseArmExpiry; dsimp only
  with_reducible repeat' first
    | exact h | assumption | apply SteadyRes.next | apply SteadyRes.ite | apply Steady.ite
    | (apply Steady.core; dsimp only; apply SteadyCore.same)

theorem execSmbusStatusRead_steady {z s : State} (h : Steady z s) : SteadyRes z (execSmbusStatusRead s) := by
  unfold execSmbusStatusRead
  with_reducible repeat' first
    | exact h | assumption | apply SteadyRes.next | apply SteadyRes.ite | apply State.emit_steady | apply Steady.ite

theorem noteError_steady {z s : State} (h : Steady z s) (x1 x2 x3) : Steady z (noteError s x1 x2 x3) := by
  unfold noteError; dsimp only
  with_reducible repeat' first
    | exact h | assumption | apply State.setReg_steady

theorem quarantine_steady {z s : State} (h : Steady z s) (x1 x2) : Steady z (quarantine s x1 x2) := by
  unfold quarantine; dsimp only
  with_reducible repeat' first
    | exact h | assumption | apply State.alarm_steady | apply Steady.ite | apply Steady.foldl | apply Steady.foldl1 | apply Steady.foldl2
    | (apply Steady.core; dsimp only; apply SteadyCore.same)

theorem dropOwner_steady {z s : State} (h : Steady z s) (x1 x2) : Steady z (dropOwner s x1 x2) := by
  unfold dropOwner; try dsimp only
  with_reducible repeat' first
    | exact h | assumption | apply dropSpilled_steady | apply Steady.ite | intro _ _ _ _ | intro _ _ _ | (intro _ _; try dsimp only)
    | split

theorem queueRepair_steady {z s : State} (h : Steady z s) (x1) : Steady z (queueRepair s x1) := by
  unfold queueRepair
  with_reducible repeat' first
    | exact h | assumption | apply Steady.ite | (apply Steady.core; dsimp only; apply SteadyCore.same) | split

theorem onMemErr_steady {z s : State} (h : Steady z s) (x1 x2) : Steady z (onMemErr s x1 x2) := by
  unfold onMemErr; try dsimp only
  with_reducible repeat' first
    | exact h | assumption | apply State.countN_steady | apply dropOwner_steady | apply queueRepair_steady | apply noteError_steady
    | apply fireSource_steady | apply quarantine_steady | apply State.alarm_steady | apply Steady.ite | apply Steady.foldl
    | apply Steady.foldl1 | apply Steady.foldl2 | intro _ _ _ _ | intro _ _ _ | (intro _ _; try dsimp only) | split

theorem touch_steady {z s : State} (h : Steady z s) (x0 x2) : Steady z (touch x0 s x2) := by
  unfold touch
  with_reducible repeat' first
    | exact h | assumption | apply onMemErr_steady | apply Steady.ite | apply Steady.foldl | apply Steady.foldl1 | apply Steady.foldl2
    | intro _ _ _ _ | intro _ _ _ | (intro _ _; try dsimp only) | split

theorem writeBlock_steady {z s : State} (h : Steady z s) (x0 x1 x3 x4) : Steady z (writeBlock x0 x1 s x3 x4) := by
  unfold writeBlock; try dsimp only
  with_reducible repeat' first
    | exact h | assumption | apply touch_steady | apply State.count_steady | apply Steady.ite | apply Steady.foldl | apply Steady.foldl1
    | apply Steady.foldl2 | intro _ _ _ _ | intro _ _ _ | (intro _ _; try dsimp only)
    | (apply Steady.core; dsimp only; apply SteadyCore.same) | split

theorem writeCell_steady {z s : State} (h : Steady z s) (x0 x1 x2 x4) : Steady z (writeCell x0 x1 x2 s x4) := by
  unfold writeCell
  with_reducible repeat' first
    | exact h | assumption | apply writeBlock_steady | apply Steady.ite | apply Steady.foldl | apply Steady.foldl1 | apply Steady.foldl2
    | intro _ _ _ _ | intro _ _ _ | (intro _ _; try dsimp only) | split

theorem execSpill_steady {z s : State} (h : Steady z s) (f e) : SteadyRes z (execSpill f e s) := by
  unfold execSpill
  refine SteadyRes.ite (SteadyRes.next h) ?_
  dsimp only
  split
  · exact SteadyRes.next (State.count_steady (State.alarm_steady h _ _) _)
  · rename_i q
    exact SteadyRes.next (Steady.foldl (fun x a hx => writeCell_steady hx _ _ _ a) (State.setFrame_steady (allocCells_steady h q) _ _))

theorem unspill_steady {z s : State} (h : Steady z s) (x1) : Steady z (unspill s x1) := by
  unfold unspill; dsimp only
  with_reducible repeat' first
    | exact h | assumption | apply State.freeCells_steady | apply State.setFrame_steady

theorem execSpillWriteAck_steady {z s : State} (h : Steady z s) (x0 x1) : SteadyRes z (execSpillWriteAck x0 x1 s) := by
  unfold execSpillWriteAck; dsimp only
  with_reducible repeat' first
    | exact h | assumption | apply SteadyRes.next | apply SteadyRes.ite | apply State.count_steady | apply State.setFrame_steady
    | apply unspill_steady

theorem stageCell_steady {z s : State} (h : Steady z s) (x1) : Steady z (stageCell s x1) := by
  unfold stageCell; dsimp only
  with_reducible repeat' first
    | exact h | assumption | apply unspill_steady | apply State.count_steady | apply State.setFrame_steady | apply Steady.ite

theorem execFetchBackComplete_steady {z s : State} (h : Steady z s) (x0 x1) : SteadyRes z (execFetchBackComplete x0 x1 s) := by
  unfold execFetchBackComplete; dsimp only
  with_reducible repeat' first
    | exact h | assumption | apply SteadyRes.next | apply SteadyRes.ite | apply dropSpilled_steady | apply onMemErr_steady
    | apply stageCell_steady | apply Steady.ite | split

theorem execNodeWriteBack_steady {z s : State} (h : Steady z s) (x0 x1 x2) : SteadyRes z (execNodeWriteBack x0 x1 x2 s) := by
  unfold execNodeWriteBack; try dsimp only
  with_reducible repeat' first
    | exact h | assumption | apply SteadyRes.next | apply SteadyRes.ite | apply touch_steady | apply Steady.ite | apply Steady.foldl
    | apply Steady.foldl1 | apply Steady.foldl2 | intro _ _ _ _ | intro _ _ _ | (intro _ _; try dsimp only)
    | (apply Steady.core; dsimp only; apply SteadyCore.same) | split

theorem sweepFrame_steady {z s : State} (h : Steady z s) (x1) : Steady z (sweepFrame s x1) := by
  unfold sweepFrame; dsimp only
  with_reducible repeat' first
    | exact h | assumption | apply State.alarm_steady | apply dropSpilled_steady | apply State.setFrame_steady | apply Steady.ite

theorem execCisternAgeSweep_steady {z s : State} (h : Steady z s) : SteadyRes z (execCisternAgeSweep s) := by
  unfold execCisternAgeSweep
  with_reducible repeat' first
    | exact h | assumption | apply SteadyRes.next | apply SteadyRes.ite | apply sweepFrame_steady | apply Steady.ite | apply Steady.foldl
    | apply Steady.foldl1 | apply Steady.foldl2 | intro _ _ _ _ | (intro _ _ _; try dsimp only)

theorem cisCommand_steady {z s : State} (h : Steady z s) (x0) (hx0 : ∀ y0, Steady z y0 → Steady z (x0 y0).1) : SteadyRes z (cisCommand x0 s) := by
  unfold cisCommand; dsimp only
  with_reducible repeat' first
    | exact h | assumption | apply SteadyRes.next | apply SteadyRes.ite | apply State.access_steady | apply State.setFld_steady | apply hx0
    | apply Steady.ite | intro _ _ _ _ | intro _ _ _ | (intro _ _; try dsimp only)
    | split

theorem execCisRotate_steady {z s : State} (h : Steady z s) (x0) : SteadyRes z (execCisRotate x0 s) := by
  unfold execCisRotate
  with_reducible repeat' first
    | exact h | assumption | apply SteadyRes.next | apply SteadyRes.ite | apply cisCommand_steady | apply rotate_steady | apply Steady.ite
    | intro _ _ _ _ | intro _ _ _ | (intro _ _; try dsimp only) | (refine SteadyOpt.of ?_ (by assumption); apply rotate_steady)
    | split

theorem execScrubNow_steady {z s : State} (h : Steady z s) : SteadyRes z (execScrubNow s) := by
  unfold execScrubNow
  with_reducible repeat' first
    | exact h | assumption | apply SteadyRes.next | apply SteadyRes.ite | apply cisCommand_steady | apply State.setFld_steady
    | apply Steady.ite | intro _ _ _ _ | intro _ _ _ | (intro _ _; try dsimp only)

theorem execTimedRotation_steady {z s : State} (h : Steady z s) (x0) : SteadyRes z (execTimedRotation x0 s) := by
  unfold execTimedRotation
  with_reducible repeat' first
    | exact h | assumption | apply SteadyRes.next | apply SteadyRes.ite | apply rotate_steady | apply Steady.ite | apply Steady.getD

theorem execRegionDrainComplete_steady {z s : State} (h : Steady z s) (x0) : SteadyRes z (execRegionDrainComplete x0 s) := by
  unfold execRegionDrainComplete
  with_reducible repeat' first
    | exact h | assumption | apply SteadyRes.next | apply SteadyRes.ite | apply Steady.ite
    | (apply Steady.core; dsimp only; apply SteadyCore.same)

theorem execKeyidRetireComplete_steady {z s : State} (h : Steady z s) (x0) : SteadyRes z (execKeyidRetireComplete x0 s) := by
  unfold execKeyidRetireComplete; dsimp only
  with_reducible repeat' first
    | exact h | assumption | apply SteadyRes.next | apply SteadyRes.ite | apply Steady.ite | apply Steady.foldl | apply Steady.foldl1
    | apply Steady.foldl2 | (apply Steady.core; dsimp only; apply SteadyCore.same)

theorem execScrubVisit_steady {z s : State} (h : Steady z s) (x0 x1 x2) : SteadyRes z (execScrubVisit x0 x1 x2 s) := by
  unfold execScrubVisit; dsimp only
  with_reducible repeat' first
    | exact h | assumption | apply SteadyRes.next | apply SteadyRes.ite | apply onMemErr_steady | apply State.setFld_steady
    | apply Steady.ite | split

theorem bumpPpr_steady {z s : State} (h : Steady z s) (x1) : Steady z (bumpPpr s x1) := by
  unfold bumpPpr
  with_reducible repeat' first
    | exact h | assumption | apply State.setFld_steady

theorem cisternFails_steady {z s : State} (h : Steady z s) : Steady z (cisternFails s) := by
  unfold cisternFails
  with_reducible repeat' first
    | exact h | assumption | apply diagnose_steady | apply dropAllSpilled_steady | apply abortSpills_steady | apply State.alarm_steady | apply Steady.ite
    | (apply Steady.core; dsimp only; apply SteadyCore.same)

theorem repairFails_steady {z s : State} (h : Steady z s) (x1 x2 x3) : Steady z (repairFails s x1 x2 x3) := by
  unfold repairFails; try dsimp only
  with_reducible repeat' first
    | exact h | assumption | apply bumpPpr_steady | apply cisternFails_steady | apply State.alarm_steady | apply Steady.ite
    | intro _ _ _ _ | intro _ _ _ | (intro _ _; try dsimp only) | (apply Steady.core; dsimp only; apply SteadyCore.same) | split

theorem execRowRepair_steady {z s : State} (h : Steady z s) (x0 x1 x2 x3) : SteadyRes z (execRowRepair x0 x1 x2 x3 s) := by
  unfold execRowRepair; try dsimp only
  with_reducible repeat' first
    | exact h | assumption | apply SteadyRes.next | apply SteadyRes.ite | apply bumpPpr_steady | apply repairFails_steady
    | apply State.count_steady | apply Steady.ite | intro _ _ _ _ | intro _ _ _ | (intro _ _; try dsimp only)
    | (apply Steady.core; dsimp only; apply SteadyCore.same) | split

theorem execStackFail_steady {z s : State} (h : Steady z s) : SteadyRes z (execStackFail s) := by
  unfold execStackFail
  with_reducible repeat' first
    | exact h | assumption | apply SteadyRes.next | apply SteadyRes.ite | apply cisternFails_steady | apply Steady.ite | split

end Sys2Proof.Machine
end

