-- ==== Sys2Proof/Laws/SteadyKeys.lean ====
section
/-! SUPPORT. What the keystore and the public-key engine leave alone: the queue, the canonical register map, the epoch's floor. -/

namespace Sys2Proof.Machine

theorem State.setOwner_steady {z s : State} (h : Steady z s) (x1 x2) : Steady z (State.setOwner s x1 x2) := by
  unfold State.setOwner
  with_reducible repeat' first
    | exact h | assumption | apply Steady.ite | (apply Steady.core; dsimp only; apply SteadyCore.same)

theorem logAppend_steady {z s : State} (h : Steady z s) (x1) : Steady z (logAppend s x1) := by
  unfold logAppend; dsimp only
  with_reducible repeat' first
    | exact h | assumption | apply State.useFree_steady | apply Steady.ite | (apply Steady.core; dsimp only; apply SteadyCore.same)

theorem logCompact_steady {z s : State} (h : Steady z s) : Steady z (logCompact s) := by
  unfold logCompact; dsimp only
  with_reducible repeat' first
    | exact h | assumption | apply logAppend_steady | apply Steady.ite | apply Steady.foldl | apply Steady.foldl1 | apply Steady.foldl2
    | intro _ _ _ _ | (intro _ _ _; try dsimp only) | (apply Steady.core; dsimp only; apply SteadyCore.same)

theorem logBatch_steady {z s : State} (h : Steady z s) (x1) : Steady z (logBatch s x1) := by
  unfold logBatch; dsimp only
  with_reducible repeat' first
    | exact h | assumption | apply logCompact_steady | apply logAppend_steady | apply Steady.ite | apply Steady.foldl | apply Steady.foldl1
    | apply Steady.foldl2 | intro _ _ _ _ | (intro _ _ _; try dsimp only)

theorem tryBatch_steady {z s : State} (h : Steady z s) (x1 x2) : Steady z (tryBatch s x1 x2).1 := by
  unfold tryBatch
  with_reducible repeat' first
    | exact h | assumption | apply logBatch_steady | apply State.alarm_steady | apply Steady.ite | apply Steady.ite1

theorem epoch_blow {s : State} {i : Nat} (h : s.epoch ≤ i) :
    s.epoch ≤ State.epoch { s with fuses := { s.fuses with blown := i :: s.fuses.blown } } := by
  have le : ∀ (l : List Nat) (a : Nat), a ≤ l.foldl max a := by
    intro l
    induction l with
    | nil => exact fun _ => le_rfl
    | cons b l ih => exact fun a => le_trans (le_max_left a b) (ih _)
  have : i ≤ (i :: s.fuses.blown).foldl max 0 := le_trans (le_max_right 0 i) (le _ _)
  refine le_trans h ?_
  conv_rhs => unfold State.epoch
  exact Nat.le_succ_of_le this

theorem tryFuses_steady {z s : State} (h : Steady z s) (i o n) (hi : s.epoch ≤ i) : Steady z (tryFuses s i o n).1 := by
  induction n generalizing s i o with
  | zero => exact h
  | succ n ih =>
    unfold tryFuses; dsimp only
    refine Steady.ite1 ⟨h.queue, h.canon, le_trans h.epoch (epoch_blow hi)⟩ ?_
    have ha : Steady z (s.alarm R.KST_ALARM F.KST_ALARM_FUSE) := State.alarm_steady h _ _
    have he : (s.alarm R.KST_ALARM F.KST_ALARM_FUSE).epoch = s.epoch := by
      apply epoch_congr; unfold State.alarm State.interrupt State.setFld State.setReg State.emit
      split
      · rfl
      · dsimp only; split <;> rfl
    refine ih (Steady.ite ((by apply Steady.core; dsimp only; exact SteadyCore.fuses ha rfl)) ha) _ _ ?_
    split
    · exact le_trans (le_of_eq ((epoch_congr_blown rfl).trans he)) (Nat.le_succ_of_le hi)
    · exact le_trans (le_of_eq he) (Nat.le_succ_of_le hi)

theorem blowEpoch_steady {z s : State} (h : Steady z s) (o) : Steady z (blowEpoch s o).1 := by
  have := tryFuses_steady h s.epoch o 3 le_rfl
  unfold blowEpoch; dsimp only
  exact Steady.ite1 this ((by apply Steady.core; dsimp only; exact SteadyCore.fuses this rfl))

theorem commitCounter_steady {z s : State} (h : Steady z s) (x1 x2 x3) : Steady z (commitCounter s x1 x2 x3).1 := by
  unfold commitCounter; dsimp only
  with_reducible repeat' first
    | exact h | assumption | apply blowEpoch_steady | apply Steady.ite | apply Steady.ite1
    | (apply Steady.core; dsimp only; apply SteadyCore.same)

theorem kstEnd_steady {z s : State} (h : Steady z s) (x1 x2 x3) : Steady z (kstEnd s x1 x2 x3) := by
  unfold kstEnd
  with_reducible repeat' first
    | exact h | assumption | apply kstDone_steady | apply State.setFld_steady

theorem kstCommand_steady {z s : State} (h : Steady z s) (x0 x1) (hx1 : ∀ y0, Steady z y0 → Steady z (x1 y0)) : SteadyRes z (kstCommand x0 x1 s) := by
  unfold kstCommand
  with_reducible repeat' first
    | exact h | assumption | apply SteadyRes.next | apply SteadyRes.ite | apply State.setFld_steady | apply State.raiseErr_steady
    | apply State.access_steady | apply kstEnd_steady | apply hx1 | apply Steady.ite | intro _ _ _ _ | intro _ _ _
    | (intro _ _; try dsimp only)

theorem updateEnd_steady {z s : State} (h : Steady z s) (x1 x2 x3) : Steady z (updateEnd s x1 x2 x3) := by
  unfold updateEnd; dsimp only
  with_reducible repeat' first
    | exact h | assumption | apply State.alarm_steady | apply kstEnd_steady | apply Steady.ite

theorem beginLoad_steady {z s : State} (h : Steady z s) (x1) : Steady z (beginLoad s x1) := by
  unfold beginLoad
  with_reducible repeat' first
    | exact h | assumption | apply State.modPair_steady | apply startLoad_steady | apply Steady.ite

theorem applyMessage_steady {z s : State} (h : Steady z s) (j c f o) : Steady z (applyMessage s j c f o) := by
  have ex : ∀ x : State, Steady z x → Steady z (if x.counterS = 2 ^ 40 - 1 then { x with fuses := { x.fuses with exhausted := true } } else x) :=
    fun x hx => Steady.ite ((by apply Steady.core; dsimp only; exact SteadyCore.fuses hx rfl)) hx
  unfold applyMessage
  split
  · rename_i e; exact updateEnd_steady (State.count_steady (Steady.fst (commitCounter_steady h _ _ _) e) _) _ _ _
  · rename_i e
    have hc := fun k => State.count_steady (Steady.fst (commitCounter_steady h _ _ _) e) k
    dsimp only
    split
    · rename_i q; exact updateEnd_steady (ex _ (Steady.fst (tryBatch_steady (hc _) _ _) q)) _ _ _
    · rename_i w q
      have hw : Steady z w := Steady.fst (tryBatch_steady (hc _) _ _) q
      have hv : Steady z { w with owner := j.s.owner } := by apply Steady.core; dsimp only; exact SteadyCore.same hw
      have hy := ex _ (Steady.foldl (fun x a hx => beginLoad_steady hx a) hv (l := j.loads))
      exact Steady.ite (State.setFld_steady (State.setFld_steady (State.setFld_steady (State.setFld_steady hy _ _ _) _ _ _) _ _ _) _ _ _) (updateEnd_steady hy _ _ _)

theorem execKstUpdate_steady {z s : State} (h : Steady z s) (x0 x1 x2) : SteadyRes z (execKstUpdate x0 x1 x2 s) := by
  unfold execKstUpdate; dsimp only
  with_reducible repeat' first
    | exact h | assumption | apply State.emit_steady | apply SteadyRes.next | apply SteadyRes.ite | apply kstCommand_steady | apply freeStatus_steady
    | apply updateEnd_steady | apply State.count_steady | apply applyMessage_steady | apply State.useFree_steady | apply Steady.ite
    | apply Steady.ite2 | intro _ _ _ _ | intro _ _ _ | (intro _ _; try dsimp only)
    | split

theorem kstOutput_steady {z s : State} (h : Steady z s) (x1) : Steady z (kstOutput s x1) := by
  unfold kstOutput
  with_reducible repeat' first
    | exact h | assumption | apply kstEnd_steady | apply State.setReg_steady | apply State.emit_steady

theorem execKstAttest_steady {z s : State} (h : Steady z s) : SteadyRes z (execKstAttest s) := by
  unfold execKstAttest
  with_reducible repeat' first
    | exact h | assumption | apply SteadyRes.next | apply SteadyRes.ite | apply kstCommand_steady | apply kstEnd_steady
    | apply kstOutput_steady | apply State.useFree_steady | apply Steady.ite | intro _ _ _ _ | intro _ _ _ | (intro _ _; try dsimp only)

theorem execKstAgreePub_steady {z s : State} (h : Steady z s) : SteadyRes z (execKstAgreePub s) := by
  unfold execKstAgreePub
  with_reducible repeat' first
    | exact h | assumption | apply SteadyRes.next | apply SteadyRes.ite | apply kstCommand_steady | apply kstEnd_steady
    | apply kstOutput_steady | apply Steady.ite | intro _ _ _ _ | intro _ _ _ | (intro _ _; try dsimp only)

theorem execKstGenerate_steady {z s : State} (h : Steady z s) (x0) : SteadyRes z (execKstGenerate x0 s) := by
  unfold execKstGenerate; dsimp only
  with_reducible repeat' first
    | exact h | assumption | apply SteadyRes.next | apply SteadyRes.ite | apply kstCommand_steady | apply kstEnd_steady
    | apply tryBatch_steady | apply State.useFree_steady | apply State.setOwner_steady | apply Steady.ite | apply Steady.ite1
    | intro _ _ _ _ | intro _ _ _ | (intro _ _; try dsimp only) | (refine Steady.fst ?_ (by assumption); apply tryBatch_steady)
    | split

theorem execKstDelete_steady {z s : State} (h : Steady z s) (x0) : SteadyRes z (execKstDelete x0 s) := by
  unfold execKstDelete; dsimp only
  with_reducible repeat' first
    | exact h | assumption | apply SteadyRes.next | apply SteadyRes.ite | apply kstCommand_steady | apply kstEnd_steady
    | apply tryBatch_steady | apply State.setOwner_steady | apply Steady.ite | apply Steady.ite1 | intro _ _ _ _ | intro _ _ _
    | (intro _ _; try dsimp only) | (refine Steady.fst ?_ (by assumption); apply tryBatch_steady)
    | split

theorem execKstInfo_steady {z s : State} (h : Steady z s) : SteadyRes z (execKstInfo s) := by
  unfold execKstInfo; dsimp only
  with_reducible repeat' first
    | exact h | assumption | apply SteadyRes.next | apply SteadyRes.ite | apply kstCommand_steady | apply kstEnd_steady
    | apply State.setWin_steady | apply Steady.ite | intro _ _ _ _ | intro _ _ _ | (intro _ _; try dsimp only)
    | split

theorem execDrbgReseed_steady {z s : State} (h : Steady z s) : SteadyRes z (execDrbgReseed s) := by
  unfold execDrbgReseed
  with_reducible repeat' first
    | exact h | assumption | apply SteadyRes.next | apply SteadyRes.ite | apply State.useFree_steady | apply Steady.ite

theorem execEntropyHealthFail_steady {z s : State} (h : Steady z s) : SteadyRes z (execEntropyHealthFail s) := by
  unfold execEntropyHealthFail
  with_reducible repeat' first
    | exact h | assumption | apply SteadyRes.next | apply SteadyRes.ite | apply fireSource_steady | apply State.alarm_steady
    | apply Steady.ite | (apply Steady.core; dsimp only; apply SteadyCore.same)

theorem execDrbgResume_steady {z s : State} (h : Steady z s) : SteadyRes z (execDrbgResume s) := by
  unfold execDrbgResume
  with_reducible repeat' first
    | exact h | assumption | apply SteadyRes.next | apply SteadyRes.ite | apply Steady.ite
    | (apply Steady.core; dsimp only; apply SteadyCore.same)

theorem State.modPke_steady {z s : State} (h : Steady z s) (x1) : Steady z (State.modPke s x1) := by
  unfold State.modPke
  with_reducible repeat' first
    | exact h | assumption | apply Steady.ite | (apply Steady.core; dsimp only; apply SteadyCore.same)

theorem writeCompletion_steady {z s : State} (h : Steady z s) (x1 x2 x3) : Steady z (writeCompletion s x1 x2 x3) := by
  unfold writeCompletion; dsimp only
  with_reducible repeat' first
    | exact h | assumption | apply State.emit_steady | apply State.modPke_steady | apply State.interrupt_steady | apply Steady.ite

theorem endPke_steady {z s : State} (h : Steady z s) (x1 x2) : Steady z (endPke s x1 x2) := by
  unfold endPke; dsimp only
  with_reducible repeat' first
    | exact h | assumption | apply State.modPke_steady | apply State.count_steady | apply writeCompletion_steady | apply Steady.ite

theorem abortPke_steady {z s : State} (h : Steady z s) (x1) : Steady z (abortPke s x1) := by
  unfold abortPke; dsimp only
  with_reducible repeat' first
    | exact h | assumption | apply State.free_steady | apply endPke_steady

theorem pkeFlush_steady {z s : State} (h : Steady z s) : Steady z (pkeFlush s) := by
  unfold pkeFlush
  with_reducible repeat' first
    | exact h | assumption | apply writeCompletion_steady | apply Steady.ite | apply Steady.foldl | apply Steady.foldl1
    | apply Steady.foldl2 | intro _ _ _ _ | (intro _ _ _; try dsimp only) | split

theorem abortAllPke_steady {z s : State} (h : Steady z s) : Steady z (abortAllPke s) := by
  unfold abortAllPke
  with_reducible repeat' first
    | exact h | assumption | apply abortPke_steady | apply Steady.ite | apply Steady.foldl | apply Steady.foldl1 | apply Steady.foldl2
    | intro _ _ _ _ | (intro _ _ _; try dsimp only)

theorem pkeStatus_steady {z s : State} (h : Steady z s) (x1) : Steady z (pkeStatus s x1) := by
  unfold pkeStatus
  with_reducible repeat' first
    | exact h | assumption | apply State.setFld_steady

theorem execPkeSubmit_steady {z s : State} (h : Steady z s) (x0 x1) : SteadyRes z (execPkeSubmit x0 x1 s) := by
  unfold execPkeSubmit; dsimp only
  with_reducible repeat' first
    | exact h | assumption | apply State.emit_steady | apply SteadyRes.next | apply SteadyRes.ite | apply State.access_steady | apply freeStatus_steady
    | apply pkeStatus_steady | apply State.free_steady | apply State.modPke_steady | apply State.setFld_steady | apply Steady.ite
    | apply Steady.ite2 | intro _ _ _ _ | intro _ _ _ | (intro _ _; try dsimp only)
    | split

theorem execPkeAbort_steady {z s : State} (h : Steady z s) (x0) : SteadyRes z (execPkeAbort x0 s) := by
  unfold execPkeAbort; dsimp only
  with_reducible repeat' first
    | exact h | assumption | apply SteadyRes.next | apply SteadyRes.ite | apply State.access_steady | apply pkeStatus_steady
    | apply State.modPke_steady | apply abortPke_steady | apply Steady.ite | intro _ _ _ _ | intro _ _ _ | (intro _ _; try dsimp only)

theorem runPke_steady {z s : State} (h : Steady z s) (x1) : Steady z (runPke s x1) := by
  unfold runPke; dsimp only
  with_reducible repeat' first
    | exact h | assumption | apply State.modPke_steady

theorem execPkeJobStart_steady {z s : State} (h : Steady z s) (x0) : SteadyRes z (execPkeJobStart x0 s) := by
  unfold execPkeJobStart
  with_reducible repeat' first
    | exact h | assumption | apply SteadyRes.next | apply SteadyRes.ite | apply runPke_steady | apply State.modPke_steady
    | apply Steady.ite | intro _ _ _ _ | intro _ _ _ | (intro _ _; try dsimp only)
    | (apply Steady.core; dsimp only; apply SteadyCore.same) | split

theorem execPkeCheckpoint_steady {z s : State} (h : Steady z s) (x0) : SteadyRes z (execPkeCheckpoint x0 s) := by
  unfold execPkeCheckpoint; dsimp only
  with_reducible repeat' first
    | exact h | assumption | apply SteadyRes.next | apply SteadyRes.ite | apply abortPke_steady | apply State.modPke_steady
    | apply runPke_steady | apply Steady.ite | split

theorem execPkeDutyWindow_steady {z s : State} (h : Steady z s) : SteadyRes z (execPkeDutyWindow s) := by
  unfold execPkeDutyWindow
  with_reducible repeat' first
    | exact h | assumption | apply SteadyRes.next | apply SteadyRes.ite | apply State.modPke_steady

theorem curveLoad_steady {z s : State} (h : Steady z s) (x1) : Steady z (curveLoad s x1).1 := by
  unfold curveLoad; dsimp only
  with_reducible repeat' first
    | exact h | assumption | apply State.modPke_steady | apply Steady.ite | apply Steady.ite1
    | (apply Steady.core; dsimp only; apply SteadyCore.same)

theorem curveUnload_steady {z s : State} (h : Steady z s) (x1 x2) : Steady z (curveUnload s x1 x2).1 := by
  unfold curveUnload; dsimp only
  with_reducible repeat' first
    | exact h | assumption | apply State.modPke_steady | apply Steady.ite | apply Steady.ite1
    | (apply Steady.core; dsimp only; apply SteadyCore.same)

theorem jobResult_steady {z s : State} (h : Steady z s) (x1 x2) : Steady z (jobResult s x1 x2).1 := by
  unfold jobResult; dsimp only
  with_reducible repeat' first
    | exact h | assumption | apply curveLoad_steady | apply curveUnload_steady | apply freeStatus_steady | apply Steady.ite
    | apply Steady.ite1 | apply Steady.ite2 | split

theorem execPkeJobEnd_steady {z s : State} (h : Steady z s) (x0 x1 x2) : SteadyRes z (execPkeJobEnd x0 x1 x2 s) := by
  unfold execPkeJobEnd; dsimp only
  with_reducible repeat' first
    | exact h | assumption | apply SteadyRes.next | apply SteadyRes.ite | apply abortPke_steady | apply endPke_steady
    | apply State.alarm_steady | apply jobResult_steady | apply Steady.ite | apply Steady.ite1
    | (apply Steady.core; dsimp only; apply SteadyCore.same) | split

theorem clearTraffic_steady {z s : State} (h : Steady z s) : Steady z (clearTraffic s) := by
  unfold clearTraffic; dsimp only
  with_reducible repeat' first
    | exact h | assumption | apply clearAllSlots_steady | apply linkDown_steady | apply initCistern_steady | apply dropAllSpilled_steady
    | apply State.alarm_steady | apply abortAllPke_steady | apply Steady.ite | (apply Steady.core; dsimp only; apply SteadyCore.same)

theorem execKeyClearComplete_steady {z s : State} (h : Steady z s) : SteadyRes z (execKeyClearComplete s) := by
  unfold execKeyClearComplete; dsimp only
  with_reducible repeat' first
    | exact h | assumption | apply SteadyRes.next | apply SteadyRes.ite | apply clearTraffic_steady | apply Steady.ite
    | (apply Steady.core; dsimp only; apply SteadyCore.same)

end Sys2Proof.Machine
end

