-- ==== Sys2Proof/Laws/SteadyTxn.lean ====
section
/-! SUPPORT. What transactions, the levels and the images leave alone: the queue, the canonical register map, the epoch's floor. -/

namespace Sys2Proof.Machine

theorem State.setParam_steady {z s : State} (h : Steady z s) (x1 x2) : Steady z (State.setParam s x1 x2) := by
  unfold State.setParam
  with_reducible repeat' first
    | exact h | assumption | apply Steady.ite | (apply Steady.core; dsimp only; apply SteadyCore.same)

theorem layWord_steady {z s : State} (h : Steady z s) (x1) : Steady z (layWord s x1) := by
  unfold layWord; dsimp only
  with_reducible repeat' first
    | exact h | assumption | apply State.setReg_steady | apply Steady.ite | (apply Steady.core; dsimp only; apply SteadyCore.same) | split

theorem lay_steady {z s : State} (h : Steady z s) (x1) : Steady z (lay s x1) := by
  unfold lay; dsimp only
  with_reducible repeat' first
    | exact h | assumption | apply State.setParam_steady | apply layWord_steady | apply Steady.ite | apply Steady.foldl
    | apply Steady.foldl1 | apply Steady.foldl2 | intro _ _ _ _ | (intro _ _ _; try dsimp only)
    | (apply Steady.core; dsimp only; apply SteadyCore.same)

theorem layEntry_steady {z s : State} (h : Steady z s) (x0 x2) : Steady z (layEntry x0 s x2) := by
  unfold layEntry; dsimp only
  with_reducible repeat' first
    | exact h | assumption | apply applyEntry_steady | apply Steady.ite | apply Steady.foldl | apply Steady.foldl1 | apply Steady.foldl2
    | apply Steady.getD | (apply Steady.core; dsimp only; apply SteadyCore.same)

theorem layWords_steady {z s : State} (h : Steady z s) (x1) : Steady z (layWords s x1) := by
  unfold layWords; dsimp only
  with_reducible repeat' first
    | exact h | assumption | apply layWord_steady | apply layEntry_steady | apply tagRegions_steady | apply Steady.ite | apply Steady.foldl
    | apply Steady.foldl1 | apply Steady.foldl2 | intro _ _ _ _ | (intro _ _ _; try dsimp only)

theorem releaseLane_steady {z s : State} (h : Steady z s) (x1) : Steady z (releaseLane s x1) := by
  unfold releaseLane
  with_reducible repeat' first
    | exact h | assumption | apply releaseSpare_steady | apply Steady.ite | apply Steady.foldl | apply Steady.foldl1 | apply Steady.foldl2
    | intro _ _ _ _ | (intro _ _ _; try dsimp only)

theorem setLanes_steady {z s : State} (h : Steady z s) (x1) : Steady z (setLanes s x1) := by
  unfold setLanes
  with_reducible repeat' first
    | exact h | assumption | apply State.setLane_steady | apply Steady.ite | apply Steady.foldl | apply Steady.foldl1 | apply Steady.foldl2
    | intro _ _ _ _ | (intro _ _ _; try dsimp only)

theorem adoptSpares_steady {z : State} (s : State) {k : State} (h : Steady z k) : Steady z (adoptSpares s k) := by
  unfold adoptSpares
  with_reducible repeat' first
    | exact h | assumption | apply goIdle_steady | apply Steady.ite | apply Steady.foldl | intro _ _ _ _ | (intro _ _ _; try dsimp only)

theorem restartPort_steady {z s : State} (h : Steady z s) (x1) : Steady z (restartPort s x1) := by
  unfold restartPort
  with_reducible repeat' first
    | exact h | assumption | apply State.setPort_steady

theorem restartTrunk_steady {z s : State} (h : Steady z s) (x0 x2) : Steady z (restartTrunk x0 s x2) := by
  unfold restartTrunk
  with_reducible repeat' first
    | exact h | assumption | apply startTrunk_steady | apply State.setTrunk_steady | apply State.dropQueued_steady | apply Steady.ite

theorem adoptLanes_steady {z s : State} (h : Steady z s) (x0) : Steady z (adoptLanes x0 s) := by
  unfold adoptLanes; try dsimp only
  with_reducible repeat' first
    | exact h | assumption | apply adoptSpares_steady | apply setLanes_steady | apply restartPort_steady | apply restartTrunk_steady
    | apply portEdge_steady | apply Steady.ite | apply Steady.foldl | apply Steady.foldl1 | apply Steady.foldl2 | intro _ _ _ _
    | intro _ _ _ | (intro _ _; try dsimp only)

theorem adoptCmp_steady {z s : State} (h : Steady z s) (x0 x2) : Steady z (adoptCmp x0 s x2) := by
  unfold adoptCmp; dsimp only
  with_reducible repeat' first
    | exact h | assumption | apply setCmpTarget_steady | apply Steady.ite | (apply Steady.core; dsimp only; apply SteadyCore.same)

theorem adoptGate_steady {z s : State} (h : Steady z s) (x0 x2) : Steady z (adoptGate x0 s x2) := by
  unfold adoptGate
  with_reducible repeat' first
    | exact h | assumption | apply loadGates_steady | apply Steady.ite

theorem adoptWindows_steady {z s : State} (h : Steady z s) (x0) : Steady z (adoptWindows x0 s) := by
  unfold adoptWindows
  with_reducible repeat' first
    | exact h | assumption | apply Steady.ite | apply Steady.foldl | apply Steady.foldl1 | apply Steady.foldl2 | intro _ _ _ _
    | (intro _ _ _; try dsimp only) | (apply Steady.core; dsimp only; apply SteadyCore.same)

theorem adoptPair_steady {z s : State} (h : Steady z s) (x0) : Steady z (adoptPair x0 s) := by
  unfold adoptPair; dsimp only
  with_reducible repeat' first
    | exact h | assumption | apply State.modPair_steady | apply applyAqd_steady | apply Steady.ite

theorem adoptPreempt_steady {z s : State} (h : Steady z s) (x0 x2) : Steady z (adoptPreempt x0 s x2) := by
  unfold adoptPreempt; dsimp only
  with_reducible repeat' first
    | exact h | assumption | apply State.setPort_steady | apply Steady.ite

theorem applyWords_steady {z s : State} (h : Steady z s) (x1) : Steady z (applyWords s x1) := by
  unfold applyWords; dsimp only
  with_reducible repeat' first
    | exact h | assumption | apply layWord_steady | apply releaseLane_steady | apply layWords_steady | apply adoptLanes_steady
    | apply adoptPreempt_steady | apply adoptCmp_steady | apply adoptGate_steady | apply adoptPair_steady | apply adoptWindows_steady
    | apply Steady.ite | apply Steady.foldl | apply Steady.foldl1 | apply Steady.foldl2 | intro _ _ _ _ | (intro _ _ _; try dsimp only)

theorem applyCal_steady {z s : State} (h : Steady z s) (x1) : Steady z (applyCal s x1) := by
  unfold applyCal
  with_reducible repeat' first
    | exact h | assumption | apply Steady.ite | (apply Steady.core; dsimp only; apply SteadyCore.same)

theorem applyChange_steady {z s : State} (h : Steady z s) (x1) : Steady z (applyChange s x1) := by
  unfold applyChange; dsimp only
  with_reducible repeat' first
    | exact h | assumption | apply lay_steady | apply State.setParam_steady | apply applyCal_steady | apply applyWords_steady
    | apply Steady.ite | apply Steady.foldl | apply Steady.foldl1 | apply Steady.foldl2 | intro _ _ _ _ | (intro _ _ _; try dsimp only)

theorem shadowPut_steady {z s : State} (h : Steady z s) (x1 x2) : Steady z (shadowPut s x1 x2) := by
  unfold shadowPut; dsimp only
  with_reducible repeat' first
    | exact h | assumption | apply Steady.ite | (apply Steady.core; dsimp only; apply SteadyCore.same)

theorem txnCmd_steady {z s : State} (h : Steady z s) (x1) : Steady z (txnCmd s x1) := by
  unfold txnCmd
  with_reducible repeat' first
    | exact h | assumption | apply State.setFld_steady

theorem txnResult_steady {z s : State} (h : Steady z s) (x1) : Steady z (txnResult s x1) := by
  unfold txnResult
  with_reducible repeat' first
    | exact h | assumption | apply State.setFld_steady

theorem bpEnd_steady {z s : State} (h : Steady z s) (x1) : Steady z (bpEnd s x1) := by
  unfold bpEnd
  with_reducible repeat' first
    | exact h | assumption | apply State.interrupt_steady | apply State.setFld_steady

theorem txnEnd_steady {z s : State} (h : Steady z s) (x1) : Steady z (txnEnd s x1) := by
  unfold txnEnd; dsimp only
  with_reducible repeat' first
    | exact h | assumption | apply discardTxn_steady | apply bpEnd_steady | apply State.interrupt_steady | apply txnResult_steady
    | apply Steady.ite

theorem txnRestart_steady {z s : State} (h : Steady z s) : Steady z (txnRestart s) := by
  unfold txnRestart
  with_reducible repeat' first
    | exact h | assumption | apply txnEnd_steady | apply Steady.ite

theorem execTxnBegin_steady {z s : State} (h : Steady z s) : SteadyRes z (execTxnBegin s) := by
  unfold execTxnBegin
  with_reducible repeat' first
    | exact h | assumption | apply SteadyRes.next | apply SteadyRes.ite | apply State.access_steady | apply txnCmd_steady | apply Steady.ite
    | intro _ _ _ _ | intro _ _ _ | (intro _ _; try dsimp only) | (apply Steady.core; dsimp only; apply SteadyCore.same)

theorem execTxnCommit_steady {z s : State} (h : Steady z s) : SteadyRes z (execTxnCommit s) := by
  unfold execTxnCommit; dsimp only
  with_reducible repeat' first
    | exact h | assumption | apply SteadyRes.next | apply SteadyRes.ite | apply State.access_steady | apply txnCmd_steady | apply Steady.ite
    | intro _ _ _ _ | intro _ _ _ | (intro _ _; try dsimp only) | (apply Steady.core; dsimp only; apply SteadyCore.same) | split

theorem execTxnRollback_steady {z s : State} (h : Steady z s) : SteadyRes z (execTxnRollback s) := by
  unfold execTxnRollback
  with_reducible repeat' first
    | exact h | assumption | apply SteadyRes.next | apply SteadyRes.ite | apply State.access_steady | apply txnCmd_steady
    | apply txnEnd_steady | apply Steady.ite | intro _ _ _ _ | intro _ _ _ | (intro _ _; try dsimp only)
    | split

theorem execTxnTimeoutExpiry_steady {z s : State} (h : Steady z s) (x0) : SteadyRes z (execTxnTimeoutExpiry x0 s) := by
  unfold execTxnTimeoutExpiry
  with_reducible repeat' first
    | exact h | assumption | apply SteadyRes.next | apply SteadyRes.ite | apply txnCmd_steady | apply txnEnd_steady | apply Steady.ite

theorem txnFault_steady {z s : State} (h : Steady z s) (x1) : Steady z (txnFault s x1) := by
  unfold txnFault
  with_reducible repeat' first
    | exact h | assumption | apply State.setReg_steady | apply Steady.ite | split

theorem dropOfPairing_steady {z s : State} (h : Steady z s) (x0 x2) : Steady z (dropOfPairing x0 s x2) := by
  unfold dropOfPairing; try dsimp only
  with_reducible repeat' first
    | exact h | assumption | apply egressCount_steady | apply State.setJob_steady | apply discard_steady | apply State.dropJob_steady
    | apply Steady.ite | intro _ _ _ _ | intro _ _ _ | (intro _ _; try dsimp only)
    | (apply Steady.core; dsimp only; apply SteadyCore.same) | split

theorem dropReceived_steady {z s : State} (h : Steady z s) (x0 x2) : Steady z (dropReceived x0 s x2) := by
  unfold dropReceived; try dsimp only
  with_reducible repeat' first
    | exact h | assumption | apply failFrame_steady | apply egressCount_steady | apply Steady.ite | intro _ _ _ _ | intro _ _ _
    | (intro _ _; try dsimp only) | split

theorem changePersonality_steady {z s : State} (h : Steady z s) (x1) : Steady z (changePersonality s x1) := by
  unfold changePersonality; try dsimp only
  with_reducible repeat' first
    | exact h | assumption | apply dropOfPairing_steady | apply dropReceived_steady | apply State.setPort_steady | apply Steady.ite
    | apply Steady.foldl | apply Steady.foldl1 | apply Steady.foldl2 | intro _ _ _ _ | intro _ _ _ | (intro _ _; try dsimp only)
    | (apply Steady.core; dsimp only; apply SteadyCore.same) | split

theorem txnApplied_steady {z s : State} (h : Steady z s) : Steady z (txnApplied s) := by
  unfold txnApplied; dsimp only
  with_reducible repeat' first
    | exact h | assumption | apply State.setPort_steady | apply txnEnd_steady | apply State.setReg_steady | apply Steady.ite
    | apply Steady.foldl | apply Steady.foldl1 | apply Steady.foldl2 | intro _ _ _ _ | (intro _ _ _; try dsimp only)

theorem txnSettle_steady {z s : State} (h : Steady z s) : Steady z (txnSettle s) := by
  unfold txnSettle
  with_reducible repeat' first
    | exact h | assumption | apply txnApplied_steady | apply Steady.ite

theorem execTxnValidationEnd_steady {z s : State} (h : Steady z s) (x0) : SteadyRes z (execTxnValidationEnd x0 s) := by
  unfold execTxnValidationEnd; dsimp only
  with_reducible repeat' first
    | exact h | assumption | apply SteadyRes.next | apply SteadyRes.ite | apply lay_steady | apply changePersonality_steady
    | apply txnSettle_steady | apply txnEnd_steady | apply txnFault_steady | apply Steady.ite | apply Steady.foldl | apply Steady.foldl1
    | apply Steady.foldl2 | intro _ _ _ _ | (intro _ _ _; try dsimp only) | (apply Steady.core; dsimp only; apply SteadyCore.same) | split

theorem applyMc_steady {z s : State} (h : Steady z s) : Steady z (applyMc s) := by
  unfold applyMc; dsimp only
  with_reducible repeat' first
    | exact h | assumption | apply State.setParam_steady | apply applyCal_steady | apply Steady.ite | apply Steady.foldl
    | apply Steady.foldl1 | apply Steady.foldl2 | intro _ _ _ _ | (intro _ _ _; try dsimp only)

theorem applyIsland_steady {z s : State} (h : Steady z s) (x1) : Steady z (applyIsland s x1) := by
  unfold applyIsland; dsimp only
  with_reducible repeat' first
    | exact h | assumption | apply applyWords_steady | apply applyMc_steady | apply Steady.ite
    | (apply Steady.core; dsimp only; apply SteadyCore.same)

theorem execTxnApplyInstant_steady {z s : State} (h : Steady z s) (x0) : SteadyRes z (execTxnApplyInstant x0 s) := by
  unfold execTxnApplyInstant
  with_reducible repeat' first
    | exact h | assumption | apply SteadyRes.next | apply SteadyRes.ite | apply txnSettle_steady | apply applyIsland_steady
    | apply State.reach_steady

theorem noteLevel_steady {z s : State} (h : Steady z s) (x1 x2) : Steady z (noteLevel s x1 x2) := by
  unfold noteLevel
  with_reducible repeat' first
    | exact h | assumption | apply State.alarm_steady | apply Steady.ite | split

theorem directWrite_steady {z s : State} (h : Steady z s) (x1 x2) : Steady z (directWrite s x1 x2) := by
  unfold directWrite; dsimp only
  with_reducible repeat' first
    | exact h | assumption | apply applyWords_steady | apply layWord_steady | apply State.alarm_steady | apply Steady.ite
    | apply Steady.foldl | apply Steady.foldl1 | apply Steady.foldl2 | (apply Steady.core; dsimp only; apply SteadyCore.same) | split

theorem configWrite_steady {z s : State} (h : Steady z s) (x1 x2) : Steady z (configWrite s x1 x2) := by
  unfold configWrite; dsimp only
  with_reducible repeat' first
    | exact h | assumption | apply noteLevel_steady | apply shadowPut_steady | apply txnCmd_steady | apply directWrite_steady
    | apply Steady.ite | (apply Steady.core; dsimp only; apply SteadyCore.same) | split

theorem execSchedEntryWord3Write_steady {z s : State} (h : Steady z s) (x0 x1 x2) : SteadyRes z (execSchedEntryWord3Write x0 x1 x2 s) := by
  unfold execSchedEntryWord3Write
  with_reducible repeat' first
    | exact h | assumption | apply SteadyRes.next | apply SteadyRes.ite | apply State.access_steady | apply configWrite_steady
    | apply Steady.ite | intro _ _ _ _ | intro _ _ _ | (intro _ _; try dsimp only)

theorem shadowParam_steady {z s : State} (h : Steady z s) (x1 x2) : SteadyOpt z (shadowParam s x1 x2) := by
  unfold shadowParam; dsimp only
  with_reducible repeat' first
    | exact h | assumption | exact SteadyOpt.none | apply SteadyOpt.some | apply SteadyOpt.ite | apply Steady.ite
    | (apply Steady.core; dsimp only; apply SteadyCore.same)

theorem execBpWrite_steady {z s : State} (h : Steady z s) : SteadyRes z (execBpWrite s) := by
  unfold execBpWrite; dsimp only
  with_reducible repeat' first
    | exact h | assumption | apply SteadyRes.next | apply SteadyRes.ite | apply State.access_steady | apply bpEnd_steady
    | apply shadowParam_steady | apply Steady.ite | intro _ _ _ _ | intro _ _ _ | (intro _ _; try dsimp only)
    | (refine SteadyOpt.of ?_ (by assumption); apply shadowParam_steady) | (apply Steady.core; dsimp only; apply SteadyCore.same) | split

theorem execBpRead_steady {z s : State} (h : Steady z s) : SteadyRes z (execBpRead s) := by
  unfold execBpRead
  with_reducible repeat' first
    | exact h | assumption | apply SteadyRes.next | apply SteadyRes.ite | apply State.access_steady | apply bpEnd_steady
    | apply State.setReg64_steady | apply Steady.ite | intro _ _ _ _ | intro _ _ _ | (intro _ _; try dsimp only)

theorem calStatus_steady {z s : State} (h : Steady z s) (x1) : Steady z (calStatus s x1) := by
  unfold calStatus
  with_reducible repeat' first
    | exact h | assumption | apply State.setFld_steady

theorem execCalOffsetWrite_steady {z s : State} (h : Steady z s) (x0) : SteadyRes z (execCalOffsetWrite x0 s) := by
  unfold execCalOffsetWrite; dsimp only
  with_reducible repeat' first
    | exact h | assumption | apply SteadyRes.next | apply SteadyRes.ite | apply State.access_steady | apply txnCmd_steady
    | apply calStatus_steady | apply shadowPut_steady | apply applyCal_steady | apply Steady.ite | intro _ _ _ _ | intro _ _ _
    | (intro _ _; try dsimp only)

theorem State.setFlash_steady {z s : State} (h : Steady z s) (x1 x2) : Steady z (State.setFlash s x1 x2) := by
  unfold State.setFlash
  with_reducible repeat' first
    | exact h | assumption | apply Steady.ite | (apply Steady.core; dsimp only; apply SteadyCore.same)

theorem setPhase_steady {z s : State} (h : Steady z s) (x1) : Steady z (setPhase s x1) := by
  unfold setPhase
  with_reducible repeat' first
    | exact h | assumption | apply State.setReg_steady

theorem imgEnd_steady {z s : State} (h : Steady z s) (x1) : Steady z (imgEnd s x1) := by
  unfold imgEnd
  with_reducible repeat' first
    | exact h | assumption | apply State.interrupt_steady | apply State.setReg_steady | apply Steady.ite
    | (apply Steady.core; dsimp only; apply SteadyCore.same)

theorem execImgWriteGo_steady {z s : State} (h : Steady z s) (x0) : SteadyRes z (execImgWriteGo x0 s) := by
  unfold execImgWriteGo; dsimp only
  with_reducible repeat' first
    | exact h | assumption | apply SteadyRes.next | apply SteadyRes.ite | apply State.access_steady | apply State.setFld_steady
    | apply imgEnd_steady | apply setPhase_steady | apply State.setFlash_steady | apply Steady.ite | intro _ _ _ _ | intro _ _ _
    | (intro _ _; try dsimp only) | (apply Steady.core; dsimp only; apply SteadyCore.same)

theorem afterErase_steady {z s : State} (h : Steady z s) (x1) : Steady z (afterErase s x1) := by
  unfold afterErase; dsimp only
  with_reducible repeat' first
    | exact h | assumption | apply State.emit_steady | apply imgEnd_steady | apply setPhase_steady | apply Steady.ite
    | (apply Steady.core; dsimp only; apply SteadyCore.same) | split

theorem afterProgram_steady {z s : State} (h : Steady z s) (x1) : Steady z (afterProgram s x1) := by
  unfold afterProgram; dsimp only
  with_reducible repeat' first
    | exact h | assumption | apply State.emit_steady | apply imgEnd_steady | apply setPhase_steady | apply State.setFlash_steady | apply Steady.ite
    | (apply Steady.core; dsimp only; apply SteadyCore.same) | split

theorem afterVerify_steady {z s : State} (h : Steady z s) (x1) : Steady z (afterVerify s x1) := by
  unfold afterVerify; dsimp only
  with_reducible repeat' first
    | exact h | assumption | apply imgEnd_steady | apply setPhase_steady | apply Steady.ite

theorem afterHeader_steady {z s : State} (h : Steady z s) : Steady z (afterHeader s) := by
  unfold afterHeader; dsimp only
  with_reducible repeat' first
    | exact h | assumption | apply State.setFlash_steady | apply imgEnd_steady | apply State.setFld_steady

theorem execImgWritePhaseComplete_steady {z s : State} (h : Steady z s) (x0 x1) : SteadyRes z (execImgWritePhaseComplete x0 x1 s) := by
  unfold execImgWritePhaseComplete
  with_reducible repeat' first
    | exact h | assumption | apply SteadyRes.next | apply SteadyRes.ite | apply afterErase_steady | apply afterProgram_steady
    | apply afterVerify_steady | apply afterHeader_steady | apply Steady.ite
    | split

end Sys2Proof.Machine
end

