-- ==== Sys2Proof/Laws/SteadyStart.lean ====
section
/-! SUPPORT. What records, start, reset and register accesses leave alone: the queue, the canonical register map, the epoch's floor. -/

namespace Sys2Proof.Machine

theorem tryChange_steady {z s : State} (h : Steady z s) (x1) : Steady z (tryChange s x1).1 := by
  unfold tryChange
  with_reducible repeat' first
    | exact h | assumption | apply applyChange_steady | apply Steady.ite | apply Steady.ite1
    | split

theorem recLevel_steady {z s : State} (h : Steady z s) (x1) : Steady z (recLevel s x1).1 := by
  unfold recLevel
  with_reducible repeat' first
    | exact h | assumption | apply tryChange_steady | apply Steady.ite | apply Steady.ite1

theorem recParam_steady {z s : State} (h : Steady z s) (x1) : Steady z (recParam s x1).1 := by
  unfold recParam
  with_reducible repeat' first
    | exact h | assumption | apply tryChange_steady | apply Steady.ite | apply Steady.ite1 | apply Steady.foldl | apply Steady.foldl1
    | apply Steady.foldl2 | split

theorem recExpert_steady {z s : State} (h : Steady z s) (x1) : Steady z (recExpert s x1).1 := by
  unfold recExpert
  with_reducible repeat' first
    | exact h | assumption | apply tryChange_steady | apply Steady.ite | apply Steady.ite1 | apply Steady.foldl | apply Steady.foldl1
    | apply Steady.foldl2 | split

theorem recBypass_steady {z s : State} (h : Steady z s) (x1) : Steady z (recBypass s x1).1 := by
  unfold recBypass
  with_reducible repeat' first
    | exact h | assumption | apply Steady.ite | apply Steady.ite1 | (apply Steady.core; dsimp only; apply SteadyCore.same)

theorem recPartition_steady {z s : State} (h : Steady z s) (x1) : Steady z (recPartition s x1).1 := by
  unfold recPartition
  with_reducible repeat' first
    | exact h | assumption | apply Steady.ite | apply Steady.ite1 | apply Steady.foldl | apply Steady.foldl1 | apply Steady.foldl2
    | (apply Steady.core; dsimp only; apply SteadyCore.same)

theorem recLanePlan_steady {z s : State} (h : Steady z s) (x1) : Steady z (recLanePlan s x1).1 := by
  unfold recLanePlan; dsimp only
  with_reducible repeat' first
    | exact h | assumption | apply tryChange_steady | apply Steady.ite | apply Steady.ite1

theorem recPort_steady {z s : State} (h : Steady z s) (x1) : Steady z (recPort s x1).1 := by
  unfold recPort; dsimp only
  with_reducible repeat' first
    | exact h | assumption | apply tryChange_steady | apply State.setPort_steady | apply Steady.ite | apply Steady.ite1
    | (refine Steady.fst ?_ (by assumption); apply tryChange_steady) | split

theorem preload_steady {z s : State} (h : Steady z s) (t l) : Steady z (preload t l s).1 := by
  induction l generalizing s with
  | nil => exact h
  | cons e l ih =>
    obtain ⟨g, b⟩ := e
    unfold preload; dsimp only
    exact Steady.ite1 (ih (tblInsertOp_steady h _ _ _)) (tblInsertOp_steady h _ _ _)

theorem recPreload_steady {z s : State} (h : Steady z s) (x1) : Steady z (recPreload s x1).1 := by
  unfold recPreload; dsimp only
  with_reducible repeat' first
    | exact h | assumption | apply preload_steady | apply Steady.ite | apply Steady.ite1
    | (refine Steady.fst ?_ (by assumption); apply preload_steady) | (apply Steady.core; dsimp only; apply SteadyCore.same) | split

theorem deriveAtStart_steady {z s : State} (h : Steady z s) (rx i) : Steady z (deriveAtStart s rx i).1 := by
  unfold deriveAtStart; dsimp only
  repeat' split
  all_goals (first | with_reducible exact h | exact derive_steady h (by assumption))

theorem recAssoc_steady {z s : State} (h : Steady z s) (x1) : Steady z (recAssoc s x1).1 := by
  unfold recAssoc; dsimp only
  with_reducible repeat' first
    | exact h | assumption | apply installAssoc_steady | apply deriveAtStart_steady | apply Steady.ite | apply Steady.ite1

theorem recSched_steady {z s : State} (h : Steady z s) (x1) : Steady z (recSched s x1).1 := by
  unfold recSched
  with_reducible repeat' first
    | exact h | assumption | apply tryChange_steady | apply Steady.ite | apply Steady.ite1 | apply Steady.foldl | apply Steady.foldl1
    | apply Steady.foldl2 | split

theorem recCascade_steady {z s : State} (h : Steady z s) (x1) : Steady z (recCascade s x1).1 := by
  unfold recCascade; dsimp only
  with_reducible repeat' first
    | exact h | assumption | apply tryChange_steady | apply Steady.ite | apply Steady.ite1

theorem recTime_steady {z s : State} (h : Steady z s) (x1) : Steady z (recTime s x1).1 := by
  unfold recTime; dsimp only
  with_reducible repeat' first
    | exact h | assumption | apply State.alarm_steady | apply tryChange_steady | apply Steady.ite | apply Steady.ite1

theorem recKeyPolicy_steady {z s : State} (h : Steady z s) (x1) : Steady z (recKeyPolicy s x1).1 := by
  unfold recKeyPolicy
  with_reducible repeat' first
    | exact h | assumption | apply Steady.ite | apply Steady.ite1 | (apply Steady.core; dsimp only; apply SteadyCore.same)

theorem recTamper_steady {z s : State} (h : Steady z s) (x1) : Steady z (recTamper s x1).1 := by
  unfold recTamper; dsimp only
  with_reducible repeat' first
    | exact h | assumption | apply Steady.ite | apply Steady.ite1 | (apply Steady.core; dsimp only; apply SteadyCore.same) | split

theorem recPair_steady {z s : State} (h : Steady z s) (x1) : Steady z (recPair s x1).1 := by
  unfold recPair; dsimp only
  with_reducible repeat' first
    | exact h | assumption | apply tryChange_steady | apply State.modPair_steady | apply Steady.ite | apply Steady.ite1
    | (refine Steady.fst ?_ (by assumption); apply tryChange_steady) | split

theorem recHost_steady {z s : State} (h : Steady z s) (x1) : Steady z (recHost s x1).1 := by
  unfold recHost
  with_reducible repeat' first
    | exact h | assumption | apply tryChange_steady | apply Steady.ite | apply Steady.ite1

theorem recCounters_steady {z s : State} (h : Steady z s) (x1) : Steady z (recCounters s x1).1 := by
  unfold recCounters; dsimp only
  with_reducible repeat' first
    | exact h | assumption | apply tryChange_steady | apply Steady.ite | apply Steady.ite1

theorem applyRec_steady {z s : State} (h : Steady z s) (x1) : Steady z (applyRec s x1).1 := by
  unfold applyRec
  with_reducible repeat' first
    | exact h | assumption | apply recLevel_steady | apply recParam_steady | apply recExpert_steady | apply recBypass_steady
    | apply recPartition_steady | apply recLanePlan_steady | apply recPort_steady | apply recPreload_steady | apply recAssoc_steady
    | apply recSched_steady | apply recCascade_steady | apply recTime_steady | apply recKeyPolicy_steady | apply recTamper_steady
    | apply recPair_steady | apply recHost_steady | apply recCounters_steady | apply Steady.ite | apply Steady.ite1
    | split

theorem markStart_steady {z s : State} (h : Steady z s) (x1) : Steady z (markStart s x1) := by
  unfold markStart; try dsimp only
  with_reducible repeat' first
    | exact h | assumption | apply putSlot_steady | apply Steady.ite | intro _ _ _ _ | intro _ _ _ | (intro _ _; try dsimp only)
    | (apply Steady.core; dsimp only; apply SteadyCore.same) | split

theorem stepRecord_steady {z s : State} (h : Steady z s) (x1) : Steady z (stepRecord s x1) := by
  unfold stepRecord
  with_reducible repeat' first
    | exact h | assumption | apply State.setFld_steady | apply applyRec_steady | apply markStart_steady | apply reject_steady
    | apply Steady.ite | apply Steady.ite1 | apply Steady.ite2 | (refine Steady.fst ?_ (by assumption); apply applyRec_steady) | split

theorem applyRecords_steady {z s : State} (h : Steady z s) (x1) : Steady z (applyRecords s x1) := by
  unfold applyRecords
  with_reducible repeat' first
    | exact h | assumption | apply stepRecord_steady | apply Steady.ite | apply Steady.foldl | apply Steady.foldl1 | apply Steady.foldl2
    | intro _ _ _ _ | (intro _ _ _; try dsimp only)

theorem wipe_steady {z s : State} (h : Steady z s) : Steady z (wipe s) := by
  apply Steady.core; unfold wipe; dsimp only
  exact SteadyCore.regs h (fun _ => foldl_kset_wf rfl)

theorem enterMinimal_steady {z s : State} (h : Steady z s) (x1 x2) : Steady z (enterMinimal s x1 x2) := by
  unfold enterMinimal; dsimp only
  with_reducible repeat' first
    | exact h | assumption | apply lateIdentity_steady | apply State.setFld_steady | apply fireSource_steady | apply endStart_steady
    | apply Steady.ite | (apply Steady.core; dsimp only; apply SteadyCore.same)

theorem countSuccess_steady {z s : State} (h : Steady z s) : Steady z (countSuccess s) := by
  unfold countSuccess; dsimp only
  with_reducible repeat' first
    | exact h | assumption | apply State.setFld_steady | apply endStart_steady | apply Steady.ite
    | (apply Steady.core; dsimp only; apply SteadyCore.same)

theorem execSuccessTimerExpiry_steady {z s : State} (h : Steady z s) : SteadyRes z (execSuccessTimerExpiry s) := by
  unfold execSuccessTimerExpiry
  with_reducible repeat' first
    | exact h | assumption | apply SteadyRes.next | apply SteadyRes.ite | apply countSuccess_steady

theorem well_steady {z u : State} (h : Steady z u) (x) : Steady z { u with well := x } := by
  apply Steady.core; dsimp only; exact SteadyCore.same h

theorem initWell_steady {z s : State} (h : Steady z s) (f) : Steady z (initWell s f) := by
  have hu : Steady z (if s.epoch = 255 then { s with fuses := { s.fuses with exhausted := true } } else (blowEpoch s f).1) :=
    Steady.ite (by apply Steady.core; dsimp only; exact SteadyCore.fuses h rfl) (blowEpoch_steady h _)
  unfold initWell
  exact well_steady (State.useFree_steady hu) _

theorem takePending_steady {z s : State} (h : Steady z s) : Steady z (takePending s) := by
  unfold takePending; dsimp only
  with_reducible repeat' first
    | exact h | assumption | apply respond_steady | apply Steady.ite | (apply Steady.core; dsimp only; apply SteadyCore.same)

theorem beginStart_steady {z s : State} (h : Steady z s) (x1) : Steady z (beginStart s x1) := by
  unfold beginStart; dsimp only
  with_reducible repeat' first
    | exact h | assumption | apply endStart_steady | apply initWell_steady | apply takePending_steady | apply enterHalt_steady
    | apply Steady.ite | (apply Steady.core; dsimp only; apply SteadyCore.same)

theorem lateMark_steady {z s : State} (h : Steady z s) (x1) : Steady z (lateMark s x1) := by
  unfold lateMark
  with_reducible repeat' first
    | exact h | assumption | apply countSuccess_steady | apply Steady.ite | split

theorem warmReset_steady {z s : State} (h : Steady z s) (x1) : Steady z (warmReset s x1) := by
  unfold warmReset
  with_reducible repeat' first
    | exact h | assumption | apply beginStart_steady | apply wipe_steady

theorem execMainPowerValid_steady {z s : State} (h : Steady z s) : SteadyRes z (execMainPowerValid s) := by
  unfold execMainPowerValid; dsimp only
  with_reducible repeat' first
    | exact h | assumption | apply SteadyRes.next | apply SteadyRes.ite | apply Steady.ite
    | (apply Steady.core; dsimp only; apply SteadyCore.same)

theorem execMainPowerLost_steady {z s : State} (h : Steady z s) : SteadyRes z (execMainPowerLost s) := by
  unfold execMainPowerLost; dsimp only
  with_reducible repeat' first
    | exact h | assumption | apply SteadyRes.next | apply SteadyRes.ite | apply wipe_steady | apply Steady.ite
    | (apply Steady.core; dsimp only; apply SteadyCore.same)

theorem execColdResetRelease_steady {z s : State} (h : Steady z s) (x0) : SteadyRes z (execColdResetRelease x0 s) := by
  unfold execColdResetRelease; dsimp only
  with_reducible repeat' first
    | exact h | assumption | apply SteadyRes.next | apply SteadyRes.ite | apply beginStart_steady | apply Steady.ite
    | (apply Steady.core; dsimp only; apply SteadyCore.same)

theorem execColdRstNAssert_steady {z s : State} (h : Steady z s) (x0) : SteadyRes z (execColdRstNAssert x0 s) := by
  unfold execColdRstNAssert; try dsimp only
  with_reducible repeat' first
    | exact h | assumption | apply SteadyRes.next | apply SteadyRes.ite | apply wipe_steady | apply lateMark_steady | apply Steady.ite
    | intro _ _ _ _ | intro _ _ _ | (intro _ _; try dsimp only) | (apply Steady.core; dsimp only; apply SteadyCore.same) | split

theorem execWarmReset_steady {z s : State} (h : Steady z s) (x0 x1) : SteadyRes z (execWarmReset x0 x1 s) := by
  unfold execWarmReset
  with_reducible repeat' first
    | exact h | assumption | apply SteadyRes.next | apply SteadyRes.ite | apply warmReset_steady | apply lateMark_steady
    | apply Steady.ite | split

theorem undoStart_steady {z s : State} (h : Steady z s) : Steady z (undoStart s) := by
  unfold undoStart; dsimp only
  with_reducible repeat' first
    | exact h | assumption | apply State.setFld_steady

theorem glbReset_steady {z s : State} (h : Steady z s) (x0 x1) (hx1 : ∀ y0, Steady z y0 → Steady z (x1 y0)) : SteadyRes z (glbReset x0 x1 s) := by
  unfold glbReset
  with_reducible repeat' first
    | exact h | assumption | apply SteadyRes.next | apply SteadyRes.ite | apply State.access_steady | apply State.raiseErr_steady
    | apply hx1 | apply Steady.ite | intro _ _ _ _ | intro _ _ _ | (intro _ _; try dsimp only)

theorem execGlbWarmReset_steady {z s : State} (h : Steady z s) (x0 x1 x2) : SteadyRes z (execGlbWarmReset x0 x1 x2 s) := by
  unfold execGlbWarmReset; try dsimp only
  with_reducible repeat' first
    | exact h | assumption | apply SteadyRes.next | apply SteadyRes.ite | apply glbReset_steady | apply lateMark_steady
    | apply warmReset_steady | apply undoStart_steady | apply Steady.ite | intro _ _ _ _ | intro _ _ _ | (intro _ _; try dsimp only)
    | split

theorem execMaintExit_steady {z s : State} (h : Steady z s) (x0) : SteadyRes z (execMaintExit x0 s) := by
  unfold execMaintExit
  with_reducible repeat' first
    | exact h | assumption | apply SteadyRes.next | apply SteadyRes.ite | apply State.access_steady | apply warmReset_steady
    | apply undoStart_steady | apply Steady.ite | intro _ _ _ _ | intro _ _ _ | (intro _ _; try dsimp only)

theorem abortMailbox_steady {z s : State} (h : Steady z s) : Steady z (abortMailbox s) := by
  unfold abortMailbox; dsimp only
  with_reducible repeat' first
    | exact h | assumption | apply State.setAssoc_steady | apply kstDone_steady | apply State.setFld_steady | apply Steady.ite
    | apply Steady.foldl | apply Steady.foldl1 | apply Steady.foldl2 | intro _ _ _ _ | (intro _ _ _; try dsimp only)

theorem abortImage_steady {z s : State} (h : Steady z s) : Steady z (abortImage s) := by
  unfold abortImage
  with_reducible repeat' first
    | exact h | assumption | (apply Steady.core; dsimp only; apply SteadyCore.same) | split

theorem mcRestart_steady {z s : State} (h : Steady z s) : Steady z (mcRestart s) := by
  unfold mcRestart; dsimp only
  with_reducible repeat' first
    | exact h | assumption | apply abortImage_steady | apply abortMailbox_steady | apply txnRestart_steady | apply Steady.ite
    | (apply Steady.core; dsimp only; apply SteadyCore.same)

theorem execGlbMcRestart_steady {z s : State} (h : Steady z s) (x0) : SteadyRes z (execGlbMcRestart x0 s) := by
  unfold execGlbMcRestart
  with_reducible repeat' first
    | exact h | assumption | apply SteadyRes.next | apply SteadyRes.ite | apply glbReset_steady | apply mcRestart_steady | apply Steady.ite
    | intro _ _ _ _ | intro _ _ _ | (intro _ _; try dsimp only)

theorem execMcWatchdogRestart_steady {z s : State} (h : Steady z s) : SteadyRes z (execMcWatchdogRestart s) := by
  unfold execMcWatchdogRestart; dsimp only
  with_reducible repeat' first
    | exact h | assumption | apply SteadyRes.next | apply SteadyRes.ite | apply Steady.ite
    | (apply Steady.core; dsimp only; apply SteadyCore.same)

theorem execMcWatchdogExpiry_steady {z s : State} (h : Steady z s) : SteadyRes z (execMcWatchdogExpiry s) := by
  unfold execMcWatchdogExpiry
  with_reducible repeat' first
    | exact h | assumption | apply SteadyRes.next | apply SteadyRes.ite | apply mcRestart_steady | apply Steady.ite

theorem execMcRestartComplete_steady {z s : State} (h : Steady z s) : SteadyRes z (execMcRestartComplete s) := by
  unfold execMcRestartComplete; dsimp only
  with_reducible repeat' first
    | exact h | assumption | apply SteadyRes.next | apply SteadyRes.ite | apply pkeFlush_steady | apply Steady.ite
    | (apply Steady.core; dsimp only; apply SteadyCore.same)

theorem execFunctionLevelReset_steady {z s : State} (h : Steady z s) : SteadyRes z (execFunctionLevelReset s) := by
  unfold execFunctionLevelReset; extract_lets u v
  have hu : Steady z u := Steady.ite (txnEnd_steady h _) h
  have hv : Steady z v := State.modPke_steady hu _
  clear_value v
  refine SteadyRes.ite (SteadyRes.next (Steady.core ?_)) (SteadyRes.next h)
  dsimp only
  exact SteadyCore.regs hv (fun w => filter_wf resetVal _ w)

theorem chooseSlot_steady {z s : State} (h : Steady z s) (x1) : Steady z (chooseSlot s x1) := by
  unfold chooseSlot; dsimp only
  with_reducible repeat' first
    | exact h | assumption | apply State.setReg_steady | apply Steady.ite | (apply Steady.core; dsimp only; apply SteadyCore.same)

theorem nextSlot_steady {z s : State} (h : Steady z s) : Steady z (nextSlot s) := by
  unfold nextSlot
  with_reducible repeat' first
    | exact h | assumption | apply chooseSlot_steady | apply enterMinimal_steady | apply Steady.ite | apply Steady.getD
    | split

theorem execSlotSelection_steady {z s : State} (h : Steady z s) (x0) : SteadyRes z (execSlotSelection x0 s) := by
  unfold execSlotSelection; dsimp only
  with_reducible repeat' first
    | exact h | assumption | apply SteadyRes.next | apply SteadyRes.ite | apply enterMinimal_steady | apply nextSlot_steady
    | apply Steady.ite | (apply Steady.core; dsimp only; apply SteadyCore.same)

theorem runImage_steady {z s : State} (h : Steady z s) (x1) : Steady z (runImage s x1) := by
  unfold runImage; dsimp only
  with_reducible repeat' first
    | exact h | assumption | apply deriveIdentity_steady | apply Steady.ite | apply Steady.getD
    | (apply Steady.core; dsimp only; apply SteadyCore.same)

theorem execImageSignatureCheck_steady {z s : State} (h : Steady z s) : SteadyRes z (execImageSignatureCheck s) := by
  unfold execImageSignatureCheck; dsimp only
  with_reducible repeat' first
    | exact h | assumption | apply SteadyRes.next | apply SteadyRes.ite | apply nextSlot_steady | apply runImage_steady | apply Steady.ite
    | (apply Steady.core; dsimp only; apply SteadyCore.same) | split

theorem inStep_steady {z s : State} (h : Steady z s) (x1 x2) (hx2 : ∀ y0, Steady z y0 → Steady z (x2 y0)) : SteadyRes z (inStep s x1 x2) := by
  unfold inStep; dsimp only
  with_reducible repeat' first
    | exact h | assumption | apply SteadyRes.next | apply SteadyRes.ite | apply hx2 | apply Steady.ite
    | (apply Steady.core; dsimp only; apply SteadyCore.same)

theorem execCalibrationLoad_steady {z s : State} (h : Steady z s) : SteadyRes z (execCalibrationLoad s) := by
  unfold execCalibrationLoad; dsimp only
  with_reducible repeat' first
    | exact h | assumption | apply SteadyRes.next | apply SteadyRes.ite | apply inStep_steady | apply enterMinimal_steady | apply Steady.ite
    | apply Steady.foldl | apply Steady.foldl1 | apply Steady.foldl2 | intro _ _ _ _ | intro _ _ _ | (intro _ _; try dsimp only)
    | (apply Steady.core; dsimp only; apply SteadyCore.same)

theorem loadJournal_steady {z s : State} (h : Steady z s) (x1) : Steady z (loadJournal s x1) := by
  unfold loadJournal; dsimp only
  with_reducible repeat' first
    | exact h | assumption | apply raiseGen_steady | apply journalAppend_steady | apply Steady.ite | apply Steady.foldl
    | apply Steady.foldl1 | apply Steady.foldl2 | apply Steady.getD | intro _ _ _ _ | (intro _ _ _; try dsimp only)
    | (apply Steady.core; dsimp only; apply SteadyCore.same)

theorem replayRec_steady {z s : State} (h : Steady z s) (x1) : Steady z (replayRec s x1) := by
  unfold replayRec; dsimp only
  with_reducible repeat' first
    | exact h | assumption | apply Steady.ite | (apply Steady.core; dsimp only; apply SteadyCore.same)

theorem loadKeys_steady {z s : State} (h : Steady z s) (x1) : Steady z (loadKeys s x1) := by
  unfold loadKeys; dsimp only
  with_reducible repeat' first
    | exact h | assumption | apply replayRec_steady | apply logAppend_steady | apply Steady.ite | apply Steady.foldl | apply Steady.foldl1
    | apply Steady.foldl2 | apply Steady.getD | intro _ _ _ _ | (intro _ _ _; try dsimp only)
    | (apply Steady.core; dsimp only; apply SteadyCore.same)

theorem unwrapKeys_steady {z s : State} (h : Steady z s) : Steady z (unwrapKeys s) := by
  unfold unwrapKeys; dsimp only
  with_reducible repeat' first
    | exact h | assumption | apply enterMinimal_steady | apply loadJournal_steady | apply loadKeys_steady | apply Steady.ite
    | (apply Steady.core; dsimp only; apply SteadyCore.same) | split

theorem execKeyUnwrap_steady {z s : State} (h : Steady z s) : SteadyRes z (execKeyUnwrap s) := by
  unfold execKeyUnwrap; dsimp only
  with_reducible repeat' first
    | exact h | assumption | apply SteadyRes.next | apply SteadyRes.ite | apply inStep_steady | apply unwrapKeys_steady
    | apply enterMinimal_steady | apply Steady.ite | intro _ _ _ _ | intro _ _ _ | (intro _ _; try dsimp only)
    | (apply Steady.core; dsimp only; apply SteadyCore.same)

theorem startDatapath_steady {z s : State} (h : Steady z s) : Steady z (startDatapath s) := by
  unfold startDatapath; dsimp only
  with_reducible repeat' first
    | exact h | assumption | apply State.setRill_steady | apply initCistern_steady | apply Steady.ite | apply Steady.foldl
    | apply Steady.foldl1 | apply Steady.foldl2 | intro _ _ _ _ | (intro _ _ _; try dsimp only)

theorem execSelfTests_steady {z s : State} (h : Steady z s) (x0 x1) : SteadyRes z (execSelfTests x0 x1 s) := by
  unfold execSelfTests
  with_reducible repeat' first
    | exact h | assumption | apply SteadyRes.next | apply SteadyRes.ite | apply inStep_steady | apply enterMinimal_steady
    | apply startDatapath_steady | apply Steady.ite | intro _ _ _ _ | intro _ _ _ | (intro _ _; try dsimp only)
    | split

theorem execLaneTrainingStart_steady {z s : State} (h : Steady z s) (x0) : SteadyRes z (execLaneTrainingStart x0 s) := by
  unfold execLaneTrainingStart; try dsimp only
  with_reducible repeat' first
    | exact h | assumption | apply SteadyRes.next | apply SteadyRes.ite | apply inStep_steady | apply tagRegions_steady
    | apply applyRecords_steady | apply Steady.ite | apply Steady.foldl | apply Steady.foldl1 | apply Steady.foldl2 | intro _ _ _ _
    | intro _ _ _ | (intro _ _; try dsimp only) | (apply Steady.core; dsimp only; apply SteadyCore.same)

theorem bringUp_steady {z s : State} (h : Steady z s) : Steady z (bringUp s) := by
  unfold bringUp; dsimp only
  with_reducible repeat' first
    | exact h | assumption | apply portsAsAtStart_steady | apply State.setPort_steady | apply Steady.ite | apply Steady.foldl
    | apply Steady.foldl1 | apply Steady.foldl2 | intro _ _ _ _ | (intro _ _ _; try dsimp only)

theorem execPortBringUp_steady {z s : State} (h : Steady z s) : SteadyRes z (execPortBringUp s) := by
  unfold execPortBringUp; dsimp only
  with_reducible repeat' first
    | exact h | assumption | apply SteadyRes.next | apply SteadyRes.ite | apply inStep_steady | apply bringUp_steady
    | apply finishStart_steady | apply Steady.ite | intro _ _ _ _ | intro _ _ _ | (intro _ _; try dsimp only)
    | (apply Steady.core; dsimp only; apply SteadyCore.same)

theorem startStatus_steady {z s : State} (h : Steady z s) (x1) : Steady z (startStatus s x1) := by
  unfold startStatus
  with_reducible repeat' first
    | exact h | assumption | apply State.setFld_steady

theorem execFailClear_steady {z s : State} (h : Steady z s) : SteadyRes z (execFailClear s) := by
  unfold execFailClear
  with_reducible repeat' first
    | exact h | assumption | apply SteadyRes.next | apply SteadyRes.ite | apply State.access_steady | apply startStatus_steady
    | apply State.setReg_steady | apply Steady.ite | intro _ _ _ _ | intro _ _ _ | (intro _ _; try dsimp only)

theorem enterMaintenance_steady {z s : State} (h : Steady z s) : Steady z (enterMaintenance s) := by
  unfold enterMaintenance; dsimp only
  with_reducible repeat' first
    | exact h | assumption | apply leavePair_steady | apply tryGiveUp_steady | apply unbindAll_steady | apply countSuccess_steady | apply State.setFld_steady
    | apply portEdge_steady | apply Steady.ite | apply Steady.ite1 | apply Steady.foldl | apply Steady.foldl1 | apply Steady.foldl2
    | intro _ _ _ _ | (intro _ _ _; try dsimp only) | (apply Steady.core; dsimp only; apply SteadyCore.same)

theorem execMaintReq_steady {z s : State} (h : Steady z s) : SteadyRes z (execMaintReq s) := by
  unfold execMaintReq; dsimp only
  with_reducible repeat' first
    | exact h | assumption | apply SteadyRes.next | apply SteadyRes.ite | apply State.access_steady | apply startStatus_steady
    | apply enterMaintenance_steady | apply freeStatus_steady | apply Steady.ite | apply Steady.ite2 | intro _ _ _ _ | intro _ _ _
    | (intro _ _; try dsimp only)

theorem storeBits_steady {z s : State} (h : Steady z s) (x1 x2 x3) : Steady z (storeBits s x1 x2 x3) := by
  unfold storeBits
  with_reducible repeat' first
    | exact h | assumption | apply State.setReg_steady

theorem ringWrite_steady {z s : State} (h : Steady z s) (x0 x1 x2 x3 x4) : Steady z (ringWrite x0 x1 x2 x3 x4 s) := by
  unfold ringWrite; dsimp only
  with_reducible repeat' first
    | exact h | assumption | apply storeBits_steady | apply State.setFld_steady | apply Steady.ite
    | (apply Steady.core; dsimp only; apply SteadyCore.same)

theorem msixWrite_steady {z s : State} (h : Steady z s) (x0 x1 x2 x3) : Steady z (msixWrite x0 x1 x2 x3 s) := by
  unfold msixWrite; dsimp only
  with_reducible repeat' first
    | exact h | assumption | apply storeBits_steady | apply State.emit_steady | apply State.setFld_steady | apply Steady.ite

theorem reraise_steady {z s : State} (h : Steady z s) (x0) : Steady z (reraise x0 s) := by
  unfold reraise; dsimp only
  with_reducible repeat' first
    | exact h | assumption | apply State.alarm_steady | apply sluiceAlarms_steady | apply State.setReg_steady | apply Steady.ite
    | apply Steady.foldl | apply Steady.foldl1 | apply Steady.foldl2 | intro _ _ _ | split

theorem clearBits_steady {z s : State} (h : Steady z s) (x0 x1) : Steady z (clearBits x0 x1 s) := by
  unfold clearBits; dsimp only
  with_reducible repeat' first
    | exact h | assumption | apply reraise_steady | apply State.setReg_steady | apply Steady.ite
    | (apply Steady.core; dsimp only; apply SteadyCore.same) | split

theorem plainWrite_steady {z s : State} (h : Steady z s) (x0 x1) : Steady z (plainWrite x0 x1 s) := by
  unfold plainWrite; dsimp only
  with_reducible repeat' first
    | exact h | assumption | apply storeBits_steady | apply txnCmd_steady | apply ringWrite_steady | apply msixWrite_steady
    | apply State.setFld_steady | apply Steady.ite | (apply Steady.core; dsimp only; apply SteadyCore.same) | split

theorem badCommand_steady {z s : State} (h : Steady z s) (x0 x1) : Steady z (badCommand x0 x1 s) := by
  unfold badCommand; try dsimp only
  with_reducible repeat' first
    | exact h | assumption | apply State.setFld_steady | apply txnCmd_steady | apply tbEnd_steady | apply spareStatus_steady
    | apply kstEnd_steady | apply pkeStatus_steady | apply cntEnd_steady | apply saEnd_steady | apply Steady.ite | intro _ _ _ _
    | intro _ _ _ | (intro _ _; try dsimp only) | split

theorem fullWrite_steady {z s : State} (h : Steady z s) (x0 x1) : Steady z (fullWrite x0 x1 s) := by
  unfold fullWrite; dsimp only
  with_reducible repeat' first
    | exact h | assumption | apply badCommand_steady | apply clearBits_steady | apply configWrite_steady | apply plainWrite_steady
    | apply Steady.ite

theorem execRegisterWrite_steady {z s : State} (h : Steady z s) (x0 x1 x2 x3) : SteadyRes z (execRegisterWrite x0 x1 x2 x3 s) := by
  unfold execRegisterWrite; try dsimp only
  with_reducible repeat' first
    | exact h | assumption | apply SteadyRes.next | apply SteadyRes.ite | apply State.raiseErr_steady | apply State.accessWrite_steady
    | apply fullWrite_steady | apply Steady.ite | intro _ _ _ _ | intro _ _ _ | (intro _ _; try dsimp only) | split

theorem execHoleAccess_steady {z s : State} (h : Steady z s) (x0 x1) : SteadyRes z (execHoleAccess x0 x1 s) := by
  unfold execHoleAccess; dsimp only
  with_reducible repeat' first
    | exact h | assumption | apply SteadyRes.next | apply SteadyRes.ite | apply State.raiseErr_steady | apply State.emit_steady
    | apply Steady.ite

theorem execUnservedBlockAccess_steady {z s : State} (h : Steady z s) (x0 x1 x2) : SteadyRes z (execUnservedBlockAccess x0 x1 x2 s) := by
  unfold execUnservedBlockAccess; dsimp only
  with_reducible repeat' first
    | exact h | assumption | apply SteadyRes.next | apply SteadyRes.ite | apply State.raiseErr_steady | apply State.emit_steady
    | apply Steady.ite | split

theorem State.afterRead_steady {z s : State} (h : Steady z s) (x1 x2) : Steady z (State.afterRead s x1 x2) := by
  unfold State.afterRead; dsimp only
  with_reducible repeat' first
    | exact h | assumption | apply State.raiseErr_steady | apply latchHigh_steady | apply State.setReg_steady | apply Steady.ite
    | (apply Steady.core; dsimp only; apply SteadyCore.same) | split

end Sys2Proof.Machine
end

