-- ==== Sys2Proof/WellFormed.lean ====
section
/-! DEFINITION. Well-formed commands: every operand in the range that the spec gives it. -/

namespace Sys2Proof

/-- A function that exists: the physical one or virtual functions 1 to 64 (R456). -/
def fnOk : Fn → Bool
  | .pf => true
  | .vf k => decide (k < 64)

/-- An offset inside a function's BAR0: 64 MiB of the physical one, 2 MiB of a virtual one (R489, R491). -/
def offOk : Fn → Nat → Bool
  | .pf, o => decide (o < 0x4000000)
  | .vf _, o => decide (o < 0x200000)

/-- An egress: a port of R79, the host port, or a trunk. -/
def egressOk (e : Nat) : Bool := decide (e < 33) || decide (64 ≤ e ∧ e < 68)

/-- A spare lane of R79. -/
def spareOk (k : Nat) : Bool := decide (k < 36) && decide (16 ≤ k % 18)

/-- A scheduler entry that exists (R278 to R280). -/
def entryOk : SchedTable → Nat → Bool
  | .sub, i => decide (i < 8192)
  | .svc, i => decide (i < 1024)
  | .port, i => decide (i < 34)

/-- Personalities are given to pairings 0 to 15 (R40). -/
def persOk (l : List (Nat × Personality)) : Bool := l.all (fun x => decide (x.1 < 16))

/-- Is a command well formed? -/
def Instr.wf : Instr → Bool
  | .registerWrite fn off _ _ => fnOk fn && offOk fn off
  | .holeAccess off _ => offOk .pf off
  | .unservedBlockAccess fn off _ => fnOk fn && offOk fn off
  | .mainPowerValid => true
  | .mainPowerLost => true
  | .coldResetRelease _ => true
  | .coldRstNAssert _ => true
  | .warmReset _ _ => true
  | .glbWarmReset key _ _ => decide (key < 65536)
  | .glbMcRestart key => decide (key < 65536)
  | .mcWatchdogRestart => true
  | .mcWatchdogExpiry => true
  | .mcRestartComplete => true
  | .functionLevelReset => true
  | .slotSelection _ => true
  | .imageSignatureCheck => true
  | .calibrationLoad => true
  | .keyUnwrap => true
  | .selfTests _ _ => true
  | .laneTrainingStart pers => persOk pers
  | .portBringUp => true
  | .negWaitTimeout => true
  | .successTimerExpiry => true
  | .failClear => true
  | .maintReq => true
  | .maintExit _ => true
  | .imgWriteGo _ => true
  | .imgWritePhaseComplete _ _ => true
  | .txnBegin => true
  | .txnCommit => true
  | .txnRollback => true
  | .txnTimeoutExpiry _ => true
  | .txnValidationEnd pers => persOk pers
  | .txnApplyInstant _ => true
  | .bpWrite => true
  | .bpRead => true
  | .calOffsetWrite _ => true
  | .frameArrival p _ _ => decide (p < 32)
  | .frameEnd _ _ _ _ _ => true
  | .headerRecordClassify _ ecc ecc2 => decide (ecc < 3) && decide (ecc2 < 3)
  | .learnApply g => decide (g < 4)
  | .queueAdmission _ => true
  | .schedulerSelect _ => true
  | .bucketRefill _ => true
  | .dispatch _ _ => true
  | .reservationBoundaryRecord i k => decide (i < 16384) && decide (k < 2)
  | .beatFeed _ keyEcc cellEcc => decide (keyEcc < 3) && decide (cellEcc < 3)
  | .rillBeatExit _ => true
  | .verdictReturn _ => true
  | .mergeRelease e _ => egressOk e
  | .tblRead g table => decide (g < 4) && decide (table < 4)
  | .tblWrite g table => decide (g < 4) && decide (table < 4)
  | .tblInsert g table => decide (g < 4) && decide (table < 4)
  | .tblDelete g table => decide (g < 4) && decide (table < 4)
  | .tblSearch g table => decide (g < 4) && decide (table < 4)
  | .tblFlush g table flt => decide (g < 4) && decide (table < 4) && decide (flt < 16)
  | .tblAge g table => decide (g < 4) && decide (table < 4)
  | .tblCmdDone g => decide (g < 4)
  | .ageingSweepVisit g _ _ => decide (g < 4)
  | .moveWindowRestart g => decide (g < 4)
  | .pinHoldExpiry g _ => decide (g < 4)
  | .trieWordRepair g => decide (g < 4)
  | .saInstall fn => fnOk fn
  | .saRemove fn => fnOk fn
  | .saRead fn => fnOk fn
  | .saReadSlot fn => fnOk fn
  | .saDerive fn => fnOk fn
  | .saSwitch fn => fnOk fn
  | .saArmTime fn => fnOk fn
  | .saRetire fn => fnOk fn
  | .saModify fn => fnOk fn
  | .slotLoadComplete _ i k _ => decide (i < 16384) && decide (k < 2)
  | .slotDrainComplete i k => decide (i < 16384) && decide (k < 2)
  | .autoNextRetry i => decide (i < 16384)
  | .rxRetireTimerExpiry i => decide (i < 16384)
  | .followCandidateReady i k => decide (i < 16384) && decide (k < 2)
  | .assocRemoveDrainComplete _ i => decide (i < 16384)
  | .rilWithdraw r _ => decide (r < 16)
  | .rilRestore r => decide (r < 16)
  | .rillFault r kind _ => decide (r < 9) && decide (kind < 3)
  | .spareInService r => decide (r < 9)
  | .fenceComplete r => decide (r < 9)
  | .fenceDeadline r => decide (r < 9)
  | .katRun r _ => decide (r < 9)
  | .tepRead i => decide (i < 4096)
  | .tepWrite i => decide (i < 4096)
  | .tepClear i => decide (i < 4096)
  | .rillWakeComplete r => decide (r < 9)
  | .sluiceTick readings _ _ => decide (readings.length = 24)
  | .slowLoop => true
  | .schedEntryWord3Write t i _ => entryOk t i
  | .spill _ _ => true
  | .spillWriteAck _ phase => decide (phase < 3)
  | .fetchBackComplete _ _ => true
  | .nodeWriteBack k _ _ => decide (k < 4)
  | .cisternAgeSweep => true
  | .cisRotate owner => decide (owner < 8)
  | .scrubNow => true
  | .timedRotation owner => decide (owner < 8)
  | .keyidRetireComplete k => decide (k < 64)
  | .regionDrainComplete r => decide (r < 1792)
  | .scrubVisit _ _ _ => true
  | .rowRepair stack _ _ _ => decide (stack < 2)
  | .stackFail => true
  | .laneMarkerLock l _ _ _ _ => decide (l < 36)
  | .trainTimeout l => decide (l < 36)
  | .laneFault l kind => decide (l < 36) && decide (kind < 9)
  | .laneDegrade l => decide (l < 36)
  | .laneFaultClear l => decide (l < 36)
  | .steeringBlockAccept k block => spareOk k && decide (block.length = 32)
  | .partnerOkTimeout k => spareOk k
  | .spareAlign k => spareOk k
  | .askTimeout k => spareOk k
  | .steerTransmit _ k l => decide (k < 2) && decide (l < 16)
  | .steerReceive _ k l => decide (k < 2) && decide (l < 16)
  | .steerBoth _ k l => decide (k < 2) && decide (l < 16)
  | .spareRelease _ k l => decide (k < 2) && decide (l < 16)
  | .portUp p => decide (p < 32)
  | .portSleep p => decide (p < 32)
  | .sleepReached p => decide (p < 32)
  | .portWake p => decide (p < 32)
  | .wakePatternMatch p _ => decide (p < 32)
  | .linkChangeWake p _ _ _ => decide (p < 32)
  | .wakeComplete p => decide (p < 32)
  | .preemptVerify p _ => decide (p < 32)
  | .cascadeFrameSend t _ => decide (t < 4)
  | .cascadeFrameReceive t frame _ _ _ => decide (t < 4) && decide (frame.length = 16384)
  | .epochKeyDerived t => decide (t < 4)
  | .epochSwitch t => decide (t < 4)
  | .epochPeriodExpiry t => decide (t < 4)
  | .epochConfirmed t _ => decide (t < 4)
  | .epochJournalRetry t => decide (t < 4)
  | .mapSwitch t => decide (t < 4)
  | .realign t => decide (t < 4)
  | .dslipClear t i => decide (t < 4) && decide (i < 32)
  | .pmSecondBoundary t => decide (t < 4)
  | .opsSend t len => decide (t < 4) && decide (len < 8192)
  | .casPmSelWrite t _ => decide (t < 4)
  | .tbIncrWrite b _ => decide (b < 4)
  | .tbStep b => decide (b < 4)
  | .tbArmForce b => decide (b < 4)
  | .armForceExpiry b => decide (b < 4)
  | .stepInstant b => decide (b < 4)
  | .tbSnapFracRead b => decide (b < 4)
  | .comparatorFire k => decide (k < 32)
  | .ppsOutPulseEnd n => decide (n < 4)
  | .ppsInEdge => true
  | .ppsLoss => true
  | .gpioCapture j _ => decide (j < 8)
  | .gateCycleStart p => decide (p < 32)
  | .launchEligible _ => true
  | .launchRelease _ => true
  | .launchLate _ => true
  | .timeUnlock i => decide (i < 11)
  | .kstUpdate _ _ _ => true
  | .kstAttest => true
  | .kstGenerate _ => true
  | .kstDelete _ => true
  | .kstInfo => true
  | .kstAgreePub => true
  | .drbgReseed => true
  | .entropyHealthFail => true
  | .drbgResume => true
  | .pkeSubmit _ _ => true
  | .pkeAbort id => decide (id < 256)
  | .pkeJobStart _ => true
  | .pkeCheckpoint _ => true
  | .pkeJobEnd _ _ _ => true
  | .pkeDutyWindow => true
  | .tamperSourceLatch mask raw => decide (mask < 2 ^ 24) && decide (raw < 2 ^ 24)
  | .undervoltageDelayExpiry src => decide (2 ≤ src ∧ src ≤ 7)
  | .keyClearComplete => true
  | .cellSample _ _ => true
  | .temperatureReading _ _ _ => true
  | .wellBrownOut => true
  | .tmpRelease => true
  | .tmpServiceA => true
  | .tmpServiceB => true
  | .tmpEndService => true
  | .serviceWindowExpiry => true
  | .tmpZeroiseArm => true
  | .tmpZeroiseAll _ => true
  | .tmpFlagsClear mask => decide (mask < 2 ^ 32)
  | .smbusZeroiseWrite data _ => decide (data < 256)
  | .smbusZeroiseArmExpiry => true
  | .smbusStatusRead => true
  | .peerActiveChange _ => true
  | .peerHandoverRise => true
  | .aqdClockDetect => true
  | .aqdDeskewLock => true
  | .configFrameReceive _ => true
  | .authFrameReceive _ _ => true
  | .aqdTrainingTimeout => true
  | .aqdFailedRetry => true
  | .aqdLinkDown => true
  | .dataFrameReceive _ => true
  | .retransmitTimeout => true
  | .heartbeatSend => true
  | .hbLoss => true
  | .takeOverComplete => true
  | .giveUp => true
  | .takeOver => true
  | .partnerGone => true
  | .giveUpDiscardDeadline => true
  | .diagnosisFault n _ => decide (n < 8)
  | .aqdDeep => true
  | .aqdWake => true
  | .linkSleepEntry _ => true
  | .linkSleepExit _ => true
  | .txqDoorbell fn r v => fnOk fn && decide (r < 16) && decide (v < 65536)
  | .rxqDoorbell fn r v => fnOk fn && decide (r < 16) && decide (v < 65536)
  | .descriptorFetch fn r _ _ => fnOk fn && decide (r < 16)
  | .txCompletionWrite fn r => fnOk fn && decide (r < 16)
  | .interruptCoalesceExpiry fn r => fnOk fn && decide (r < 16)
  | .sliceBind k _ _ => decide (k < 64)
  | .sliceFence k => decide (k < 64)
  | .sliceResume k => decide (k < 64)
  | .sliceReset k => decide (k < 64)
  | .sliceUnbind k => decide (k < 64)
  | .vfFlr k => decide (k < 64)
  | .vfBusMasterClear k => decide (k < 64)
  | .sliceQuiesced k => decide (k < 64)
  | .snapshotInstant => true
  | .cntSnap => true
  | .cntFreeze => true
  | .cntThaw => true
  | .cntClearWrap i => decide (i < 2 ^ 20)
  | .commandedInstant => true
  | .snapshotImageDone _ => true
  | .bwWindowBoundary => true
  | .cntArmIdxWrite k _ => decide (k < 8)
  | .armFire k => decide (k < 8)
  | .cntRdLoRead => true
  | .legLoRead i => decide (i < 256)
  | .timeLockRegained i => decide (i < 11)
  | .receivePcsChange p _ _ _ => decide (p < 32)
  | .tribBufferSlip t i => decide (t < 4) && decide (i < 32)
  | .partnerClockWake => true
  | .gateEntryBoundary p => decide (p < 32)

end Sys2Proof
end

