-- ==== Sys2Proof/Tests/Slice0.lean ====
section
/-! SUPPORT. Tests: ill-formed commands that WellFormed refuses, small steps whose results the spec gives, and for each statement with
hypotheses a concrete state and operands that meet them. -/

open Sys2Proof Sys2Proof.Machine

namespace Sys2Proof.Tests

-- One theorem at a time: side by side, the kernel evaluations below take a thread each.
set_option Elab.async false

/-- A powered device out of cold reset in state `d`, with the MC serving. -/
def inState (d : DevState) : State := { State.reset with dev := { state := d, coldReset := false, mcUp := true } }

/-- An active device. -/
def live : State := inState .active

/-- The same at start step `n` with slot A running. -/
def starting (n : Nat) : State := { inState .start with dev := { state := .start, coldReset := false, mcUp := true, step := n, slot := 1 } }

/-- An active device with register `a` at `v`. -/
def withReg (a : Nat) (v : Word) : State := live.setReg a v

/-- An active device whose client port 0 is up on lane 0, with `n` forebay partitions of its group. -/
def upPort (n : Nat) : State :=
  { ((live.setFld (aPORT_CFG 0) F.PORT_CFG_SPEED 1).setFld (aLANE_CFG 0) F.LANE_CFG_RATE 1).setLane 0 { locked := true } with
    personality := [(0, .channelMacsec)], ports := [(0, { aligned := true })], partition := if n = 0 then [] else [(0, 1)] }

/-- A frame of client port 0 that is still arriving. -/
def arriving : State := { live with frames := [(1, { bytes := List.replicate 64 1 })] }

/-! ### Well-formedness: each check refuses an ill-formed term. -/

/-- Each operand out of its range is refused, one at a time. -/
theorem test_wf_reset_and_control_refused : ([
  .registerWrite (.vf 64) 0 0 true, .registerWrite .pf 0x4000000 0 true, .registerWrite (.vf 0) 0x200000 0 true,
  .holeAccess 0x4000000 true, .unservedBlockAccess (.vf 64) 0 true, .unservedBlockAccess .pf 0x4000000 true,
  .unservedBlockAccess (.vf 0) 0x200000 true, .glbWarmReset 65536 [] true, .glbMcRestart 65536, .laneTrainingStart [(16, .none)],
  .txnValidationEnd [(16, .none)]] : List Instr).all (fun c => !c.wf) = true := by
  decide +kernel

/-- Each operand out of its range is refused, one at a time. -/
theorem test_wf_frames_refused : ([
  .frameArrival 32 [] true, .headerRecordClassify 0 3 0, .headerRecordClassify 0 0 3, .learnApply 4, .reservationBoundaryRecord 16384 0,
  .reservationBoundaryRecord 0 2, .beatFeed 0 3 0, .beatFeed 0 0 3, .mergeRelease 33 .error, .mergeRelease 68 .error] : List Instr).all (fun c => !c.wf) = true := by
  decide +kernel

/-- Each operand out of its range is refused, one at a time. -/
theorem test_wf_tables_and_associations_refused : ([
  .tblRead 4 0, .tblRead 0 4, .tblWrite 4 0, .tblWrite 0 4, .tblInsert 4 0, .tblInsert 0 4, .tblDelete 4 0, .tblDelete 0 4,
  .tblSearch 4 0, .tblSearch 0 4, .tblFlush 4 0 0, .tblFlush 0 4 0, .tblFlush 0 0 16, .tblAge 4 0, .tblAge 0 4, .tblCmdDone 4,
  .ageingSweepVisit 4 0 true, .moveWindowRestart 4, .pinHoldExpiry 4 0, .trieWordRepair 4, .saInstall (.vf 64), .saRemove (.vf 64),
  .saRead (.vf 64), .saReadSlot (.vf 64), .saDerive (.vf 64), .saSwitch (.vf 64), .saArmTime (.vf 64), .saRetire (.vf 64),
  .saModify (.vf 64), .slotLoadComplete true 16384 0 true, .slotLoadComplete true 0 2 true, .slotDrainComplete 16384 0,
  .slotDrainComplete 0 2, .autoNextRetry 16384, .rxRetireTimerExpiry 16384, .followCandidateReady 16384 0, .followCandidateReady 0 2,
  .assocRemoveDrainComplete true 16384] : List Instr).all (fun c => !c.wf) = true := by
  decide +kernel

/-- Each operand out of its range is refused, one at a time. -/
theorem test_wf_rills_refused : ([
  .rilWithdraw 16 true, .rilRestore 16, .rillFault 9 0 true, .rillFault 0 3 true, .spareInService 9, .fenceComplete 9, .fenceDeadline 9,
  .katRun 9 true, .tepRead 4096, .tepWrite 4096, .tepClear 4096, .rillWakeComplete 9] : List Instr).all (fun c => !c.wf) = true := by
  decide +kernel

/-- Each operand out of its range is refused, one at a time. -/
theorem test_wf_schedule_and_cistern_refused : ([
  .sluiceTick [] none 0, .schedEntryWord3Write .sub 8192 0, .schedEntryWord3Write .svc 1024 0, .schedEntryWord3Write .port 34 0,
  .spillWriteAck 0 3, .nodeWriteBack 4 0 [], .cisRotate 8, .timedRotation 8, .keyidRetireComplete 64, .regionDrainComplete 1792,
  .rowRepair 2 [] true true] : List Instr).all (fun c => !c.wf) = true := by
  decide +kernel

/-- Each operand out of its range is refused, one at a time. -/
theorem test_wf_lanes_refused : ([
  .laneMarkerLock 36 true 0 [] true, .trainTimeout 36, .laneFault 36 0, .laneFault 0 9, .laneDegrade 36, .laneFaultClear 36,
  .steeringBlockAccept 15 (List.replicate 32 0), .steeringBlockAccept 36 (List.replicate 32 0), .steeringBlockAccept 16 [],
  .partnerOkTimeout 15, .partnerOkTimeout 36, .spareAlign 15, .spareAlign 36, .askTimeout 15, .askTimeout 36, .steerTransmit .client 2 0,
  .steerTransmit .client 0 16, .steerReceive .client 2 0, .steerReceive .client 0 16, .steerBoth .client 2 0, .steerBoth .client 0 16,
  .spareRelease .client 2 0, .spareRelease .client 0 16] : List Instr).all (fun c => !c.wf) = true := by
  decide +kernel

/-- Each operand out of its range is refused, one at a time. -/
theorem test_wf_ports_and_trunks_refused : ([
  .portUp 32, .portSleep 32, .sleepReached 32, .portWake 32, .wakePatternMatch 32 [], .linkChangeWake 32 true true true,
  .wakeComplete 32, .preemptVerify 32 true, .cascadeFrameSend 4 [], .cascadeFrameReceive 4 [] true 0 0,
  .cascadeFrameReceive 0 [] true 0 0, .epochKeyDerived 4, .epochSwitch 4, .epochPeriodExpiry 4, .epochConfirmed 4 true,
  .epochJournalRetry 4, .mapSwitch 4, .realign 4, .dslipClear 4 0, .dslipClear 0 32, .pmSecondBoundary 4, .opsSend 4 0, .opsSend 0 8192,
  .casPmSelWrite 4 0] : List Instr).all (fun c => !c.wf) = true := by
  decide +kernel

/-- Each operand out of its range is refused, one at a time. -/
theorem test_wf_time_refused : ([
  .tbIncrWrite 4 0, .tbStep 4, .tbArmForce 4, .armForceExpiry 4, .stepInstant 4, .tbSnapFracRead 4, .comparatorFire 32,
  .ppsOutPulseEnd 4, .gpioCapture 8 true, .gateCycleStart 32, .timeUnlock 11] : List Instr).all (fun c => !c.wf) = true := by
  decide +kernel

/-- Each operand out of its range is refused, one at a time. -/
theorem test_wf_keys_and_tamper_refused : ([
  .pkeAbort 256, .tamperSourceLatch (2 ^ 24) 0, .tamperSourceLatch 0 (2 ^ 24), .undervoltageDelayExpiry 1, .undervoltageDelayExpiry 8,
  .tmpFlagsClear (2 ^ 32), .smbusZeroiseWrite 256 true, .diagnosisFault 8 true] : List Instr).all (fun c => !c.wf) = true := by
  decide +kernel

/-- Each operand out of its range is refused, one at a time. -/
theorem test_wf_host_and_counters_refused : ([
  .txqDoorbell (.vf 64) 0 0, .txqDoorbell .pf 16 0, .txqDoorbell .pf 0 65536, .rxqDoorbell (.vf 64) 0 0, .rxqDoorbell .pf 16 0,
  .rxqDoorbell .pf 0 65536, .descriptorFetch (.vf 64) 0 .error .error, .descriptorFetch .pf 16 .error .error,
  .txCompletionWrite (.vf 64) 0, .txCompletionWrite .pf 16, .interruptCoalesceExpiry (.vf 64) 0, .interruptCoalesceExpiry .pf 16,
  .sliceBind 64 true true, .sliceFence 64, .sliceResume 64, .sliceReset 64, .sliceUnbind 64, .vfFlr 64, .vfBusMasterClear 64,
  .sliceQuiesced 64, .cntClearWrap (2 ^ 20), .cntArmIdxWrite 8 0, .armFire 8, .legLoRead 256, .timeLockRegained 11,
  .receivePcsChange 32 true true true, .tribBufferSlip 4 0, .tribBufferSlip 0 32, .gateEntryBoundary 32] : List Instr).all (fun c => !c.wf) = true := by
  decide +kernel

/-- The last value of each range is accepted. -/
theorem test_wf_boundaries_accepted : ([
  .registerWrite (.vf 63) 0x1FFFFC 0 true, .holeAccess 0x3FFFFFC true, .glbWarmReset 65535 [] false, .frameArrival 31 [] true, .mergeRelease 32 .error,
  .mergeRelease 67 .error, .tblFlush 3 3 15, .rillFault 8 2 true, .schedEntryWord3Write .sub 8191 0, .spareAlign 35, .portUp 31, .opsSend 3 8191,
  .undervoltageDelayExpiry 7, .txqDoorbell (.vf 63) 15 65535, .legLoRead 255, .stackFail] : List Instr).all Instr.wf = true := by
  decide +kernel

/-- An outcome is a next state with property `p`. -/
def ends (o : Host.Outcome State Fault Refusal) (p : State → Bool) : Bool :=
  match o with
  | .next t => p t
  | _ => false

/-! ### Single steps and operations. The expected results are the spec's worked examples and tables. -/

/-- The three addresses of the register map's worked example. -/
theorem test_addresses : R.GATE_ENTRY_e 21 5 = 0x825414 ∧ R.SUB_u_3 640 = 0x62280C ∧ R.DECAP_3_p 5 = 0x49105C := by decide

/-- R497: out of reset with main power the device begins the start at step 1. -/
theorem test_coldResetRelease : ends (exec (.coldResetRelease []) State.reset) (fun t => decide (t.dev.state = .start ∧ t.dev.step = 1 ∧ t.dev.coldReset = false)) = true := by
  decide +kernel

/-- R493: a warm reset with a wrong key has no effect and sets BAD_KEY. -/
theorem test_glbWarmReset_wrongKey : ends (exec (.glbWarmReset 0xA55B [] false) live) (fun t => decide (t.dev = live.dev ∧ t.flag R.GLB_ERR F.GLB_ERR_BAD_KEY = true)) = true := by
  decide +kernel

/-- R490: a hole access sets HOLE. -/
theorem test_holeAccess : ends (exec (.holeAccess 0x3F00000 false) live) (fun t => decide (t.flag R.GLB_ERR F.GLB_ERR_HOLE = true)) = true := by
  decide +kernel

/-- R341: the servo of the worked example slows base 1. -/
theorem test_tbIncrWrite : ends (exec (.tbIncrWrite 1 0x013FFFD6) live) (fun t => decide (t.reg (R.TB_INCR 1) = 0x013FFFD6#32)) = true := by
  decide +kernel

/-- R341: an increment one below the range is ignored and sets INCR_RANGE. -/
theorem test_tbIncrWrite_range : ends (exec (.tbIncrWrite 1 0x013FD709) live) (fun t => decide (t.reg (R.TB_INCR 1) = 0x01400000#32 ∧
    t.flag R.TIM_ALARM F.TIM_ALARM_INCR_RANGE = true)) = true := by
  decide +kernel

/-- R82: BEGIN in Idle opens a transaction; a second one answers BUSY and leaves it open. -/
theorem test_txnBegin : ends (exec .txnBegin live) (fun t => decide (t.txn.state = .open) &&
    ends (exec .txnBegin t) (fun u => decide (u.txn.state = .open ∧ u.fld R.TXN_STATUS F.TXN_STATUS_CMD = Status.busy.code))) = true := by
  decide +kernel

/-- R82: COMMIT in Idle answers INVALID. -/
theorem test_txnCommit_idle : ends (exec .txnCommit live) (fun t => decide (t.txn.state = .idle ∧ t.fld R.TXN_STATUS F.TXN_STATUS_CMD = Status.invalid.code)) = true := by
  decide +kernel

/-- The record of transmit SC 1 200 of the worked examples: GCM-AES-256 with SCI_EN and ENCRYPT. -/
def sc1200 : AssocRec := { suite := 1, flags := 3, sci := 0x021A3C0000070001 }

/-- Chapter 07's first frame after a switch: its SecTAG and its IV. -/
theorem test_macsec_example :
    secTagBytes sc1200 0 1 48 = [0x88, 0xE5, 0x2C, 0x00, 0x00, 0x00, 0x00, 0x01, 0x02, 0x1A, 0x3C, 0x00, 0x00, 0x07, 0x00, 0x01] ∧
    macsecIv sc1200 [] 1 = [0x02, 0x1A, 0x3C, 0x00, 0x00, 0x07, 0x00, 0x01, 0x00, 0x00, 0x00, 0x01] := by decide +kernel

/-- Chapter 07's ESP packet of 1 000 bytes: 2 pad bytes, 1 074 bytes in all. -/
theorem test_esp_example : espPad 1000 = 2 ∧ espLength (4 :: List.replicate 63 0) false 1000 = 1074 := by decide +kernel

/-- Chapter 08's counter block for keystream block 2 of block 0x0123_4567. -/
theorem test_counterBlock_example :
    counterBlock (3, 0x11) 1 0x01234567 0xFF 2 = [0, 0, 0, 0, 0, 0, 0, 3, 0x11, 0x01, 0x01, 0x23, 0x45, 0x67, 0xFF, 0x02] := by decide +kernel

/-- Chapter 05's entry: the registers written give the key, the result and STATIC. -/
theorem test_emEntry_example :
    let e := emEntryOf ([0x00050101, 0x00002C01, 0x1A020000, 0x0700003C, 0x00850801, 0x8002B004, 0x00000001, 0].flatMap wordBytes)
    e.key = [1, 1, 5, 0, 1, 0x2C, 0, 0, 0, 0, 2, 0x1A, 0x3C, 0, 0, 7] ∧
    e.res = { action := 1, cls := 8, egress := 0x85, assoc := 1200, sub := 640 } ∧ e.static = true := by decide +kernel

/-- Chapter 09's subscriber 640: a refill of 1 024 ns adds 2 560 bytes at CIR 20 000 Mb/s and 5 120 bytes at PIR 40 000 Mb/s. -/
theorem test_bucketRefill_example :
    let s := ((live.setFld (R.SUB_u_0 640) F.SUB_u_0_CIR 20000).setFld (R.SUB_u_1 640) F.SUB_u_1_PIR 40000)
    let s := (s.setFld (R.SUB_u_2 640) F.SUB_u_2_CBS 1024).setFld (R.SUB_u_2 640) F.SUB_u_2_PBS 2048
    ends (exec (.bucketRefill (.sub 640)) s) (fun t => decide (kget 0 t.sched.subC 640 = units 2560 ∧ kget 0 t.sched.subP 640 = units 5120)) = true := by
  decide +kernel

/-- Chapter 14: P-256, the order times G is infinity, encoded as 65 zero bytes. -/
theorem test_pke_order_example : p256.enc (p256.mul (p256.n % p256.n) p256.gen) = List.replicate 65 0 := by decide +kernel

/-- The generators lie on their curves. -/
theorem test_pke_generators : ([p256, p384, p521].all (fun c => c.has c.gx c.gy)) = true := by decide +kernel

/-- Slots A and B of chapter 02's worked example: sequence numbers 41 and 42. -/
def exampleFlash (seq : Byte) : List Byte := List.replicate 23 0 ++ [seq] ++ List.replicate 232 0

/-- Chapter 02's worked example, start 3: B counts 2 and A is untried, so A is chosen and the counts become 1, 2, 3. -/
theorem test_slotSelection_example :
    let s := { starting 1 with flashA := exampleFlash 41, flashB := exampleFlash 42 }
    let s := (s.setFld R.START_FAILS F.START_FAILS_FAIL_B 2).setFld R.START_FAILS F.START_FAILS_FAIL_CONSEC 2
    ends (exec (.slotSelection true) s) (fun t => decide (t.dev.tried = [1] ∧ failCount t 1 = 1 ∧ failCount t 2 = 2 ∧ failConsec t = 3)) = true := by
  decide +kernel

/-! ### Public functions, with the examples of their standards. -/

/-- FIPS 180-4: SHA-384 of "abc". -/
theorem test_sha384_abc : sha384 (ascii "abc") =
    be 48 0xcb00753f45a35e8bb5a03d699ac65007272c32ab0eded1631a8b605a43ff5bed8086072ba1e7cc2358baeca134c825a7 := by decide +kernel

/-- FIPS 197, C.3: AES-256. -/
theorem test_aes256_fips197 : aes (be 32 0x000102030405060708090a0b0c0d0e0f101112131415161718191a1b1c1d1e1f)
    (be 16 0x00112233445566778899aabbccddeeff) = be 16 0x8ea2b7ca516745bfeafc49904b496089 := by decide +kernel

/-! ### Witnesses of the statements' hypotheses -/

/-! ### Witnesses: each states the hypotheses of one statement's clauses, and meets them. -/

theorem witness_PowerAndResets :
    (∃ s : State, s.dev.power = false) ∧ (∃ s : State, s.dev.power = true) ∧
    (∃ s : State, s.dev.power = true ∧ s.dev.coldReset = true ∧ s.well.ok = true ∧ s.tmp.pendingLvl = 0 ∧ s.tmp.haltHold = false) ∧
    (∃ s : State, running s = true ∧ s.well.ok = true ∧ (keptTamper s.tmp).pendingLvl = 0 ∧ s.tmp.haltHold = false) ∧
    (∃ s : State, running s = true ∧ s.dev.timing = true ∧ (s.dev.state = .active ∨ s.dev.state = .standby)) :=
  ⟨⟨{ State.reset with dev := { power := false } }, by decide +kernel⟩, ⟨State.reset, by decide +kernel⟩,
   ⟨{ State.reset with well := { ok := true } }, by decide +kernel⟩, ⟨{ live with well := { ok := true } }, by decide +kernel⟩,
   ⟨{ live with dev := { live.dev with timing := true } }, by decide +kernel⟩⟩

theorem witness_RegisterResets :
    (∃ s : State, s.reachable = true ∧ 0xA55A % 65536 = 0xA55A ∧ (lateMark s true).flag R.START_CTRL F.START_CTRL_PLANNED = false) ∧
    (∃ s : State, s.reachable = true ∧ (lateMark s true).flag R.START_CTRL F.START_CTRL_PLANNED = true) ∧
    (∃ s : State, s.reachable = true ∧ 0xA55B % 65536 ≠ 0xA55A) ∧
    (∃ s : State, s.reachable = true ∧ s.dev.state = .maintenance) ∧
    (∃ s : State, s.reachable = true ∧ s.serves .start = true ∧ s.dev.state ≠ .maintenance) :=
  ⟨⟨live, by decide +kernel⟩, ⟨live.setFld R.START_CTRL F.START_CTRL_PLANNED 1, by decide +kernel⟩, ⟨live, by decide +kernel⟩, ⟨inState .maintenance, by decide +kernel⟩,
   ⟨live, by decide +kernel⟩⟩

theorem witness_McAndFunctionReset :
    (∃ s : State, s.reachable = true ∧ s.dev.mcRestarting = false ∧ s.txn.state = .idle ∧ s.flag R.KST_STATUS F.KST_STATUS_BUSY = false ∧
      s.snap.image = none) ∧
    (∃ s : State, running s = true ∧ s.dev.watchdog = true ∧ s.txn.state = .idle ∧ s.flag R.KST_STATUS F.KST_STATUS_BUSY = false ∧
      s.snap.image = none) ∧
    (∃ s : State, running s = true ∧ s.dev.mcRestarting = false ∧ s.txn.state ≠ .open) ∧
    (∃ s : State, s.dev.mcRestarting = true ∧ ∀ e ∈ s.pke.jobs, e.2.ended = none) :=
  ⟨⟨live, by decide +kernel⟩, ⟨{ live with dev := { live.dev with watchdog := true } }, by decide +kernel⟩, ⟨live, by decide +kernel⟩,
   ⟨{ live with dev := { live.dev with mcRestarting := true, mcUp := false } }, by decide +kernel⟩⟩

theorem witness_SlotSelectionAndCheck :
    (∃ s : State, running s = true ∧ s.dev.state = .start ∧ s.dev.step = 1 ∧ s.dev.tried = [] ∧ failConsec s < 3 ∧
      slotReadable s.flashA = true ∧ slotReadable s.flashB = false) ∧
    (∃ s : State, running s = true ∧ s.dev.state = .start ∧ s.dev.step = 1 ∧ s.dev.tried = [] ∧ failConsec s < 3 ∧
      slotReadable s.flashA = false ∧ slotReadable s.flashB = false) ∧
    (∃ s : State, running s = true ∧ s.dev.state = .start ∧ s.dev.step = 1 ∧ failConsec s = 3) ∧
    (∃ s : State, s.dev.state = .start ∧ s.dev.step = 2 ∧ s.dev.slot = 0 ∧ s.dev.tried.getLast? = some 1) :=
  ⟨⟨{ starting 1 with flashA := List.replicate 256 0 }, by decide +kernel⟩, ⟨starting 1, by decide +kernel⟩,
   ⟨(starting 1).setFld R.START_FAILS F.START_FAILS_FAIL_CONSEC 3, by decide +kernel⟩,
   ⟨{ starting 2 with dev := { state := .start, step := 2, tried := [1] } }, by decide +kernel⟩⟩

theorem witness_CalibrationKeysAndTests :
    (∃ s : State, s.dev.state = .start ∧ s.dev.step = 3 ∧ s.dev.slot ≠ 0) ∧
    (∃ s : State, s.dev.state = .start ∧ s.dev.step = 4 ∧ s.dev.slot ≠ 0 ∧ s.keyLog.copyA = [] ∧ s.keyLog.copyB = [] ∧
      s.journal.half0 = [] ∧ s.journal.half1 = [] ∧ s.well.kseq = 0 ∧ s.well.jseq = 0) ∧
    (∃ s : State, s.dev.state = .start ∧ s.dev.step = 4 ∧ s.dev.slot ≠ 0 ∧ s.well.keysLost = true ∧ s.keyLog.copyA ≠ []) ∧
    (∃ s : State, s.dev.state = .start ∧ s.dev.step = 5 ∧ s.dev.slot ≠ 0) :=
  ⟨⟨starting 3, by decide +kernel⟩, ⟨starting 4, by decide +kernel⟩,
   ⟨{ starting 4 with well := { keysLost := true }, keyLog := { copyA := [[0]] } }, by decide +kernel⟩, ⟨starting 5, by decide +kernel⟩⟩

theorem witness_EndOfStart :
    (∃ s : State, s.dev.state = .start ∧ s.dev.step = 6 ∧ s.dev.slot ≠ 0) ∧
    (∃ s : State, s.dev.step = 7 ∧ lanesTrained s = false) ∧
    (∃ s : State, s.dev.state = .start ∧ s.dev.step = 7 ∧ s.dev.slot ≠ 0 ∧ lanesTrained s = true ∧ pairOn s = false) ∧
    (∃ s : State, s.dev.state = .start ∧ s.dev.step = 7 ∧ s.dev.slot ≠ 0 ∧ lanesTrained s = true ∧ pairOn s = true ∧ s.linkUp = false) ∧
    (∃ s : State, s.dev.state = .start ∧ s.dev.rolePending = true ∧ s.linkUp = false) ∧
    (∃ s : State, s.dev.timing = true ∧ s.dev.state = .active ∧ s.dev.success = false ∧ s.dev.slot = 1) :=
  ⟨⟨starting 6, by decide +kernel⟩,
   ⟨((starting 7).setFld (aPORT_CFG 0) F.PORT_CFG_SPEED 1).setFld (aLANE_CFG 0) F.LANE_CFG_RATE 1, by decide +kernel⟩,
   ⟨starting 7, by decide +kernel⟩, ⟨(starting 7).setFld R.PAI_CFG F.PAI_CFG_EN 1, by decide +kernel⟩,
   ⟨{ live with dev := { state := .start, rolePending := true } }, by decide +kernel⟩,
   ⟨{ live with dev := { state := .active, timing := true, slot := 1 } }, by decide +kernel⟩⟩

theorem witness_StartControlAndFlash :
    (∃ s : State, s.reachable = true ∧ s.serves .start = true ∧ s.dev.state ≠ .start) ∧
    (∃ s : State, s.reachable = true ∧ s.dev.state = .active ∧ 63 < 64 ∧ inFlight s 63 ≠ 0) ∧
    (∃ s : State, s.reachable = true ∧ s.dev.state = .active ∧ ∀ k < 64, inFlight s k = 0) ∧
    (∃ s : State, s.reachable = true ∧ s.serves .start = true ∧ imgPhase s = 0 ∧ slotWritable s 2 = true ∧ slotWritable s 1 = true ∧
      s.reg64 R.IMG_SRC_LO R.IMG_SRC_HI % 8 = 0) ∧
    (∃ s : State, imgPhase s = 1 ∧ (s.reg R.IMG_LEN).toNat = imageLen (slice [] 0 256)) ∧
    (∃ s : State, imgPhase s = 2) ∧ (∃ s : State, imgPhase s = 3) ∧ (∃ s : State, imgPhase s = 4) :=
  ⟨⟨live, by decide +kernel⟩, ⟨{ live with jobs := [(1, { stage := .queued, host := some (.vf 63, 0, 0) })] }, by decide +kernel⟩, ⟨live, by decide +kernel⟩,
   ⟨inState .minimal, by decide +kernel⟩, ⟨setPhase (live.setReg R.IMG_LEN (BitVec.ofNat 32 (imageLen (slice [] 0 256)))) 1, by decide +kernel⟩,
   ⟨setPhase live 2, by decide +kernel⟩, ⟨setPhase live 3, by decide +kernel⟩, ⟨setPhase live 4, by decide +kernel⟩⟩

theorem witness_RegisterAccesses :
    (∃ (s : State) (fn : Fn) (off a : Nat), s.reachable = true ∧ hasBar s fn = true ∧ busAddr fn off = some a ∧ off % 4 = 0 ∧ blockOf a ≠ .hole ∧
      s.serves (blockOf a) = true) ∧
    (∃ (s : State) (fn : Fn) (off a : Nat), s.reachable = true ∧ hasBar s fn = true ∧ busAddr fn off = some a ∧ off % 4 ≠ 0 ∧ blockOf a ≠ .hole ∧
      s.serves (blockOf a) = true) ∧
    (∃ (s : State) (fn : Fn) (off a : Nat), s.reachable = true ∧ hasBar s fn = true ∧ busAddr fn off = some a ∧ off % 4 = 0 ∧ blockOf a = .hole) ∧
    (∃ (s : State) (fn : Fn) (off a : Nat), s.reachable = true ∧ hasBar s fn = true ∧ busAddr fn off = some a ∧ off % 4 = 0 ∧ blockOf a ≠ .hole ∧
      s.serves (blockOf a) = false) ∧
    (∃ (s : State) (fn : Fn) (off a : Nat), s.reachable = true ∧ hasBar s fn = true ∧ busAddr fn off = some a ∧ off % 4 ≠ 0 ∧ blockOf a = .hole) ∧
    (∃ (s : State) (fn : Fn) (off a : Nat), s.reachable = true ∧ hasBar s fn = true ∧ busAddr fn off = some a ∧ off % 4 ≠ 0 ∧ blockOf a ≠ .hole ∧
      s.serves (blockOf a) = false) ∧
    (∃ (s : State) (off : Nat), s.reachable = true ∧ off < 0x4000000 ∧ blockOf (off / 4 * 4) = .hole) ∧
    (∃ (s : State) (fn : Fn) (off a : Nat), s.reachable = true ∧ hasBar s fn = true ∧ busAddr fn off = some a ∧ blockOf a ≠ .hole ∧
      s.serves (blockOf a) = false) :=
  ⟨⟨live, .pf, R.GLB_RESET, R.GLB_RESET, by decide +kernel⟩, ⟨live, .pf, R.CLS_AGE 0 + 1, R.CLS_AGE 0, by decide +kernel⟩,
   ⟨live, .pf, 0x3FFFFFC, 0x3FFFFFC, by decide +kernel⟩, ⟨inState .minimal, .pf, R.CLS_AGE 0, R.CLS_AGE 0, by decide +kernel⟩,
   ⟨live, .pf, 0x3FFFFFF, 0x3FFFFFC, by decide +kernel⟩, ⟨inState .minimal, .pf, R.CLS_AGE 0 + 1, R.CLS_AGE 0, by decide +kernel⟩,
   ⟨live, 0x3FFFFFF, by decide +kernel⟩, ⟨inState .minimal, .pf, R.CLS_AGE 0, R.CLS_AGE 0, by decide +kernel⟩⟩

theorem witness_TransactionCommands :
    (∃ s : State, s.reachable = true ∧ s.serves .txn = true ∧ s.dev.mcRestarting = false ∧ s.txn.state = .idle) ∧
    (∃ s : State, s.reachable = true ∧ s.serves .txn = true ∧ s.dev.mcRestarting = false ∧ s.txn.state = .open ∧ s.txn.timer.isSome = true) :=
  ⟨⟨live, by decide +kernel⟩, ⟨{ live with txn := { state := .open, timer := some 1 } }, by decide +kernel⟩⟩

theorem witness_TransactionApplies :
    (∃ s : State, s.txn.state = .validating ∧ judgeChange s (changeOf s) ≠ .pass) ∧
    (∃ s : State, s.txn.state = .validating ∧ judgeChange s (changeOf s) = .pass ∧
      affected (stageWords s (stagedWords s (lay s (changeOf s)) (changeOf s))) (changeOf s) ≠ []) ∧
    (∃ (s : State) (i : Island), s.txn.state = .applying ∧ i ∈ s.txn.waiting) :=
  ⟨⟨{ live with txn := { state := .validating, wrongLevel := true } }, by decide +kernel⟩,
   ⟨{ (inState .maintenance).setReg R.TXN_LEVEL 0xFFFFFFFF with
      txn := { state := .validating, regs := [(0x40000100, 1)], used := [0x40000100] } }, by decide +kernel⟩,
   ⟨{ live with txn := { state := .applying, waiting := [.scheduler] } }, .scheduler, by decide⟩⟩

theorem witness_ParametersAndCalibration :
    (∃ s : State, s.reachable = true ∧ s.serves (blockOf R.BP_CMD) = true ∧ s.dev.mcRestarting = false ∧ s.txn.state = .idle) ∧
    (∃ s : State, s.reachable = true ∧ s.serves (blockOf R.BP_CMD) = true ∧ s.txn.state = .applying) ∧
    (∃ s : State, s.reachable = true ∧ s.serves (blockOf R.BP_CMD) = true ∧ (paramOf (bpId s)).isSome = true) ∧
    (∃ s : State, s.reachable = true ∧ s.serves (blockOf R.CAL_OFFSET) = true ∧ s.txn.state = .open) :=
  ⟨⟨live, by decide +kernel⟩, ⟨{ live with txn := { state := .applying } }, by decide +kernel⟩, ⟨live.setReg R.BP_ID 0x00200002, by decide +kernel⟩,
   ⟨{ live with txn := { state := .open } }, by decide +kernel⟩⟩

theorem witness_FrameReception :
    (∃ (s : State) (h : List Byte), portUp s 0 = true ∧ (s.port 0).sleep ≠ .waking ∧ recordsWaiting s 0 < 32 ∧
      (h.length < 64 ∨ cellsUsed s (ownerOf s 0) < cellCapacity s (ownerOf s 0)) ∧ portUnlocked s 0 = false) ∧
    (∃ s : State, (s.port 0).sleep = .waking) ∧ (∃ s : State, (s.port 0).sleep ≠ .waking ∧ portUp s 0 = false) ∧
    (∃ s : State, portUp s 0 = true ∧ (s.port 0).sleep ≠ .waking ∧ recordsWaiting s 0 = 32) ∧
    (∃ (s : State) (h : List Byte), portUp s 0 = true ∧ (s.port 0).sleep ≠ .waking ∧ recordsWaiting s 0 < 32 ∧ 64 ≤ h.length ∧
      cellCapacity s (ownerOf s 0) ≤ cellsUsed s (ownerOf s 0)) ∧
    (∃ s : State, s.frame 1 ≠ {} ∧ (s.frame 1).complete = false ∧ (s.frame 1).bad = false ∧ (s.frame 1).ingress < 32) ∧
    (∃ (s : State) (b : List Byte), 60 ≤ b.length ∧ b.length + 4 ≤ s.fld (aPORT_CFG 0) F.PORT_CFG_MAX_FRAME ∧ beAt b 12 2 ≠ 0x8808) ∧
    (∃ (s : State) (b : List Byte), 60 ≤ b.length ∧ b.length + 4 ≤ s.fld (aPORT_CFG 0) F.PORT_CFG_MAX_FRAME ∧ beAt b 12 2 = 0x8808) ∧
    (∃ b : List Byte, b.length < 64) ∧
    (∃ (s : State) (b : List Byte), 64 ≤ b.length ∧ b.length ≤ s.fld (aPORT_CFG 0) F.PORT_CFG_MAX_FRAME) :=
  ⟨⟨upPort 1, List.replicate 64 1, by decide +kernel⟩, ⟨live.setPort 0 { sleep := .waking }, by decide +kernel⟩, ⟨live, by decide +kernel⟩,
   ⟨{ upPort 1 with frames := (List.range 32).map (fun h => (h + 1, { bytes := [1] })) }, by decide +kernel⟩,
   ⟨upPort 0, List.replicate 64 1, by decide +kernel⟩, ⟨arriving, by decide +kernel⟩, ⟨live, List.replicate 60 1, by decide +kernel⟩,
   ⟨live, List.replicate 12 1 ++ [0x88, 0x08] ++ List.replicate 46 0, by decide +kernel⟩, ⟨[], by decide⟩, ⟨live, List.replicate 64 1, by decide +kernel⟩⟩

theorem witness_Classification :
    (∃ s : State, s.frame 1 ≠ {} ∧ (s.frame 1).classified = false ∧ (s.frame 1).bad = false ∧ (s.frame 1).ingress < 32 ∧
      recordReady (s.frame 1) = true ∧ entriesWaiting s (instanceOf s (s.frame 1).ingress) < 64 ∧ beAt (s.frame 1).bytes 12 2 ≠ 0x8808) ∧
    (∃ s : State, (s.frame 1).classified = false ∧ (s.frame 1).bad = false ∧ 32 < (s.frame 1).ingress ∧ recordReady (s.frame 1) = true ∧
      entriesWaiting s (instanceOf s (s.frame 1).ingress) < 64) ∧
    (∃ s : State, (s.frame 1).complete = false ∧ (s.frame 1).bytes.length < 64) ∧
    (∃ r : Result, r.action = 0) ∧
    (∃ (s : State) (p : Nat) (r : Result), r.action = 3 ∧ (s.assoc true r.assoc).valid = true ∧ 16 + (s.assoc true r.assoc).record.port = p) ∧
    (∃ (s : State) (r : Result), r.action = 3 ∧ (s.assoc true r.assoc).valid = false) :=
  ⟨⟨arriving, by decide +kernel⟩, ⟨{ live with frames := [(1, { ingress := 64, complete := true })] }, by decide⟩, ⟨live, by decide⟩, ⟨{}, by decide⟩,
   ⟨{ live with rxAssocs := [(0, { valid := true })] }, 16, { action := 3 }, by decide⟩, ⟨live, { action := 3 }, by decide⟩⟩

theorem witness_TableCommands :
    (∃ s : State, s.reachable = true ∧ s.serves .cls = true ∧ s.flag (R.TBL_STATUS 3) F.TBL_STATUS_BUSY = false ∧ lpmTable 2 ≠ none ∧ lpmBusy s 3 = false) ∧
    (∃ s : State, s.reachable = true ∧ s.serves .cls = true ∧ s.flag (R.TBL_STATUS 3) F.TBL_STATUS_BUSY = false ∧ lpmTable 0 = none ∧ lpmBusy s 3 = true) ∧
    (∃ s : State, s.reachable = true ∧ s.serves .cls = true ∧ s.flag (R.TBL_STATUS 3) F.TBL_STATUS_BUSY = true) ∧
    (∃ s : State, (s.clsOf 3).pending = some {} ∧ ({} : TblPending).index = none) ∧
    (∃ s : State, (s.clsOf 3).pending = some { index := some 1 }) :=
  ⟨⟨live, by decide⟩, ⟨live.setCls 0 { pending := some { lpmChange := true } }, by decide⟩, ⟨live.setFld (R.TBL_STATUS 3) F.TBL_STATUS_BUSY 1, by decide⟩,
   ⟨live.setCls 3 { pending := some {} }, by decide⟩, ⟨live.setCls 3 { pending := some { index := some 1 } }, by decide⟩⟩

/-- A key of type 1 in domain 0. -/
def emKey : List Byte := 1 :: List.replicate 31 0

/-- An active device whose instance 0 holds that key at slot 5. -/
def emHeld : State := live.setCls 0 { em := [(5, { key := slice emKey 0 16 })] }

theorem witness_ExactMatchOperations :
    (emEntryOk emHeld 0 emKey = true ∧ bypassDenied emHeld emKey = false ∧
      emFind (emHeld.clsOf 0).em (slice emKey 0 16) = some (5, { key := slice emKey 0 16 })) ∧
    (emEntryOk live 0 emKey = true ∧ bypassDenied live emKey = false ∧ emFind (live.clsOf 0).em (slice emKey 0 16) = none ∧
      (tblInsertOp 0 0 emKey live).status = .ok) ∧
    ((∀ x ∈ (emHeld.clsOf 0).em, x.2.key = slice emKey 0 16 → x.1 = 5) ∧ krising (emHeld.clsOf 0).em = true) ∧
    (emKeyOk 0 emKey = true ∧ emFind (live.clsOf 0).em (slice emKey 0 16) = none ∧ (live.clsOf 0).em.length ≤ 124518) ∧
    (∃ s : State, emKeyOk 0 (tblData s 0) = true ∧ emFind (s.clsOf 0).em (slice (tblData s 0) 0 16) = some (5, { key := slice emKey 0 16 })) :=
  ⟨by decide +kernel, by decide +kernel, by decide +kernel, by decide +kernel, ⟨emHeld.setReg (R.TBL_DATA_n 0 0) 1, by decide +kernel⟩⟩

theorem witness_LearningAndAgeing :
    (∃ s : State, (s.clsOf 0).learnQ = []) ∧ (∃ s : State, (s.clsOf 0).learnQ = {} :: []) ∧
    (∃ s : State, s.fld (R.CLS_AGE 0) F.CLS_AGE_PERIOD_S ≠ 0 ∧ kget {} (s.clsOf 0).em 5 ≠ {} ∧ (kget {} (s.clsOf 0).em 5).static = false ∧
      (kget {} (s.clsOf 0).em 5).pinned = false) ∧
    (∃ s : State, s.fld (R.CLS_AGE 0) F.CLS_AGE_PERIOD_S = 0) ∧
    (∃ s : State, (kget {} (s.clsOf 0).em 5).pinned = true ∧ (kget {} (s.clsOf 0).em 5).pinSw = false ∧
      s.fld (R.CLS_MOVE 0) F.CLS_MOVE_PIN_HOLD_S ≠ 0) :=
  ⟨⟨live, by decide⟩, ⟨live.setCls 0 { learnQ := [{}] }, by decide⟩, ⟨emHeld, by decide +kernel⟩,
   ⟨live.setFld (R.CLS_AGE 0) F.CLS_AGE_PERIOD_S 0, by decide +kernel⟩, ⟨live.setCls 0 { em := [(5, { pinned := true })] }, by decide⟩⟩

/-- An active device with rill `r` as given. -/
def rillAt (r : Nat) (x : Rill) : State := live.setRill r x

theorem witness_RillWithdrawAndRestore :
    (∃ s : State, s.reachable = true ∧ s.serves .ril = true ∧ s.flag R.RIL_STATUS F.RIL_STATUS_BUSY = false ∧ (s.rill 8).state = .gated) ∧
    (∃ s : State, s.reachable = true ∧ s.serves .ril = true ∧ s.flag R.RIL_STATUS F.RIL_STATUS_BUSY = false ∧ (s.rill 0).state = .inService) ∧
    (∃ s : State, s.reachable = true ∧ s.serves .ril = true ∧ s.flag R.RIL_STATUS F.RIL_STATUS_BUSY = false ∧ (s.rill 8).state = .out) ∧
    (∃ s : State, s.reachable = true ∧ s.serves .ril = true ∧ s.flag R.RIL_STATUS F.RIL_STATUS_BUSY = false ∧ 8 < 9) ∧
    (∃ s : State, s.reachable = true ∧ s.serves .ril = true ∧ s.flag R.RIL_STATUS F.RIL_STATUS_BUSY = true) ∧
    (∃ s : State, s.reachable = true ∧ s.serves .ril = true ∧ s.flag R.RIL_STATUS F.RIL_STATUS_BUSY = false ∧ (s.rill 7).state = .out ∧
      (s.rill 7).katOk = some true ∧ (s.rill 7).entering = none ∧ (s.rill 8).standsFor ≠ some 7) ∧
    (∃ s : State, s.reachable = true ∧ s.serves .ril = true ∧ s.flag R.RIL_STATUS F.RIL_STATUS_BUSY = false ∧ (s.rill 0).state = .faulted) ∧
    (∃ s : State, 0 ≠ 8 ∧ spareFree s 0 = true) :=
  ⟨⟨rillAt 8 { state := .gated }, by decide⟩, ⟨rillAt 0 { state := .inService }, by decide⟩, ⟨live, by decide⟩, ⟨live, by decide⟩,
   ⟨live.setFld R.RIL_STATUS F.RIL_STATUS_BUSY 1, by decide⟩, ⟨rillAt 7 { katOk := some true }, by decide⟩,
   ⟨rillAt 0 { state := .faulted }, by decide⟩, ⟨rillAt 8 { state := .spare }, by decide⟩⟩

theorem witness_RillFaultsAndTests :
    (∃ s : State, (s.rill 0).state = .leaving ∧ rillFrames s 0 = 0) ∧ (∃ s : State, (s.rill 8).entering = some 0 ∧ 0 ≠ 8) ∧
    (∃ s : State, 4 ≠ 8 ∧ (s.rill 4).entering = some 4) ∧
    (∃ s : State, s.flag R.RIL_SPARE F.RIL_SPARE_KAT_EN = true ∧ (s.rill 8).state = .spare ∧ (s.rill 8).entering = none) ∧
    (∃ s : State, s.flag R.RIL_SPARE F.RIL_SPARE_KAT_EN = true ∧ (s.rill 0).state = .out ∧ (s.rill 0).entering = none) ∧
    (∃ s : State, (s.rill 8).katRun = some (.spare, true)) ∧ (∃ s : State, (s.rill 0).katRun = some (.out, false)) ∧
    (∃ s : State, (s.rill 8).state = .waking) :=
  ⟨⟨rillAt 0 { state := .leaving }, by decide⟩, ⟨rillAt 8 { entering := some 0 }, by decide⟩, ⟨rillAt 4 { entering := some 4 }, by decide⟩,
   ⟨(rillAt 8 { state := .spare }).setFld R.RIL_SPARE F.RIL_SPARE_KAT_EN 1, by decide⟩, ⟨live.setFld R.RIL_SPARE F.RIL_SPARE_KAT_EN 1, by decide⟩,
   ⟨rillAt 8 { state := .test, katRun := some (.spare, true) }, by decide⟩, ⟨rillAt 0 { state := .test, katRun := some (.out, false) }, by decide⟩, ⟨rillAt 8 { state := .waking }, by decide⟩⟩

/-- A staged IPv4 entry: FAMILY 4, HOPS 1. -/
def tepStaged : State := live.setReg (R.TEP_DATA_n 0) 0x01000004

theorem witness_TunnelEndpoints :
    (∃ s : State, s.reachable = true ∧ s.serves .ril = true ∧ s.flag R.TEP_STATUS F.TEP_STATUS_BUSY = false ∧
      tepOk (s.winBytes (R.TEP_DATA_n 0) 16) = true ∧ allZero (s.winBytes (R.TEP_DATA_n 0) 16) = false) ∧
    (∃ s : State, s.reachable = true ∧ s.serves .ril = true ∧ s.flag R.TEP_STATUS F.TEP_STATUS_BUSY = false ∧
      tepOk (s.winBytes (R.TEP_DATA_n 0) 16) = true ∧ allZero (s.winBytes (R.TEP_DATA_n 0) 16) = true) ∧
    (∃ s : State, s.reachable = true ∧ s.serves .ril = true ∧ s.flag R.TEP_STATUS F.TEP_STATUS_BUSY = false ∧
      tepOk (s.winBytes (R.TEP_DATA_n 0) 16) = false) ∧
    (∃ s : State, s.reachable = true ∧ s.serves .ril = true ∧ s.flag R.TEP_STATUS F.TEP_STATUS_BUSY = true) ∧
    (∃ s : State, tepWaits s 4095 = false) ∧ (∃ s : State, tepWaits s 0 = true) :=
  ⟨⟨tepStaged, by decide +kernel⟩, ⟨live, by decide +kernel⟩, ⟨live.setReg (R.TEP_DATA_n 0) 0x00000004, by decide +kernel⟩,
   ⟨live.setFld R.TEP_STATUS F.TEP_STATUS_BUSY 1, by decide⟩, ⟨live, by decide⟩,
   ⟨{ live with jobs := [(1, { stage := .dispatched, action := 2 })] }, by decide⟩⟩

/-- An active device with queue entry 1 as given, of frame 1, which has `n` bytes and is complete. -/
def entryAt (x : Job) (n : Nat) : State :=
  { live with jobs := [(1, x)], frames := [(1, { bytes := List.replicate n 1, complete := true, copies := 1 })], rills := [(4, { state := .inService, inbound := true })] }

theorem witness_AdmissionAndScheduler :
    (∃ s : State, (s.job 1).stage = .classified ∧ toSlice s (s.job 1) = (none, s.job 1)) ∧
    (∃ s : State, (s.job 1).stage = .classified ∧ toSlice s (s.job 1) = (some 63, { s.job 1 with egress := 32, sub := 8191 }) ∧
      (kget {} s.slices 63).state = .active) ∧
    (∃ s : State, contextsClaimed s true + 6 ≤ 8192) ∧ (∃ s : State, 8192 ≤ contextsClaimed s false) ∧
    (∃ s : State, s.reachable = true ∧ s.serves .sch = true ∧ blockOf (entryAddr .sub 8191 + 12) = .sch ∧
      blockOf (entryAddr .svc 1023 + 12) = .sch ∧ blockOf (entryAddr .port 33 + 12) = .sch) :=
  ⟨⟨entryAt { stage := .classified, frame := 1 } 64, by decide +kernel⟩,
   ⟨{ (entryAt { stage := .classified, frame := 1, action := 3, assoc := 16383 } 64).setFld R.HIF_CFG F.HIF_CFG_SLICES_EN 1 with
      slices := [(63, { state := .active })] }, by decide +kernel⟩, ⟨live, by decide +kernel⟩,
   ⟨{ live with jobs := List.replicate 8192 (1, { stage := .dispatched, egress := 16 }) }, by decide +kernel⟩, ⟨live, by decide +kernel⟩⟩

theorem witness_DispatchAndTags :
    (∃ s : State, (s.job 1).stage = .selected ∧ nodeOpen s (s.job 1).egress = true ∧ (s.job 1).usesAssoc = none ∧ (s.job 1).action ≠ 2 ∧
      tepHeld s (s.job 1) = false ∧ contextsUsed s (inboundTo (s.job 1).egress) < 8192 ∧ chooseRill s (inboundTo (s.job 1).egress) = some 4) ∧
    (∃ s : State, (s.job 1).stage = .selected ∧ nodeOpen s (s.job 1).egress = true ∧ tepHeld s (s.job 1) = false ∧ (s.job 1).action = 2 ∧
      (s.assoc false (s.job 1).assoc).valid = false ∧ contextsUsed s (inboundTo (s.job 1).egress) < 8192 ∧
      chooseRill s (inboundTo (s.job 1).egress) = some 4) ∧
    (∃ s : State, (s.job 1).stage = .selected ∧ nodeOpen s (s.job 1).egress = true ∧ (s.job 1).action = 2 ∧ tepHeld s (s.job 1) = false ∧
      (s.assoc false (s.job 1).assoc).valid = true ∧
      espDrops s (s.assoc false (s.job 1).assoc).record (s.job 1).egress (s.frame (s.job 1).frame).bytes = true) ∧
    (∃ s : State, (s.job 1).stage = .selected ∧ nodeOpen s (s.job 1).egress = true ∧ tepHeld s (s.job 1) = true) ∧
    (∃ s : State, (s.job 1).stage = .selected ∧ nodeOpen s (s.job 1).egress = true ∧ (s.job 1).action ≠ 2 ∧
      8192 ≤ contextsUsed s (inboundTo (s.job 1).egress)) ∧
    (∃ s : State, (s.job 1).stage = .selected ∧ nodeOpen s (s.job 1).egress = false) ∧
    (∃ s : State, ((s.assoc false 0).slot 1).resReq = some 9 ∧ s.pair.partner = .none) ∧
    (∃ s : State, ((s.assoc false 0).slot 1).resReq = some 9 ∧ s.pair.partner = .ready ∧ ((s.assoc false 0).slot 1).backed < 9) :=
  ⟨⟨entryAt { stage := .selected, frame := 1, egress := 32 } 64, by decide +kernel⟩,
   ⟨entryAt { stage := .selected, frame := 1, egress := 32, action := 2 } 64, by decide +kernel⟩,
   ⟨{ entryAt { stage := .selected, frame := 1, egress := 32, action := 2 } 64 with txAssocs := [(0, { valid := true })] }, by decide +kernel⟩,
   ⟨{ entryAt { stage := .selected, frame := 1, egress := 32, action := 2 } 64 with tepPending := some (0, []) }, by decide +kernel⟩,
   ⟨{ live with jobs := (1, { stage := .selected, egress := 32 }) :: List.replicate 8192 (2, { stage := .dispatched, egress := 32 }) }, by decide +kernel⟩,
   ⟨entryAt { stage := .selected, frame := 1 } 64, by decide +kernel⟩,
   ⟨{ live with txAssocs := [(0, { slot1 := { resReq := some 9 } })] }, by decide⟩,
   ⟨{ live with txAssocs := [(0, { slot1 := { resReq := some 9, backed := 8 } })], pair := { partner := .ready } }, by decide⟩⟩

/-- Client port 0 up with preemption active and class 7 express, its queue entry 1 in hand and, behind it, express entry 2. -/
def preempting : State :=
  let s := ((upPort 1).setFld (aPORT_CFG 0) F.PORT_CFG_PREEMPT_EN 1).setFld (aPORT_CFG 0) F.PORT_CFG_EXPRESS_MASK 128
  { s.setPort 0 { s.port 0 with verify := .active } with
    jobs := [(1, { stage := .dispatched, frame := 1, fed := 4, left := 4, released := 1 }), (2, { stage := .dispatched, frame := 2, cls := 7, tag := 1, fed := 1, left := 1 })] }

theorem witness_BeatsAndMerge :
    (∃ s : State, (s.job 1).stage = .dispatched ∧ (s.job 1).skip = false ∧ (s.job 1).stomp = false ∧ (s.job 1).fed = 0 ∧ (s.job 1).merged = false ∧
      (s.job 1).usesAssoc.isSome = true ∧ (s.job 1).fed < beatsOf (s.frame (s.job 1).frame) ∧ (s.frame (s.job 1).frame).spilled = false ∧
      feedStalled s (s.job 1).rill = false) ∧
    (∃ s : State, (s.job 1).stage = .dispatched ∧ (s.job 1).skip = false ∧ (s.job 1).stomp = false ∧ 0 < (s.job 1).fed ∧
      (s.job 1).fed < beatsOf (s.frame (s.job 1).frame) ∧ (s.frame (s.job 1).frame).spilled = false ∧ feedStalled s (s.job 1).rill = false) ∧
    (∃ s : State, (s.job 1).stage = .dispatched ∧ feedStalled s (s.job 1).rill = true) ∧
    (∃ s : State, (s.job 1).stage = .dispatched ∧ (s.job 1).skip = false ∧ (s.job 1).verdict = none ∧ 0 < (s.job 1).left ∧
      (s.job 1).left + 1 < (s.job 1).fed ∧ exitStalled s (s.job 1) = false) ∧
    (∃ s : State, (s.job 1).stage = .dispatched ∧ (s.job 1).skip = false ∧ (s.job 1).verdict = none ∧ 0 < (s.job 1).fed ∧
      (s.job 1).fed = (s.job 1).left ∧ (s.job 1).stomp = true) ∧
    (∃ s : State, (s.job 1).stage = .dispatched ∧ (s.job 1).completed = false ∧ (s.job 1).skip = true) ∧
    (∃ s : State, mergeHead s 0 = some 1 ∧ (s.job 1).skip = true) ∧
    (∃ s : State, parkedOf s 31 = none ∧ mergeHead s 31 = some 1 ∧ (s.job 1).skip = false ∧ (s.job 1).discard = false ∧ (s.job 1).stage ≠ .lost ∧
      overtaken s 31 (s.job 1) = false ∧ egressOpen s 31 (decide (0 < (s.job 1).released)) = false) ∧
    (∃ s : State, parkedOf s 0 = none ∧ mergeHead s 0 = some 1 ∧ (s.job 1).skip = false ∧ (s.job 1).discard = false ∧ (s.job 1).stage ≠ .lost ∧
      0 < (s.job 1).released ∧ mayCut s 0 (s.job 1) = false ∧ egressOpen s 0 true = true ∧ (s.job 1).released + 1 < (s.job 1).left) ∧
    (∃ s : State, parkedOf s 0 = none ∧ mergeHead s 0 = some 1 ∧ (s.job 1).stage = .dispatched ∧ (s.job 1).skip = false ∧
      mayCut s 0 (s.job 1) = true ∧ overtaken s 0 (s.job 1) = true) ∧
    (∃ s : State, parkedOf s 0 = some 1 ∧ mergeHead s 0 = none) :=
  ⟨⟨entryAt { stage := .dispatched, frame := 1, action := 1 } 64, by decide +kernel⟩,
   ⟨entryAt { stage := .dispatched, frame := 1, fed := 1 } 256, by decide +kernel⟩,
   ⟨entryAt { stage := .dispatched, frame := 1, fed := 112 } 64, by decide +kernel⟩,
   ⟨entryAt { stage := .dispatched, frame := 1, fed := 3, left := 1 } 384, by decide +kernel⟩,
   ⟨entryAt { stage := .dispatched, frame := 1, fed := 3, left := 3, stomp := true } 384, by decide +kernel⟩,
   ⟨entryAt { stage := .dispatched, frame := 1, skip := true } 64, by decide +kernel⟩,
   ⟨entryAt { stage := .dispatched, frame := 1, skip := true } 64, by decide +kernel⟩,
   ⟨entryAt { stage := .dispatched, frame := 1, egress := 31, fed := 3, left := 3, released := 1 } 384, by decide +kernel⟩,
   ⟨{ upPort 1 with jobs := [(1, { stage := .dispatched, frame := 1, fed := 3, left := 3, released := 1 })] }, by decide +kernel⟩,
   ⟨preempting, by decide +kernel⟩, ⟨{ live with jobs := [(1, { stage := .dispatched, released := 1, parked := true })] }, by decide +kernel⟩⟩

theorem witness_SluiceLoops :
    (∃ (s : State) (t : Int), (8 * s.fld R.SLU_THERM F.SLU_THERM_HARD : Int) ≤ t) ∧
    (∃ (s : State) (t : Int) (pw : Nat), t < (8 * s.fld R.SLU_THERM F.SLU_THERM_HARD : Int) ∧ 250 * s.fld R.SLU_BUDGET F.SLU_BUDGET_BUDGET < pw) ∧
    (∃ (s : State) (t : Int), t < (8 * s.fld R.SLU_THERM F.SLU_THERM_HARD : Int) ∧ (8 * s.fld R.SLU_THERM F.SLU_THERM_SOFT : Int) < t) ∧
    (∃ (s : State) (t : Int) (pw : Nat) (u : Sluice), t < (8 * s.fld R.SLU_THERM F.SLU_THERM_HARD : Int) ∧
      pw + 250 * s.fld R.SLU_BUDGET F.SLU_BUDGET_HYST ≤ 250 * s.fld R.SLU_BUDGET F.SLU_BUDGET_BUDGET ∧
      t ≤ (8 * s.fld R.SLU_THERM F.SLU_THERM_SOFT : Int) - 8 * s.fld R.SLU_THERM F.SLU_THERM_T_HYST ∧
      s.fld R.SLU_LOOP F.SLU_LOOP_RELEASE_US = u.quiet + 1) ∧
    (∃ (s : State) (u : Sluice), u.hardOn = true ∧ s.fld R.SLU_LOOP F.SLU_LOOP_HARD_STEP_US = u.sinceFall + 1) ∧
    (∃ (s : State) (t : Int) (u : Sluice), u.hardOn = false ∧
      t ≤ (8 * s.fld R.SLU_THERM F.SLU_THERM_HARD : Int) - 8 * s.fld R.SLU_THERM F.SLU_THERM_T_HYST ∧ 100 = u.sinceRise + 1) ∧
    (∃ s : State, lowestRill s (rillsIn s false .gated) = some 0 ∧
      (rillsIn s false .inService).length + (rillsIn s false .waking).length < rillTarget s false 0) ∧
    (∃ s : State, s.dev.mcUp = false) ∧ (∃ s : State, s.dev.mcUp = true) :=
  ⟨⟨live, 2048, by decide +kernel⟩, ⟨live, 0, 250 * 2 ^ 16, by decide +kernel⟩,
   ⟨live, 8 * live.fld R.SLU_THERM F.SLU_THERM_HARD - 1, by decide +kernel⟩,
   ⟨live, 0, 0, { quiet := live.fld R.SLU_LOOP F.SLU_LOOP_RELEASE_US - 1 }, by decide +kernel⟩,
   ⟨live, { hardOn := true, sinceFall := live.fld R.SLU_LOOP F.SLU_LOOP_HARD_STEP_US - 1 }, by decide +kernel⟩,
   ⟨live, 0, { sinceRise := 99 }, by decide +kernel⟩, ⟨rillAt 0 { state := .gated }, by decide +kernel⟩, ⟨State.reset, by decide⟩, ⟨live, by decide⟩⟩

/-- An active device whose association 0 of direction `rx` is `a`, with the physical function's window on it. -/
def assocAt (rx : Bool) (a : Assoc) : State := (live.setFld (aSaIndex .pf) F.SA_INDEX_DIR (b2n rx)).setAssoc rx 0 a

/-- A valid association with ROOT 1, and the owner key of that handle, which may derive. -/
def rooted (rx : Bool) (a : Assoc) : State :=
  { assocAt rx { a with valid := true, record := { root := 1 } } with owner := [(1, { dest := 0x40, material := [0] })] }

theorem witness_AssociationInstallAndRemove :
    (SaOpen live .pf false 0 ∧ poolDenied live .pf 0 = false ∧ (live.assoc false 0).valid = false ∧ (live.assoc false 0).draining = false ∧
      sliceDenies live .pf false (assocRecOf (windowRecord live .pf)) = false ∧ recordOk live false (windowRecord live .pf) = true ∧
      (!false && duplicateSc live 0 (assocRecOf (windowRecord live .pf))) = false) ∧
    (∃ s : State, SaOpen s .pf true 0 ∧ poolDenied s .pf 0 = false ∧ (s.assoc true 0).valid = true) ∧
    (∃ s : State, SaOpen s .pf false 0 ∧ poolDenied s .pf 0 = false ∧ (s.assoc false 0).valid = false ∧ (s.assoc false 0).draining = true) ∧
    (∃ s : State, SaOpen s .pf false 16383 ∧ (sliceOfAssoc s 16383).isSome = true) ∧
    (∃ s : State, SaOpen s (.vf 63) false 16383) ∧
    (∃ s : State, (s.assoc true 0).draining = true ∧ assocBusy s true 0 = false) :=
  ⟨by unfold SaOpen; decide +kernel, ⟨assocAt true { valid := true }, by unfold SaOpen; decide +kernel⟩,
   ⟨assocAt false { draining := true }, by unfold SaOpen; decide +kernel⟩,
   ⟨(live.setFld R.HIF_CFG F.HIF_CFG_SLICES_EN 1).setFld (aSaIndex .pf) F.SA_INDEX_INDEX 16383, by unfold SaOpen; decide +kernel⟩,
   ⟨{ (live.setFld R.HIF_CFG F.HIF_CFG_SLICES_EN 1).setFld (aSaIndex (.vf 63)) F.SA_INDEX_INDEX 63 with slices := [(63, { state := .active })] },
    by unfold SaOpen; decide +kernel⟩, ⟨assocAt true { draining := true }, by decide⟩⟩

theorem witness_AssociationCommands :
    (∃ s : State, SaOpen s .pf true 0 ∧ (s.assoc true 0).valid = true) ∧
    (∃ s t : State, SaOpen s .pf true 0 ∧ (s.assoc true 0).valid = true ∧ poolDenied s .pf 0 = false ∧ s.dev.state ≠ .standby ∧
      derive s true 0 (beAt (s.winBytes (aSaData .pf) 3) 0 4) (beAt (s.winBytes (aSaData .pf) 3) 4 1) (beAt (s.winBytes (aSaData .pf) 3) 8 4)
        (some .pf) false = .ok t) ∧
    (∃ s : State, SaOpen s .pf false 0 ∧ (s.assoc false 0).valid = true ∧ (s.assoc false 0).ready = some 1) ∧
    (∃ s : State, SaOpen s .pf false 0 ∧ (s.assoc false 0).valid = true ∧ (s.assoc false 0).record.trig = 2 ∧
      (s.reg R.TIM_TIA).getLsbD (s.assoc false 0).record.comparator = true ∧ beAt (s.winBytes (aSaData .pf) 3) 6 4 < 1000000000 ∧
      ∀ e ∈ s.txAssocs, e.1 ≠ 0 → e.2.armed.isSome = true → e.2.record.comparator ≠ (s.assoc false 0).record.comparator) ∧
    (∃ s : State, SaOpen s .pf true 0 ∧ (s.assoc true 0).valid = true ∧ (s.assoc true 0).slot0.state ≠ .empty ∧ (s.assoc true 0).slot1.state ≠ .empty) ∧
    (∃ s : State, SaOpen s .pf false 0 ∧ (s.assoc false 0).valid = true ∧ sliceDenies s .pf false (assocRecOf (windowRecord s .pf)) = false ∧
      recordOk s false (windowRecord s .pf) = true ∧
      modifiable (s.assoc false 0).record (assocRecOf (windowRecord s .pf)) = assocRecOf (windowRecord s .pf)) ∧
    (∃ s : State, s.reachable = true ∧ s.serves (blockOf (aSaCmd .pf)) = true ∧ s.flag (aSaStatus .pf) F.SA_STATUS_BUSY = true) :=
  ⟨⟨assocAt true { valid := true }, by unfold SaOpen; decide +kernel⟩,
   ⟨rooted true {}, _, by unfold SaOpen; decide +kernel, by decide +kernel, by decide +kernel, by decide +kernel, rfl⟩,
   ⟨assocAt false { valid := true, slot1 := { state := .ready } }, by unfold SaOpen; decide +kernel⟩,
   ⟨(assocAt false { valid := true, record := { sw := 2, comparator := 31 } }).setReg R.TIM_TIA 0x80000000, by unfold SaOpen; decide +kernel⟩,
   ⟨assocAt true { valid := true, slot0 := { state := .accept }, slot1 := { state := .probation } }, by unfold SaOpen; decide +kernel⟩,
   ⟨assocAt false { valid := true }, by unfold SaOpen; decide +kernel⟩,
   ⟨live.setFld (aSaStatus .pf) F.SA_STATUS_BUSY 1, by decide +kernel⟩⟩

theorem witness_SlotEvents :
    (∃ s : State, ((s.assoc true 0).slot 1).state = .loading) ∧
    (∃ s : State, ((s.assoc false 0).slot 1).state = .loading ∧ s.dev.mcUp = true ∧ s.pair.partner ≠ .ready ∧ s.pair.partner ≠ .lost) ∧
    (∃ s : State, ((s.assoc false 0).slot 1).state = .loading ∧ s.dev.mcUp = true ∧ s.pair.partner = .ready) ∧
    (∃ s : State, ((s.assoc false 0).slot 1).state = .draining ∧ ((s.assoc false 0).slot 1).inFlight = 0) ∧
    (∃ s : State, (s.assoc false 0).retryDue = true) ∧ (∃ s : State, (s.assoc true 0).retiring = some 1) ∧
    (∃ s : State, ((s.assoc true 0).slot 1).state = .probation ∧ ((s.assoc true 0).slot 1).candidate = false ∧
      rootKey s (s.assoc true 0).record.root = .ok [0]) ∧
    (∃ s : State, ((s.assoc true 0).slot 1).state = .probation ∧ ((s.assoc true 0).slot 1).candidate = false ∧
      rootKey s (s.assoc true 0).record.root = .error .invalid) ∧
    (∃ h, loadGen live false {} 0 0 1 = .ok h) :=
  ⟨⟨assocAt true { slot1 := { state := .loading } }, by decide⟩, ⟨assocAt false { slot1 := { state := .loading } }, by decide⟩,
   ⟨{ assocAt false { slot1 := { state := .loading } } with pair := { partner := .ready } }, by decide⟩,
   ⟨assocAt false { slot1 := { state := .draining } }, by decide⟩, ⟨assocAt false { retryDue := true }, by decide⟩,
   ⟨assocAt true { retiring := some 1 }, by decide⟩,
   ⟨rooted true { slot1 := { state := .probation } }, by decide +kernel, by decide +kernel, rfl⟩,
   ⟨assocAt true { slot1 := { state := .probation } }, by decide +kernel, by decide +kernel, rfl⟩, ⟨1, rfl⟩⟩

/-- A ready cistern with region 0 of owner 1 in state `r` under its key ID 0. -/
def wellKept (r : RegionState) : Cistern :=
  { state := 1, keyIds := [(0, { state := .active, owner := 1 })], regions := [(0, { state := r, owner := 1 })] }

/-- An active device with frame 1 queued behind frame 2, and nothing kept back from the cistern. -/
def spillAt (r : RegionState) : State :=
  { (live.setFld R.CIS_CFG F.CIS_CFG_PREFETCH_KIB 0).setFld R.CIS_CFG F.CIS_CFG_SPILL_HI 0 with
    cistern := wellKept r
    frames := [(1, { bytes := [1], complete := true }), (2, { bytes := [1], complete := true })]
    jobs := [(1, { stage := .queued, frame := 1, order := 1 }), (2, { stage := .queued, frame := 2 })] }

/-- An active device with frame 1 as given, its one queue entry at stage `g`. -/
def spilledAt (f : Frame) (g : Stage) : State := { live with frames := [(1, f)], jobs := [(1, { stage := g, frame := 1 })] }

theorem witness_CisternSpillAndFetch :
    (∃ s : State, maySpill s 1 = true ∧ allocCells s (frameOwner s (s.frame 1)) 1 (cisternCells (s.frame 1)) = none) ∧
    (∃ (s t : State) (cells : List Nat), maySpill s 1 = true ∧
      allocCells s (frameOwner s (s.frame 1)) 1 (cisternCells (s.frame 1)) = some (cells, t)) ∧
    (∃ s : State, (s.frame 1).cells ≠ [] ∧ (s.frame 1).spilled = false ∧ s.cistern.state = 1 ∧ ∀ x ∈ jobsOf s 1, x.stage = .queued) ∧
    (∃ s : State, (s.frame 1).cells ≠ [] ∧ (s.frame 1).spilled = false ∧ s.cistern.state ≠ 1) ∧
    (∃ s : State, (s.frame 1).cells ≠ [] ∧ (s.frame 1).spilled = false ∧ ∃ x ∈ jobsOf s 1, x.stage ≠ .queued) ∧
    (∃ s : State, fetchDue s 1 = true ∧ (s.frame 1).quarantined = false) ∧ (∃ s : State, fetchDue s 1 = true ∧ (s.frame 1).quarantined = true) ∧
    (∃ s : State, s.fld R.CIS_ROT F.CIS_ROT_MAX_AGE_MS < (s.frame 1).spillTime) ∧
    (∃ l : List Byte, l.length = 64) ∧ (∃ c : Cistern, (c.counter 3 0).2 ≤ 127) :=
  ⟨⟨spillAt .draining, by decide +kernel, rfl⟩, ⟨spillAt .active, _, _, by decide +kernel, rfl⟩,
   ⟨{ spilledAt { cells := [0] } .queued with cistern := { state := 1 } }, by decide +kernel⟩, ⟨spilledAt { cells := [0] } .queued, by decide +kernel⟩, ⟨spilledAt { cells := [0] } .selected, by decide +kernel⟩,
   ⟨spilledAt { spilled := true } .queued, by decide +kernel⟩, ⟨spilledAt { spilled := true, quarantined := true } .queued, by decide +kernel⟩,
   ⟨spilledAt { spillTime := 65536 } .queued, by decide +kernel⟩, ⟨List.replicate 64 0, by decide⟩, ⟨{ minor := [(3 * 2 ^ 32, 127)] }, by decide +kernel⟩⟩

theorem witness_CisternKeysAndRegions :
    (∃ s : State, s.reachable = true ∧ s.serves .cis = true ∧ s.flag R.CIS_STATUS F.CIS_STATUS_BUSY = false ∧ s.cistern.state ≠ 2 ∧
      regionsOf s.cistern 1 ≠ [] ∧ regionsOf s.cistern 6 = []) ∧
    (∃ s : State, s.reachable = true ∧ s.serves .cis = true ∧ s.flag R.CIS_STATUS F.CIS_STATUS_BUSY = false ∧ s.cistern.state ≠ 2 ∧
      regionsOf s.cistern 6 ≠ []) ∧
    (∃ s : State, s.reachable = true ∧ s.serves .cis = true ∧ s.flag R.CIS_STATUS F.CIS_STATUS_BUSY = false ∧ s.cistern.state = 2) ∧
    (∃ s : State, s.reachable = true ∧ s.serves .cis = true ∧ s.flag R.CIS_STATUS F.CIS_STATUS_BUSY = true) ∧
    (∃ s : State, s.fld R.CIS_ROT F.CIS_ROT_ROT_H ≠ 0 ∧ s.cistern.state = 1 ∧ regionsOf s.cistern 1 ≠ []) ∧
    (∃ s : State, (kget {} s.cistern.keyIds 63).state = .retiring ∧ soundCells s.cistern 63 = 0) ∧
    (∃ c : Cistern, (kget {} c.regions 0).state = .draining ∧ regionCells c 0 = 0 ∧ currentId c (kget {} c.regions 0).owner = some 0) :=
  ⟨⟨{ live with cistern := wellKept .active }, by decide +kernel⟩,
   ⟨{ live with cistern := { regions := [(0, { owner := 6 })] } }, by decide +kernel⟩,
   ⟨{ live with cistern := { state := 2 } }, by decide +kernel⟩, ⟨live.setFld R.CIS_STATUS F.CIS_STATUS_BUSY 1, by decide +kernel⟩,
   ⟨{ live with cistern := wellKept .active }, by decide +kernel⟩,
   ⟨{ live with cistern := { keyIds := [(63, { state := .retiring })] } }, by decide +kernel⟩, ⟨wellKept .draining, by decide +kernel⟩⟩

theorem witness_CisternErrorsAndRepair :
    (∃ s : State, s.cistern.dirty.contains (unitKey 3 0) = true) ∧
    (∃ s : State, s.cistern.state = 1 ∧ 469762047 < 469762048 ∧ s.flag R.CIS_STATUS F.CIS_STATUS_BUSY = true) ∧
    (∃ s : State, s.cistern.state = 1 ∧ kget 0 s.cistern.failedRows 1 = 63) ∧ (∃ s : State, s.cistern.state = 1 ∧ kget 0 s.cistern.failedRows 1 = 64) ∧
    (∃ s : State, s.cistern.state ≠ 1) :=
  ⟨⟨{ live with cistern := { dirty := [unitKey 3 0] } }, by decide +kernel⟩,
   ⟨{ live.setFld R.CIS_STATUS F.CIS_STATUS_BUSY 1 with cistern := { state := 1 } }, by decide +kernel⟩,
   ⟨{ live with cistern := { state := 1, failedRows := [(1, 63)] } }, by decide⟩, ⟨{ live with cistern := { state := 1, failedRows := [(1, 64)] } }, by decide⟩,
   ⟨live, by decide⟩⟩

/-- An active device whose lane 0, of client port 0, is as given. -/
def laneAt (x : Lane) : State := (upPort 1).setLane 0 x

/-- Spare 16 of the client side, steered to receive for lane 0. -/
def steeredTo : State := (laneAt { locked := true }).setSpare 16 { rx := .steered 0 }

/-- An active device with trunk 0 of two lanes from line lane 0 on. -/
def trunkPlan : State :=
  ((live.setFld (R.CAS_CFG 0) F.CAS_CFG_ENABLE 1).setFld (R.CAS_CFG 0) F.CAS_CFG_WIDTH 2).setFld (R.CAS_CFG 0) F.CAS_CFG_FIRST_LANE 0

theorem witness_LaneEvents :
    (∃ s : State, assigned s 0 = true ∧ (s.lane 0).locked = false ∧ (∀ c ∈ (s.lane 0).conditions, c = 7) ∧ (s.lane 0).conditions ≠ [] ∧
      (∀ k ∈ sparesOf 0, (s.spare k).rx ≠ .steered 0) ∧ foundLane s 0 0 [] = some 0) ∧
    (∃ s : State, assigned s 0 = true ∧ (sparesOf 0).find? (fun k => (s.spare k).rx = .steered 0) = some 16 ∧ foundLane s 0 0 [] = some 0 ∧
      plannedLane s 0 0 = 0) ∧
    (∃ s : State, carrierOf s 0 = some 0) ∧
    (∃ s : State, carrierOf s 19 = some (64 + 0) ∧ s.fld (R.CAS_CFG 0) F.CAS_CFG_WIDTH = 2 ∧ foundLane s 19 0 [] = none) ∧
    (∃ s : State, assigned s 0 = true ∧ (s.lane 0).locked = false ∧ (s.lane 0).conditions = []) ∧
    (∃ s : State, assigned s 0 = true ∧ carriedRx s 0 = none ∧ carriedTx s 0 = none) ∧
    (∃ s : State, laneState s 0 = .up) ∧ (∃ s : State, (s.spare 35).rx = .carrying 18) ∧
    (∃ s : State, (s.lane 35).conditions = []) ∧ (∃ s : State, (s.lane 35).conditions ≠ []) ∧
    (∃ s : State, (s.lane 0).conditions ≠ [] ∧ replacedBy s 0 = none) ∧ (35 < 36 ∧ 16 ≤ 35 % 18 ∧ 16 ≤ 16 % 18) :=
  ⟨⟨laneAt { conditions := [7] }, by decide +kernel⟩, ⟨steeredTo, by decide +kernel⟩, ⟨upPort 1, by decide +kernel⟩, ⟨trunkPlan, by decide +kernel⟩,
   ⟨laneAt {}, by decide +kernel⟩, ⟨laneAt {}, by decide +kernel⟩, ⟨upPort 1, by decide +kernel⟩, ⟨live.setSpare 35 { rx := .carrying 18 }, by decide⟩,
   ⟨live, by decide⟩, ⟨live.setLane 35 { conditions := [4] }, by decide⟩, ⟨laneAt { conditions := [4] }, by decide +kernel⟩, by decide⟩

/-- A coordinated client side whose spare 16 receives as given. -/
def steerAt (r : SpareRx) : State := (live.setFld (aSPARE_CFG 0) F.SPARE_CFG_MODE 1).setSpare 16 { rx := r }

theorem steerAt_tx (m : Nat) (q : Bool) : ((steerAt (.moveSeen 15 1)).spare m).tx ≠ .asking 15 q := by
  show (kget {} (kset {} live.spares 16 { rx := .moveSeen 15 1 }) m).tx ≠ _
  rw [kget_kset]
  split <;> exact fun h => SpareTx.noConfusion h

/-- A coordinated client side with a port of lane 0 and the spare 17 idle in the pool. -/
def answering : State :=
  (((upPort 1).setFld (aSPARE_CFG 0) F.SPARE_CFG_MODE 1).setFld (aSPARE_CFG 0) F.SPARE_CFG_POOL_17 1).setFld (aLANE_CFG 17) F.LANE_CFG_RATE 1

theorem witness_SteeringExchange :
    (spareMode live (sideOf 16) ≠ 1) ∧
    (spareMode (steerAt .idle) (sideOf 16) = 1 ∧ steerGood [] = false ∧ ((steerAt (.moveSeen 15 1)).spare 16).rx = .moveSeen 15 1) ∧
    (∀ l q, ((steerAt .idle).spare 16).rx ≠ .moveSeen l q) ∧
    (steerGood (steerBlock 0 0 16 1 0) = true ∧ beAt (steerBlock 0 0 16 1 0) 4 1 = 0) ∧
    (steerGood (steerBlock 1 15 16 1 0) = true ∧ beAt (steerBlock 1 15 16 1 0) 4 1 = 1 ∧ beAt (steerBlock 1 15 16 1 0) 5 1 < 16 ∧
      carrierOf (steerAt .idle) 15 = none) ∧
    ((carrierOf answering 0).isSome = true ∧ spareWith answering 0 (fun x => x.tx = .bridging 0 || x.tx = .carrying 0) = none ∧
      freeSpare answering 0 false = some 17) ∧
    (steerGood (steerBlock 2 15 16 1 0) = true ∧ beAt (steerBlock 2 15 16 1 0) 4 1 = 2 ∧ beAt (steerBlock 2 15 16 1 0) 5 1 < 16 ∧
      ((steerAt .idle).spare 16).rx = .idle) ∧
    (steerGood (steerBlock 4 15 16 1 0) = true ∧ beAt (steerBlock 4 15 16 1 0) 4 1 = 4 ∧ beAt (steerBlock 4 15 16 1 0) 5 1 < 16) ∧
    (steerGood (steerBlock 3 15 16 1 9) = true ∧ beAt (steerBlock 3 15 16 1 9) 4 1 = 3 ∧ beAt (steerBlock 3 15 16 1 9) 5 1 < 16 ∧
      ((steerAt (.moveSeen 15 1)).spare 16).rx = .moveSeen 15 (beAt (steerBlock 3 15 16 1 9) 7 1)) ∧
    (∀ m q, ((steerAt (.moveSeen 15 1)).spare m).tx ≠ .asking 15 q) ∧
    (∃ s : State, (s.spare 16).rx = .synced 15 9 ∧ ((s.lane 15).got / 32 + 2 ^ 32 - 9 % 2 ^ 32) % 2 ^ 32 < 2 ^ 31) ∧
    (∃ s : State, (s.spare 16).rx = .synced 15 9 ∧ 2 ^ 31 ≤ ((s.lane 15).got / 32 + 2 ^ 32 - 9 % 2 ^ 32) % 2 ^ 32) ∧
    (∃ s : State, (s.spare 35).tx = .asking 18 true ∧ spareWith s 1 (fun x => x.rx.awaits 18) = some 34) :=
  ⟨by decide +kernel, by decide +kernel, fun _ _ h => SpareRx.noConfusion h, by decide +kernel, by decide +kernel, by decide +kernel, by decide +kernel,
   by decide +kernel, by decide +kernel, steerAt_tx, ⟨(steerAt (.synced 15 9)).setLane 15 { got := 288 }, by decide +kernel⟩,
   ⟨steerAt (.synced 15 9), by decide +kernel⟩, ⟨(live.setSpare 35 { tx := .asking 18 true }).setSpare 34 { rx := .synced 18 0 }, by decide +kernel⟩⟩

/-- A commanded client side with the spare 16 in the pool and a port of lane 0, both of one rate. -/
def commanded : State :=
  (((upPort 1).setFld (aSPARE_CFG 0) F.SPARE_CFG_MODE 2).setFld (aSPARE_CFG 0) F.SPARE_CFG_POOL_16 1).setFld (aLANE_CFG 16) F.LANE_CFG_RATE 1

theorem witness_SpareCommands :
    (commanded.reachable = true ∧ commanded.serves (blockOf (aSPARE_CMD 0)) = true ∧ kget none commanded.releasing 0 = none ∧
      steerCheck commanded 0 (spareLane 0 (0 % 2)) (18 * 0 + 0 % 16) true true = .ok) ∧
    (spareMode live 1 ≠ 2) ∧ (spareMode commanded 0 = 2 ∧ inPool commanded 17 = false) ∧
    (∃ s : State, spareMode s 0 = 2 ∧ inPool s 16 = true ∧ spareOpen s 16 0 true true = false) ∧
    (inPool commanded 16 = true ∧ spareOpen commanded 16 15 true true = true ∧ carrierOf commanded 15 = none) ∧
    (spareOpen commanded 16 0 true true = true ∧ (carrierOf commanded 0).isSome = true ∧ sameRate commanded 16 0 = true) ∧
    ((commanded.spare 16).tx = .idle ∧ (commanded.spare 16).rx = .idle) ∧
    (∃ s : State, s.reachable = true ∧ s.serves (blockOf (aSPARE_CMD 1)) = true ∧ kget none s.releasing 1 = some (34, 18)) :=
  ⟨by decide +kernel, by decide +kernel, by decide +kernel, ⟨commanded.setSpare 16 { tx := .carrying 0 }, by decide +kernel⟩, by decide +kernel,
   by decide +kernel, by decide +kernel, ⟨{ live with releasing := [(1, some (34, 18))] }, by decide +kernel⟩⟩

/-- An active device whose port `p` is at place `x` of its sleep cycle. -/
def sleeping (p : Nat) (x : Sleep) : State := live.setPort p { sleep := x }

theorem witness_PortCommandsAndSleep :
    (∃ s : State, s.reachable = true ∧ s.serves (blockOf (aPORT_CTRL 31)) = true ∧ s.flag (aPORT_CFG 31) F.PORT_CFG_SLEEP_OK = true ∧
      (s.port 31).sleep = .awake) ∧
    (∃ s : State, s.reachable = true ∧ s.serves (blockOf (aPORT_CTRL 0)) = true ∧ s.flag (aPORT_CFG 0) F.PORT_CFG_SLEEP_OK = false) ∧
    (∃ s : State, (s.port 31).sleep = .entering ∧ inFlightTo s 31 = false) ∧
    (∃ s : State, s.reachable = true ∧ s.serves (blockOf (aPORT_CTRL 31)) = true ∧ (s.port 31).sleep = .asleep ∧
      ∀ i, i < 4 → wakeMatch s 31 i [] = false) ∧
    (∃ s : State, (s.port 0).sleep = .asleep ∧ (List.range 4).find? (fun i => wakeMatch s 0 i [1]) = some 0) ∧
    (∃ s : State, (s.port 31).sleep = .asleep ∧ s.flag (aWAKE_CTRL 31) F.WAKE_CTRL_LINK = true ∧ (s.port 31).aligned ≠ true) ∧
    (∃ s : State, (s.port 31).sleep = .asleep ∧ s.flag (aWAKE_CTRL 31) F.WAKE_CTRL_LINK = true ∧ (s.port 31).rf = true) ∧
    (∃ s : State, (s.port 31).sleep = .asleep ∧ s.flag (aWAKE_CTRL 31) F.WAKE_CTRL_LINK = false) ∧
    (∃ s : State, (s.port 31).sleep = .waking) ∧ (∃ s : State, s.flag (aPORT_CFG 31) F.PORT_CFG_PREEMPT_EN = true) ∧
    (∃ s k : State, portUp s 0 = true ∧ portUp k 0 = false) :=
  ⟨⟨live.setFld (aPORT_CFG 31) F.PORT_CFG_SLEEP_OK 1, by decide +kernel⟩, ⟨live, by decide +kernel⟩, ⟨sleeping 31 .entering, by decide +kernel⟩,
   ⟨sleeping 31 .asleep, by decide +kernel⟩,
   ⟨(((sleeping 0 .asleep).setFld (aWAKE_CTRL 0) ⟨0, 1⟩ 1).setReg (portBase 0 + 0x400) 1).setReg (portBase 0 + 0x440) 1, by decide +kernel⟩,
   ⟨(sleeping 31 .asleep).setFld (aWAKE_CTRL 31) F.WAKE_CTRL_LINK 1, by decide +kernel⟩,
   ⟨(live.setPort 31 { sleep := .asleep, rf := true }).setFld (aWAKE_CTRL 31) F.WAKE_CTRL_LINK 1, by decide +kernel⟩, ⟨sleeping 31 .asleep, by decide +kernel⟩, ⟨sleeping 31 .waking, by decide⟩,
   ⟨live.setFld (aPORT_CFG 31) F.PORT_CFG_PREEMPT_EN 1, by decide +kernel⟩, ⟨upPort 1, live, by decide +kernel⟩⟩

/-- An active device with trunk 0 enabled, in state `x`, whose MASTER is the owner key 1. -/
def trunkAt (x : Trunk) : State :=
  { ((live.setFld (R.CAS_CFG 0) F.CAS_CFG_ENABLE 1).setReg (R.CAS_MASTER 0) 1).setTrunk 0 x with owner := [(1, { dest := 4, material := [0] })] }

/-- A whole Cascade frame of zeros, but for the byte that ends its alignment word's place. -/
def casFrame : List Byte := List.replicate 16384 0

theorem witness_CascadeFrames :
    (∃ s : State, trunkSends s 0 = true ∧ trunkLive s 0 = true ∧ (s.trunk 0).running = true) ∧
    (∃ s : State, trunkSends s 0 = true ∧ trunkLive s 0 = true ∧ (s.trunk 0).running = false) ∧
    (∃ s : State, trunkSends s 0 = true ∧ trunkLive s 0 = false) ∧ (trunkSends live 3 = false) ∧
    (∃ x : Trunk, x.chunk = 0 ∧ x.coders[1]? = some { scr := 0 }) ∧ (∃ x : Trunk, x.chunk ≠ 0 ∧ x.chunk % x.coders.length = 1 ∧ x.coders[1]? = some { scr := 0 }) ∧
    (∃ a : List (BitVec 10), a.length = 257) ∧
    (casFrame.length = 16384 ∧ ∃ s : State, trunkLive s 0 = true ∧ (s.trunk 0).deskewed = true ∧ (s.trunk 0).fa = 0) ∧
    (∃ s : State, trunkLive s 0 = true ∧ (s.trunk 0).deskewed = true ∧ (s.trunk 0).fa = 1) ∧
    (∃ s : State, trunkLive s 0 = true ∧ (s.trunk 0).deskewed = true ∧ (s.trunk 0).fa = 2) ∧
    (∃ s : State, (s.trunk 0).pendingKey = some 7 ∧ masterKey s 0 = some [0]) ∧
    (∃ s : State, beAt casFrame 16 4 < epochFloor s 0) ∧
    (∃ s : State, epochFloor s 0 ≤ beAt casFrame 16 4 ∧ heldKey (s.trunk 0) (beAt casFrame 16 4) = none) ∧
    (∃ s : State, epochFloor s 0 ≤ beAt casFrame 16 4 ∧ heldKey (s.trunk 0) (beAt casFrame 16 4) = some [0] ∧
      (s.trunk 0).rxAny = true ∧ (s.trunk 0).rxEpoch = beAt casFrame 16 4 ∧ beAt casFrame 8 8 ≤ (s.trunk 0).rxFc) :=
  ⟨⟨trunkAt { running := true }, by decide +kernel⟩, ⟨trunkAt {}, by decide +kernel⟩,
   ⟨{ trunkAt {} with dev := { live.dev with state := .standby } }, by decide +kernel⟩, by decide +kernel, ⟨{ coders := [{ scr := 0 }, { scr := 0 }] }, by decide⟩,
   ⟨{ chunk := 3, coders := [{ scr := 0 }, { scr := 0 }] }, by decide⟩, ⟨List.replicate 257 0, List.length_replicate⟩, ⟨List.length_replicate, trunkAt { deskewed := true }, by decide +kernel⟩,
   ⟨trunkAt { deskewed := true, fa := 1 }, by decide +kernel⟩, ⟨trunkAt { deskewed := true, fa := 2 }, by decide +kernel⟩,
   ⟨trunkAt { pendingKey := some 7 }, by decide +kernel⟩, ⟨trunkAt { rxAny := true, rxEpoch := 1 }, by decide +kernel⟩,
   ⟨trunkAt {}, by decide +kernel⟩, ⟨trunkAt { rxAny := true, rxKeys := [(0, [0])] }, by decide +kernel⟩⟩

theorem witness_CascadeEpochs :
    (∃ s : State, s.reachable = true ∧ s.serves (blockOf (R.CAS_CMD 0)) = true ∧ s.flag (R.CAS_CFG 0) F.CAS_CFG_ENABLE = true ∧
      (s.trunk 0).asked = none ∧ (s.trunk 0).nextEpoch = 0) ∧
    (∃ s : State, s.reachable = true ∧ s.serves (blockOf (R.CAS_CMD 0)) = true ∧ s.flag (R.CAS_CFG 0) F.CAS_CFG_ENABLE = true ∧
      (s.trunk 0).nextEpoch ≠ 0) ∧
    (∃ s : State, s.reg (R.CAS_EPER 3) ≠ 0) ∧ (∃ s u : State, askEpoch s 0 = some u) ∧
    (∃ s : State, (s.trunk 0).asked = some 1 ∧ s.dev.mcUp = true ∧ s.pair.partner = .none ∧
      masterKey (journalGen (s.free 65536).2 (s.free 65536).1 (masterHandle (s.free 65536).2 0) (txTag (s.free 65536).2 0) 1) 0 = some [0]) ∧
    (∃ s : State, (s.trunk 0).asked ≠ none ∧ s.pair.partner = .lost) ∧ (∃ s : State, (s.trunk 0).retryDue = true) :=
  ⟨⟨trunkAt {}, by decide +kernel⟩, ⟨trunkAt { nextEpoch := 2 }, by decide +kernel⟩, ⟨live.setReg (R.CAS_EPER 3) 1, by decide +kernel⟩,
   ⟨trunkAt {}, _, rfl⟩, ⟨trunkAt { asked := some 1 }, by decide +kernel, by decide +kernel, by decide +kernel, rfl⟩,
   ⟨{ trunkAt { asked := some 1 } with pair := { partner := .lost } }, by decide +kernel⟩, ⟨trunkAt { retryDue := true }, by decide +kernel⟩⟩

theorem witness_CascadeCommands :
    (∃ s : State, s.reachable = true ∧ s.serves (blockOf (R.CAS_CMD 0)) = true ∧ s.flag (R.CAS_CFG 0) F.CAS_CFG_ENABLE = true ∧
      s.serves (blockOf (R.CAS_OPS_CTRL 0)) = true ∧ s.flag (R.CAS_OPS_STATUS 0) F.CAS_OPS_STATUS_TX_BUSY = false ∧ 4096 ≤ 4096) ∧
    (∃ s : State, s.reachable = true ∧ s.serves (blockOf (R.CAS_CMD 3)) = true ∧ s.flag (R.CAS_CFG 3) F.CAS_CFG_ENABLE = false) ∧
    (∃ s : State, s.reachable = true ∧ s.serves (blockOf (R.CAS_OPS_CTRL 3)) = true ∧ s.flag (R.CAS_OPS_STATUS 3) F.CAS_OPS_STATUS_TX_BUSY = true) ∧
    (∃ s : State, s.reachable = true ∧ s.serves (blockOf (R.CAS_PM_SEL 3)) = true) :=
  ⟨⟨trunkAt {}, by decide +kernel⟩, ⟨live, by decide +kernel⟩, ⟨live.setFld (R.CAS_OPS_STATUS 3) F.CAS_OPS_STATUS_TX_BUSY 1, by decide +kernel⟩,
   ⟨live, by decide +kernel⟩⟩

theorem witness_CascadeMaintenance :
    (∃ s : State, trunkLive s 0 = true ∧ 31 ∈ tribsOf s 0 ∧ transparent s 0 31 = true) ∧
    (∃ s : State, s.flag (R.CAS_PM_CFG 0) F.CAS_PM_CFG_PM_EN = true ∧ s.flag (R.CAS_CFG 0) F.CAS_CFG_ENABLE = true) ∧
    (∃ s : State, s.flag (R.CAS_PM_CFG 3) F.CAS_PM_CFG_PM_EN = false) ∧
    (∃ (x : Trunk) (h : HeldSec), x.unavail = false ∧ h.ses = true ∧ x.held.length < 9) ∧
    (∃ (x : Trunk) (h : HeldSec), x.unavail = false ∧ h.ses = true ∧ x.held.length = 9) ∧
    (∃ (x : Trunk) (h : HeldSec), x.unavail = true ∧ h.ses = false ∧ x.held.length = 9) ∧
    (∃ (x : Trunk) (h : HeldSec), x.unavail = true ∧ h.ses = true) :=
  ⟨⟨((trunkAt {}).setFld (R.CAS_TRIB_t_0 0 31) F.CAS_TRIB_t_0_VALID 1).setFld (R.CAS_TRIB_t_0 0 31) F.CAS_TRIB_t_0_TYPE 1, by decide +kernel⟩,
   ⟨(trunkAt {}).setFld (R.CAS_PM_CFG 0) F.CAS_PM_CFG_PM_EN 1, by decide +kernel⟩, ⟨live.setFld (R.CAS_PM_CFG 3) F.CAS_PM_CFG_PM_EN 0, by decide +kernel⟩,
   ⟨{}, { ses := true }, by decide⟩, ⟨{ held := List.replicate 9 {} }, { ses := true }, by decide⟩,
   ⟨{ unavail := true, held := List.replicate 9 {} }, {}, by decide⟩, ⟨{ unavail := true }, { ses := true }, by decide⟩⟩

theorem witness_TimeBasesAndSteps :
    (∃ s : State, s.reachable = true ∧ s.serves (blockOf (R.TB_INCR 3)) = true) ∧
    (∃ s : State, s.reachable = true ∧ s.serves (blockOf (R.TB_CMD 3)) = true ∧ (kget {} s.steps 3).pending = true) ∧
    (∃ s : State, s.reachable = true ∧ s.serves (blockOf (R.TB_CMD 0)) = true ∧ (kget {} s.steps 0).pending = false ∧
      s.txn.state ≠ .applying ∧ s.flag (R.TB_STATUS 0) F.TB_STATUS_VALID = false) ∧
    (∃ s : State, s.reachable = true ∧ s.serves (blockOf (R.TB_CMD 0)) = true ∧ (kget {} s.steps 0).pending = false ∧
      s.txn.state ≠ .applying ∧ s.flag (R.TB_STATUS 0) F.TB_STATUS_VALID = true) ∧
    (∃ s : State, s.reachable = true ∧ s.serves .tim = true) ∧ (∃ s : State, (kget {} s.steps 3).pending = false) ∧
    (∃ (s : State) (l : GateList), (kget {} s.gates 31).running = some l ∧ (kget {} s.gates 31).next = none ∧ l.tb = 3) :=
  ⟨⟨live, by decide +kernel⟩, ⟨{ live with steps := [(3, { pending := true })] }, by decide +kernel⟩, ⟨live, by decide +kernel⟩,
   ⟨live.setFld (R.TB_STATUS 0) F.TB_STATUS_VALID 1, by decide +kernel⟩, ⟨live, by decide +kernel⟩, ⟨live, by decide⟩,
   ⟨{ live with gates := [(31, { running := some { tb := 3 } })] }, { tb := 3 }, by decide⟩⟩

/-- An active device whose comparator 31 is enabled. -/
def armed31 : State := live.setFld (R.CMP_CFG 31) F.CMP_CFG_EN 1

theorem witness_ComparatorsAndCaptures :
    (cmpArmed armed31 31 = true ∧ cmpFunc armed31 31 ≠ 3 ∧ cmpFunc armed31 31 ≠ 5) ∧ (cmpArmed live 31 = false ∧ cmpFunc live 31 ≠ 5) ∧
    (∃ (s : State) (e : Nat × Assoc), cmpFunc s 31 = 5 ∧
      s.txAssocs.find? (fun e => e.2.valid && e.2.record.trig = 2 && e.2.record.comparator = 31 && e.2.armed.isSome) = some e) ∧
    (cmpFunc armed31 31 ≠ 2) ∧ (∃ s : State, gatePortOf s 0 = some 31 ∧ cmpFunc s 0 = 2) ∧
    (∃ s : State, cmpFunc s 0 = 1 ∧ ppsOf s 0 = some 3) ∧ (∃ s : State, s.reg (R.CMP_PERIOD 0) = 0) ∧
    (∃ s : State, s.reg (R.CMP_PERIOD 31) ≠ 0) ∧
    (∃ s : State, s.flag (R.TIM_GPIO_j 7) F.TIM_GPIO_j_EN = true ∧
      s.flag (R.CMP_CFG (s.fld (R.TIM_GPIO_j 7) F.TIM_GPIO_j_CMP)) F.CMP_CFG_EN = true ∧ s.fld (R.TIM_GPIO_j 7) F.TIM_GPIO_j_EDGE = 2) ∧
    (10 < 11) :=
  ⟨by decide +kernel, by decide +kernel,
   ⟨{ live.setReg R.TIM_TIA 0x80000000 with txAssocs := [(0, { valid := true, record := { sw := 2, comparator := 31 }, armed := some {} })] }, _,
    by decide +kernel, rfl⟩, by decide +kernel, ⟨live.setFld (R.GATE_CFG 31) F.GATE_CFG_EN 1, by decide +kernel⟩,
   ⟨live.setFld (R.PPS_OUT_n 3) F.PPS_OUT_n_EN 1, by decide +kernel⟩, ⟨live, by decide +kernel⟩, ⟨live.setReg (R.CMP_PERIOD 31) 1, by decide +kernel⟩,
   ⟨((live.setFld (R.TIM_GPIO_j 7) F.TIM_GPIO_j_EN 1).setFld (R.TIM_GPIO_j 7) F.TIM_GPIO_j_EDGE 2).setFld (R.CMP_CFG 0) F.CMP_CFG_EN 1,
    by decide +kernel⟩, by decide⟩

/-- A gate list of two entries with a cycle of 1000 ns. -/
def gateList : GateList := { entries := [(255, 500), (1, 500)], cycle := 1000 }

theorem witness_GatesAndLaunch :
    (∃ s : State, cmpArmed s (s.fld (R.GATE_CFG 31) F.GATE_CFG_CMP) = false ∧ (kget {} s.gates 31).next = some gateList) ∧
    (∃ s : State, (kget {} s.gates 0).running = some gateList ∧ gateList.base.nanos ≤ (egressNow s 0 gateList.tb).nanos ∧ gateList.cycle ≠ 0) ∧
    (0 < 1000 ∧ ∀ e ∈ gateList.entries, 0 < e.2) ∧
    (∃ s : State, (s.job 1).launch = some (3, { sec := 1 }) ∧ (s.job 1).stage = .handoff) ∧
    (∃ s : State, (s.job 1).launch = some (3, { sec := 1 }) ∧ (s.job 1).stage = .dispatched) :=
  ⟨⟨{ live with gates := [(31, { next := some gateList })] }, by decide +kernel⟩,
   ⟨{ live with gates := [(0, { running := some gateList })] }, by decide +kernel⟩, by decide,
   ⟨{ live with jobs := [(1, { launch := some (3, { sec := 1 }), stage := .handoff })] }, by decide⟩,
   ⟨{ live with jobs := [(1, { launch := some (3, { sec := 1 }), stage := .dispatched })] }, by decide⟩⟩

/-- An active device whose mailbox argument is the handle 1. -/
def mailbox : State := live.setReg R.KST_ARG_0 1

theorem witness_KeyUpdates :
    (∃ s : State, KstOpen s ∧ (s.reg R.KST_LEN).toNat ≠ 9216 + beAt [] 12 4) ∧
    (∃ s : State, s.fuses.exhausted = true) ∧
    (∃ s t : State, commitCounter s s.epoch 5 [] = (t, true)) ∧
    (∃ s t : State, commitCounter s 1 0 [false, false, false] = (t, false)) :=
  ⟨⟨live, by unfold KstOpen; decide +kernel⟩, ⟨{ live with fuses := { exhausted := true } }, by decide⟩, ⟨live, _, rfl⟩, ⟨live, _, rfl⟩⟩

theorem witness_KeyStoreOperations :
    (∃ s : State, KstOpen s ∧ 11312 ≤ (s.reg R.KST_LEN).toNat ∧ 1680 ≤ (s.reg R.KST_LEN).toNat ∧ kstAddr s % 8 = 0 ∧ s.ident.alias_ = true ∧
      s.ident.agree = true ∧ s.drbgDown = false) ∧
    (∃ s : State, KstOpen s ∧ (s.reg R.KST_LEN).toNat = 11311) ∧
    (∃ s : State, KstOpen s ∧ handleStatus (argHandle s) = .ok ∧ (s.ownerKey (argHandle s)).isSome = true) ∧
    (∃ s : State, KstOpen s ∧ handleStatus (argHandle s) = .ok ∧ s.ownerKey (argHandle s) = none) ∧
    (∃ s : State, KstOpen s ∧ bit s.localOps 0 = true ∧ handleStatus (argHandle s) = .ok ∧ s.fld R.KST_ARG_1 F.KST_ARG_1_TYPE ≠ 0x20 ∧
      destOk (s.fld R.KST_ARG_1 F.KST_ARG_1_TYPE) (s.fld R.KST_ARG_1 F.KST_ARG_1_DEST) = true ∧
      materialSize s (s.fld R.KST_ARG_1 F.KST_ARG_1_TYPE) (s.fld R.KST_ARG_1 F.KST_ARG_1_PARAM) = .ok 32 ∧
      s.flag R.KST_ARG_1 F.KST_ARG_1_PERSIST = false ∧ s.ownerKey (argHandle s) = none ∧ s.drbgDown = false) ∧
    (∃ s : State, KstOpen s ∧ bit s.localOps 0 = false ∧ bit s.localOps 1 = false) ∧
    (∃ s : State, KstOpen s ∧ bit s.localOps 1 = true ∧ handleStatus (argHandle s) = .ok ∧ (s.ownerKey (argHandle s)).isSome = true ∧
      inUse s (argHandle s) = true) ∧
    (∃ s : State, KstOpen s ∧ bit s.localOps 1 = true ∧ handleStatus (argHandle s) = .ok ∧ (s.ownerKey (argHandle s)).isSome = true ∧
      inUse s (argHandle s) = false ∧ (∀ e ∈ s.pke.jobs, e.2.ended = none → e.2.handle ≠ argHandle s) ∧ (kget {} s.owner 1).persist = false) ∧
    (∃ s : State, s.reachable = true ∧ s.dev.state ∈ kstStates ∧ s.serves (blockOf R.KST_CMD) = true ∧ s.flag R.KST_STATUS F.KST_STATUS_BUSY = true) ∧
    (∃ s : State, s.drbgDown = false) ∧ (∃ s : State, s.drbgDown = true) ∧ (∃ s : State, s.dev.power = true) ∧
    (∃ s : State, KstOpen s ∧ 11312 ≤ (s.reg R.KST_LEN).toNat ∧ kstAddr s % 8 = 0 ∧ s.drbgDown = true) :=
  ⟨⟨{ live.setReg R.KST_LEN 11312 with ident := { alias_ := true, agree := true } }, by unfold KstOpen; decide +kernel⟩,
   ⟨live.setReg R.KST_LEN 11311, by unfold KstOpen; decide +kernel⟩,
   ⟨{ mailbox with owner := [(1, { typ := 1 })] }, by unfold KstOpen; decide +kernel⟩, ⟨mailbox, by unfold KstOpen; decide +kernel⟩,
   ⟨{ (mailbox.setFld R.KST_ARG_1 F.KST_ARG_1_TYPE 1).setFld R.KST_ARG_1 F.KST_ARG_1_DEST 0x40 with localOps := 1 }, by unfold KstOpen; decide +kernel⟩,
   ⟨mailbox, by unfold KstOpen; decide +kernel⟩,
   ⟨{ mailbox with owner := [(1, { typ := 1 })], localOps := 2, txAssocs := [(0, { valid := true, record := { root := 1 } })] },
    by unfold KstOpen; decide +kernel⟩,
   ⟨{ mailbox with owner := [(1, { typ := 1 })], localOps := 2 }, by unfold KstOpen; decide +kernel⟩,
   ⟨live.setFld R.KST_STATUS F.KST_STATUS_BUSY 1, by decide +kernel⟩,
   ⟨live, by decide⟩, ⟨{ live with drbgDown := true }, by decide⟩, ⟨live, by decide⟩,
   ⟨{ live.setReg R.KST_LEN 11312 with drbgDown := true }, by unfold KstOpen; decide +kernel⟩⟩

/-- A descriptor with no output: CURVE_CLEAR of slot 0, and no input. -/
def curveClear : List Byte := 0x41 :: List.replicate 63 0

/-- An active device with job 1 of the engine running, as given. -/
def jobRuns (j : PkeJob) : State := { live with pke := { jobs := [(1, j)], run := some 1 } }

theorem witness_PublicKeyJobs :
    (∃ (s : State) (j : PkeJob), s.reachable = true ∧ s.serves (blockOf R.PKE_CMD) = true ∧ s.reg64 R.PKE_DESC_LO R.PKE_DESC_HI % 8 = 0 ∧
      judgeDesc (descriptorAsked s (slice curveClear 0 64)) (slice curveClear 0 64) [] = .ok j) ∧
    (∃ s : State, s.reachable = true ∧ s.serves (blockOf R.PKE_CMD) = true ∧ s.reg64 R.PKE_DESC_LO R.PKE_DESC_HI % 8 = 0 ∧
      judgeDesc (descriptorAsked s (slice [] 0 64)) (slice [] 0 64) [] = .error .invalid) ∧
    (∃ s : State, s.reachable = true ∧ s.serves (blockOf R.PKE_CMD) = true ∧ s.reg64 R.PKE_DESC_LO R.PKE_DESC_HI % 8 ≠ 0) ∧
    (∃ s : State, s.reachable = true ∧ s.serves (blockOf R.PKE_CMD) = true ∧ s.pkeJob 1 ≠ {} ∧ (s.pkeJob 1).ended = none ∧ s.pkeJob 255 = {}) ∧
    (∃ (s : State) (e : Nat × PkeJob), s.pke.run = none ∧ 7 < dutyIntervals s ∧ pkeFirst (pkeWaiting s) = some e) ∧
    (∃ s : State, s.pke.run.isSome = true) ∧
    (∃ s : State, s.pke.run = some 1 ∧ pkeStill s = false ∧ reachesCheckpoint s (s.pkeJob 1) = true ∧ (s.pkeJob 1).aborting = true) ∧
    (∃ s : State, s.pke.run = some 1 ∧ pkeStill s = false ∧ reachesCheckpoint s (s.pkeJob 1) = true ∧ (s.pkeJob 1).aborting = false ∧ pkeWaiting s = []) ∧
    (∃ s : State, s.pke.run = some 1 ∧ pkeStill s = false ∧ (s.pkeJob 1).aborting = false ∧ opRandom (s.pkeJob 1).op = true ∧ s.drbgDown = true) ∧
    (∃ (s : State) (x : State × Status × Nat × List Byte), s.pke.run = some 1 ∧ pkeStill s = false ∧ (s.pkeJob 1).aborting = false ∧
      (opRandom (s.pkeJob 1).op = true → s.drbgDown = false) ∧ jobResult s 1 (s.pkeJob 1) = x) :=
  ⟨⟨{ live with pke := { curves := [(0, { bits := 160 })] } }, _, by decide +kernel, by decide +kernel, by decide +kernel, rfl⟩,
   ⟨live, by decide +kernel, by decide +kernel, by decide +kernel, rfl⟩, ⟨live.setReg R.PKE_DESC_LO 1, by decide +kernel⟩,
   ⟨{ live with pke := { jobs := [(1, { op := 1 })] } }, by decide +kernel⟩,
   ⟨{ live with pke := { jobs := [(1, { op := 1 })] } }, _, by decide +kernel, by decide +kernel, rfl⟩, ⟨jobRuns {}, by decide⟩,
   ⟨jobRuns { op := 0x38, aborting := true }, by decide⟩, ⟨jobRuns { op := 0x38 }, by decide +kernel⟩,
   ⟨{ jobRuns { op := 0x21 } with drbgDown := true }, by decide +kernel⟩, ⟨jobRuns { op := 1 }, _, by decide, by decide, by decide, fun _ => rfl, rfl⟩⟩

theorem witness_TamperSources :
    (mayFire live 1 = true ∧ live.dev.power = true) ∧ (mayFire live 24 = false) ∧ (2 ≤ 7 ∧ 7 ≤ 7) ∧
    (∃ s : State, s.dev.power = false) ∧ (cellBand live 3000 = 0 ∧ live.tmp.window = 0) ∧
    (∃ s : State, cellBand s 3000 = 0 ∧ cellBand s 499 ≠ 0 ∧ s.tmp.bandA = cellBand s 499 ∧ s.tmp.runA = 1 ∧ s.tmp.window = 0) ∧
    (live.dev.power = true ∧ 8 * tempHigh live ≤ 8 * tempHigh live ∧ 8 * tempLow live ≤ 8 * tempLow live) ∧
    (∃ (s : State) (hi lo : Int), s.dev.power = true ∧ 8 * tempHigh s < hi ∧ 8 * tempLow s ≤ lo ∧ s.tmp.hot = 1) :=
  ⟨by decide +kernel, by decide +kernel, by decide, ⟨{ live with dev := { power := false } }, by decide⟩, by decide +kernel,
   ⟨{ live with tmp := { bandA := 1, runA := 1 } }, by decide +kernel⟩, by decide +kernel,
   ⟨{ live with tmp := { hot := 1 } }, 8 * tempHigh live + 1, 8 * tempLow live, by decide +kernel⟩⟩

theorem witness_TamperResponses :
    (∃ s : State, s.tmp.inForce ≤ 5) ∧ (∃ s : State, s.tmp.clearing < 4) ∧ (∃ s : State, s.tmp.clearing = 4) ∧
    (∃ s : State, 5 ≤ s.tmp.clearing ∧ 6 ≤ s.tmp.clearing) :=
  ⟨⟨live, by decide⟩, ⟨live, by decide⟩, ⟨{ live with tmp := { clearing := 4 } }, by decide⟩, ⟨{ live with tmp := { clearing := 6 } }, by decide⟩⟩

/-- An active device whose two cells read 3 V, asked for a service window of 1 s. -/
def cellsGood : State := { live.setFld R.TMP_WINDOW F.TMP_WINDOW_SECONDS 1 with tmp := { cellA := 3000, cellB := 3000 } }

theorem witness_TamperCommands :
    (∃ s : State, s.reachable = true ∧ s.serves (blockOf R.TMP_CMD) = true ∧ s.dev.state = .start) ∧
    (live.reachable = true ∧ live.serves (blockOf R.TMP_CMD) = true ∧ live.dev.state = .active) ∧
    (cellsGood.reachable = true ∧ cellsGood.serves (blockOf R.TMP_CMD) = true ∧ cellsGood.dev.state ≠ .start ∧ cellsGood.dev.state ≠ .halt ∧
      cellsGood.tmp.window = 0 ∧ 0 < cellsGood.fld R.TMP_WINDOW F.TMP_WINDOW_SECONDS ∧
      cellsGood.fld R.TMP_WINDOW F.TMP_WINDOW_SECONDS ≤ windowMax cellsGood ∧ cellLow cellsGood ≤ signed 16 cellsGood.tmp.cellB ∧
      cellLow cellsGood ≤ signed 16 cellsGood.tmp.cellA) ∧
    (∃ s : State, s.reachable = true ∧ s.serves (blockOf R.TMP_CMD) = true ∧ s.dev.state ≠ .start ∧ s.dev.state ≠ .halt ∧ s.tmp.window ≠ 0) ∧
    (∃ s : State, s.reachable = true ∧ s.serves (blockOf R.TMP_CMD) = true ∧ s.tmp.armed = true) ∧ (live.tmp.armed = false) ∧
    (live.serves (blockOf R.TMP_FLAGS) = true) ∧ (∃ s : State, s.dev.power = true ∧ s.tmp.smbArmed = true) ∧
    (live.tmp.smbArmed = false ∧ (0 : Nat) ≠ 0x5A) :=
  ⟨⟨inState .start, by decide +kernel⟩, by decide +kernel, by decide +kernel, ⟨{ live with tmp := { window := 2 } }, by decide +kernel⟩,
   ⟨{ live with tmp := { armed := true } }, by decide +kernel⟩, by decide, by decide +kernel,
   ⟨{ live with tmp := { smbArmed := true } }, by decide⟩, by decide⟩

/-- An active device of a pair, with the link's record `p`. -/
def paired (p : Pair) : State := { live.setFld R.PAI_CFG F.PAI_CFG_EN 1 with pair := p }

/-- The same on standby. -/
def standing (p : Pair) : State := { (inState .standby).setFld R.PAI_CFG F.PAI_CFG_EN 1 with pair := p }

theorem witness_PairRoles :
    (mayGiveUp (paired {}) = true) ∧
    (pairOn (standing { role := .ready }) = true ∧ (standing { role := .ready }).dev.state = .standby ∧ (standing { role := .ready }).pair.role = .ready ∧
      (standing { role := .ready }).pair.taking = false) ∧
    (∃ s : State, s.dev.state = .active ∧ s.pair.partner = .ready) ∧ (∃ s : State, s.dev.state = .standby ∧ s.pair.role = .ready) ∧
    (∃ s : State, s.reachable = true ∧ s.serves (blockOf R.PAI_CMD) = true ∧ mayGiveUp s = true ∧ s.pair.partner = .ready) ∧
    (∃ s : State, s.reachable = true ∧ s.serves (blockOf R.PAI_CMD) = true ∧ mayGiveUp s = true ∧ s.pair.partner ≠ .ready) ∧
    (∃ s : State, s.reachable = true ∧ s.serves (blockOf R.PAI_CMD) = true ∧ s.dev.state = .standby ∧ s.pair.role = .ready) ∧
    (∃ s : State, s.reachable = true ∧ s.serves (blockOf R.PAI_CMD) = true ∧ s.dev.state = .active ∧ s.pair.peerActive = false ∧
      s.pair.partner = .lost) ∧
    (∃ s : State, s.reachable = true ∧ s.serves (blockOf R.PAI_CMD) = true ∧ s.dev.state = .active ∧ s.pair.peerActive = false ∧
      s.pair.partner = .ready) ∧
    (∃ s : State, s.pair.givingUp = true ∧ s.jobs = [] ∧ s.dev.state = .active) ∧ ((0 : Nat) ≠ 5 ∧ (7 : Nat) ≠ 5 ∧ 7 ≤ 7) ∧
    (∃ s : State, s.pair.taking = true) ∧ (∃ s : State, s.flag (R.CAS_CFG 3) F.CAS_CFG_ENABLE = false) ∧
    (∃ x : Slot, x.state ≠ .empty) ∧ (∃ x : Slot, x.state = .loading) :=
  ⟨by decide +kernel, by decide +kernel, ⟨paired { partner := .ready }, by decide⟩, ⟨standing { role := .ready }, by decide⟩,
   ⟨paired { partner := .ready }, by decide +kernel⟩, ⟨paired {}, by decide +kernel⟩, ⟨standing { role := .ready }, by decide +kernel⟩,
   ⟨paired { partner := .lost }, by decide +kernel⟩, ⟨paired { partner := .ready }, by decide +kernel⟩,
   ⟨paired { givingUp := true }, by decide⟩, by decide, ⟨standing { taking := true }, by decide⟩, ⟨live, by decide +kernel⟩,
   ⟨{ state := .ready }, by decide⟩, ⟨{ state := .loading }, by decide⟩⟩

/-- A CONFIG frame: the pattern, its type, and the partner's identity, nonce and parameters. -/
def configFrame : List Byte := [0xA9, 0xC3, 0x5E, 0x17, 2] ++ List.replicate 243 0

theorem witness_AqueductTraining :
    (∃ s : State, s.pair.train = .clock) ∧ (∃ s : State, s.pair.train = .deskew) ∧
    (∃ s : State, s.pair.train = .config ∧ beAt configFrame 0 4 = 0xA9C35E17 ∧ beAt configFrame 4 1 = 2 ∧
      beAt (slice configFrame 24 224) 80 1 = s.fld R.AQD_CFG F.AQD_CFG_WIDTH ∧ beAt (slice configFrame 24 224) 81 1 = s.fld R.AQD_CFG F.AQD_CFG_CODING ∧
      slice (slice configFrame 24 224) 0 48 ≠ slice s.pair.partnerId 0 48) ∧
    (∃ s : State, s.pair.train = .config ∧ beAt (slice configFrame 24 224) 80 1 = s.fld R.AQD_CFG F.AQD_CFG_WIDTH ∧
      beAt (slice configFrame 24 224) 81 1 = s.fld R.AQD_CFG F.AQD_CFG_CODING ∧
      slice (slice configFrame 24 224) 0 48 = slice s.pair.partnerId 0 48 ∧ slice configFrame 24 224 ≠ s.pair.lastConfig) ∧
    (∃ s : State, s.pair.train = .auth ∧ beAt [0, 0, 0, 0, 3] 4 1 = 3) ∧ (∃ s : State, s.dev.state = .active ∧ s.pair.peerState ≠ 5) ∧
    (∃ s : State, s.pair.train = .failed) ∧ (∃ s : State, s.pair.train = .up) :=
  ⟨⟨paired { train := .clock }, by decide⟩, ⟨paired { train := .deskew }, by decide⟩,
   ⟨(paired { train := .config, partnerId := [1] }).setFld R.AQD_CFG F.AQD_CFG_WIDTH 0 |>.setFld R.AQD_CFG F.AQD_CFG_CODING 0, by decide +kernel⟩,
   ⟨(paired { train := .config, partnerId := List.replicate 48 0 }).setFld R.AQD_CFG F.AQD_CFG_WIDTH 0 |>.setFld R.AQD_CFG F.AQD_CFG_CODING 0,
    by decide +kernel⟩,
   ⟨paired { train := .auth }, by decide⟩, ⟨paired {}, by decide⟩, ⟨paired { train := .failed }, by decide⟩, ⟨paired { train := .up }, by decide⟩⟩

/-- A DATA frame of zeros. -/
def dataFrame : List Byte := [0xA9, 0xC3, 0x5E, 0x17, 1] ++ List.replicate 200 0

theorem witness_AqueductTraffic :
    (∃ s : State, s.linkUp = true ∧ beAt dataFrame 0 4 = 0xA9C35E17 ∧ beAt dataFrame 4 1 = 1) ∧ (∃ s : State, s.linkUp = false) ∧
    (∃ s : State, s.pair.tagFails < 7) ∧ (∃ s : State, 7 ≤ s.pair.tagFails) ∧ (∃ s : State, beAt dataFrame 16 4 ≠ s.pair.expected) ∧
    (∃ s : State, s.linkUp = true ∧ 0 < s.pair.sent) ∧ (∃ s : State, pairOn s = true ∧ s.linkUp = true) ∧
    (∃ s : State, s.reachable = true ∧ s.serves (blockOf R.AQD_CMD) = true ∧ s.pair.train = .up ∧ s.fld R.AQD_CFG F.AQD_CFG_WIDTH < 2 ∧
      s.pair.role ≠ .syncing ∧ s.pair.role ≠ .ready ∧ s.pair.peerRole ≠ 2 ∧ s.pair.peerRole ≠ 3) ∧
    (∃ s : State, s.reachable = true ∧ s.serves (blockOf R.AQD_CMD) = true ∧ s.pair.train ≠ .up ∧ s.pair.train ≠ .deep) ∧
    (∃ s : State, s.reachable = true ∧ s.serves (blockOf R.AQD_CMD) = true ∧ s.pair.train = .deep) ∧
    (∃ s : State, s.linkUp = true ∧ s.fld R.AQD_CFG F.AQD_CFG_WIDTH = 2 ∧ s.flag R.AQD_CFG F.AQD_CFG_SLEEP_EN = true ∧ s.pair.queue.length < 2) ∧
    (∃ s : State, s.pair.rxSleep = true) ∧ (∃ s : State, 4 ≤ s.pair.queue.length) :=
  ⟨⟨paired { train := .up }, by decide⟩, ⟨live, by decide⟩, ⟨paired { tagFails := 6 }, by decide⟩, ⟨paired { tagFails := 7 }, by decide⟩,
   ⟨paired { expected := 1 }, by decide⟩, ⟨paired { train := .up, sent := 1 }, by decide⟩, ⟨paired { train := .up }, by decide +kernel⟩,
   ⟨(paired { train := .up }).setFld R.AQD_CFG F.AQD_CFG_WIDTH 0, by decide +kernel⟩, ⟨paired {}, by decide +kernel⟩,
   ⟨paired { train := .deep }, by decide +kernel⟩,
   ⟨((paired { train := .up }).setFld R.AQD_CFG F.AQD_CFG_WIDTH 2).setFld R.AQD_CFG F.AQD_CFG_SLEEP_EN 1, by decide +kernel⟩,
   ⟨paired { rxSleep := true }, by decide⟩, ⟨paired { queue := [[], [], [], []] }, by decide⟩⟩

/-- An active device with transmit ring 0 of the physical function enabled and its tail at 1. -/
def ring0 : State :=
  ((live.setFld R.HIF_CFG F.HIF_CFG_PF_RINGS 1).setFld (aTxCfg .pf 0) F.TXQ_CFG_EN 1).setFld (aTxTail .pf 0) F.TXQ_TAIL_TAIL 1

/-- A descriptor of a 60-byte frame that bypasses to line port 0. -/
def bypass60 : List Byte := List.replicate 9 0 ++ [60, 4] ++ List.replicate 21 0

/-- An active device with slices on and slice 63 as given. -/
def slice63 (x : HostSlice) : State := { live.setFld R.HIF_CFG F.HIF_CFG_SLICES_EN 1 with slices := if x = {} then [] else [(63, x)] }

/-- Slice 63 active with its transmit ring 0 enabled and its tail at 1. -/
def vfRing : State := ((slice63 { state := .active }).setFld (aTxCfg (.vf 63) 0) F.TXQ_CFG_EN 1).setFld (aTxTail (.vf 63) 0) F.TXQ_TAIL_TAIL 1

theorem witness_HostRings :
    (live.reachable = true ∧ live.serves (blockOf (aTxTail .pf 0)) = true ∧ live.serves (blockOf (aRxTail .pf 0)) = true) ∧
    (∃ s : State, s.reachable = true ∧ s.serves (blockOf (aTxTail (.vf 63) 15)) = true ∧ s.serves (blockOf (aRxTail (.vf 63) 15)) = true ∧
      (s.slice 63).state ≠ .active) ∧
    (∃ s : State, RingOpen s (.vf 63) ∧ s.reachable = true ∧ s.serves (blockOf (aTxTail (.vf 63) 15)) = true ∧
      s.serves (blockOf (aRxTail (.vf 63) 15)) = true) ∧
    (∃ s : State, s.fld (aTxHead .pf 0) F.TXQ_HEAD_HEAD ≠ s.fld (aTxTail .pf 0) F.TXQ_TAIL_TAIL ∧ 0 < ringCount s .pf ∧
      s.flag (aTxCfg .pf 0) F.TXQ_CFG_EN = true ∧ RingLive s .pf ∧ descJob s .pf 0 0 [] = .inr (.invalid, 1)) ∧
    (∃ s : State, s.fld (aTxHead (.vf 63) 0) F.TXQ_HEAD_HEAD ≠ s.fld (aTxTail (.vf 63) 0) F.TXQ_TAIL_TAIL ∧ 0 < ringCount s (.vf 63) ∧
      s.flag (aTxCfg (.vf 63) 0) F.TXQ_CFG_EN = true ∧ RingLive s (.vf 63)) ∧
    (∃ s : State, s.fld (aTxHead .pf 0) F.TXQ_HEAD_HEAD ≠ s.fld (aTxTail .pf 0) F.TXQ_TAIL_TAIL ∧ 0 < ringCount s .pf ∧
      s.flag (aTxCfg .pf 0) F.TXQ_CFG_EN = true ∧ (descJob s .pf 0 0 bypass60).isLeft = true ∧
      frameUsed s (fnFrame .pf) + (beAt bypass60 8 2 + 4 + 255) / 256 ≤ frameCapacity s (fnFrame .pf)) ∧
    (∃ s : State, s.fld (aTxHead .pf 0) F.TXQ_HEAD_HEAD ≠ s.fld (aTxTail .pf 0) F.TXQ_TAIL_TAIL ∧ 0 < ringCount s .pf ∧
      s.flag (aTxCfg .pf 0) F.TXQ_CFG_EN = true ∧ (descJob s .pf 0 0 bypass60).isLeft = true ∧
      frameCapacity s (fnFrame .pf) < frameUsed s (fnFrame .pf) + (beAt bypass60 8 2 + 4 + 255) / 256) ∧
    (∃ (s : State) (y : Nat × Job), doneJob s .pf 0 (kget {} s.rings (ringKey .pf 0)).txDone = some y ∧ silentFn s .pf = false) ∧
    (∃ s : State, 0 < (kget {} s.rings (ringKey .pf 0)).unsignalled ∧ s.fld (aIrqCoal .pf 0) F.IRQ_COAL_COUNT ≠ 0) :=
  ⟨by decide +kernel, ⟨live.setFld R.HIF_CFG F.HIF_CFG_SLICES_EN 1, by decide +kernel⟩,
   ⟨slice63 { state := .active }, (by intro k h; cases h; rfl), by decide +kernel⟩,
   ⟨ring0, by decide +kernel, by decide +kernel, by decide +kernel, (by intro k h; cases h), by decide +kernel⟩,
   ⟨vfRing, by decide +kernel, by decide +kernel, by decide +kernel, (by intro k h; cases h; exact ⟨.inl rfl, rfl⟩)⟩,
   ⟨{ ring0 with bypassPermit := 1, partition := [(0, 5)] }, by decide +kernel⟩,
   ⟨{ ring0 with bypassPermit := 1, partition := [] }, by decide +kernel⟩,
   ⟨{ live with jobs := [(0, { stage := .done, host := some (.pf, 0, 0) })] }, _, rfl, rfl⟩,
   ⟨{ live.setFld (aIrqCoal .pf 0) F.IRQ_COAL_COUNT 1 with rings := [(ringKey .pf 0, { unsignalled := 1 })] }, by decide +kernel⟩⟩

theorem witness_HostSlices :
    (∃ s : State, s.reachable = true ∧ s.serves (blockOf R.HIF_SLCMD) = true ∧ (s.slice 63).state = .unbound ∧ s.slicesOn = true ∧
      (∀ n, n < 64 → n ≠ 63 → (s.slice n).state ≠ .unbound → (s.slice n).pasid ≠ s.fld R.HIF_SLARG F.HIF_SLARG_PASID)) ∧
    (∃ s : State, s.reachable = true ∧ s.serves (blockOf R.HIF_SLCMD) = true ∧ (s.slice 63).state = .unbound ∧ s.slicesOn = false) ∧
    (∃ s : State, s.reachable = true ∧ s.serves (blockOf R.HIF_SLCMD) = true ∧ (s.slice 63).state ≠ .unbound ∧ (s.slice 63).state = .active) ∧
    (∃ s : State, s.reachable = true ∧ s.serves (blockOf R.HIF_SLCMD) = true ∧ (s.slice 63).state = .quiesced) ∧
    (∃ s : State, (s.slice 63).state ≠ .active ∧ (s.slice 63).state ≠ .fenced) ∧
    (∃ s : State, (s.slice 63).state = .fenced ∧ inFlight s 63 = 0 ∧ (s.slice 63).silent = false) ∧
    (∃ s : State, (s.slice 63).state = .fenced ∧ inFlight s 63 ≠ 0) :=
  ⟨⟨slice63 {}, by decide +kernel⟩, ⟨live, by decide +kernel⟩, ⟨slice63 { state := .active }, by decide +kernel⟩,
   ⟨slice63 { state := .quiesced }, by decide +kernel⟩, ⟨live, by decide⟩, ⟨slice63 { state := .fenced }, by decide +kernel⟩,
   ⟨{ slice63 { state := .fenced } with jobs := [(0, { stage := .classified, host := some (.vf 63, 0, 0) })] }, by decide +kernel⟩⟩

/-- An active device whose snapshots run, with two buffers. -/
def snapping : State :=
  ((live.setFld R.CNT_CFG F.CNT_CFG_EN 1).setReg R.CNT_BUF_A_LO 0x10000).setReg R.CNT_BUF_B_LO 0x20000

theorem witness_CounterSnapshots :
    (snapRuns snapping = true) ∧ (∃ s : State, s.dev.mcUp = false) ∧ (∃ s : State, s.snap.image.isSome = true) ∧ (buffersSet live = false) ∧
    (snapping.dev.mcUp = true ∧ snapping.snap.image = none ∧ buffersSet snapping = true) ∧
    (∃ s : State, s.reachable = true ∧ s.serves (blockOf R.CNT_CMD) = true ∧ s.dev.mcUp = false) ∧
    (∃ s : State, s.snap.pending = some (1, 3, {})) ∧ (∃ s : State, s.snap.pending = some (2, 3, {})) ∧
    (∃ s : State, s.snap.pending = some (3, 3, {})) ∧ (∃ (s : State) (i : Image), s.snap.image = some i) :=
  ⟨by decide +kernel, ⟨State.reset, by decide⟩, ⟨{ live with snap := { image := some {} } }, by decide⟩, by decide +kernel, by decide +kernel,
   ⟨{ live with dev := { live.dev with mcUp := false } }, by decide +kernel⟩,
   ⟨{ live with snap := { pending := some (1, 3, {}) } }, rfl⟩, ⟨{ live with snap := { pending := some (2, 3, {}) } }, rfl⟩,
   ⟨{ live with snap := { pending := some (3, 3, {}) } }, rfl⟩, ⟨{ live with snap := { image := some {} } }, _, rfl⟩⟩

theorem witness_CountersAndArms :
    ((Ctr.dev 4).index < 2 ^ 20) ∧ (live.reachable = true ∧ live.serves (blockOf R.CNT_CMD) = true ∧ 0xFFFFE < 0xFFFFF) ∧
    (∃ s : State, s.flag R.CNT_BW F.CNT_BW_EN = true ∧ cmpArmed s (s.fld R.CNT_BW F.CNT_BW_CMP) = true) ∧
    (live.serves (blockOf (R.CNT_ARM_k_IDX 7)) = true) ∧
    (∃ s : State, s.flag (R.CNT_ARM_k_IDX 7) F.CNT_ARM_k_IDX_EN = true ∧ max 1 (s.reg (R.CNT_ARM_k_N 7)).toNat ≤ kget 0 s.armed 7) ∧
    (live.serves (blockOf R.CNT_RD_LO) = true) ∧ (live.serves (blockOf (R.LEG_i_LO 255)) = true) :=
  ⟨by decide, by decide +kernel, ⟨(live.setFld R.CNT_BW F.CNT_BW_EN 1).setFld (R.CMP_CFG 0) F.CMP_CFG_EN 1, by decide +kernel⟩, by decide +kernel,
   ⟨{ live.setFld (R.CNT_ARM_k_IDX 7) F.CNT_ARM_k_IDX_EN 1 with armed := [(7, 1)] }, by decide +kernel⟩, by decide +kernel, by decide +kernel⟩

theorem witness_StepTakesTheFront :
    (live.pending = [] ∧ live.dev.power = true ∧ live.dev.coldReset = false) ∧ (State.reset.pending = [] ∧ State.reset.dev.coldReset = true) := by
  decide

theorem witness_StepsKeepCanonicalRegisters : (∃ s t : State, Steps s t) ∧ RegsWf live := ⟨⟨State.reset, State.reset, rfl⟩, by unfold RegsWf; decide +kernel⟩

theorem witness_EpochNeverFalls : ∃ s t : State, Reaches s t := ⟨live, live, .here live⟩

theorem witness_CommandedInstantsFromCntAt :
    (live.reachable = true ∧ live.serves (blockOf R.CNT_CMD) = true ∧ live.dev.mcUp = true ∧ live.snap.pending = none ∧ cntAt live = {}) ∧
    (∃ s : State, s.reachable = true ∧ s.serves (blockOf R.CNT_CMD) = true ∧ s.dev.mcUp = true ∧ s.snap.pending = none ∧ (cntAt s).sec = 1) ∧
    (∃ s : State, s.reachable = true ∧ s.serves (blockOf R.CNT_CMD) = true ∧ s.snap.pending.isSome = true) :=
  ⟨by decide +kernel, ⟨live.setReg R.CNT_AT_SEC_LO 1, by decide +kernel⟩, ⟨{ live with snap := { pending := some (1, 0, {}) } }, by decide +kernel⟩⟩

end Sys2Proof.Tests
end

section
/-! The family of spec/00_scope.md: what every step keeps, that every command answers, and register accesses. -/

namespace Sys2Proof.Machine

/-! ### Every step is steady -/

/-- Every command leaves the queue behind it alone, the register map canonical and the epoch no lower: the laws of the commands, arm by
arm of `exec`. -/
theorem exec_steady {z s : State} (h : Steady z s) : ∀ c : Instr, SteadyRes z (exec c s)
  | .registerWrite .. => execRegisterWrite_steady h ..
  | .holeAccess .. => execHoleAccess_steady h ..
  | .unservedBlockAccess .. => execUnservedBlockAccess_steady h ..
  | .mainPowerValid => execMainPowerValid_steady h
  | .mainPowerLost => execMainPowerLost_steady h
  | .coldResetRelease .. => execColdResetRelease_steady h ..
  | .coldRstNAssert .. => execColdRstNAssert_steady h ..
  | .warmReset .. => execWarmReset_steady h ..
  | .glbWarmReset .. => execGlbWarmReset_steady h ..
  | .glbMcRestart .. => execGlbMcRestart_steady h ..
  | .mcWatchdogRestart => execMcWatchdogRestart_steady h
  | .mcWatchdogExpiry => execMcWatchdogExpiry_steady h
  | .mcRestartComplete => execMcRestartComplete_steady h
  | .functionLevelReset => execFunctionLevelReset_steady h
  | .slotSelection .. => execSlotSelection_steady h ..
  | .imageSignatureCheck => execImageSignatureCheck_steady h
  | .calibrationLoad => execCalibrationLoad_steady h
  | .keyUnwrap => execKeyUnwrap_steady h
  | .selfTests .. => execSelfTests_steady h ..
  | .laneTrainingStart .. => execLaneTrainingStart_steady h ..
  | .portBringUp => execPortBringUp_steady h
  | .negWaitTimeout => execNegWaitTimeout_steady h
  | .successTimerExpiry => execSuccessTimerExpiry_steady h
  | .failClear => execFailClear_steady h
  | .maintReq => execMaintReq_steady h
  | .maintExit .. => execMaintExit_steady h ..
  | .imgWriteGo .. => execImgWriteGo_steady h ..
  | .imgWritePhaseComplete .. => execImgWritePhaseComplete_steady h ..
  | .txnBegin => execTxnBegin_steady h
  | .txnCommit => execTxnCommit_steady h
  | .txnRollback => execTxnRollback_steady h
  | .txnTimeoutExpiry .. => execTxnTimeoutExpiry_steady h ..
  | .txnValidationEnd .. => execTxnValidationEnd_steady h ..
  | .txnApplyInstant .. => execTxnApplyInstant_steady h ..
  | .bpWrite => execBpWrite_steady h
  | .bpRead => execBpRead_steady h
  | .calOffsetWrite .. => execCalOffsetWrite_steady h ..
  | .frameArrival .. => execFrameArrival_steady h ..
  | .frameEnd .. => execFrameEnd_steady h ..
  | .headerRecordClassify .. => execHeaderRecordClassify_steady h ..
  | .learnApply .. => execLearnApply_steady h ..
  | .queueAdmission .. => execQueueAdmission_steady h ..
  | .schedulerSelect .. => execSchedulerSelect_steady h ..
  | .bucketRefill .. => execBucketRefill_steady h ..
  | .dispatch .. => execDispatch_steady h ..
  | .reservationBoundaryRecord .. => execReservationBoundaryRecord_steady h ..
  | .beatFeed .. => execBeatFeed_steady h ..
  | .rillBeatExit .. => execRillBeatExit_steady h ..
  | .verdictReturn .. => execVerdictReturn_steady h ..
  | .mergeRelease .. => execMergeRelease_steady h ..
  | .tblRead .. => execTblRead_steady h ..
  | .tblWrite .. => execTblWrite_steady h ..
  | .tblInsert .. => execTblInsert_steady h ..
  | .tblDelete .. => execTblDelete_steady h ..
  | .tblSearch .. => execTblSearch_steady h ..
  | .tblFlush .. => execTblFlush_steady h ..
  | .tblAge .. => execTblAge_steady h ..
  | .tblCmdDone .. => execTblCmdDone_steady h ..
  | .ageingSweepVisit .. => execAgeingSweepVisit_steady h ..
  | .moveWindowRestart .. => execMoveWindowRestart_steady h ..
  | .pinHoldExpiry .. => execPinHoldExpiry_steady h ..
  | .trieWordRepair .. => execTrieWordRepair_steady h ..
  | .saInstall .. => execSaInstall_steady h ..
  | .saRemove .. => execSaRemove_steady h ..
  | .saRead .. => execSaRead_steady h ..
  | .saReadSlot .. => execSaReadSlot_steady h ..
  | .saDerive .. => execSaDerive_steady h ..
  | .saSwitch .. => execSaSwitch_steady h ..
  | .saArmTime .. => execSaArmTime_steady h ..
  | .saRetire .. => execSaRetire_steady h ..
  | .saModify .. => execSaModify_steady h ..
  | .slotLoadComplete .. => execSlotLoadComplete_steady h ..
  | .slotDrainComplete .. => execSlotDrainComplete_steady h ..
  | .autoNextRetry .. => execAutoNextRetry_steady h ..
  | .rxRetireTimerExpiry .. => execRxRetireTimerExpiry_steady h ..
  | .followCandidateReady .. => execFollowCandidateReady_steady h ..
  | .assocRemoveDrainComplete .. => execAssocRemoveDrainComplete_steady h ..
  | .rilWithdraw .. => execRilWithdraw_steady h ..
  | .rilRestore .. => execRilRestore_steady h ..
  | .rillFault .. => execRillFault_steady h ..
  | .spareInService .. => execSpareInService_steady h ..
  | .fenceComplete .. => execFenceComplete_steady h ..
  | .fenceDeadline .. => execFenceDeadline_steady h ..
  | .katRun .. => execKatRun_steady h ..
  | .tepRead .. => execTepRead_steady h ..
  | .tepWrite .. => execTepWrite_steady h ..
  | .tepClear .. => execTepClear_steady h ..
  | .rillWakeComplete .. => execRillWakeComplete_steady h ..
  | .sluiceTick .. => execSluiceTick_steady h ..
  | .slowLoop => execSlowLoop_steady h
  | .schedEntryWord3Write .. => execSchedEntryWord3Write_steady h ..
  | .spill .. => execSpill_steady h ..
  | .spillWriteAck .. => execSpillWriteAck_steady h ..
  | .fetchBackComplete .. => execFetchBackComplete_steady h ..
  | .nodeWriteBack .. => execNodeWriteBack_steady h ..
  | .cisternAgeSweep => execCisternAgeSweep_steady h
  | .cisRotate .. => execCisRotate_steady h ..
  | .scrubNow => execScrubNow_steady h
  | .timedRotation .. => execTimedRotation_steady h ..
  | .keyidRetireComplete .. => execKeyidRetireComplete_steady h ..
  | .regionDrainComplete .. => execRegionDrainComplete_steady h ..
  | .scrubVisit .. => execScrubVisit_steady h ..
  | .rowRepair .. => execRowRepair_steady h ..
  | .stackFail => execStackFail_steady h
  | .laneMarkerLock .. => execLaneMarkerLock_steady h ..
  | .trainTimeout .. => execTrainTimeout_steady h ..
  | .laneFault .. => execLaneFault_steady h ..
  | .laneDegrade .. => execLaneDegrade_steady h ..
  | .laneFaultClear .. => execLaneFaultClear_steady h ..
  | .steeringBlockAccept .. => execSteeringBlockAccept_steady h ..
  | .partnerOkTimeout .. => execPartnerOkTimeout_steady h ..
  | .spareAlign .. => execSpareAlign_steady h ..
  | .askTimeout .. => execAskTimeout_steady h ..
  | .steerTransmit .. => execSteerTransmit_steady h ..
  | .steerReceive .. => execSteerReceive_steady h ..
  | .steerBoth .. => execSteerBoth_steady h ..
  | .spareRelease .. => execSpareRelease_steady h ..
  | .portUp .. => execPortUp_steady h ..
  | .portSleep .. => execPortSleep_steady h ..
  | .sleepReached .. => execSleepReached_steady h ..
  | .portWake .. => execPortWake_steady h ..
  | .wakePatternMatch .. => execWakePatternMatch_steady h ..
  | .linkChangeWake .. => execLinkChangeWake_steady h ..
  | .wakeComplete .. => execWakeComplete_steady h ..
  | .preemptVerify .. => execPreemptVerify_steady h ..
  | .cascadeFrameSend .. => execCascadeFrameSend_steady h ..
  | .cascadeFrameReceive .. => execCascadeFrameReceive_steady h ..
  | .epochKeyDerived .. => execEpochKeyDerived_steady h ..
  | .epochSwitch .. => execEpochSwitch_steady h ..
  | .epochPeriodExpiry .. => execEpochPeriodExpiry_steady h ..
  | .epochConfirmed .. => execEpochConfirmed_steady h ..
  | .epochJournalRetry .. => execEpochJournalRetry_steady h ..
  | .mapSwitch .. => execMapSwitch_steady h ..
  | .realign .. => execRealign_steady h ..
  | .dslipClear .. => execDslipClear_steady h ..
  | .pmSecondBoundary .. => execPmSecondBoundary_steady h ..
  | .opsSend .. => execOpsSend_steady h ..
  | .casPmSelWrite .. => execCasPmSelWrite_steady h ..
  | .tbIncrWrite .. => execTbIncrWrite_steady h ..
  | .tbStep .. => execTbStep_steady h ..
  | .tbArmForce .. => execTbArmForce_steady h ..
  | .armForceExpiry .. => execArmForceExpiry_steady h ..
  | .stepInstant .. => execStepInstant_steady h ..
  | .tbSnapFracRead .. => execTbSnapFracRead_steady h ..
  | .comparatorFire .. => execComparatorFire_steady h ..
  | .ppsOutPulseEnd .. => execPpsOutPulseEnd_steady h ..
  | .ppsInEdge => execPpsInEdge_steady h
  | .ppsLoss => execPpsLoss_steady h
  | .gpioCapture .. => execGpioCapture_steady h ..
  | .gateCycleStart .. => execGateCycleStart_steady h ..
  | .launchEligible .. => execLaunchEligible_steady h ..
  | .launchRelease .. => execLaunchRelease_steady h ..
  | .launchLate .. => execLaunchLate_steady h ..
  | .timeUnlock .. => execTimeUnlock_steady h ..
  | .kstUpdate .. => execKstUpdate_steady h ..
  | .kstAttest => execKstAttest_steady h
  | .kstGenerate .. => execKstGenerate_steady h ..
  | .kstDelete .. => execKstDelete_steady h ..
  | .kstInfo => execKstInfo_steady h
  | .kstAgreePub => execKstAgreePub_steady h
  | .drbgReseed => execDrbgReseed_steady h
  | .entropyHealthFail => execEntropyHealthFail_steady h
  | .drbgResume => execDrbgResume_steady h
  | .pkeSubmit .. => execPkeSubmit_steady h ..
  | .pkeAbort .. => execPkeAbort_steady h ..
  | .pkeJobStart .. => execPkeJobStart_steady h ..
  | .pkeCheckpoint .. => execPkeCheckpoint_steady h ..
  | .pkeJobEnd .. => execPkeJobEnd_steady h ..
  | .pkeDutyWindow => execPkeDutyWindow_steady h
  | .tamperSourceLatch .. => execTamperSourceLatch_steady h ..
  | .undervoltageDelayExpiry .. => execUndervoltageDelayExpiry_steady h ..
  | .keyClearComplete => execKeyClearComplete_steady h
  | .cellSample .. => execCellSample_steady h ..
  | .temperatureReading .. => execTemperatureReading_steady h ..
  | .wellBrownOut => execWellBrownOut_steady h
  | .tmpRelease => execTmpRelease_steady h
  | .tmpServiceA => execTmpServiceA_steady h
  | .tmpServiceB => execTmpServiceB_steady h
  | .tmpEndService => execTmpEndService_steady h
  | .serviceWindowExpiry => execServiceWindowExpiry_steady h
  | .tmpZeroiseArm => execTmpZeroiseArm_steady h
  | .tmpZeroiseAll .. => execTmpZeroiseAll_steady h ..
  | .tmpFlagsClear .. => execTmpFlagsClear_steady h ..
  | .smbusZeroiseWrite .. => execSmbusZeroiseWrite_steady h ..
  | .smbusZeroiseArmExpiry => execSmbusZeroiseArmExpiry_steady h
  | .smbusStatusRead => execSmbusStatusRead_steady h
  | .peerActiveChange .. => execPeerActiveChange_steady h ..
  | .peerHandoverRise => execPeerHandoverRise_steady h
  | .aqdClockDetect => execAqdClockDetect_steady h
  | .aqdDeskewLock => execAqdDeskewLock_steady h
  | .configFrameReceive .. => execConfigFrameReceive_steady h ..
  | .authFrameReceive .. => execAuthFrameReceive_steady h ..
  | .aqdTrainingTimeout => execAqdTrainingTimeout_steady h
  | .aqdFailedRetry => execAqdFailedRetry_steady h
  | .aqdLinkDown => execAqdLinkDown_steady h
  | .dataFrameReceive .. => execDataFrameReceive_steady h ..
  | .retransmitTimeout => execRetransmitTimeout_steady h
  | .heartbeatSend => execHeartbeatSend_steady h
  | .hbLoss => execHbLoss_steady h
  | .takeOverComplete => execTakeOverComplete_steady h
  | .giveUp => execGiveUp_steady h
  | .takeOver => execTakeOver_steady h
  | .partnerGone => execPartnerGone_steady h
  | .giveUpDiscardDeadline => execGiveUpDiscardDeadline_steady h
  | .diagnosisFault .. => execDiagnosisFault_steady h ..
  | .aqdDeep => execAqdDeep_steady h
  | .aqdWake => execAqdWake_steady h
  | .linkSleepEntry .. => execLinkSleepEntry_steady h ..
  | .linkSleepExit .. => execLinkSleepExit_steady h ..
  | .txqDoorbell .. => execTxqDoorbell_steady h ..
  | .rxqDoorbell .. => execRxqDoorbell_steady h ..
  | .descriptorFetch .. => execDescriptorFetch_steady h ..
  | .txCompletionWrite .. => execTxCompletionWrite_steady h ..
  | .interruptCoalesceExpiry .. => execInterruptCoalesceExpiry_steady h ..
  | .sliceBind .. => execSliceBind_steady h ..
  | .sliceFence .. => execSliceFence_steady h ..
  | .sliceResume .. => execSliceResume_steady h ..
  | .sliceReset .. => execSliceReset_steady h ..
  | .sliceUnbind .. => execSliceUnbind_steady h ..
  | .vfFlr .. => execVfFlr_steady h ..
  | .vfBusMasterClear .. => execVfBusMasterClear_steady h ..
  | .sliceQuiesced .. => execSliceQuiesced_steady h ..
  | .snapshotInstant => execSnapshotInstant_steady h
  | .cntSnap => execCntSnap_steady h
  | .cntFreeze => execCntFreeze_steady h
  | .cntThaw => execCntThaw_steady h
  | .cntClearWrap .. => execCntClearWrap_steady h ..
  | .commandedInstant => execCommandedInstant_steady h
  | .snapshotImageDone .. => execSnapshotImageDone_steady h ..
  | .bwWindowBoundary => execBwWindowBoundary_steady h
  | .cntArmIdxWrite .. => execCntArmIdxWrite_steady h ..
  | .armFire .. => execArmFire_steady h ..
  | .cntRdLoRead => execCntRdLoRead_steady h
  | .legLoRead .. => execLegLoRead_steady h ..
  | .timeLockRegained .. => execTimeLockRegained_steady h ..
  | .receivePcsChange .. => execReceivePcsChange_steady h ..
  | .tribBufferSlip .. => execTribBufferSlip_steady h ..
  | .partnerClockWake => execPartnerClockWake_steady h
  | .gateEntryBoundary .. => execGateEntryBoundary_steady h ..

/-- A step takes the front command off the queue and, for the rest, runs it or one tick of the clock: both are steady. -/
theorem Steps.steady {s t : State} (h : Steps s t) : Steady { s with pending := s.pending.tail } t := by
  unfold Steps step at h
  split at h
  next hq =>
    cases h
    exact idleTick_steady ⟨by rw [hq]; rfl, id, le_rfl⟩
  next c r hq =>
    have hr : ({ s with pending := r } : State) = { s with pending := s.pending.tail } := by rw [hq]; rfl
    exact (exec_steady (hr ▸ Steady.refl _) c).of t h

/-- Settles O56: a step is steady, and what is steady keeps the queue's rest and the canonical form. -/
theorem stepsKeepCanonicalRegisters : Obligations.StepsKeepCanonicalRegisters :=
  fun _ _ h => ⟨h.steady.queue, h.steady.canon⟩

/-! ### Every command answers -/

/-- A meaning answers a next state: it neither stops with a fault nor refuses. -/
def Answers (r : Res) : Prop := ∃ t, r = .next t

theorem Answers.next (s : State) : Answers (.next s) := ⟨s, rfl⟩

theorem Answers.ite {a b : Res} {c : Prop} [Decidable c] (x : Answers a) (y : Answers b) : Answers (if c then a else b) := by
  split <;> assumption

/-- One condition with a next state either way: in most commands, the state as it is where their conditions do not hold (log entry 4). -/
theorem Answers.guard {s t : State} {c : Prop} [Decidable c] : Answers (if c then .next s else .next t) := .ite (.next s) (.next t)

/-- A case that is answered before the others are looked at. -/
theorem Answers.early {s : State} {b : Res} {c : Prop} [Decidable c] (y : Answers b) : Answers (if c then .next s else b) :=
  .ite (.next s) y

theorem execRegisterWrite_answers (fn off v full) (s : State) : Answers (execRegisterWrite fn off v full s) := by
  unfold execRegisterWrite; split
  · exact .next _
  · exact .early (.early .guard)

theorem execImageSignatureCheck_answers (s : State) : Answers (execImageSignatureCheck s) := by
  refine .ite ?_ (.next _); split
  · exact .next _
  · exact .early .guard

theorem execLearnApply_answers (g) (s : State) : Answers (execLearnApply g s) := by
  unfold execLearnApply; extract_lets; split
  · exact .next _
  · extract_lets; split
    · split <;> exact .next _
    · exact .early (.ite .guard .guard)

theorem execBucketRefill_answers (b) (s : State) : Answers (execBucketRefill b s) := by
  cases b <;> exact .next _

theorem execDispatch_answers (j mayProbe) (s : State) : Answers (execDispatch j mayProbe s) := by
  refine .early (.early (.early (.early (.early ?_)))); split <;> exact .next _

theorem execRillBeatExit_answers (j) (s : State) : Answers (execRillBeatExit j s) := by
  refine .early (.ite .guard (.early ?_)); split
  · exact .next _
  · exact .guard

theorem execMergeRelease_answers (e desc) (s : State) : Answers (execMergeRelease e desc s) := by
  unfold execMergeRelease; split
  · exact .next _
  · exact .guard
  · exact .early .guard
  · exact .guard

theorem execTblCmdDone_answers (g) (s : State) : Answers (execTblCmdDone g s) := by
  unfold execTblCmdDone; split
  · exact .next _
  · extract_lets; split <;> exact .next _

theorem execSpareInService_answers (r) (s : State) : Answers (execSpareInService r s) := by
  unfold execSpareInService; extract_lets; split
  · exact .next _
  · exact .ite .guard (.next _)

theorem execSteeringBlockAccept_answers (k block) (s : State) : Answers (execSteeringBlockAccept k block s) := by
  refine .ite (.early (.early (.early (.ite ?ask (.early (.ite ?sync .guard)))))) (.next _)
  case ask => refine .early (.early ?_); split <;> exact .next _
  case sync => refine .ite ?_ (.next _); extract_lets; split <;> exact .next _

theorem execEpochConfirmed_answers (t ok) (s : State) : Answers (execEpochConfirmed t ok s) := by
  unfold execEpochConfirmed; extract_lets; split
  · exact .next _
  · refine .early (.early (.early ?_)); split
    · exact .next _
    · exact .guard

theorem execComparatorFire_answers (k) (s : State) : Answers (execComparatorFire k s) := by
  refine .ite ?_ .guard; split <;> exact .next _

theorem execLaunchLate_answers (j) (s : State) : Answers (execLaunchLate j s) := by
  unfold execLaunchLate; extract_lets; split
  · exact .early .guard
  · exact .next _

theorem execPkeCheckpoint_answers (n) (s : State) : Answers (execPkeCheckpoint n s) := by
  unfold execPkeCheckpoint; split
  · exact .next _
  · refine .early (.early (.early ?_)); split <;> exact .next _

theorem execPkeJobEnd_answers (a b f) (s : State) : Answers (execPkeJobEnd a b f s) := by
  unfold execPkeJobEnd; split
  · exact .next _
  · exact .early (.early (.early .guard))

theorem execDescriptorFetch_answers (fn r desc frame) (s : State) : Answers (execDescriptorFetch fn r desc frame s) := by
  refine .early ?_; split
  · exact .next _
  · split
    · exact .next _
    · refine .early ?_; split <;> exact .next _

/-- Every command answers a next state. The cases are grouped by the shape of their meaning: first those that branch on conditions alone, then
those that also match on a value; every other meaning is one next state outright. -/
theorem exec_answers (c : Instr) (s : State) : Answers (exec c s) := by
  cases c
  case holeAccess | mainPowerLost | coldResetRelease | coldRstNAssert | functionLevelReset | slotSelection | calibrationLoad | keyUnwrap
    | selfTests | laneTrainingStart | negWaitTimeout | successTimerExpiry | txnTimeoutExpiry | txnApplyInstant | verdictReturn
    | ageingSweepVisit | pinHoldExpiry | slotDrainComplete | autoNextRetry | assocRemoveDrainComplete | rillFault | fenceComplete
    | fenceDeadline | katRun | rillWakeComplete | slowLoop | schedEntryWord3Write | timedRotation | keyidRetireComplete | scrubVisit
    | rowRepair | trainTimeout | laneFault | laneDegrade | sleepReached | wakeComplete | preemptVerify | cascadeFrameReceive
    | epochPeriodExpiry | epochJournalRetry | pmSecondBoundary | stepInstant | gpioCapture | timeUnlock | entropyHealthFail
    | undervoltageDelayExpiry | keyClearComplete | wellBrownOut | aqdDeskewLock | retransmitTimeout | heartbeatSend | takeOverComplete
    | giveUpDiscardDeadline | linkSleepExit | interruptCoalesceExpiry | sliceQuiesced | snapshotInstant | bwWindowBoundary | armFire
    | timeLockRegained | receivePcsChange | tribBufferSlip =>
    exact .guard
  case portBringUp | headerRecordClassify | spillWriteAck | fetchBackComplete | cascadeFrameSend | tbSnapFracRead | smbusZeroiseWrite
    | authFrameReceive | dataFrameReceive | hbLoss | linkSleepEntry =>
    exact .early .guard
  case nodeWriteBack | linkChangeWake => exact .ite .guard (.next _)
  case laneFaultClear => exact .ite (.early .guard) (.next _)
  case frameArrival => exact .early (.early (.early (.early .guard)))
  case queueAdmission | slotLoadComplete => exact .early (.early (.early (.early (.early .guard))))
  case txnValidationEnd | followCandidateReady | wakePatternMatch => refine .ite ?_ (.next _); extract_lets; split <;> exact .next _
  case frameEnd | spill | pkeJobStart => refine .early ?_; extract_lets; split <;> exact .next _
  case beatFeed | configFrameReceive => refine .early (.early (.early ?_)); split <;> exact .next _
  case rxRetireTimerExpiry | spareAlign | epochKeyDerived | commandedInstant =>
    dsimp -zeta only [exec, execRxRetireTimerExpiry, execSpareAlign, execEpochKeyDerived, execCommandedInstant]
    extract_lets; split <;> exact .next _
  case unservedBlockAccess | snapshotImageDone | gateEntryBoundary =>
    dsimp -zeta only [exec, execUnservedBlockAccess, execSnapshotImageDone, execGateEntryBoundary]; split
    · exact .next _
    · exact .guard
  case reservationBoundaryRecord | laneMarkerLock | txCompletionWrite =>
    dsimp -zeta only [exec, execReservationBoundaryRecord, execLaneMarkerLock, execTxCompletionWrite]; extract_lets; split
    · exact .next _
    · exact .guard
  case askTimeout | launchEligible | launchRelease =>
    dsimp -zeta only [exec, execAskTimeout, execLaunchEligible, execLaunchRelease]; extract_lets; split
    · exact .guard
    · exact .next _
  case registerWrite => exact execRegisterWrite_answers _ _ _ _ s
  case imageSignatureCheck => exact execImageSignatureCheck_answers s
  case learnApply => exact execLearnApply_answers _ s
  case bucketRefill => exact execBucketRefill_answers _ s
  case dispatch => exact execDispatch_answers _ _ s
  case rillBeatExit => exact execRillBeatExit_answers _ s
  case mergeRelease => exact execMergeRelease_answers _ _ s
  case tblCmdDone => exact execTblCmdDone_answers _ s
  case spareInService => exact execSpareInService_answers _ s
  case steeringBlockAccept => exact execSteeringBlockAccept_answers _ _ s
  case epochConfirmed => exact execEpochConfirmed_answers _ _ s
  case comparatorFire => exact execComparatorFire_answers _ s
  case launchLate => exact execLaunchLate_answers _ s
  case pkeCheckpoint => exact execPkeCheckpoint_answers _ s
  case pkeJobEnd => exact execPkeJobEnd_answers _ _ _ s
  case descriptorFetch => exact execDescriptorFetch_answers _ _ _ _ s
  all_goals exact .next _

/-- Settles O55: no arm of `exec` ends in a fault or a refusal. -/
theorem everyCommandAnswers : Obligations.EveryCommandAnswers := exec_answers

/-! ### Register accesses: the flags of GLB_ERR, and the answer of an access in each case -/

/-- A GLB_ERR bit that is set changes registers alone. -/
theorem State.raiseErr_frame (s : State) (f : Fld) (a : Nat) : s.raiseErr f a = { s with regs := (s.raiseErr f a).regs } := by
  unfold State.raiseErr; split <;> rfl

@[simp] theorem State.serves_raiseErr (s : State) (f : Fld) (a : Nat) (b : Block) : (s.raiseErr f a).serves b = s.serves b := by
  rw [State.raiseErr_frame]; rfl

/-- The bit that is set reads 1. -/
theorem State.flag_raiseErr_same (s : State) {f : Fld} (a : Nat) (hl : f.len = 1) (hf : f.lo + f.len ≤ 32) :
    (s.raiseErr f a).flag R.GLB_ERR f = true := by
  unfold State.raiseErr State.flag
  rw [State.fld_setFld_same _ _ _ _ hf, hl]
  rfl

/-- GLB_ERR_ADDR takes the offset of the access only where GLB_ERR read 0 (R492). -/
theorem State.errAddr_raiseErr (s : State) (f : Fld) (a : Nat) : (s.raiseErr f a).fld R.GLB_ERR_ADDR F.GLB_ERR_ADDR_OFFSET =
    if s.reg R.GLB_ERR = 0 then barOffset a % 2 ^ F.GLB_ERR_ADDR_OFFSET.len else s.fld R.GLB_ERR_ADDR F.GLB_ERR_ADDR_OFFSET := by
  unfold State.raiseErr
  rw [State.fld_setFld_reg _ _ _ _ (by decide)]
  split
  · exact State.fld_setFld_same _ _ _ _
  · rfl

/-- No register but GLB_ERR and GLB_ERR_ADDR changes. -/
theorem State.reg_raiseErr_other (s : State) (f : Fld) (a : Nat) {b : Nat} (he : b ≠ R.GLB_ERR) (ha : b ≠ R.GLB_ERR_ADDR) :
    (s.raiseErr f a).reg b = s.reg b := by
  unfold State.raiseErr
  rw [State.reg_setFld_other _ _ _ he]
  split
  · exact State.reg_setFld_other _ _ _ ha
  · rfl

section Access
variable {s : State} {fn : Fn} {off a : Nat} {v : Word} {full : Bool}
  (hr : s.reachable = true) (hb : hasBar s fn = true) (ha : busAddr fn off = some a)
include hr hb ha

/-- A full aligned write in the hole (R490). -/
theorem execRegisterWrite_full_hole (ho : off % 4 = 0) (h : blockOf a = .hole) :
    execRegisterWrite fn off v true s = .next (s.raiseErr F.GLB_ERR_HOLE a) := by
  simp [execRegisterWrite, hr, hb, ha, ho, h]

/-- A full aligned write outside the hole acts or is flagged as its block is served (R5, R37). -/
theorem execRegisterWrite_full (ho : off % 4 = 0) (h : blockOf a ≠ .hole) :
    execRegisterWrite fn off v true s = .next (s.accessWrite a (fullWrite a v)) := by
  simp [execRegisterWrite, hr, hb, ha, ho, h]

/-- A partial or unaligned write is discarded, whatever its value: PARTIAL is set, and the flag that a full write would set (R5). -/
theorem execRegisterWrite_partial (hp : full = false ∨ off % 4 ≠ 0) : execRegisterWrite fn off v full s =
    .next (if blockOf a = .hole then (s.raiseErr F.GLB_ERR_PARTIAL a).raiseErr F.GLB_ERR_HOLE a
      else if s.serves (blockOf a) then s.raiseErr F.GLB_ERR_PARTIAL a
      else (s.raiseErr F.GLB_ERR_PARTIAL a).raiseErr F.GLB_ERR_STATE a) := by
  simp [execRegisterWrite, hr, hb, ha, hp]

/-- An access of a block that is not served: STATE is set, and a read returns 0 (R37). -/
theorem execUnservedBlockAccess_unserved (write : Bool) (h : blockOf a ≠ .hole) (hs : s.serves (blockOf a) = false) :
    execUnservedBlockAccess fn off write s =
      .next (if write then s.raiseErr F.GLB_ERR_STATE a else (s.raiseErr F.GLB_ERR_STATE a).emit (.readData fn a 0)) := by
  simp [execUnservedBlockAccess, hr, hb, ha, h, hs]

end Access

/-- An access in the hole: HOLE is set, and a read returns 0 (R490). -/
theorem execHoleAccess_hole {s : State} {off : Nat} (write : Bool) (hr : s.reachable = true) (ho : off < 0x4000000)
    (h : blockOf (off / 4 * 4) = .hole) : execHoleAccess off write s =
      .next (if write then s.raiseErr F.GLB_ERR_HOLE (off / 4 * 4)
        else (s.raiseErr F.GLB_ERR_HOLE (off / 4 * 4)).emit (.readData .pf (off / 4 * 4) 0)) := by
  simp [execHoleAccess, hr, ho, h]

/-- Settles O8: each access falls in one case of the access laws, and the flags are those of `raiseErr`. -/
theorem registerAccesses : Obligations.RegisterAccesses := by
  refine ⟨?served, ?partialServed, ?flagged, ?partialFlagged, ?hole, ?unserved, ?flags⟩
  case served =>
    intro s fn off v a hr hb ha ho h hs
    have := execRegisterWrite_full (v := v) hr hb ha ho h
    rwa [State.accessWrite_served hr hs] at this
  case partialServed =>
    intro s fn off v full a hr hb ha hp h hs
    have hw := execRegisterWrite_partial (v := v) hr hb ha hp
    rwa [if_neg h, if_pos hs] at hw
  case flagged =>
    intro s fn off v a hr hb ha ho
    refine ⟨execRegisterWrite_full_hole hr hb ha ho, fun h hs => ?_⟩
    have := execRegisterWrite_full (v := v) hr hb ha ho h
    rwa [State.accessWrite_unserved hr hs] at this
  case partialFlagged =>
    intro s fn off v full a hr hb ha hp
    have hw := execRegisterWrite_partial (v := v) hr hb ha hp
    exact ⟨fun h => by rwa [if_pos h] at hw, fun h hs => by rwa [if_neg h, hs, if_neg Bool.false_ne_true] at hw⟩
  case hole =>
    intro s off hr ho h
    exact ⟨execHoleAccess_hole true hr ho h, execHoleAccess_hole false hr ho h⟩
  case unserved =>
    intro s fn off a hr hb ha h hs
    exact ⟨execUnservedBlockAccess_unserved hr hb ha true h hs, execUnservedBlockAccess_unserved hr hb ha false h hs⟩
  case flags =>
    intro s f a hf
    obtain ⟨hl, hi⟩ : f.len = 1 ∧ f.lo + f.len ≤ 32 := by rcases hf with rfl | rfl | rfl | rfl <;> decide
    exact ⟨_, rfl, s.raiseErr_frame f a, s.flag_raiseErr_same a hl hi, s.errAddr_raiseErr f a, fun _ => s.reg_raiseErr_other f a⟩

end Sys2Proof.Machine
end

section
/-! The family of spec/01_architecture.md: restarts of the MC and the function-level reset, the arrival and the end of a frame, and its way
through dispatch, its rill and merge. -/

namespace Sys2Proof.Machine

/-! ### Restarts of the MC and the function-level reset -/

/-- The global block is served in every state in which an access reaches the register path (R35, R37). -/
theorem State.serves_glb {s : State} (h : s.reachable = true) : s.serves .glb = true := by
  have hw : s.dev.state ≠ .wellOnly := by
    simp only [State.reachable, Bool.and_eq_true, decide_eq_true_eq] at h
    exact h.2
  unfold State.serves
  cases hd : s.dev.state with
  | wellOnly => exact absurd hd hw
  | _ => rfl

/-- A write of GLB_RESET with the key acts (R493). -/
theorem glbReset_key {s : State} {key : Nat} (k : State → State) (hr : s.reachable = true) (hk : key % 65536 = 0xA55A) :
    glbReset key k s = .next (k s) := by
  have hs : s.serves (blockOf R.GLB_RESET) = true := State.serves_glb hr
  simp only [glbReset, State.access_served hr hs, if_pos hk]

/-! An MC restart ends what the MC has under way, and there is nothing to end where no transaction, no mailbox operation and no snapshot
image is under way (R31). -/

theorem txnRestart_idle {s : State} (h : s.txn.state = .idle) : txnRestart s = s := by simp [txnRestart, h]

theorem abortMailbox_free {s : State} (h : s.flag R.KST_STATUS F.KST_STATUS_BUSY = false) : abortMailbox s = s := by simp [abortMailbox, h]

theorem abortImage_none {s : State} (h : s.snap.image = none) : abortImage s = s := by simp [abortImage, h]

/-- With no command of the MC under way its restart is counted and takes it down, and does nothing else. -/
theorem mcRestart_undisturbed {s : State} (ht : s.txn.state = .idle) (hk : s.flag R.KST_STATUS F.KST_STATUS_BUSY = false)
    (hi : s.snap.image = none) : mcRestart s = { s with dev := { s.dev with
      mcUp := false, mcRestarting := true, watchdog := false, mcRestarts := min (s.dev.mcRestarts + 1) 65535 } } := by
  unfold mcRestart
  dsimp only
  rw [txnRestart_idle (by exact ht), abortMailbox_free (by exact hk), abortImage_none (by exact hi)]

/-- With no result held there is no completion to write when the MC serves again (R408). -/
theorem pkeFlush_noneEnded {s : State} (h : ∀ e ∈ s.pke.jobs, e.2.ended = none) : pkeFlush s = s :=
  List.foldlRecOn (motive := (· = s)) _ _ rfl fun _ ht e he => by simp [h e he, ht]

/-- Entries taken out of a map by their keys read as the default. -/
theorem kget_filter_key {α : Type} (d : α) (m : KMap α) (p : Nat → Bool) (k : Nat) :
    kget d (m.filter (fun e => !p e.1)) k = if p k then d else kget d m k := by
  induction m with
  | nil => simp [kget]
  | cons e r ih =>
    obtain ⟨i, v⟩ := e
    by_cases hp : p i
    · rw [List.filter_cons_of_neg (by simp [hp]), ih]
      by_cases hk : i = k
      · subst hk; simp [hp]
      · simp [kget, hk]
    · rw [List.filter_cons_of_pos (by simp [hp])]
      by_cases hk : i = k
      · subst hk; simp [kget, hp]
      · simp [kget, hk, ih]

/-- With no transaction open a function-level reset takes the words of the MSI-X table and the jobs of the public-key engine (R52). -/
theorem execFunctionLevelReset_noTxn {s : State} (hr : running s = true) (ht : s.txn.state ≠ .open) : execFunctionLevelReset s =
    .next { s with pke := { s.pke with jobs := [], run := none, paused := false },
                   regs := s.regs.filter (fun e => !decide (0xA08000 ≤ e.1 ∧ e.1 < 0xA09008)) } := by
  simp only [execFunctionLevelReset, hr, ht, if_true, if_false, State.modPke]

/-- Settles O3: nothing is under way for a restart to end, and a function-level reset filters the register map. -/
theorem mcAndFunctionReset : Obligations.McAndFunctionReset := by
  refine ⟨?restart, ?expiry, ?watchdog, ?complete, ?function⟩
  case restart =>
    intro s key hr hk hm ht hb hi
    exact (glbReset_key _ hr hk).trans (by simp [hm, mcRestart_undisturbed ht hb hi])
  case expiry =>
    intro s hr hw ht hb hi
    simp [Completes, exec, execMcWatchdogExpiry, hr, hw, mcRestart_undisturbed ht hb hi]
  case watchdog =>
    intro s hr hm
    simp [Completes, exec, execMcWatchdogRestart, hr, hm]
  case complete =>
    intro s hm hp
    simp only [Completes, exec, execMcRestartComplete, hm, if_true]
    rw [pkeFlush_noneEnded (by exact hp)]
  case function =>
    intro s hr ht
    refine ⟨_, execFunctionLevelReset_noTxn hr ht, rfl, rfl, fun a => ?_, rfl⟩
    have := kget_filter_key (resetVal a) s.regs (fun a => decide (0xA08000 ≤ a ∧ a < 0xA09008)) a
    simp only [decide_eq_true_eq] at this
    exact this

/-! ### The arrival of a frame (R16, R98, R276) -/

section Arrival
variable {s : State} {p : Nat} {header : List Byte}

theorem execFrameArrival_waking (ok : Bool) (hw : (s.port p).sleep = .waking) : execFrameArrival p header ok s = .next (wakeDrop s p) := by
  simp [execFrameArrival, hw]

variable (hw : (s.port p).sleep ≠ .waking)
include hw

theorem execFrameArrival_down (ok : Bool) (hu : portUp s p = false) : execFrameArrival p header ok s = .next s := by
  simp [execFrameArrival, hw, hu]

variable (hu : portUp s p = true)
include hu

theorem execFrameArrival_badPreamble : execFrameArrival p header false s = .next (s.count (.port p 5)) := by
  simp [execFrameArrival, hw, hu]

theorem execFrameArrival_overrun (hr : 32 ≤ recordsWaiting s p) :
    execFrameArrival p header true s = .next ((s.count (.port p 6)).setFld (aPORT_ERR p) F.PORT_ERR_OVERRUN 1) := by
  simp [execFrameArrival, hw, hu, hr]

variable (hr : recordsWaiting s p < 32)
include hr

theorem execFrameArrival_noCell (hl : 64 ≤ header.length) (hc : cellCapacity s (ownerOf s p) ≤ cellsUsed s (ownerOf s p)) :
    execFrameArrival p header true s = .next (s.count (.port p 11)) := by
  simp [execFrameArrival, hw, hu, Nat.not_le.mpr hr, hl, hc]

/-- A runt needs no cell. -/
theorem execFrameArrival_taken (hc : header.length < 64 ∨ cellsUsed s (ownerOf s p) < cellCapacity s (ownerOf s p)) :
    ∃ u, u = (if portUnlocked s p = true then s.count (.port p 30) else s) ∧ execFrameArrival p header true s =
      .next { u.setFrame u.nextFrame { ingress := p, bytes := header, ts := u.rxStamps p, unlocked := portUnlocked u p } with
        nextFrame := u.nextFrame + 1 } := by
  have hc : ¬(64 ≤ header.length ∧ cellCapacity s (ownerOf s p) ≤ cellsUsed s (ownerOf s p)) := by omega
  exact ⟨_, rfl, by simp [execFrameArrival, hw, hu, Nat.not_le.mpr hr, hc]⟩

end Arrival

/-! ### The checks at the end of a frame (R98, R99) -/

@[simp] theorem fcsOf_length (l : List Byte) : (fcsOf l).length = 4 := rfl

/-- A number that lies within the first of two byte strings is read from it alone. -/
theorem beAt_append_left {a b : List Byte} {o n : Nat} (h : o + n ≤ a.length) : beAt (a ++ b) o n = beAt a o n := by
  have : ((a ++ b).drop o).take n = (a.drop o).take n := by
    rw [List.drop_append_of_le_length (by omega), List.take_append_of_le_length (by rw [List.length_drop]; omega)]
  simp only [beAt, slice, this]

/-- A whole frame of 64 octets or more with its right FCS is judged by its length, and within MAX_FRAME by its EtherType. -/
theorem checkFrame_rightFcs (s : State) (p : Nat) {b : List Byte} (h : 60 ≤ b.length) : checkFrame s p (b ++ fcsOf b) true true true =
    if s.fld (aPORT_CFG p) F.PORT_CFG_MAX_FRAME < b.length + 4 then .oversize
    else if beAt b 12 2 = 0x8808 then .macControl else .good := by
  have hl : ¬ b.length + 4 < 64 := by omega
  simp [checkFrame, hl, beAt_append_left (show 12 + 2 ≤ b.length by omega)]

theorem checkFrame_short (s : State) (p : Nat) {b : List Byte} (cw : Bool) (h : b.length < 64) : checkFrame s p b cw true true = .runt := by
  simp [checkFrame, h]

theorem checkFrame_badCodeword (s : State) (p : Nat) {b : List Byte} (hl : 64 ≤ b.length)
    (hm : b.length ≤ s.fld (aPORT_CFG p) F.PORT_CFG_MAX_FRAME) : checkFrame s p b false true true = .fcs := by
  simp [checkFrame, Nat.not_lt.mpr hl, Nat.not_lt.mpr hm]

theorem checkFrame_noTail (s : State) (p : Nat) (b : List Byte) (cw re : Bool) : checkFrame s p b cw re false = .truncated := rfl

/-- Settles O12: the conditions of an arrival are judged one after the other, and each answer of the checks has its own counter. -/
theorem frameReception : Obligations.FrameReception := by
  refine ⟨?taken, ?waking, ?down, ?preamble, ?overrun, ?noCell, ?ended, ?rightFcs, ?macControl, ?runt, ?codeword, checkFrame_noTail⟩
  case taken => exact fun s p header hu hw hr hc => execFrameArrival_taken hw hu hr hc
  case waking => exact fun s p header ok hw => execFrameArrival_waking ok hw
  case down => exact fun s p header ok hw hu => execFrameArrival_down hw ok hu
  case preamble => exact fun s p header hu hw => execFrameArrival_badPreamble hw hu
  case overrun => exact fun s p header hu hw hr => execFrameArrival_overrun hw hu hr
  case noCell => exact fun s p header hu hw hr hl hc => execFrameArrival_noCell hw hu hr hl hc
  case ended =>
    intro s h tail cw re ar hf hc hb hp
    refine ⟨_, _, rfl, rfl, ?_⟩
    have hg : ¬(s.frame h = {} ∨ (s.frame h).complete = true ∨ (s.frame h).bad = true ∨ 32 ≤ (s.frame h).ingress) := by
      simp [hf, hc, hb, hp]
    simp only [Completes, exec, execFrameEnd, if_neg hg]
    cases checkFrame s (s.frame h).ingress ((s.frame h).bytes ++ tail) cw re (ar && tailFits s h ((s.frame h).bytes ++ tail)) <;> rfl
  case rightFcs =>
    intro s p b hl he
    rw [checkFrame_rightFcs s p hl, if_neg he, ← ite_not]
    simp only [Nat.not_lt]
  case macControl =>
    intro s p b hl hm he
    rw [checkFrame_rightFcs s p hl, if_neg (Nat.not_lt.mpr hm), if_pos he]
  case runt => exact fun s p b cw hl => checkFrame_short s p cw hl
  case codeword => exact fun s p b hl hm => checkFrame_badCodeword s p hl hm

/-! ### Dispatch (R207, R210, R211) -/

@[simp] theorem State.job_count (s : State) (c : Ctr) (j : Nat) : (s.count c).job j = s.job j := by rw [State.count_frame]; rfl

section Dispatch
variable {s : State} {j : Nat} (mayProbe : Bool) (hs : (s.job j).stage = .selected)
include hs

theorem execDispatch_closed (hn : nodeOpen s (s.job j).egress = false) :
    execDispatch j mayProbe s = .next ((closedCount s (s.job j).egress).endJob j (.aborted, 5)) := by
  simp [execDispatch, hs, hn]

variable (hn : nodeOpen s (s.job j).egress = true)
include hn

theorem execDispatch_held (ht : tepHeld s (s.job j) = true) : execDispatch j mayProbe s = .next s := by
  simp [execDispatch, hs, hn, ht]

/-- Only frames of ESP associations are judged before a context is asked for. -/
theorem execDispatch_noContext (ha : (s.job j).action ≠ 2) (hc : 8192 ≤ contextsUsed s (inboundTo (s.job j).egress)) :
    execDispatch j mayProbe s = .next s := by
  simp [execDispatch, hs, hn, ha, hc]

variable (ht : tepHeld s (s.job j) = false)
include ht

theorem execDispatch_espDrop (ha : (s.job j).action = 2) (hv : (s.assoc false (s.job j).assoc).valid = true)
    (hd : espDrops s (s.assoc false (s.job j).assoc).record (s.job j).egress (s.frame (s.job j).frame).bytes = true) :
    execDispatch j mayProbe s = .next (dropAt s j (.txsa (s.job j).assoc 4) (.aborted, 7)) := by
  simp [execDispatch, hs, hn, ht, ha, hv, hd]

theorem execDispatch_onRill {r : Nat}
    (hd : (s.job j).action ≠ 2 ∨ (s.assoc false (s.job j).assoc).valid = false ∨
      espDrops s (s.assoc false (s.job j).assoc).record (s.job j).egress (s.frame (s.job j).frame).bytes = false)
    (hc : contextsUsed s (inboundTo (s.job j).egress) < 8192) (hr : chooseRill s (inboundTo (s.job j).egress) = some r) :
    execDispatch j mayProbe s = .next (dispatchOn s j r mayProbe) := by
  have hc := Nat.not_le.mpr hc
  rcases hd with ha | hv | he
  · simp [execDispatch, hs, hn, ht, ha, hc, hr]
  · simp [execDispatch, hs, hn, ht, hv, hc, hr]
  · simp [execDispatch, hs, hn, ht, he, hc, hr]

end Dispatch

theorem dispatchOn_noAssoc {s : State} {j : Nat} (r : Nat) (mayProbe : Bool) (h : (s.job j).usesAssoc = none) :
    dispatchOn s j r mayProbe = takeContext s j r 0 0 := by simp [dispatchOn, h]

/-! ### What an entry takes with its context (R211) -/

/-- Queue entry `j` with a context: the next tag of its egress, rill `r`, and the load of its key slot. -/
def contextJob (s : State) (j r slot pn : Nat) : Job :=
  { s.job j with stage := .dispatched, tag := kget 0 s.nextTag (s.job j).egress, rill := r, slot := slot, pn := pn, gen :=
    match (s.job j).usesAssoc with
      | some (rx, i) => ((s.assoc rx i).slot slot).gen
      | none => 0 }

/-- Of the queue entries, taking a context writes the one that takes it alone. -/
theorem takeContext_jobs (s : State) (j r slot pn : Nat) : (takeContext s j r slot pn).jobs = kset {} s.jobs j (contextJob s j r slot pn) := by
  unfold takeContext contextJob
  dsimp only
  rw [State.count_frame]
  cases (s.job j).usesAssoc <;> rfl

theorem takeContext_job_same (s : State) (j r slot pn : Nat) : (takeContext s j r slot pn).job j = contextJob s j r slot pn := by
  show kget {} (takeContext s j r slot pn).jobs j = _
  rw [takeContext_jobs, kget_kset_same]

theorem takeContext_job_other (s : State) {j k : Nat} (r slot pn : Nat) (h : k ≠ j) : (takeContext s j r slot pn).job k = s.job k := by
  show kget {} (takeContext s j r slot pn).jobs k = _
  rw [takeContext_jobs, kget_kset_other _ _ _ _ h]
  rfl

theorem takeContext_nextTag (s : State) (j r slot pn e : Nat) : kget 0 (takeContext s j r slot pn).nextTag e =
    if e = (s.job j).egress then (kget 0 s.nextTag (s.job j).egress + 1) % 2 ^ 14 else kget 0 s.nextTag e := by
  unfold takeContext
  dsimp only
  rw [State.count_frame]
  exact kget_kset _ _ _ _ _

/-! ### Reservation boundaries (R182) -/

theorem execReservationBoundaryRecord_alone {s : State} {i k b : Nat} (h : ((s.assoc false i).slot k).resReq = some b)
    (hp : s.pair.partner = .none) : execReservationBoundaryRecord i k s =
      .next (putSlot s false i k { (s.assoc false i).slot k with resEnd := b, resReq := none }) := by
  simp [execReservationBoundaryRecord, h, hp]

theorem execReservationBoundaryRecord_unacknowledged {s : State} {i k b : Nat} (h : ((s.assoc false i).slot k).resReq = some b)
    (hp : s.pair.partner = .ready) (hb : ((s.assoc false i).slot k).backed < b) : execReservationBoundaryRecord i k s = .next s := by
  simp [execReservationBoundaryRecord, h, hp, Nat.not_le.mpr hb]

/-- Settles O21: dispatch judges its conditions in order, and taking a context writes one entry and one egress's tag. -/
theorem dispatchAndTags : Obligations.DispatchAndTags := by
  refine ⟨?noAssoc, ?onRill, ?espDrop, ?waits, ?closed, ?context, ?boundary, ?unacknowledged⟩
  case noAssoc =>
    intro s j mp r hs hn hu ha ht hc hr
    exact dispatchOn_noAssoc r mp hu ▸ execDispatch_onRill mp hs hn ht (.inl ha) hc hr
  case onRill => exact fun s j mp r hs hn ht hd hc hr => execDispatch_onRill mp hs hn ht hd hc hr
  case espDrop => exact fun s j mp hs hn ha ht hv hd => execDispatch_espDrop mp hs hn ht ha hv hd
  case waits =>
    rintro s j mp hs hn (ht | ⟨ha, hc⟩)
    · exact execDispatch_held mp hs hn ht
    · exact execDispatch_noContext mp hs hn ha hc
  case closed => exact fun s j mp hs hn => execDispatch_closed mp hs hn
  case context =>
    intro s j r slot pn
    exact ⟨_, rfl, takeContext_job_same s j r slot pn, (takeContext_nextTag s j r slot pn _).trans (if_pos rfl),
      fun e he => (takeContext_nextTag s j r slot pn e).trans (if_neg he), fun k hk => takeContext_job_other s r slot pn hk⟩
  case boundary =>
    rintro s i k _ b rfl hb hp
    exact execReservationBoundaryRecord_alone hb hp
  case unacknowledged =>
    rintro s i k _ b rfl hb hp hx
    exact execReservationBoundaryRecord_unacknowledged hb hp hx

/-! ### Beats into a rill (R16, R20, R202, R212) -/

theorem execBeatFeed_stalled {s : State} {j : Nat} (keyEcc cellEcc : Nat) (h : feedStalled s (s.job j).rill = true) :
    execBeatFeed j keyEcc cellEcc s = .next s := by
  simp [execBeatFeed, h]

/-- A beat enters a rill on its way to egress `e`: the governor counts it for its direction. -/
def beatEnters (s : State) (e : Nat) : State :=
  { s with sluice := if inboundTo e then { s.sluice with beatsIn := s.sluice.beatsIn + 1 } else { s.sluice with beatsOut := s.sluice.beatsOut + 1 } }

theorem beatEnters_total (s : State) (e : Nat) :
    (beatEnters s e).sluice.beatsIn + (beatEnters s e).sluice.beatsOut = s.sluice.beatsIn + s.sluice.beatsOut + 1 := by
  unfold beatEnters
  split <;> dsimp only <;> omega

/-- Queue entry `j` has a beat that its rill can take: dispatched and not cut, with a beat at hand in the forebay and room in the crossing. -/
structure FeedReady (s : State) (j : Nat) : Prop where
  stage : (s.job j).stage = .dispatched
  skip : (s.job j).skip = false
  stomp : (s.job j).stomp = false
  atHand : (s.job j).fed < beatsOf (s.frame (s.job j).frame)
  inForebay : (s.frame (s.job j).frame).spilled = false
  room : feedStalled s (s.job j).rill = false

section Feed
variable {s : State} {j : Nat} (h : FeedReady s j)
include h

/-- The guard of BEAT_FEED lets the beat through. -/
theorem FeedReady.passes : ¬((s.job j).stage ≠ .dispatched ∨ (s.job j).skip = true ∨ (s.job j).stomp = true ∨
    beatsOf (s.frame (s.job j).frame) ≤ (s.job j).fed ∨ (s.frame (s.job j).frame).spilled = true ∨ feedStalled s (s.job j).rill = true) := by
  simp [h.stage, h.skip, h.stomp, h.atHand, h.inForebay, h.room]

theorem execBeatFeed_cellError (keyEcc : Nat) :
    execBeatFeed j keyEcc 2 s = .next (settleTep ((s.count (.dev 2)).cutFrame (s.job j).frame)) := by
  simp [execBeatFeed, if_neg h.passes]

theorem execBeatFeed_keyError (hf : (s.job j).fed = 0) (ha : (s.job j).usesAssoc.isSome = true) : execBeatFeed j 2 0 s =
    .next (settleTep (((s.setJob j { s.job j with skip := true }).count (.ril (s.job j).rill 3)).alarm (R.RIL_ALARM (s.job j).rill)
      F.RIL_ALARM_KEY_ECC)) := by
  unfold execBeatFeed
  dsimp only
  rw [if_neg h.passes]
  simp [hf, ha]

/-- After the first beat no key is read. -/
theorem execBeatFeed_later (hf : 0 < (s.job j).fed) : execBeatFeed j 0 0 s =
    .next (settleTep (((beatEnters s (s.job j).egress).setJob j { s.job j with fed := (s.job j).fed + 1 }).count (.ril (s.job j).rill 1))) := by
  simp only [execBeatFeed, if_neg h.passes, hf.ne', decide_false, Bool.false_and, if_false]
  rfl

end Feed

/-- A dispatched entry that merge has not done with is cut by what merge has released of it (R20). -/
theorem State.cutJob_dispatched {s : State} {j : Nat} (hs : (s.job j).stage = .dispatched) (hm : (s.job j).merged = false) :
    s.cutJob j = s.setJob j (if (s.job j).released = 0 then { s.job j with skip := true } else { s.job j with stomp := true }) := by
  simp [State.cutJob, Stage.waits, hs, hm]

/-! ### Beats out of a rill, and verdicts (R214 to R216) -/

section Exit
variable {s : State} {j : Nat} (hs : (s.job j).stage = .dispatched) (hk : (s.job j).skip = false) (hv : (s.job j).verdict = none)
include hs hk hv

theorem execRillBeatExit_middle (hl : 0 < (s.job j).left) (hf : (s.job j).left + 1 < (s.job j).fed) (he : exitStalled s (s.job j) = false) :
    execRillBeatExit j s = .next (flows (s.setJob j { s.job j with left := (s.job j).left + 1 }) (s.job j).rill) := by
  have hp : (s.job j).fed ≠ 0 := by omega
  have hn : ¬(s.job j).fed ≤ (s.job j).left := by omega
  simp [execRillBeatExit, hs, hk, hv, hp, hn, he, hl.ne', hf.ne]

theorem execRillBeatExit_stomped (hp : 0 < (s.job j).fed) (hl : (s.job j).fed = (s.job j).left) (ht : (s.job j).stomp = true) :
    execRillBeatExit j s = .next (finishRill s j (s.job j).left) := by
  simp [execRillBeatExit, hs, hk, hv, hp.ne', hl.le, ht]

end Exit

theorem execVerdictReturn_returned {s : State} {j : Nat} (hs : (s.job j).stage = .dispatched) (hc : (s.job j).completed = false)
    (hv : (s.job j).skip = true ∨ (s.job j).verdict.isSome = true) : execVerdictReturn j s =
      .next (settle (completeAssoc (s.setJob j { s.job j with completed := true }) (s.job j)) j) := by
  simp [execVerdictReturn, hs, hc, hv]

/-! ### Merge (R36, R101, R214) -/

theorem mergeStep_skip {s : State} {e j : Nat} (desc : HostRead) (h : (s.job j).skip = true) :
    mergeStep s e j desc = mergeDone (s.count (.ril (s.job j).rill 5)) j (.aborted, 8) := by
  simp [mergeStep, h]

section Step
variable {s : State} {e j : Nat} (desc : HostRead) (hk : (s.job j).skip = false) (hd : (s.job j).discard = false) (hs : (s.job j).stage ≠ .lost)
include hk hd hs

theorem mergeStep_closed (he : egressOpen s e (decide (0 < (s.job j).released)) = false) :
    mergeStep s e j desc = mergeDone (egressCount s e 19) j (.aborted, 5) := by
  simp [mergeStep, hk, hd, hs, he]

/-- A frame that has begun passes no check of a first beat. -/
theorem mergeStep_begun (hr : 0 < (s.job j).released) (he : egressOpen s e true = true) : mergeStep s e j desc = releaseBeat s j desc := by
  simp [mergeStep, hk, hd, hs, hr, hr.ne', he]

end Step

theorem releaseBeat_middle {s : State} {j : Nat} (desc : HostRead) (h : (s.job j).released + 1 < (s.job j).left) :
    releaseBeat s j desc = s.setJob j { s.job j with released := (s.job j).released + 1 } := by
  simp [releaseBeat, Nat.lt_of_succ_lt h, h.ne]

/-- A skip token is discarded at once, behind a preempted frame too. -/
theorem execMergeRelease_skip {s : State} {e j : Nat} (desc : HostRead) (hm : mergeHead s e = some j) (hk : (s.job j).skip = true) :
    execMergeRelease e desc s = .next (mergeStep s e j desc) := by
  cases hp : parkedOf s e <;> simp [execMergeRelease, hp, hm, hk]

/-- The head is taken up where no frame is preempted and none overtakes it. -/
theorem execMergeRelease_head {s : State} {e j : Nat} (desc : HostRead) (hp : parkedOf s e = none) (hm : mergeHead s e = some j)
    (hc : mayCut s e (s.job j) = false ∨ overtaken s e (s.job j) = false) : execMergeRelease e desc s = .next (mergeStep s e j desc) := by
  rcases hc with hc | hc <;> simp [execMergeRelease, hp, hm, hc]

theorem execMergeRelease_preempts {s : State} {e j : Nat} (desc : HostRead) (he : e < 32) (hp : parkedOf s e = none)
    (hm : mergeHead s e = some j) (hs : (s.job j).stage = .dispatched) (hk : (s.job j).skip = false)
    (hc : mayCut s e (s.job j) = true) (ho : overtaken s e (s.job j) = true) : execMergeRelease e desc s = .next (park s j) := by
  simp [execMergeRelease, hp, hm, he, hs, hk, hc, ho]

theorem execMergeRelease_resumes {s : State} {e q : Nat} (desc : HostRead) (hp : parkedOf s e = some q) (hm : mergeHead s e = none) :
    execMergeRelease e desc s = .next (if gateOpenFor s e (s.job q).cls 0 = some 0 then s else mergeStep s e q desc) := by
  simp only [execMergeRelease, hp, hm]
  split <;> rfl

/-- Settles O22: what BEAT_FEED, RILL_BEAT_EXIT, VERDICT_RETURN and MERGE_RELEASE answer in each case; a head that is taken up is handled as
`mergeStep` says. -/
theorem beatsAndMerge : Obligations.BeatsAndMerge := by
  refine ⟨?cellError, ?cut, ?later, ?stalled, ?keyError, ?middle, ?stomped, ?verdict, ?skip, ?closed, ?release, ?preempts, ?resumes⟩
  case cellError => exact fun s j ke h1 h2 h3 h4 h5 h6 => execBeatFeed_cellError ⟨h1, h2, h3, h4, h5, h6⟩ ke
  case cut => exact fun s j hs hm => State.cutJob_dispatched hs hm
  case later =>
    intro s j h1 h2 h3 hf h4 h5 h6
    refine ⟨_, execBeatFeed_later ⟨h1, h2, h3, h4, h5, h6⟩ hf, ?_, ?_, ?_, ?_⟩
    · rw [State.job_count, State.job_setJob, if_pos rfl]
    · rw [State.count_frame]
      exact beatEnters_total s _
    · rw [State.count_counters, if_pos rfl]
      rfl
    · exact State.regs_count _ _
  case stalled => exact fun s j ke ce _ h => execBeatFeed_stalled ke ce h
  case keyError =>
    rintro s j _ h1 h2 h3 hf ha h4 h5 h6 rfl
    exact execBeatFeed_keyError ⟨h1, h2, h3, hf ▸ h4, h5, h6⟩ hf ha
  case middle => exact fun s j hs hk hv hl hf he => execRillBeatExit_middle hs hk hv hl hf he
  case stomped => exact fun s j hs hk hv hp hl ht => execRillBeatExit_stomped hs hk hv hp hl ht
  case verdict => exact fun s j hs hc hv => execVerdictReturn_returned hs hc hv
  case skip => exact fun s e desc j hm hk => mergeStep_skip desc hk ▸ execMergeRelease_skip desc hm hk
  case closed =>
    intro s e desc j hp hm hk hd hs hc he
    exact mergeStep_closed desc hk hd hs he ▸ execMergeRelease_head desc hp hm hc
  case release =>
    intro s e desc j hp hm hk hd hs hr hc he hl
    exact releaseBeat_middle desc hl ▸ mergeStep_begun desc hk hd hs hr he ▸ execMergeRelease_head desc hp hm hc
  case preempts => exact fun s e desc j he hp hm hs hk hc ho => execMergeRelease_preempts desc he hp hm hs hk hc ho
  case resumes => exact fun s e desc q hp hm => execMergeRelease_resumes desc hp hm

end Sys2Proof.Machine
end

section
/-! The family of spec/02_modes_and_start.md: power and resets, the steps of start and its end, the control of start and the flash, and what
leaves the device state alone. -/

namespace Sys2Proof.Machine

/-- Settles O57: the state after reset writes no register and queues no command. -/
theorem resetIsCanonical : Obligations.ResetIsCanonical := ⟨rfl, fun _ => rfl, rfl⟩

/-! ### What leaves the device record alone (R39) -/

/-- What every step of a fold leaves alone, the fold leaves alone. -/
theorem foldl_keeps {α β γ : Type} {g : α → β} {f : α → γ → α} (h : ∀ t x, g (f t x) = g t) (l : List γ) (s : α) :
    g (l.foldl f s) = g s :=
  List.foldlRecOn (motive := fun t => g t = g s) _ _ rfl fun _ ht x _ => (h _ x).trans ht

theorem LinkOnly.dev {s t : State} (h : LinkOnly s t) : t.dev = s.dev := by rw [h]

theorem LinkOnly.mirror (s : State) (r : List Byte) : LinkOnly s (mirror s r) := by
  unfold Machine.mirror; split
  · unfold sendRec; split
    · exact ((LinkOnly.pair s _).trans (LinkOnly.count _ _)).trans (LinkOnly.pump _)
    · rfl
  · rfl

@[simp] theorem State.interrupt_dev (s : State) (fn : Fn) (v : Nat) : (s.interrupt fn v).dev = s.dev := by rw [State.interrupt_frame]
@[simp] theorem State.raiseErr_dev (s : State) (f : Fld) (a : Nat) : (s.raiseErr f a).dev = s.dev := by rw [State.raiseErr_frame]
@[simp] theorem State.count_dev (s : State) (c : Ctr) : (s.count c).dev = s.dev := by rw [State.count_frame]
@[simp] theorem mirror_dev (s : State) (r : List Byte) : (mirror s r).dev = s.dev := (LinkOnly.mirror s r).dev
@[simp] theorem kstDone_dev (s : State) : (kstDone s).dev = s.dev := by simp [kstDone]

@[simp] theorem State.clearCtrs_dev (s : State) (i n : Nat) : (s.clearCtrs i n).dev = s.dev := by
  induction n with
  | zero => rfl
  | succ n ih => exact ih

@[simp] theorem State.setAssoc_dev (s : State) (rx : Bool) (i : Nat) (x : Assoc) : (s.setAssoc rx i x).dev = s.dev := by
  cases rx <;> rfl

@[simp] theorem saEnd_dev (s : State) (fn : Fn) (st : Status) : (saEnd s fn st).dev = s.dev := by
  cases fn <;> simp [saEnd]

@[simp] theorem updateLoaded_dev (s : State) (n : Nat) (good : Bool) : (updateLoaded s n good).dev = s.dev := by
  unfold updateLoaded; dsimp only
  split <;> split <;> simp

@[simp] theorem loadEnds_dev (s : State) (x : Slot) (good : Bool) : (loadEnds s x good).dev = s.dev := by
  unfold loadEnds; dsimp only
  split <;> split <;> simp

@[simp] theorem clearSlot_dev (s : State) (rx : Bool) (i k : Nat) : (clearSlot s rx i k).dev = s.dev := by
  unfold clearSlot changeSlot putSlot; dsimp only
  split <;> simp

@[simp] theorem removeAssoc_dev (s : State) (rx : Bool) (i : Nat) : (removeAssoc s rx i).dev = s.dev := by
  unfold removeAssoc drainAssoc; dsimp only
  split <;> simp

@[simp] theorem State.freeCells_dev (s : State) (h : Nat) : (s.freeCells h).dev = s.dev := by
  unfold State.freeCells; split <;> rfl

@[simp] theorem State.releaseCopy_dev (s : State) (h : Nat) : (s.releaseCopy h).dev = s.dev := by
  unfold State.releaseCopy; dsimp only
  split <;> simp

@[simp] theorem State.emptied_dev (s : State) (u cls : Nat) : (s.emptied u cls).dev = s.dev := by
  unfold State.emptied; split <;> rfl

@[simp] theorem State.dropJob_dev (s : State) (j : Nat) : (s.dropJob j).dev = s.dev := by
  unfold State.dropJob State.endJob; dsimp only
  split <;> simp

/-! Resets of slices and of their functions. -/

@[simp] theorem clearRings_dev (s : State) (k : Nat) : (clearRings s k).dev = s.dev := by
  unfold clearRings
  exact foldl_keeps (g := State.dev) (fun t r => by simp) _ s

@[simp] theorem resetSlice_dev (s : State) (k : Nat) : (resetSlice s k).dev = s.dev := by
  unfold resetSlice clearSliceCtrs dropDone
  simp only [State.clearCtrs_dev, State.setReg_dev, clearRings_dev]
  refine foldl_keeps (g := State.dev) (fun t i => ?_) _ s
  split <;> split <;> simp

@[simp] theorem silenceSlice_dev (s : State) (k : Nat) : (silenceSlice s k).dev = s.dev := by
  unfold silenceSlice; split
  · rfl
  · dsimp only
    rw [foldl_keeps (g := State.dev) (fun t j => by simp), foldl_keeps (g := State.dev) (fun t r => by simp), State.setSlice_dev]

/-! Restarts of the MC. -/

@[simp] theorem txnEnd_dev (s : State) (st : Status) : (txnEnd s st).dev = s.dev := by
  unfold txnEnd bpEnd txnResult discardTxn
  split <;> simp

@[simp] theorem abortMailbox_dev (s : State) : (abortMailbox s).dev = s.dev := by
  unfold abortMailbox; split
  · simp only [kstDone_dev, State.setFld_dev]
    rw [foldl_keeps (g := State.dev) (fun t i => by simp), foldl_keeps (g := State.dev) (fun t i => by simp)]
  · rfl

/-- An MC restart writes MC_UP, MC_RESTARTS and the watchdog, and not the state of the device (R29, R31). -/
@[simp] theorem mcRestart_devState (s : State) : (mcRestart s).dev.state = s.dev.state := by
  have ht (u : State) : (txnRestart u).dev = u.dev := by unfold txnRestart; split <;> simp
  have hi (u : State) : (abortImage u).dev = u.dev := by unfold abortImage; split <;> rfl
  simp [mcRestart, ht, hi]

@[simp] theorem pkeFlush_dev (s : State) : (pkeFlush s).dev = s.dev := by
  refine foldl_keeps (g := State.dev) (fun t e => ?_) _ s
  split
  · unfold writeCompletion State.modPke
    split <;> simp
  · rfl

/-- An access that reaches its register changes what its effect changes, and any other at most flags. -/
theorem State.access_devState {s : State} (a : Nat) {k : State → State} (h : (k s).dev.state = s.dev.state) :
    (s.access a k).dev.state = s.dev.state := by
  unfold State.access State.deny
  split
  · split
    · exact h
    · split <;> simp
  · rfl

theorem sliceCommand_devState {f : State → State × Status} {s : State} (h : (f s).1.dev = s.dev) :
    ∃ t, sliceCommand f s = .next t ∧ t.dev.state = s.dev.state :=
  ⟨_, rfl, State.access_devState _ (congrArg Dev.state h)⟩

/-- Settles O59: what restarts, function-level resets and slice resets are made of leaves the device record alone, and the restart itself its
state. -/
theorem deviceStateKept : Obligations.DeviceStateKept := by
  refine ⟨?restart, ?expiry, ?complete, ?function, ?virtual, ?slice⟩
  case restart =>
    refine fun s key => ⟨_, rfl, State.access_devState _ ?_⟩
    dsimp only
    split
    · split <;> simp
    · simp
  case expiry =>
    refine fun s => ⟨_, rfl, ?_⟩
    split <;> simp
  case complete =>
    refine fun s => ⟨_, rfl, ?_⟩
    split <;> simp
  case function =>
    intro s
    simp only [Completes, exec, execFunctionLevelReset]
    split
    · refine ⟨_, rfl, ?_⟩
      dsimp only [State.modPke]
      split <;> simp
    · exact ⟨_, rfl, rfl⟩
  case virtual => exact fun s k => ⟨_, rfl, congrArg Dev.state (silenceSlice_dev s _)⟩
  case slice =>
    refine fun s k => sliceCommand_devState ?_
    split
    · exact resetSlice_dev s _
    · rfl
    · rfl

/-! ### The start log (R60) -/

/-- Writes of registers change registers alone. -/
theorem foldl_setReg_frame {γ : Type} (f : γ → Nat) (v : γ → Word) (l : List γ) (s : State) :
    l.foldl (fun t x => t.setReg (f x) (v x)) s = { s with regs := (l.foldl (fun t x => t.setReg (f x) (v x)) s).regs } :=
  List.foldlRecOn (motive := fun t : State => t = { s with regs := t.regs }) _ _ rfl fun t ht x _ => by
    conv_lhs => rw [ht]
    rfl

theorem pushStartLog_frame (s : State) (e : Nat) : pushStartLog s e = { s with regs := (pushStartLog s e).regs } := by
  unfold pushStartLog
  exact foldl_setReg_frame _ _ _ s

/-- A new entry moves the log's 16 registers and no other. -/
theorem reg_pushStartLog_other (s : State) (e : Nat) {a : Nat} (h : ∀ i < 16, a ≠ R.START_LOG_n i) : (pushStartLog s e).reg a = s.reg a := by
  unfold pushStartLog
  refine List.foldlRecOn (motive := fun t : State => t.reg a = s.reg a) _ _ rfl fun t ht x hx => ?_
  rw [State.reg_setReg_other _ _ (h x.2 ?_), ht]
  simpa using List.snd_lt_of_mem_zipIdx hx

/-- The entry of a start is written once. -/
theorem endStart_frame (s : State) (o r : Nat) :
    endStart s o r = { s with regs := (endStart s o r).regs, dev := { s.dev with logDue := false } } := by
  unfold endStart
  cases h : s.dev.logDue with
  | true =>
    simp only [if_true]
    conv_lhs => rw [pushStartLog_frame]
  | false =>
    simp only [Bool.false_eq_true, if_false]
    rw [← h]

theorem reg_endStart_other (s : State) (o r : Nat) {a : Nat} (h : ∀ i < 16, a ≠ R.START_LOG_n i) : (endStart s o r).reg a = s.reg a := by
  unfold endStart; split
  · exact reg_pushStartLog_other _ _ h
  · rfl

/-! ### The successful start (R47, R50) -/

/-- The counts that a successful start clears: FAIL_CONSEC, and that of the slot that runs. -/
def clearFails (s : State) : State :=
  let t := s.setFld R.START_FAILS F.START_FAILS_FAIL_CONSEC 0
  if s.dev.slot = 0 then t else t.setFld R.START_FAILS (failField s.dev.slot) 0

theorem clearFails_frame (s : State) : clearFails s = { s with regs := (clearFails s).regs } := by
  unfold clearFails; split <;> rfl

theorem reg_clearFails_other (s : State) {a : Nat} (h : a ≠ R.START_FAILS) : (clearFails s).reg a = s.reg a := by
  unfold clearFails; split <;> simp [State.reg_setFld_other _ _ _ h]

/-- Counting a start as successful clears its counts, writes its log entry and notes it in the device record. -/
theorem countSuccess_fresh {s : State} (h : s.dev.success = false) : countSuccess s = { s with
    regs := (endStart (clearFails s) 1 0).regs
    dev := { s.dev with
      logDue := false, success := true, timing := false, incConsec := 0
      incA := if s.dev.slot = 1 then 0 else s.dev.incA
      incB := if s.dev.slot = 2 then 0 else s.dev.incB } } := by
  have hc : countSuccess s = (let t := endStart (clearFails s) 1 0
    { t with dev := { t.dev with
      success := true, timing := false, incConsec := 0
      incA := if t.dev.slot = 1 then 0 else t.dev.incA
      incB := if t.dev.slot = 2 then 0 else t.dev.incB } }) := by
    simp only [countSuccess, h, Bool.false_eq_true, if_false]
    rfl
  rw [hc, endStart_frame, clearFails_frame]

theorem countSuccess_counted {s : State} (h : s.dev.success = true) : countSuccess s = s := by simp [countSuccess, h]

/-- A start counted as successful: registers and the device record are all that changes, and the power stays. -/
theorem lateMark_frame (s : State) (mark : Bool) :
    lateMark s mark = { s with regs := (lateMark s mark).regs, dev := { (lateMark s mark).dev with power := s.dev.power } } := by
  unfold lateMark; split
  · cases h : s.dev.success with
    | true => rw [countSuccess_counted h]
    | false => rw [countSuccess_fresh h]
  · rfl

/-! ### What a reset keeps (R52) -/

/-- A reset keeps the registers of the Well, and every other reads as at reset. -/
theorem reg_wipe (s : State) (a : Nat) : (wipe s).reg a = if a ∈ wellRegs then s.reg a else resetVal a := by
  have h (l : List Nat) (m : KMap Word) : kget (resetVal a) (l.foldl (fun m b => kset (resetVal b) m b (s.reg b)) m) a =
      if a ∈ l then s.reg a else kget (resetVal a) m a := by
    induction l generalizing m with
    | nil => rfl
    | cons b l ih =>
      rw [List.foldl_cons, ih]
      by_cases hb : a = b
      · subst hb; simp
      · simp [hb, kget_kset_other]
  exact h wellRegs []

theorem keptByReset_wipe (s : State) : KeptByReset s (wipe s) :=
  ⟨rfl, rfl, rfl, rfl, rfl, rfl, rfl, rfl, rfl, rfl, rfl, fun a h => (reg_wipe s a).trans (if_neg h)⟩

/-- What a reset on the cycle of the 60 s mark keeps is what the state before the mark held. -/
theorem KeptByReset.of_lateMark {s t : State} {mark : Bool} (h : KeptByReset (lateMark s mark) t) : KeptByReset s t := by
  rw [lateMark_frame] at h
  exact h

/-- Start begins with nothing else to be done where the Well is good, no response is pending and no halt is held (R38). -/
theorem beginStart_plain {s : State} (fuses : List Bool) (hw : s.well.ok = true) (hp : s.tmp.pendingLvl = 0) (hh : s.tmp.haltHold = false) :
    beginStart s fuses = { s with
      regs := (endStart s 2 0).regs
      dev := { s.dev with state := .start, step := 1, slot := 0, seq := 0, logDue := true, watchdog := true } } := by
  unfold beginStart
  dsimp only
  rw [endStart_frame]
  simp [hw, takePending, hp, hh]

theorem startLog_mem_wellRegs {i : Nat} (h : i < 16) : R.START_LOG_n i ∈ wellRegs := by
  simp only [wellRegs, List.mem_cons, List.mem_map, List.mem_range]
  exact .inr (.inr ⟨i, h, rfl⟩)

/-- A warm reset keeps what a reset keeps: of the registers, Start writes the log that is held in the Well. -/
theorem keptByReset_beginStart {s t : State} (h : KeptByReset s t) (fuses : List Bool) (hw : t.well.ok = true) (hp : t.tmp.pendingLvl = 0)
    (hh : t.tmp.haltHold = false) : KeptByReset s (beginStart t fuses) := by
  rw [beginStart_plain fuses hw hp hh]
  obtain ⟨well, fuses, flashA, flashB, keyLog, journal, owner, tx, rx, frames, ports, regs⟩ := h
  refine ⟨well, fuses, flashA, flashB, keyLog, journal, owner, tx, rx, frames, ports, fun a ha => ?_⟩
  exact (reg_endStart_other _ _ _ fun i hi he => ha (by rw [he]; exact startLog_mem_wellRegs hi)).trans (regs a ha)

/-- Settles O1: a reset wipes the state but for what it keeps, and Start then only writes the log and the device record. -/
theorem powerAndResets : Obligations.PowerAndResets := by
  refine ⟨?valid, ?lost, ?assert, ?release, ?warm, ?mark⟩
  case valid => exact fun s h => by simp [Completes, exec, execMainPowerValid, h]
  case lost =>
    intro s h
    refine ⟨_, if_pos h, rfl, rfl, keptByReset_wipe s, fun a ha => ?_⟩
    exact (reg_wipe s a).trans (if_pos ha)
  case assert =>
    intro s mark h
    refine ⟨_, if_pos h, rfl, ?_, KeptByReset.of_lateMark (keptByReset_wipe (lateMark s mark)), fun a ha => ?_⟩
    · rw [lateMark_frame]; exact h
    · exact (reg_wipe _ a).trans (if_pos ha)
  case release =>
    intro s fuses h hc hw hp hh
    refine ⟨_, if_pos ⟨h, hc⟩, ?_⟩
    rw [beginStart_plain fuses (by exact hw) (by exact hp) (by exact hh)]
    exact ⟨rfl, rfl, rfl, rfl, rfl⟩
  case warm =>
    intro s fuses mark h hw hp hh
    refine ⟨_, congrArg Host.Outcome.next (if_pos h), ?_⟩
    have hl := lateMark_frame s mark
    have hw : (wipe (lateMark s mark)).well.ok = true := by rw [hl]; exact hw
    have hp : (wipe (lateMark s mark)).tmp.pendingLvl = 0 := by rw [hl]; exact hp
    have hh : (wipe (lateMark s mark)).tmp.haltHold = false := by rw [hl]; exact hh
    refine ⟨?_, ?_, KeptByReset.of_lateMark (keptByReset_beginStart (keptByReset_wipe _) fuses hw hp hh)⟩ <;>
      rw [warmReset, beginStart_plain fuses hw hp hh]
  case mark =>
    intro s fuses h ht hd
    simp [Completes, exec, execWarmReset, h, lateMark, ht, hd]

/-! ### Resets by register write (R48, R55, R493) -/

/-- A write of GLB_RESET with another key is recorded and has no effect (R493). -/
theorem glbReset_badKey {s : State} {key : Nat} (k : State → State) (hr : s.reachable = true) (hk : key % 65536 ≠ 0xA55A) :
    glbReset key k s = .next (s.raiseErr F.GLB_ERR_BAD_KEY R.GLB_RESET) := by
  have hs : s.serves (blockOf R.GLB_RESET) = true := State.serves_glb hr
  simp only [glbReset, State.access_served hr hs, if_neg hk]

/-- Settles O2: the key lets a write of GLB_RESET act, and PLANNED decides whether the counts are undone first. -/
theorem registerResets : Obligations.RegisterResets := by
  refine ⟨?unplanned, ?planned, ?badKey, ?exit, ?ignored⟩
  case unplanned =>
    intro s key fuses mark hr hk hp
    exact (glbReset_key _ hr hk).trans (by simp [hp])
  case planned =>
    intro s key fuses mark hr hk hp
    exact (glbReset_key _ hr hk).trans (by simp [hp])
  case badKey => exact fun s key fuses mark hr hk => ⟨glbReset_badKey _ hr hk, glbReset_badKey _ hr hk⟩
  case exit =>
    intro s fuses hr hm
    have hs : s.serves (blockOf R.START_CTRL) = true := by unfold State.serves; rw [hm]; rfl
    simp only [Completes, exec, execMaintExit, State.access_served hr hs, if_pos hm]
  case ignored =>
    intro s fuses hr hs hm
    have hs : s.serves (blockOf R.START_CTRL) = true := hs
    simp only [Completes, exec, execMaintExit, State.access_served hr hs, if_neg hm]

/-! ### The counts of failed starts, and the choice of a slot (R46, R47) -/

theorem Fld.get_lt (f : Fld) (w : Word) : f.get w < 2 ^ f.len := Nat.mod_lt _ (Nat.two_pow_pos _)

/-- FAIL_A and FAIL_B are two bits each, beside FAIL_CONSEC and LAST_SLOT. -/
theorem failField_bits (n : Nat) : (failField n).len = 2 ∧ 2 ≤ (failField n).lo ∧ (failField n).lo + 2 ≤ 8 := by
  unfold failField; split <;> decide

/-- The word that a choice of slot `n` writes to START_FAILS. -/
theorem reg_chooseSlot_fails (s : State) (n : Nat) : (chooseSlot s n).reg R.START_FAILS = F.START_FAILS_LAST_SLOT.put
    (F.START_FAILS_FAIL_CONSEC.put ((failField n).put (s.reg R.START_FAILS) (failCount s n + if failCount s n < 3 then 1 else 0))
      (failConsec s + if failConsec s < 3 then 1 else 0)) (n - 1) :=
  State.reg_setReg_same _ _ _

theorem reg_chooseSlot_other (s : State) (n : Nat) {a : Nat} (h : a ≠ R.START_FAILS) : (chooseSlot s n).reg a = s.reg a :=
  State.reg_setReg_other _ _ h

/-- A count of two bits that goes up by one stays at 3. -/
theorem count_capped {c : Nat} (h : c < 4) : (c + if c < 3 then 1 else 0) % 4 = min (c + 1) 3 := by
  split <;> omega

theorem failCount_chooseSlot (s : State) (n : Nat) : failCount (chooseSlot s n) n = min (failCount s n + 1) 3 := by
  obtain ⟨hl, hlo, hhi⟩ := failField_bits n
  have hc : failCount s n < 4 := by
    have := Fld.get_lt (failField n) (s.reg R.START_FAILS)
    rwa [hl] at this
  conv_lhs => rw [failCount, State.fld, reg_chooseSlot_fails]
  rw [Fld.get_put_other F.START_FAILS_LAST_SLOT _ _ _ (.inl (by rw [hl]; exact hhi)),
    Fld.get_put_other F.START_FAILS_FAIL_CONSEC _ _ _ (.inr hlo), Fld.get_put_same _ _ _ (by omega), hl]
  exact count_capped hc

theorem failConsec_chooseSlot (s : State) (n : Nat) : failConsec (chooseSlot s n) = min (failConsec s + 1) 3 := by
  conv_lhs => rw [failConsec, State.fld, reg_chooseSlot_fails]
  rw [Fld.get_put_other _ _ _ _ (.inl (by decide)), Fld.get_put_same F.START_FAILS_FAIL_CONSEC]
  exact count_capped (Fld.get_lt _ _)

theorem failCount_chooseSlot_other (s : State) : failCount (chooseSlot s 1) 2 = failCount s 2 := by
  conv_lhs => rw [failCount, State.fld, reg_chooseSlot_fails]
  rw [Fld.get_put_other _ _ _ _ (by decide), Fld.get_put_other _ _ _ _ (by decide), Fld.get_put_other _ _ _ _ (by decide)]
  rfl

theorem lastSlot_chooseSlot (s : State) (n : Nat) : (chooseSlot s n).fld R.START_FAILS F.START_FAILS_LAST_SLOT = (n - 1) % 2 := by
  rw [State.fld, reg_chooseSlot_fails, Fld.get_put_same F.START_FAILS_LAST_SLOT]
  rfl

/-! ### Slot selection (R46) -/

theorem slotOrder_onlyA {s : State} (ha : slotReadable s.flashA = true) (hb : slotReadable s.flashB = false) : slotOrder s = [1] := by
  simp [slotOrder, State.flash, ha, hb]

theorem slotOrder_none {s : State} (ha : slotReadable s.flashA = false) (hb : slotReadable s.flashB = false) : slotOrder s = [] := by
  simp [slotOrder, State.flash, ha, hb]

/-- A slot with no other readable one beside it is never passed over. -/
theorem nextSlot_onlyA {s : State} (ht : s.dev.tried = []) (ho : slotOrder s = [1]) : nextSlot s = chooseSlot s 1 := by
  have hl : slotsLeft s = [1] := by simp [slotsLeft, ht, ho]
  have hp : passedOver s 1 = false := by simp [passedOver, ho]
  simp [nextSlot, hl, hp]

theorem nextSlot_none {s : State} (ht : s.dev.tried = []) (ho : slotOrder s = []) : nextSlot s = enterMinimal s 0x01 0 := by
  have hl : slotsLeft s = [] := by simp [slotsLeft, ht, ho]
  simp [nextSlot, hl, ho]

section Selection
variable {s : State} (hr : running s = true) (hd : s.dev.state = .start) (h1 : s.dev.step = 1)
include hr hd h1

theorem execSlotSelection_exhausted (flash : Bool) (hf : failConsec s = 3) : execSlotSelection flash s =
    .next (enterMinimal { s with dev := { s.dev with step := 2, mcUp := true } } 0x03 0) :=
  (if_pos ⟨hd, h1, hr⟩).trans (congrArg Host.Outcome.next (if_pos hf))

theorem execSlotSelection_noFlash (hf : failConsec s < 3) : execSlotSelection false s =
    .next (enterMinimal { s with dev := { s.dev with step := 2, mcUp := true } } 0x01 0) :=
  (if_pos ⟨hd, h1, hr⟩).trans (congrArg Host.Outcome.next (if_neg hf.ne))

theorem execSlotSelection_flash (hf : failConsec s < 3) : execSlotSelection true s =
    .next (nextSlot { s with dev := { s.dev with step := 2, mcUp := true } }) :=
  (if_pos ⟨hd, h1, hr⟩).trans (congrArg Host.Outcome.next (if_neg hf.ne))

end Selection

/-- The chosen slot is judged by its header and its signature first, and by its counter then (R46, R67, R68). -/
theorem execImageSignatureCheck_chosen {s u : State} {n : Nat} (hd : s.dev.state = .start) (h2 : s.dev.step = 2) (hs : s.dev.slot = 0)
    (hn : s.dev.tried.getLast? = some n) (hu : u = { s with dev := { s.dev with step := 3 } }) : execImageSignatureCheck s = .next
      (if headerOk u (s.flash n) = true ∧ imageSigned (s.flash n) = true then
        if imageCtr (s.flash n) < u.counterS then nextSlot { u with dev := { u.dev with rolledBack := u.dev.rolledBack ++ [n] } }
        else runImage u n
      else nextSlot u) := by
  have hf : u.flash n = s.flash n := by rw [hu]; rfl
  unfold execImageSignatureCheck
  rw [if_pos ⟨hd, h2, hs⟩, hn]
  dsimp only
  rw [← hu, hf]
  by_cases hg : headerOk u (s.flash n) = true ∧ imageSigned (s.flash n) = true
  · rw [if_pos hg, if_neg (by simp [hg]), apply_ite Host.Outcome.next]
    subst hu
    rfl
  · rw [if_neg hg, if_pos (by rw [← Bool.and_eq_true] at hg; simp [hg])]

/-- Settles O4: selection takes the order of the readable slots, and the check judges the slot that was tried last. -/
theorem slotSelectionAndCheck : Obligations.SlotSelectionAndCheck := by
  refine ⟨?onlyA, ?noSlot, ?noFlash, ?exhausted, ?check⟩
  case onlyA =>
    intro s hr hd h1 ht hf ha hb
    refine ⟨_, (execSlotSelection_flash hr hd h1 hf).trans (congrArg _ (nextSlot_onlyA ht (slotOrder_onlyA ha hb))), ?_⟩
    refine ⟨rfl, hd, rfl, congrArg (· ++ [1]) ht, rfl, failCount_chooseSlot _ 1, (failConsec_chooseSlot _ 1).trans ?_,
      failCount_chooseSlot_other _, lastSlot_chooseSlot _ 1, fun a h => reg_chooseSlot_other _ 1 h⟩
    exact min_eq_left hf
  case noSlot =>
    intro s hr hd h1 ht hf ha hb
    exact (execSlotSelection_flash hr hd h1 hf).trans (congrArg _ (nextSlot_none ht (slotOrder_none ha hb)))
  case noFlash => exact fun s hr hd h1 hf => execSlotSelection_noFlash hr hd h1 hf
  case exhausted => exact fun s flash hr hd h1 hf => execSlotSelection_exhausted hr hd h1 flash hf
  case check => exact fun s n hd h2 hs hn => ⟨_, rfl, execImageSignatureCheck_chosen hd h2 hs hn rfl⟩

/-! ### Steps 4 to 6 of start (R43) -/

theorem inStep_runs {s : State} {n : Nat} {k : State → State} (hd : s.dev.state = .start) (hn : s.dev.step = n) (hs : s.dev.slot ≠ 0) :
    inStep s n k = .next (k { s with dev := { s.dev with step := n + 1 } }) := if_pos ⟨hd, hn, hs⟩

/-- With no record of either log and none expected there is no key to take: the agreement keys are derived (R374, R388). -/
theorem unwrapKeys_noRecords {s : State} (ha : s.keyLog.copyA = []) (hb : s.keyLog.copyB = []) (h0 : s.journal.half0 = [])
    (h1 : s.journal.half1 = []) (hk : s.well.kseq = 0) (hj : s.well.jseq = 0) : unwrapKeys s = { s with
      owner := []
      keyLog := { s.keyLog with active := 0 }
      journal := { s.journal with active := 0 }
      ident := { s.ident with agree := true } } := by
  have hm : mergeParts ([] : List (List Byte)) [] = ([], 0) := rfl
  have hr (auth) : acceptRun [] 0 auth = some [] := rfl
  have hw : withoutTorn [] [] 0 = ([], []) := rfl
  have hc : committed [] = [] := rfl
  have hl (t : State) (ha : t.keyLog.copyA = []) (hb : t.keyLog.copyB = []) :
      loadKeys t [] = { t with owner := [], keyLog := { t.keyLog with active := 0 } } := by
    simp [loadKeys, ha, hb, hm, hc]
  have hg (t : State) (h0 : t.journal.half0 = []) (h1 : t.journal.half1 = []) :
      loadJournal t [] = { t with journal := { t.journal with active := 0 } } := by
    simp [loadJournal, h0, h1, hm]
  simp only [unwrapKeys, ha, hb, h0, h1, hk, hj, hm, hr, List.length_nil, hw]
  rw [hl _ rfl rfl, hg _ rfl rfl]

/-- A rill as the self-tests of start leave it: 0 to 3 serve outbound, 4 to 7 inbound, and rill 8 is the spare (R199, R219). -/
def startRill (r : Nat) : Rill := { state := if r = 8 then .spare else .inService, inbound := decide (4 ≤ r ∧ r < 8), katOk := some true }

theorem foldl_setRill_frame (f : Nat → Rill) (l : List Nat) (s : State) :
    l.foldl (fun t r => t.setRill r (f r)) s = { s with rills := (l.foldl (fun t r => t.setRill r (f r)) s).rills } :=
  List.foldlRecOn (motive := fun t : State => t = { s with rills := t.rills }) _ _ rfl fun t ht x _ => by
    conv_lhs => rw [ht]
    rfl

theorem rill_foldl_setRill (f : Nat → Rill) (s : State) {n r : Nat} (h : r < n) :
    ((List.range n).foldl (fun t r => t.setRill r (f r)) s).rill r = f r := by
  induction n with
  | zero => omega
  | succ n ih =>
    rw [List.range_succ, List.foldl_append, List.foldl_cons, List.foldl_nil, State.rill_setRill]
    split
    next he => rw [he]
    next hne => exact ih (by omega)

section Steps
variable {s : State} (hd : s.dev.state = .start) (hs : s.dev.slot ≠ 0)
include hd hs

/-- CALIBRATION_LOAD looks at the CAL_USER records of the image alone (R78). -/
theorem execCalibrationLoad_runs (h3 : s.dev.step = 3) {l : List (List Byte)}
    (hl : l = ((runningRecords s).filter (fun (r : Rec) => r.typ = 5)).map Rec.payload) : execCalibrationLoad s = .next
      (if l.all calRecordOk = true then { s with dev := { s.dev with step := 4 }, calUser := l.foldl addCal [] }
       else enterMinimal { s with dev := { s.dev with step := 4 } } 0x04 0) := by
  have hr : runningRecords { s with dev := { s.dev with step := 4 } } = runningRecords s := rfl
  rw [execCalibrationLoad, inStep_runs hd h3 hs, hl]
  dsimp only
  rw [hr]

theorem execSelfTests_failedTest (h5 : s.dev.step = 5) (n : Nat) (hbm : Option Nat) : execSelfTests (some n) hbm s =
    .next (enterMinimal { s with dev := { s.dev with step := 6 } } 0x07 (n % 256)) := by
  rw [execSelfTests, inStep_runs hd h5 hs]

theorem execSelfTests_failedStack (h5 : s.dev.step = 5) (k : Nat) : execSelfTests none (some k) s =
    .next (enterMinimal { s with dev := { s.dev with step := 6 } } 0x08 (k % 256)) := by
  rw [execSelfTests, inStep_runs hd h5 hs]

theorem execSelfTests_passed (h5 : s.dev.step = 5) : execSelfTests none none s = .next (initCistern
    ((List.range 9).foldl (fun t r => t.setRill r (startRill r)) { s with dev := { s.dev with step := 6 } })) := by
  rw [execSelfTests, inStep_runs hd h5 hs]
  rfl

/-- Without the KEYS_LOST mark the logs are read as they stand. -/
theorem execKeyUnwrap_unmarked (h4 : s.dev.step = 4) (hl : s.well.keysLost = false) :
    execKeyUnwrap s = .next (unwrapKeys { s with dev := { s.dev with step := 5 } }) := by
  rw [execKeyUnwrap, inStep_runs hd h4 hs]
  simp [hl]

/-- The mark falls where both areas are erased (R378). -/
theorem execKeyUnwrap_markedErased (h4 : s.dev.step = 4) (hl : s.well.keysLost = true) (ha : s.keyLog.copyA = []) (hb : s.keyLog.copyB = [])
    (h0 : s.journal.half0 = []) (h1 : s.journal.half1 = []) : execKeyUnwrap s =
      .next (unwrapKeys { s with dev := { s.dev with step := 5 }, well := { s.well with keysLost := false } }) := by
  rw [execKeyUnwrap, inStep_runs hd h4 hs]
  simp [hl, ha, hb, h0, h1]

/-- With the mark and a key log left the start ends (R378). -/
theorem execKeyUnwrap_markedRecords (h4 : s.dev.step = 4) (hl : s.well.keysLost = true) (ha : s.keyLog.copyA ≠ []) : execKeyUnwrap s =
    .next (enterMinimal { s with dev := { s.dev with step := 5 } } 0x05 0) := by
  rw [execKeyUnwrap, inStep_runs hd h4 hs]
  simp [hl, ha]

end Steps

/-- Settles O5: each step runs on the state of the step before it, and rests on what the image, the logs and the tests give. -/
theorem calibrationKeysAndTests : Obligations.CalibrationKeysAndTests := by
  refine ⟨?calibration, ?keys, ?keysLost, ?passed, ?failedTest, ?failedStack⟩
  case calibration => exact fun s hd h3 hs => ⟨_, rfl, execCalibrationLoad_runs hd hs h3 rfl⟩
  case keys =>
    intro s hd h4 hs ha hb h0 h1 hk hj
    cases hl : s.well.keysLost with
    | true =>
      refine ⟨_, execKeyUnwrap_markedErased hd hs h4 hl ha hb h0 h1, ?_⟩
      rw [unwrapKeys_noRecords (by exact ha) (by exact hb) (by exact h0) (by exact h1) (by exact hk) (by exact hj)]
      exact ⟨rfl, rfl, rfl, rfl, rfl⟩
    | false =>
      refine ⟨_, execKeyUnwrap_unmarked hd hs h4 hl, ?_⟩
      rw [unwrapKeys_noRecords (by exact ha) (by exact hb) (by exact h0) (by exact h1) (by exact hk) (by exact hj)]
      exact ⟨rfl, rfl, hl, rfl, rfl⟩
  case keysLost => exact fun s hd h4 hs hl ha => execKeyUnwrap_markedRecords hd hs h4 hl ha
  case passed =>
    intro s hd h5 hs
    refine ⟨_, execSelfTests_passed hd hs h5, foldl_setRill_frame startRill _ _, fun r hr => ?_⟩
    rw [rill_foldl_setRill startRill _ hr]
    exact ⟨rfl, rfl, rfl⟩
  case failedTest => exact fun s n hbm hd h5 hs => execSelfTests_failedTest hd hs h5 n hbm
  case failedStack => exact fun s k hd h5 hs => execSelfTests_failedStack hd hs h5 k

/-! ### Steps 7 and 8 of start (R43, R93, R429) -/

/-- Step 8 notes, holds and orders ports: what no write of a port changes, it leaves alone. -/
theorem bringUp_keeps {β : Type} {g : State → β} (hg : ∀ (t : State) p x, g (t.setPort p x) = g t) (s : State) : g (bringUp s) = g s := by
  unfold bringUp portsAsAtStart
  refine (foldl_keeps (fun t x => ?_) _ _).trans ((foldl_keeps (fun t p => ?_) _ _).trans (foldl_keeps (fun t p => ?_) _ _))
  all_goals exact hg t _ _

theorem pairOn_bringUp (s : State) : pairOn (bringUp s) = pairOn s := bringUp_keeps (fun _ _ _ => rfl) s

theorem linkUp_bringUp (s : State) : (bringUp s).linkUp = s.linkUp := bringUp_keeps (fun _ _ _ => rfl) s

theorem execPortBringUp_training {s : State} (h7 : s.dev.step = 7) (hl : lanesTrained s = false) : execPortBringUp s = .next s :=
  if_pos ⟨h7, by simp [hl]⟩

section BringUp
variable {s : State} (hd : s.dev.state = .start) (h7 : s.dev.step = 7) (hs : s.dev.slot ≠ 0) (hl : lanesTrained s = true)
include hd h7 hs hl

/-- Without a pair the start ends as Active (R38). -/
theorem execPortBringUp_alone (hp : pairOn s = false) :
    execPortBringUp s = .next (finishStart (bringUp { s with dev := { s.dev with step := 8 } }) false) := by
  have hp : pairOn { s with dev := { s.dev with step := 8 } } = false := hp
  rw [execPortBringUp, if_neg (by simp [hl]), inStep_runs hd h7 hs]
  simp only [pairOn_bringUp, hp, Bool.not_false, if_true]

/-- A member of a pair waits for the link (R429). -/
theorem execPortBringUp_waits (hp : pairOn s = true) (hu : s.linkUp = false) {u : State}
    (he : u = bringUp { s with dev := { s.dev with step := 8 } }) :
    execPortBringUp s = .next { u with dev := { u.dev with rolePending := true } } := by
  have hp : pairOn { s with dev := { s.dev with step := 8 } } = true := hp
  have hu : { s with dev := { s.dev with step := 8 } }.linkUp = false := hu
  subst he
  rw [execPortBringUp, if_neg (by simp [hl]), inStep_runs hd h7 hs]
  simp only [pairOn_bringUp, linkUp_bringUp, hp, hu, Bool.not_true, Bool.false_eq_true, if_false]

end BringUp

/-! ### The success timer (R47) -/

theorem startFails_ne_startLog : ∀ i < 16, R.START_FAILS ≠ R.START_LOG_n i := by decide

/-- The log entry of a start leaves the counts of failed starts alone. -/
theorem reg_startFails_countSuccess {s : State} (h : s.dev.success = false) :
    (countSuccess s).reg R.START_FAILS = (clearFails s).reg R.START_FAILS := by
  rw [countSuccess_fresh h]
  exact reg_endStart_other _ _ _ startFails_ne_startLog

theorem reg_countSuccess_other {s : State} (h : s.dev.success = false) {a : Nat} (hf : a ≠ R.START_FAILS)
    (hl : ∀ i < 16, a ≠ R.START_LOG_n i) : (countSuccess s).reg a = s.reg a := by
  rw [countSuccess_fresh h]
  exact (reg_endStart_other _ _ _ hl).trans (reg_clearFails_other s hf)

theorem failConsec_clearFails (s : State) : failConsec (clearFails s) = 0 := by
  obtain ⟨-, hlo, -⟩ := failField_bits s.dev.slot
  unfold clearFails; dsimp only
  split
  · exact State.fld_setFld_same _ _ _ _
  · exact (State.fld_setFld_field _ _ _ F.START_FAILS_FAIL_CONSEC _ (.inl hlo)).trans (State.fld_setFld_same _ _ _ _)

theorem failCount_clearFails {s : State} (h : s.dev.slot ≠ 0) : failCount (clearFails s) s.dev.slot = 0 := by
  obtain ⟨hl, hlo, hhi⟩ := failField_bits s.dev.slot
  unfold clearFails; dsimp only
  rw [if_neg h]
  exact (State.fld_setFld_same _ _ _ _ (by omega)).trans (Nat.zero_mod _)

/-- Settles O6: step 7 applies the records, step 8 brings the ports up, and the timer counts the start as successful. -/
theorem endOfStart : Obligations.EndOfStart := by
  refine ⟨?training, ?waiting, ?alone, ?pair, ?timeout, ?success⟩
  case training =>
    intro s pers hd h6 hs
    refine ⟨_, rfl, ?_⟩
    show execLaneTrainingStart pers s = _
    rw [execLaneTrainingStart, inStep_runs hd h6 hs]
  case waiting => exact fun s h7 hl => execPortBringUp_training h7 hl
  case alone => exact fun s hd h7 hs hl hp => execPortBringUp_alone hd h7 hs hl hp
  case pair => exact fun s hd h7 hs hl hp hu => ⟨_, rfl, execPortBringUp_waits hd h7 hs hl hp hu rfl⟩
  case timeout => exact fun s hd hr hu => if_pos ⟨hd, hr, by simp [hu]⟩
  case success =>
    intro s ht hd hs hn
    have hn : s.dev.slot ≠ 0 := by omega
    have hf := reg_startFails_countSuccess hs
    refine ⟨countSuccess s, if_pos ⟨ht, hd⟩, ?_, ?_, ?_, ?_, ?_, fun a ha hl => reg_countSuccess_other hs ha hl⟩
    · rw [countSuccess_fresh hs]
    · rw [countSuccess_fresh hs]
    · rw [failConsec, State.fld, hf]
      exact failConsec_clearFails s
    · rw [failCount, State.fld, hf]
      exact failCount_clearFails hn
    · rw [countSuccess_fresh hs]

/-! ### FAIL_CLEAR and MAINT_REQ (R38, R49) -/

/-- FAIL_CLEAR where START is served and no start is under way: Halt does not serve START. -/
theorem execFailClear_cleared {s : State} (hr : s.reachable = true) (hs : s.serves .start = true) (hd : s.dev.state ≠ .start) :
    execFailClear s = .next (startStatus (s.setReg R.START_FAILS (fieldsPut (s.reg R.START_FAILS)
      [(F.START_FAILS_FAIL_A, 0), (F.START_FAILS_FAIL_B, 0), (F.START_FAILS_FAIL_CONSEC, 0)])) .ok) := by
  have hh : s.dev.state ≠ .halt := fun h => by
    have hn : s.serves .start = false := by unfold State.serves; rw [h]; rfl
    rw [hn] at hs
    cases hs
  have hs : s.serves (blockOf R.START_CTRL) = true := hs
  rw [execFailClear, State.access_served hr hs, if_neg (by simp [hd, hh])]

/-- The word with the three counts at 0. -/
theorem get_clearedFails (w : Word) {f : Fld} (hf : f ∈ [F.START_FAILS_FAIL_A, F.START_FAILS_FAIL_B, F.START_FAILS_FAIL_CONSEC]) :
    f.get (fieldsPut w [(F.START_FAILS_FAIL_A, 0), (F.START_FAILS_FAIL_B, 0), (F.START_FAILS_FAIL_CONSEC, 0)]) = 0 := by
  show f.get (F.START_FAILS_FAIL_CONSEC.put (F.START_FAILS_FAIL_B.put (F.START_FAILS_FAIL_A.put w 0) 0) 0) = 0
  simp only [List.mem_cons, List.not_mem_nil, or_false] at hf
  rcases hf with rfl | rfl | rfl
  · rw [Fld.get_put_other _ _ _ _ (by decide), Fld.get_put_other _ _ _ _ (by decide), Fld.get_put_same F.START_FAILS_FAIL_A]
    rfl
  · rw [Fld.get_put_other _ _ _ _ (by decide), Fld.get_put_same F.START_FAILS_FAIL_B]
    rfl
  · rw [Fld.get_put_same F.START_FAILS_FAIL_CONSEC]
    rfl

section Maintenance
variable {s : State} (hr : s.reachable = true) (hd : s.dev.state = .active ∨ s.dev.state = .standby)
include hr hd

theorem execMaintReq_served : execMaintReq s = .next (if (List.range 64).any (fun k => decide (inFlight s k ≠ 0)) = true
    then startStatus s .quiesceRequired else startStatus (enterMaintenance s) .ok) := by
  have hs : s.serves (blockOf R.START_CTRL) = true := by
    unfold State.serves
    rcases hd with h | h <;> rw [h] <;> rfl
  rw [execMaintReq, State.access_served hr hs, if_pos hd]

theorem execMaintReq_inFlight {k : Nat} (hk : k < 64) (hf : inFlight s k ≠ 0) :
    execMaintReq s = .next (startStatus s .quiesceRequired) := by
  rw [execMaintReq_served hr hd, if_pos]
  exact List.any_eq_true.mpr ⟨k, List.mem_range.mpr hk, decide_eq_true hf⟩

theorem execMaintReq_quiesced (hf : ∀ k < 64, inFlight s k = 0) :
    execMaintReq s = .next (startStatus (enterMaintenance s) .ok) := by
  rw [execMaintReq_served hr hd, if_neg]
  simpa using hf

end Maintenance

/-! ### The write of an image slot (R69 to R71) -/

theorem State.flash_setFlash_same (s : State) (n : Nat) (b : List Byte) : (s.setFlash n b).flash n = b := by
  unfold State.setFlash State.flash; split <;> rfl

/-- The two slots are apart. -/
theorem State.flash_setFlash_other (s : State) {n m : Nat} (b : List Byte) (h : (n = 1) ≠ (m = 1)) : (s.setFlash n b).flash m = s.flash m := by
  unfold State.setFlash State.flash
  by_cases hn : n = 1 <;> by_cases hm : m = 1 <;> simp_all

/-- IMG_STATUS holds its phase above the 8 bits of its status. -/
theorem get_imgPhase {n c : Nat} (hn : n < 8) (hc : c < 256) : F.IMG_STATUS_PHASE.get (BitVec.ofNat 32 (n * 256 + c)) = n := by
  simp only [Fld.get, F.IMG_STATUS_PHASE, BitVec.toNat_ofNat]
  omega

theorem imgPhase_setPhase (s : State) {n : Nat} (h : n < 8) : imgPhase (setPhase s n) = n := by
  rw [imgPhase, setPhase, State.fld, State.reg_setReg_same]
  exact get_imgPhase h (Fld.get_lt _ _)

theorem Status.code_lt (st : Status) : st.code < 256 := by cases st <;> decide

/-- A write that has ended runs no phase. -/
theorem imgPhase_imgEnd (s : State) (st : Status) : imgPhase (imgEnd s st) = 0 := by
  rw [imgPhase, imgEnd, State.fld, State.reg_interrupt_other _ _ _ (by decide), State.reg_setReg_same]
  simpa using get_imgPhase (n := 0) (by decide) st.code_lt

/-- The end of a write leaves the flash as it is. -/
theorem flash_imgEnd (s : State) (st : Status) (n : Nat) : (imgEnd s st).flash n = s.flash n := by
  unfold imgEnd
  rw [State.interrupt_frame]
  rfl

/-- A write of a slot that may be written begins: its flash is erased, and phase 1 runs. -/
theorem execImgWriteGo_begins {s : State} {n : Nat} (slotB : Bool) (hn : n = if slotB then 2 else 1) (hr : s.reachable = true)
    (hs : s.serves .start = true) (hp : imgPhase s = 0) (hw : slotWritable s n = true) (ha : s.reg64 R.IMG_SRC_LO R.IMG_SRC_HI % 8 = 0) :
    execImgWriteGo slotB s = .next (setPhase
      { (s.setFld R.IMG_CTRL F.IMG_CTRL_SLOT (b2n slotB)).setFlash n [] with img := { slot := n } } 1) := by
  have hs : s.serves (blockOf R.IMG_CTRL) = true := hs
  have hp : imgPhase (s.setFld R.IMG_CTRL F.IMG_CTRL_SLOT (b2n slotB)) = 0 := (State.fld_setFld_reg _ _ _ _ (by decide)).trans hp
  have hw : slotWritable (s.setFld R.IMG_CTRL F.IMG_CTRL_SLOT (b2n slotB)) n = true := hw
  have ha : (s.setFld R.IMG_CTRL F.IMG_CTRL_SLOT (b2n slotB)).reg64 R.IMG_SRC_LO R.IMG_SRC_HI % 8 = 0 := by
    unfold State.reg64
    rw [State.reg_setFld_other _ _ _ (by decide), State.reg_setFld_other _ _ _ (by decide)]
    exact ha
  subst hn
  simp only [execImgWriteGo, State.access_served hr hs, hp, hw, ha, ne_eq, not_true_eq_false, if_false, Bool.not_true, Bool.false_eq_true]

/-! The phase that runs decides what its completion does (R70). -/

section Phases
variable {s : State} (read : HostRead) (readBack : Bool)

theorem execImgWritePhaseComplete_erase (h : imgPhase s = 1) : execImgWritePhaseComplete read readBack s = .next (afterErase s read) := by
  simp only [execImgWritePhaseComplete, h]

theorem execImgWritePhaseComplete_program (h : imgPhase s = 2) : execImgWritePhaseComplete read readBack s = .next (afterProgram s read) := by
  simp only [execImgWritePhaseComplete, h]

theorem execImgWritePhaseComplete_verify (h : imgPhase s = 3) : execImgWritePhaseComplete read readBack s = .next (afterVerify s readBack) := by
  simp only [execImgWritePhaseComplete, h]

theorem execImgWritePhaseComplete_header (h : imgPhase s = 4) : execImgWritePhaseComplete read readBack s = .next (afterHeader s) := by
  simp only [execImgWritePhaseComplete, h]

end Phases

/-- Settles O7: FAIL_CLEAR and MAINT_REQ answer by the state of the device, and a write goes on phase by phase. -/
theorem startControlAndFlash : Obligations.StartControlAndFlash := by
  refine ⟨?failClear, ?inFlight, ?quiesced, ?go, ?erased, ?programmed, ?unverified, ?header⟩
  case failClear =>
    intro s hr hs hd
    have hf {u : State} {f : Fld} : (startStatus u .ok).fld R.START_FAILS f = f.get (u.reg R.START_FAILS) :=
      State.fld_setFld_reg _ _ _ _ (by decide)
    refine ⟨_, execFailClear_cleared hr hs hd, ?_, ?_, ?_, State.fld_setFld_same _ _ _ _, rfl, fun a h1 h2 => ?_⟩
    · rw [failCount, hf, State.reg_setReg_same]
      exact get_clearedFails _ (by decide)
    · rw [failCount, hf, State.reg_setReg_same]
      exact get_clearedFails _ (by decide)
    · rw [failConsec, hf, State.reg_setReg_same]
      exact get_clearedFails _ (by decide)
    · exact (State.reg_setFld_other _ _ _ h2).trans (State.reg_setReg_other _ _ h1)
  case inFlight => exact fun s k hr hd hk hf => execMaintReq_inFlight hr hd hk hf
  case quiesced => exact fun s hr hd hf => execMaintReq_quiesced hr hd hf
  case go =>
    intro s slotB hr hs hp hw ha
    refine ⟨_, execImgWriteGo_begins slotB rfl hr hs hp hw ha, ?_, ?_, imgPhase_setPhase _ (by decide), ?_⟩
    · exact State.flash_setFlash_same _ _ _
    · exact State.flash_setFlash_other _ _ (by cases slotB <;> decide)
    · cases slotB <;> rfl
  case erased =>
    intro s b readBack hp hl
    refine ⟨_, rfl, (execImgWritePhaseComplete_erase _ _ hp).trans ?_⟩
    simp [afterErase, hl]
  case programmed =>
    intro s b readBack hp
    exact ⟨_, execImgWritePhaseComplete_program _ _ hp, imgPhase_setPhase _ (by decide), State.flash_setFlash_same _ _ _⟩
  case unverified =>
    intro s read hp
    exact (execImgWritePhaseComplete_verify _ _ hp).trans rfl
  case header =>
    intro s read readBack hp
    refine ⟨_, execImgWritePhaseComplete_header _ _ hp, ?_, imgPhase_imgEnd _ _⟩
    exact (flash_imgEnd _ _ _).trans (State.flash_setFlash_same s _ _)

end Sys2Proof.Machine
end

section
/-! The family of spec/03_image_and_transactions.md: the commands of the transaction engine, validation and apply, basic parameters and
calibration. -/

namespace Sys2Proof.Machine

/-! ### TXN_CTRL and the time-out (R82) -/

section Control
variable {s : State} (hr : s.reachable = true) (hs : s.serves (blockOf R.TXN_CTRL) = true)
include hr hs

theorem execTxnBegin_opens (hm : s.dev.mcRestarting = false) (ht : s.txn.state = .idle) : execTxnBegin s =
    .next (txnCmd { s with txn := { state := .open, timer := some (s.fld R.TXN_TIMEOUT F.TXN_TIMEOUT_MS) } } .ok) := by
  rw [execTxnBegin, State.access_served hr hs, if_neg (ne_true_of_eq_false hm), if_pos ht]

/-- While one is open or under way a restart of the MC makes no difference: the answer is BUSY either way. -/
theorem execTxnBegin_busy (ht : s.txn.state ≠ .idle) : execTxnBegin s = .next (txnCmd s .busy) := by
  rw [execTxnBegin, State.access_served hr hs, if_neg ht, ite_self]

theorem execTxnCommit_validates (hm : s.dev.mcRestarting = false) (ht : s.txn.state = .open) : execTxnCommit s =
    .next (txnCmd { s with txn := { s.txn with state := .validating, timer := none } } .ok) := by
  rw [execTxnCommit, State.access_served hr hs, if_neg (ne_true_of_eq_false hm)]
  simp only [ht]

theorem execTxnCommit_invalid (hm : s.dev.mcRestarting = false) (ht : s.txn.state = .idle) :
    execTxnCommit s = .next (txnCmd s .invalid) := by
  rw [execTxnCommit, State.access_served hr hs, if_neg (ne_true_of_eq_false hm)]
  simp only [ht]

theorem execTxnRollback_aborts (ht : s.txn.state = .open) : execTxnRollback s = .next (txnCmd (txnEnd s .aborted) .ok) := by
  rw [execTxnRollback, State.access_served hr hs]
  simp only [ht]

theorem execTxnRollback_invalid (ht : s.txn.state = .idle) : execTxnRollback s = .next (txnCmd s .invalid) := by
  rw [execTxnRollback, State.access_served hr hs]
  simp only [ht]

end Control

/-- The time-out ends an open transaction before a command of the same cycle is judged (R11). -/
theorem execTxnTimeoutExpiry_expires {s : State} (late : Bool) (ht : s.txn.state = .open) (hi : s.txn.timer.isSome = true) :
    execTxnTimeoutExpiry late s = .next (if late then txnCmd (txnEnd s .expired) .expired else txnEnd s .expired) := if_pos ⟨ht, hi⟩

/-- Settles O9: the state of the transaction decides what each command answers. -/
theorem transactionCommands : Obligations.TransactionCommands := by
  refine ⟨?opens, ?busy, ?validates, ?idle, ?aborts, ?expires⟩
  case opens => exact fun s hr hs hm ht => execTxnBegin_opens hr hs hm ht
  case busy => exact fun s hr hs ht => execTxnBegin_busy hr hs ht
  case validates => exact fun s hr hs hm ht => execTxnCommit_validates hr hs hm ht
  case idle => exact fun s hr hs hm ht => ⟨execTxnCommit_invalid hr hs hm ht, execTxnRollback_invalid hr hs ht⟩
  case aborts => exact fun s hr hs ht => execTxnRollback_aborts hr hs ht
  case expires => exact fun s ht hi => ⟨execTxnTimeoutExpiry_expires false ht hi, execTxnTimeoutExpiry_expires true ht hi⟩

/-! ### Validation and apply (R82 to R84) -/

/-- The words that the transaction sets, each with the island that it takes effect in. -/
def changeStaged (s : State) : List (Island × Nat × Word) := stageWords s (stagedWords s (lay s (changeOf s)) (changeOf s))

/-- The transaction once its change is judged good: it waits for every affected island, each of which applies its part at A. -/
def awaitApply (s : State) : State :=
  { s with txn := { s.txn with state := .applying, staged := changeStaged s, applyAt := (s.now 0).shift (8000 * 2 ^ 24),
                               waiting := affected (changeStaged s) (changeOf s) } }

section Validation
variable {s : State} (pers : List (Nat × Personality)) (hv : s.txn.state = .validating)
include hv

theorem execTxnValidationEnd_fails (hj : judgeChange s (changeOf s) ≠ .pass) : execTxnValidationEnd pers s =
    .next (txnEnd (txnFault s (judgeChange s (changeOf s))) (judgeChange s (changeOf s)).status) := by
  rw [execTxnValidationEnd, if_pos hv]
  dsimp only
  split
  next h => exact absurd h hj
  next => rfl

theorem execTxnValidationEnd_passes (hj : judgeChange s (changeOf s) = .pass) :
    execTxnValidationEnd pers s = .next (txnSettle (pers.foldl changePersonality (awaitApply s))) := by
  simp only [execTxnValidationEnd, if_pos hv, hj]
  rfl

/-- With an island affected and no personality given, the transaction only begins to wait. -/
theorem execTxnValidationEnd_waits (hj : judgeChange s (changeOf s) = .pass) (ha : affected (changeStaged s) (changeOf s) ≠ []) :
    execTxnValidationEnd [] s = .next (awaitApply s) := by
  have hw : txnSettle (awaitApply s) = awaitApply s := if_neg ha
  rw [execTxnValidationEnd_passes [] hv hj, List.foldl_nil, hw]

end Validation

theorem execTxnApplyInstant_applies {s : State} {i : Island} (ht : s.txn.state = .applying) (hi : i ∈ s.txn.waiting) :
    execTxnApplyInstant i s = .next (txnSettle (applyIsland (s.reach 0 s.txn.applyAt) i)) := if_pos ⟨ht, hi⟩

/-- Settles O10: a failed judgement ends the transaction, a good one has its islands wait for A, and the last of them settles it. -/
theorem transactionApplies : Obligations.TransactionApplies := by
  refine ⟨?fails, ?waits, ?applies⟩
  case fails => exact fun s pers hv hj => execTxnValidationEnd_fails pers hv hj
  case waits =>
    intro s pers hv
    by_cases h : pers = [] ∧ judgeChange s (changeOf s) = .pass ∧ affected (changeStaged s) (changeOf s) ≠ []
    · obtain ⟨rfl, hj, ha⟩ := h
      exact ⟨awaitApply s, execTxnValidationEnd_waits hv hj ha, fun _ => ⟨rfl, rfl, rfl, rfl⟩⟩
    · obtain ⟨t, ht⟩ := exec_answers (.txnValidationEnd pers) s
      exact ⟨t, ht, fun h' => absurd h' h⟩
  case applies => exact fun s i ht hi => ⟨_, _, execTxnApplyInstant_applies ht hi, rfl, rfl⟩

/-! ### Basic parameters (R75, R77) -/

/-- With the MC serving and no change judged or applied, BP_WRITE is not BUSY. -/
theorem not_bpBusy {s : State} (hm : s.dev.mcRestarting = false) (ht : s.txn.state = .idle ∨ s.txn.state = .open) :
    ¬ (s.dev.mcRestarting = true ∨ s.txn.state = .validating ∨ s.txn.state = .applying) := by
  rcases ht with h | h <;> simp [hm, h]

section Parameters
variable {s : State} (hr : s.reachable = true) (hs : s.serves (blockOf R.BP_CMD) = true)
include hr hs

theorem execBpWrite_busy (h : s.dev.mcRestarting = true ∨ s.txn.state = .validating ∨ s.txn.state = .applying) :
    execBpWrite s = .next (bpEnd s .busy) := by
  rw [execBpWrite, State.access_served hr hs, if_pos h]

theorem execBpRead_known (hp : (paramOf (bpId s)).isSome = true) : execBpRead s =
    .next (bpEnd (s.setReg64 R.BP_VAL_LO R.BP_VAL_HI (if s.txn.state = .open then paramNow s (bpId s) else s.param (bpId s))) .ok) := by
  rw [execBpRead, State.access_served hr hs, if_neg (by simpa using Option.isSome_iff_ne_none.mp hp)]

section Serving
variable (hm : s.dev.mcRestarting = false) (ht : s.txn.state = .idle ∨ s.txn.state = .open)
include hm ht

/-- An unknown parameter comes before one at expert level (log entry 230). -/
theorem execBpWrite_unknown (hp : paramOf (bpId s) = none) : execBpWrite s = .next (bpEnd s .notFound) := by
  rw [execBpWrite, State.access_served hr hs, if_neg (not_bpBusy hm ht), if_pos (Option.isNone_iff_eq_none.mpr hp)]

variable (hp : paramOf (bpId s) ≠ none)
include hp

theorem execBpWrite_expert (he : expert (levelNow s) (paramBlock (bpId s)) = true) : execBpWrite s = .next (bpEnd s .denied) := by
  rw [execBpWrite, State.access_served hr hs, if_neg (not_bpBusy hm ht), if_neg (mt Option.isNone_iff_eq_none.mp hp), if_pos he]

variable (he : expert (levelNow s) (paramBlock (bpId s)) ≠ true)
include he

/-- Outside a transaction the value is the whole change of an implicit one (R75). -/
theorem execBpWrite_implicit (hi : s.txn.state = .idle) : execBpWrite s =
    .next { s with txn := { state := .validating, implicit := true, params := [(bpId s, bpVal s)] } } := by
  rw [execBpWrite, State.access_served hr hs, if_neg (not_bpBusy hm ht), if_neg (mt Option.isNone_iff_eq_none.mp hp), if_neg he,
    if_neg (by simp [hi])]

theorem execBpWrite_shadowed {k : State} (ho : s.txn.state = .open) (hk : shadowParam s (bpId s) (bpVal s) = some k) :
    execBpWrite s = .next (bpEnd k .ok) := by
  rw [execBpWrite, State.access_served hr hs, if_neg (not_bpBusy hm ht), if_neg (mt Option.isNone_iff_eq_none.mp hp), if_neg he,
    if_pos ho, hk]

theorem execBpWrite_full (ho : s.txn.state = .open) (hk : shadowParam s (bpId s) (bpVal s) = none) :
    execBpWrite s = .next (bpEnd { s with txn := { s.txn with overflow := true } } .full) := by
  rw [execBpWrite, State.access_served hr hs, if_neg (not_bpBusy hm ht), if_neg (mt Option.isNone_iff_eq_none.mp hp), if_neg he,
    if_pos ho, hk]

end Serving
end Parameters

/-! ### Calibration (R80) -/

section Calibration
variable {s : State} (v : Word) (hr : s.reachable = true) (hs : s.serves (blockOf R.CAL_OFFSET) = true)
include hr hs

/-- While no change is judged or applied, an unknown item comes before everything else (log entry 229). -/
theorem execCalOffsetWrite_unknown (ht : s.txn.state = .idle ∨ s.txn.state = .open) (hc : calLimits (calItem s) = none) :
    execCalOffsetWrite v s = .next (calStatus s .notFound) := by
  rw [execCalOffsetWrite, State.access_served hr hs, if_neg (by rcases ht with h | h <;> simp [h]), if_pos (Option.isNone_iff_eq_none.mpr hc)]

variable (hc : calLimits (calItem s) ≠ none)
include hc

theorem execCalOffsetWrite_shadowed (ht : s.txn.state = .open) : execCalOffsetWrite v s =
    .next (calStatus (shadowPut s (calKey (calItem s)) (BitVec.ofNat 32 (v.toNat % 65536))) .ok) := by
  rw [execCalOffsetWrite, State.access_served hr hs, if_neg (by simp [ht]), if_neg (mt Option.isNone_iff_eq_none.mp hc), if_pos ht]

/-- Outside a transaction only Maintenance lets the offset take effect. -/
theorem execCalOffsetWrite_outside (ht : s.txn.state = .idle) : execCalOffsetWrite v s =
    .next (if s.dev.state = .maintenance then calStatus (applyCal s (calItem s, signed 16 (v.toNat % 65536))) .ok
      else calStatus s .denied) := by
  rw [execCalOffsetWrite, State.access_served hr hs, if_neg (by simp [ht]), if_neg (mt Option.isNone_iff_eq_none.mp hc), if_neg (by simp [ht])]

end Calibration

/-- Settles O11: the checks of each command in their order, one law for each answer. -/
theorem parametersAndCalibration : Obligations.ParametersAndCalibration := by
  refine ⟨?write, ?busy, ?read, ?offset⟩
  case write =>
    intro s hr hs hm ht
    split_ifs with hp he hi
    · exact execBpWrite_unknown hr hs hm ht hp
    · exact execBpWrite_expert hr hs hm ht hp he
    · exact execBpWrite_implicit hr hs hm ht hp he hi
    · have ho := ht.resolve_left hi
      split
      next k hk => exact execBpWrite_shadowed hr hs hm ht hp he ho hk
      next hk => exact execBpWrite_full hr hs hm ht hp he ho hk
  case busy => exact fun s hr hs h => execBpWrite_busy hr hs h
  case read => exact fun s hr hs hp => execBpRead_known hr hs hp
  case offset =>
    intro s v hr hs ht
    by_cases hc : calLimits (calItem s) = none
    · rw [if_pos hc]
      exact execCalOffsetWrite_unknown v hr hs ht hc
    · rw [if_neg hc]
      rcases ht with hi | ho
      · rw [if_neg (by simp [hi])]
        exact execCalOffsetWrite_outside v hr hs hc hi
      · rw [if_pos ho]
        exact execCalOffsetWrite_shadowed v hr hs hc ho

end Sys2Proof.Machine
end

section
/-! The family of spec/04_ports_and_lanes.md: classification of frames, lane events, the steering exchange, spare commands, port commands,
sleep and the receive PCS. -/

namespace Sys2Proof.Machine

/-! ### Classification of a frame and the queue entry of a result (R99, R131, R132, R134) -/

/-- An unfinished frame of fewer than 64 bytes has no header record yet (R21). -/
theorem recordReady_short {f : Frame} (hc : f.complete = false) (hl : f.bytes.length < 64) : recordReady f = false := by
  have hr : ¬256 ≤ f.bytes.length := by omega
  simp [recordReady, hc, hr, Nat.not_le.mpr hl]

section Classify
variable {s : State} {h : Nat} (ecc ecc2 : Nat)

/-- A frame whose header record is not ready is left alone. -/
theorem execHeaderRecordClassify_notReady (hn : recordReady (s.frame h) = false) : execHeaderRecordClassify h ecc ecc2 s = .next s := by
  simp [execHeaderRecordClassify, hn]

variable (hf : s.frame h ≠ {}) (hc : (s.frame h).classified = false) (hb : (s.frame h).bad = false)
  (hr : recordReady (s.frame h) = true) (hw : entriesWaiting s (instanceOf s (s.frame h).ingress) < 64)
include hf hc hb hr hw

/-- A port's frame that is no MAC Control frame takes the port's verdict (R132). -/
theorem execHeaderRecordClassify_port (hp : (s.frame h).ingress < 32) (he : beAt (s.frame h).bytes 12 2 ≠ 0x8808) :
    ∃ t, t = classifyPort (s.setFrame h { s.frame h with classified := true }) h ecc ecc2 ∧
      execHeaderRecordClassify h ecc ecc2 s = .next (if (t.frame h).complete = true ∧ (t.frame h).copies = 0 then t.setFrame h {} else t) := by
  exact ⟨_, rfl, by simp [execHeaderRecordClassify, hf, hc, hb, hr, Nat.not_le.mpr hw, hp.ne, hp, he]⟩

/-- A tributary's frame goes the way of its client port (log entry 93). -/
theorem execHeaderRecordClassify_trib (hp : 32 < (s.frame h).ingress) :
    ∃ t, t = classifyTrib (s.setFrame h { s.frame h with classified := true }) h ∧
      execHeaderRecordClassify h ecc ecc2 s = .next (if (t.frame h).complete = true ∧ (t.frame h).copies = 0 then t.setFrame h {} else t) := by
  exact ⟨_, rfl, by simp [execHeaderRecordClassify, hf, hc, hb, hr, Nat.not_le.mpr hw, hp.ne', hp.le.not_gt]⟩

end Classify

section Result
variable {s : State} {r : Result} (g p h : Nat) (x : Parsed)

/-- A result of DROP is counted as a policy drop (R134). -/
theorem placeResult_drop (ha : r.action = 0) : placeResult g p h x s r = s.count (.cls g 3) := by
  simp [placeResult, actionCheck, ha]

/-- A DECRYPT on an association that is not valid is a counted drop (R134). -/
theorem placeResult_decrypt_invalid (ha : r.action = 3) (hv : (s.assoc true r.assoc).valid = false) :
    placeResult g p h x s r = s.count (.cls g 4) := by
  simp [placeResult, actionCheck, ha, hv]

/-- A DECRYPT on a valid association of the ingress port passes; its egress is the client port of the bridge step, or of the pairing. -/
theorem actionCheck_decrypt_valid {p : Nat} (ha : r.action = 3) (hv : (s.assoc true r.assoc).valid = true)
    (hp : 16 + (s.assoc true r.assoc).record.port = p) : actionCheck s g p h x r = .inl
      { stage := .classified, frame := h, action := r.action, assoc := r.assoc, sub := r.sub, cls := classOf r.cls x
        egress := if s.pers (p % 16) = .bridgedMacsec ∧ egressOf p r.egress < 16 then egressOf p r.egress else p % 16 } := by
  simp [actionCheck, ha, hv, hp]

/-- Such a DECRYPT makes a queue entry for a client port (R134). -/
theorem placeResult_decrypt_valid {p : Nat} (ha : r.action = 3) (hv : (s.assoc true r.assoc).valid = true)
    (hp : 16 + (s.assoc true r.assoc).record.port = p) :
    ∃ j : Job, placeResult g p h x s r = s.addJob j ∧ j.frame = h ∧ j.action = 3 ∧ j.assoc = r.assoc ∧ j.egress < 16 := by
  refine ⟨_, by rw [placeResult, actionCheck_decrypt_valid g h x ha hv hp], rfl, ha, rfl, ?_⟩
  dsimp only
  split
  next hb => exact hb.2
  next => exact Nat.mod_lt _ (by decide)

end Result

/-- Settles O13: each condition of the classification passes, and each result has one answer. -/
theorem classification : Obligations.Classification := by
  refine ⟨?port, ?trib, ?short, ?drop, ?valid, ?invalid⟩
  case port => exact fun s h ecc ecc2 hf hc hb hp hr hw he => execHeaderRecordClassify_port ecc ecc2 hf hc hb hr hw hp he
  case trib =>
    intro s h ecc ecc2 hc hb hp hr hw
    have hf : s.frame h ≠ {} := fun e => by simp [e] at hp
    exact execHeaderRecordClassify_trib ecc ecc2 hf hc hb hr hw hp
  case short => exact fun s h ecc ecc2 hc hl => execHeaderRecordClassify_notReady ecc ecc2 (recordReady_short hc hl)
  case drop => exact fun s g p h x r ha => placeResult_drop g p h x ha
  case valid => exact fun s g p h x r ha hv hp => placeResult_decrypt_valid g h x ha hv hp
  case invalid => exact fun s g p h x r ha hv => placeResult_decrypt_invalid g p h x ha hv

/-! ### Numbers in byte strings (R4) -/

@[simp] theorem be_length (n v : Nat) : (be n v).length = n := by
  induction n with
  | zero => rfl
  | succ n ih => simp [be, ih]

/-- The bytes of a number spell it, as far as they reach. -/
theorem beVal_be (n v : Nat) : beVal (be n v) = v % 256 ^ n := by
  have go : ∀ n a, (be n v).foldl (fun a b => a * 256 + b.toNat) a = a * 256 ^ n + v % 256 ^ n := by
    intro n
    induction n with
    | zero => simp [be, Nat.mod_one]
    | succ n ih =>
      intro a
      have hd : v % 256 ^ (n + 1) = v % 256 ^ n + 256 ^ n * (v / 256 ^ n % 256) := by rw [pow_succ, Nat.mod_mul]
      rw [be, List.foldl_cons, ih, hd, BitVec.toNat_ofNat, show 2 ^ 8 = 256 from rfl]
      ring
  simpa [beVal] using go n 0

/-- The bytes between two others are their slice. -/
theorem slice_mid (a b c : List Byte) : slice (a ++ (b ++ c)) a.length b.length = b := by simp [slice]

/-- A number put between other bytes is read there. -/
theorem beAt_field (a c : List Byte) (n v : Nat) : beAt (a ++ (be n v ++ c)) a.length n = v % 256 ^ n := by
  have := slice_mid a (be n v) c
  rw [be_length] at this
  rw [beAt, this, beVal_be]


/-! ### Marker lock (R96, R97, R111, R115, R298, R299) -/

theorem foundLane_port {s : State} {l p pl : Nat} (m : List Byte) (hc : carrierOf s l = some p) (hp : p < 64) (hl : pl < 16) :
    foundLane s l pl m = some pl := by
  simp [foundLane, hc, hp, Nat.mod_eq_of_lt hl]

theorem State.fld_lt (s : State) (a : Nat) (f : Fld) : s.fld a f < 2 ^ f.len := Nat.mod_lt _ (by positivity)

/-- LANE and MCNT are read back from a lane marker (R298). -/
theorem beAt_laneMarker (i w t c : Nat) : beAt (laneMarker i w t c) 4 1 = i % 256 ∧ beAt (laneMarker i w t c) 7 1 = c % 256 := by
  constructor
  · rw [laneMarker]
    simpa [List.append_assoc] using beAt_field (be 4 0xC4A39E17) _ 1 i
  · rw [laneMarker]
    simpa [List.append_assoc] using beAt_field (be 4 0xC4A39E17 ++ be 1 i ++ be 1 w ++ be 1 t) _ 1 c

/-- A marker of the trunk with its configured width identifies its lane (R299). -/
theorem markerLane_laneMarker {s : State} {t i c : Nat} (hi : i < s.fld (R.CAS_CFG t) F.CAS_CFG_WIDTH) (hc : c < 240) :
    markerLane s t (laneMarker i (s.fld (R.CAS_CFG t) F.CAS_CFG_WIDTH) t c) = some i := by
  have hw : s.fld (R.CAS_CFG t) F.CAS_CFG_WIDTH < 32 := s.fld_lt _ _
  obtain ⟨hl, hm⟩ := beAt_laneMarker i (s.fld (R.CAS_CFG t) F.CAS_CFG_WIDTH) t c
  rw [Nat.mod_eq_of_lt (by omega)] at hl hm
  simp only [markerLane, hl, hm, hi, hc, and_self, if_true]

theorem foundLane_trunk {s : State} {l t : Nat} (pl : Nat) (m : List Byte) (hc : carrierOf s l = some (64 + t)) :
    foundLane s l pl m = markerLane s t m := by
  simp [foundLane, hc]

section MarkerLock
variable {s : State} {l pl : Nat} (pol : Bool) {m : List Byte} (sk : Bool)

/-- A marker that identifies no lane changes nothing. -/
theorem execLaneMarkerLock_notFound (hf : foundLane s l pl m = none) : execLaneMarkerLock l pol pl m sk s = .next s := by
  simp [execLaneMarkerLock, hf]

variable {n : Nat} (hl : l < 36) (hm : l % 18 < 16) (ha : assigned s l = true) (hf : foundLane s l pl m = some n)
include hl hm ha hf

/-- A lane that no command has steered to a spare locks by itself, once its conditions are over (R97). -/
theorem execLaneMarkerLock_own (hu : (s.lane l).locked = false) (hc : ∀ c ∈ (s.lane l).conditions, c = 7)
    (hs : ∀ k ∈ sparesOf l, (s.spare k).rx ≠ .steered l) {t : State} (ht : t = s.setLane l { s.lane l with
      locked := true, hurt := false, conditions := [], txDisabled := false, signal := true, cdrLock := true, polInv := pol, portLane := n
      reversed := decide (plannedLane s l n ≠ n), sent := 0, got := 0 }) :
    execLaneMarkerLock l pol pl m sk s =
      .next (laneEdge s l (if plannedLane s l n = n then t else t.setFld (aLANE_FAULT l) F.LANE_FAULT_LANE_REV 1) sk) := by
  have hon : (sparesOf l).find? (fun k => (s.spare k).rx = .steered l) = none := List.find?_eq_none.mpr (by simpa using hs)
  have hall : (s.lane l).conditions.all (· = 7) = true := by simpa using hc
  subst ht
  simp [execLaneMarkerLock, hf, hon, hl, hm, ha, hu, hall]

/-- On a spare steered to the lane by command the markers lock there, and the spare carries the lane (R115). -/
theorem execLaneMarkerLock_spare {k : Nat} (hk : (sparesOf l).find? (fun k => (s.spare k).rx = .steered l) = some k)
    (hn : plannedLane s l n = n) : ∃ t, execLaneMarkerLock l pol pl m sk s = .next (laneEdge s l t sk) ∧
    (t.spare k).rx = .carrying l ∧ t.lane l = { s.lane l with sent := 0, got := 0 } ∧ t = { s with spares := t.spares, lanes := t.lanes } := by
  refine ⟨_, by simp only [execLaneMarkerLock, hf, hk, hl, hm, ha, hn, Option.isSome_some, true_or, and_self, if_true, decide_true]; rfl, ?_, ?_, rfl⟩
  · simp [State.spare_setSpare]
  · simp [State.lane_setLane]

end MarkerLock

/-! ### Faults, degrade and fault clear (R106, R107) -/

/-- The condition of a fault is present after it. -/
theorem mem_conditions_hurtLane (x : Lane) (kind : Nat) : kind ∈ (hurtLane x kind).conditions := by
  unfold hurtLane
  split
  · assumption
  · exact List.mem_cons_self

/-- A lane with a condition of either side is faulted while no spare carries that side (R107). -/
theorem laneState_faulted {s : State} {l c : Nat} (ha : assigned s l = true) (hr : carriedRx s l = none) (ht : carriedTx s l = none)
    (hc : c ∈ (s.lane l).conditions) : laneState s l = .faulted := by
  have hx : ((s.lane l).conditions.any (fun c => !isTxFault c) || (s.lane l).conditions.any isTxFault) = true := by
    cases hk : isTxFault c
    · exact Bool.or_eq_true_iff.mpr (.inl (List.any_eq_true.mpr ⟨c, hc, by simp [hk]⟩))
    · exact Bool.or_eq_true_iff.mpr (.inr (List.any_eq_true.mpr ⟨c, hc, hk⟩))
  simp only [laneState, ha, hr, ht, Option.isNone_none, Bool.true_and, hx]
  rfl

theorem execTrainTimeout_unlocked {s : State} {l : Nat} (hl : l < 36) (hm : l % 18 < 16) (ha : assigned s l = true)
    (hu : (s.lane l).locked = false) (hc : (s.lane l).conditions = []) : execTrainTimeout l s = .next (faultLane s l 7) :=
  if_pos ⟨hl, hm, ha, by simp [hu], hc⟩

theorem execLaneFault_detected {s : State} {l kind : Nat} (hl : l < 36) (hk : kind ≤ 5) : execLaneFault l kind s = .next (faultLane s l kind) :=
  if_pos ⟨hl, hk⟩

/-- An Up lane that degrades asks for a spare only with ON_DEGRADE. -/
theorem execLaneDegrade_lane {s t : State} {l : Nat} (hl : l < 36) (hm : l % 18 < 16) (hu : laneState s l = .up)
    (ht : t = (s.setFld (aLANE_FAULT l) F.LANE_FAULT_DEGRADE 1).setLane l { s.lane l with degraded := true }) : execLaneDegrade l s =
    .next (if s.flag (aSPARE_CFG (sideOf l)) F.SPARE_CFG_ON_DEGRADE = true then requestSparing t l 6 else t) := by
  subst ht
  simp [execLaneDegrade, hl, hm, hu]

/-- A spare that carries a lane and degrades sets its bit alone. -/
theorem execLaneDegrade_spare {s : State} {k l : Nat} (hk : k < 36) (hm : 16 ≤ k % 18) (hc : (s.spare k).rx = .carrying l) :
    execLaneDegrade k s = .next ((s.setFld (aLANE_FAULT k) F.LANE_FAULT_DEGRADE 1).setLane k { s.lane k with degraded := true }) := by
  simp [execLaneDegrade, hk, Nat.not_lt.mpr hm, hc]

section FaultClear
variable {s : State} {l : Nat} (hl : l < 36)
include hl

/-- Without a fault condition only what lies behind DEGRADE ends. -/
theorem execLaneFaultClear_degrade (hc : (s.lane l).conditions = []) :
    ∃ t, execLaneFaultClear l s = .next t ∧ (t.lane l).degraded = false ∧ (t.lane l).locked = (s.lane l).locked := by
  refine ⟨_, by simp only [execLaneFaultClear, if_pos hl, if_pos hc]; rfl, ?_, ?_⟩ <;> simp [State.lane_setLane]

variable (hc : (s.lane l).conditions ≠ [])
include hc

/-- A spare is free of its conditions. -/
theorem execLaneFaultClear_spare (hm : 16 ≤ l % 18) : ∃ t, execLaneFaultClear l s = .next t ∧ (t.lane l).conditions = [] ∧
    (t.lane l).hurt = false ∧ (t.lane l).txDisabled = false ∧ t = { s with lanes := t.lanes } := by
  refine ⟨_, by simp only [execLaneFaultClear, if_pos hl, if_neg hc, if_pos hm]; rfl, ?_, ?_, ?_, rfl⟩ <;> simp [State.lane_setLane]

/-- A lane that no spare stands in for retrains, and is hurt until it locks. -/
theorem execLaneFaultClear_lane (hm : l % 18 < 16) (hr : replacedBy s l = none) : ∃ t, execLaneFaultClear l s = .next (laneEdge s l t) ∧
    (t.lane l).conditions = [] ∧ (t.lane l).locked = false ∧ (t.lane l).hurt = (s.lane l).hurt ∧ (t.lane l).txDisabled = false ∧
    t = { s with lanes := t.lanes } := by
  refine ⟨_, by simp only [execLaneFaultClear, if_pos hl, if_neg hc, if_neg (Nat.not_le.mpr hm)]; rfl, ?_, ?_, ?_, ?_, rfl⟩ <;>
    simp [State.lane_setLane, hr]

end FaultClear

/-- Settles O30: one law for each event of a lane, and a fault's condition makes the lane faulted. -/
theorem laneEvents : Obligations.LaneEvents := by
  refine ⟨?own, ?spare, ?port, ?trunk, ?notFound, ?timeout, ?fault, ?faulted, ?degrade, ?degradeSpare, ?clearDegrade, ?clearSpare, ?clearLane⟩
  case own => exact fun s l pol pl m sk n t hl hm ha hu hc hs hf ht => execLaneMarkerLock_own pol sk hl hm ha hf hu hc hs ht
  case spare => exact fun s l pol pl m sk n k hl hm ha hk hf hn => execLaneMarkerLock_spare pol sk hl hm ha hf hk hn
  case port => exact fun s l p pl m hc hp hl => foundLane_port m hc hp hl
  case trunk => exact fun s l t i c pl hc _ hi hm => (foundLane_trunk pl _ hc).trans (markerLane_laneMarker hi hm)
  case notFound => exact fun s l pol pl m sk hf => execLaneMarkerLock_notFound pol sk hf
  case timeout => exact fun s l hl hm ha hu hc => execTrainTimeout_unlocked hl hm ha hu hc
  case fault => exact fun s l kind hl hk => execLaneFault_detected hl hk
  case faulted =>
    intro s l kind ha hr ht
    exact laneState_faulted (c := kind) ha hr ht (by rw [State.lane_setLane, if_pos rfl]; exact mem_conditions_hurtLane _ _)
  case degrade => exact fun s l t hl hm hu ht => execLaneDegrade_lane hl hm hu ht
  case degradeSpare => exact fun s k l hk hm hc => execLaneDegrade_spare hk hm hc
  case clearDegrade => exact fun s l hl hc => execLaneFaultClear_degrade hl hc
  case clearSpare => exact fun s l hl hm hc => execLaneFaultClear_spare hl hc hm
  case clearLane => exact fun s l hl hm hc hr => execLaneFaultClear_lane hl hc hm hr


/-! ### Steering blocks (R109) -/

/-- A head of 12 bytes with the marker, followed by its CRC and then by the complement of all, makes a good block. -/
theorem steerGood_of_head {h b : List Byte} (hl : h.length = 12) (hm : beAt h 0 4 = 0x4B535452)
    (hb : b = h ++ be 2 (crc16 h).toNat ++ be 2 0) : steerGood (b ++ b.map (~~~ ·)) = true := by
  have hlen : b.length = 16 := by simp [hb, hl]
  have hmarker : beAt (b ++ b.map (~~~ ·)) 0 4 = 0x4B535452 := by
    rw [hb, List.append_assoc, List.append_assoc, beAt_append_left (by omega), hm]
  have hcrc : beAt (b ++ b.map (~~~ ·)) 12 2 = (crc16 h).toNat := by
    have := beAt_field h (be 2 0 ++ b.map (~~~ ·)) 2 (crc16 h).toNat
    rw [Nat.mod_eq_of_lt (show (crc16 h).toNat < 256 ^ 2 from (crc16 h).isLt), hl] at this
    rwa [hb, List.append_assoc, List.append_assoc, ← hb]
  have hhead : slice (b ++ b.map (~~~ ·)) 0 12 = h := by
    simpa [hb, hl] using slice_mid [] h (be 2 (crc16 h).toNat ++ be 2 0 ++ b.map (~~~ ·))
  have hfirst : slice (b ++ b.map (~~~ ·)) 0 16 = b := by simpa [hlen] using slice_mid [] b (b.map (~~~ ·))
  have hsecond : slice (b ++ b.map (~~~ ·)) 16 16 = b.map (~~~ ·) := by simpa [hlen] using slice_mid b (b.map (~~~ ·)) []
  simp [steerGood, hlen, hmarker, hcrc, hhead, hfirst, hsecond]

theorem steerGood_steerBlock (cmd lane spare seq pos : Nat) : steerGood (steerBlock cmd lane spare seq pos) = true :=
  steerGood_of_head (by simp) (by simpa [List.append_assoc] using beAt_field [] _ 4 0x4B535452) rfl

/-! ### Spares: what the shared operations leave alone -/

theorem spareWith_eq_none {s : State} {side : Nat} {f : Spare → Bool} (h : ∀ m, f (s.spare m) = false) : spareWith s side f = none :=
  List.find?_eq_none.mpr fun m _ => by simp [h m]

/-- The spare of a side is chosen by the spares alone. -/
theorem spareWith_congr {s t : State} (side : Nat) {f : Spare → Bool} (h : ∀ m, f (t.spare m) = f (s.spare m)) :
    spareWith t side f = spareWith s side f := by
  simp only [spareWith, h]

theorem carrierOf_congr {s t : State} (h : t.regs = s.regs) (l : Nat) : carrierOf t l = carrierOf s l := by
  have hp : ∀ p, lanesOfPort t p = lanesOfPort s p := fun p => by simp only [lanesOfPort, State.fld_congr h]
  have ht : ∀ u, lanesOfTrunk t u = lanesOfTrunk s u := fun u => by simp [lanesOfTrunk, State.flag, State.fld_congr h]
  simp only [carrierOf, hp, ht]

@[simp] theorem sendSteer_regs (s : State) (k cmd lane pos : Nat) : (sendSteer s k cmd lane pos).regs = s.regs := rfl

/-- A command that is sent moves the SEQ of its spare and nothing else of the spares. -/
theorem spare_sendSteer (s : State) (k cmd lane pos m : Nat) : (sendSteer s k cmd lane pos).spare m =
    { s.spare m with seq := if m = k then ((s.spare k).seq + 1) % 256 else (s.spare m).seq } := by
  unfold sendSteer
  rw [State.emit_spare_at, State.spare_setSpare]
  split
  next h => rw [h]
  next => rfl

@[simp] theorem goIdle_regs (s : State) (k : Nat) : (goIdle s k).regs = s.regs := by unfold goIdle; dsimp only; split <;> rfl

/-- The transmit side of the spare is idle; every other side is as before. -/
theorem tx_goIdle (s : State) (k m : Nat) : ((goIdle s k).spare m).tx = if m = k then .idle else (s.spare m).tx := by
  unfold goIdle
  dsimp only
  split <;> simp only [spare_sendSteer, State.spare_setSpare] <;> split <;> rfl

theorem rx_goIdle (s : State) (k m : Nat) : ((goIdle s k).spare m).rx = (s.spare m).rx := by
  unfold goIdle
  dsimp only
  by_cases h : m = k
  · subst h; split <;> simp [spare_sendSteer, State.spare_setSpare]
  · split <;> simp [spare_sendSteer, State.spare_setSpare, h]

/-! ### A steering block accepted (R109, R110) -/

/-- Spare `k` armed by MOVE and the SYNC after it: the block shows signal and lock, and POSITION is held (R110, R111). -/
def armSpare (s : State) (k l pos : Nat) : State :=
  let t := (s.setSpare k { s.spare k with rx := .idle }).setLane k { s.lane k with signal := true, cdrLock := true }
  t.setSpare k { t.spare k with rx := .synced l pos }

theorem spare_armSpare (s : State) (k l pos : Nat) : (armSpare s k l pos).spare k = { s.spare k with rx := .synced l pos } := by
  simp [armSpare, State.spare_setSpare]

theorem tx_armSpare (s : State) (k l pos m : Nat) : ((armSpare s k l pos).spare m).tx = (s.spare m).tx := by
  by_cases h : m = k <;> simp [armSpare, State.spare_setSpare, h]

theorem lane_armSpare (s : State) (k l pos : Nat) : (armSpare s k l pos).lane k = { s.lane k with signal := true, cdrLock := true } := by
  simp [armSpare, State.lane_setLane]

section Accept
variable {s : State} {k : Nat} {b : List Byte}

/-- A block off a spare, or outside coordinated mode, is none of the exchange. -/
theorem execSteeringBlockAccept_outside (h : 36 ≤ k ∨ k % 18 < 16 ∨ spareMode s (sideOf k) ≠ 1) : execSteeringBlockAccept k b s = .next s :=
  if_neg (by omega)

variable (hk : k < 36) (hm : 16 ≤ k % 18) (hc : spareMode s (sideOf k) = 1)
include hk hm hc

/-- A bad block ends the wait for SYNC (log entry 236). -/
theorem execSteeringBlockAccept_bad_waiting {l q : Nat} (hg : steerGood b = false) (hw : (s.spare k).rx = .moveSeen l q) :
    execSteeringBlockAccept k b s = .next (s.setSpare k { s.spare k with rx := .idle }) := by
  simp [execSteeringBlockAccept, hk, hm, hc, hg, hw]

theorem execSteeringBlockAccept_bad (hg : steerGood b = false) (hw : ∀ l q, (s.spare k).rx ≠ .moveSeen l q) :
    execSteeringBlockAccept k b s = .next s := by
  simp [execSteeringBlockAccept, hk, hm, hc, hg]

/-- The SYNC of the number of the MOVE directly before it arms the spare, where no ASK of the lane waits for its answer (R110). -/
theorem execSteeringBlockAccept_sync {l : Nat} (hg : steerGood b = true) (hb : beAt b 4 1 = 3) (hs : beAt b 5 1 < 16)
    (hl : l = 18 * sideOf k + beAt b 5 1) (hw : (s.spare k).rx = .moveSeen l (beAt b 7 1))
    (ha : ∀ m : Nat, ∀ q, (s.spare m).tx ≠ .asking l q) : execSteeringBlockAccept k b s = .next (armSpare s k l (beAt b 8 4)) := by
  have hn : spareWith (armSpare s k l (beAt b 8 4)) (sideOf k) (fun x => x.tx = .asking l false || x.tx = .asking l true) = none :=
    spareWith_eq_none fun m => by simp [tx_armSpare, ha]
  subst hl
  unfold execSteeringBlockAccept
  rw [hw]
  refine (if_pos ⟨hk, hm, hc⟩).trans ((if_neg (by simp [hg])).trans ?_)
  refine (if_neg (by omega)).trans ((if_neg (by omega)).trans ((if_neg (by omega)).trans ((if_neg (by omega)).trans ?_)))
  refine (if_pos hb).trans ((if_pos rfl).trans ?_)
  extract_lets _ _ _ u
  rw [show u = armSpare s k _ (beAt b 8 4) from rfl, hn]

section Good
variable (hg : steerGood b = true) (hw : ∀ l q, (s.spare k).rx ≠ .moveSeen l q) {t : State}
  (ht : t = s.setLane k { s.lane k with signal := true, cdrLock := true })
include hg hw ht

/-- A good IDLE block (R109). -/
theorem execSteeringBlockAccept_idle (hb : beAt b 4 1 = 0) :
    execSteeringBlockAccept k b s = .next (t.setSpare k { s.spare k with partnerOk := true }) := by
  subst ht
  simp [execSteeringBlockAccept, hk, hm, hc, hg, hb]

variable (hs : beAt b 5 1 < 16) {l : Nat} (hl : l = 18 * sideOf k + beAt b 5 1)
include hs hl

/-- An ASK of a lane of no port and no trunk is ignored and counted. -/
theorem execSteeringBlockAccept_ask_unknown (hb : beAt b 4 1 = 1) (hn : carrierOf s l = none) : execSteeringBlockAccept k b s =
    .next { t with askIgnored := kset 0 s.askIgnored (sideOf k) (kget 0 s.askIgnored (sideOf k) + 1) } := by
  have hn : carrierOf t l = none := (carrierOf_congr (by rw [ht]; rfl) l).trans hn
  subst ht
  simp [execSteeringBlockAccept, hk, hm, hc, hg, hb, Nat.not_le.mpr hs, ← hl, hn]

/-- An ASK of a lane that no transmit spare of the side serves is answered on a free one (R110). -/
theorem execSteeringBlockAccept_ask {m : Nat} (hb : beAt b 4 1 = 1) (hn : (carrierOf s l).isSome = true)
    (hx : ∀ x, spareWith t (sideOf k) (fun x => x.tx = .bridging l || x.tx = .carrying l) ≠ some x) (hf : freeSpare t l false = some m) :
    execSteeringBlockAccept k b s = .next (moveOnto t m l (.bridging l)) := by
  have hr : t.regs = s.regs := by rw [ht]; rfl
  have hn : (carrierOf t l).isSome = true := by rwa [carrierOf_congr hr]
  have hx : spareWith t (sideOf k) (fun x => x.tx = .bridging l || x.tx = .carrying l) = none := Option.eq_none_iff_forall_ne_some.mpr hx
  subst ht
  simp [execSteeringBlockAccept, hk, hm, hc, hg, hb, Nat.not_le.mpr hs, ← hl, Option.isSome_iff_ne_none.mp hn, hx, hf]

omit hw in
/-- MOVE on an idle receive side waits for its SYNC. -/
theorem execSteeringBlockAccept_move (hb : beAt b 4 1 = 2) (hi : (s.spare k).rx = .idle) : execSteeringBlockAccept k b s =
    .next (t.setSpare k { s.spare k with rx := .moveSeen l (beAt b 7 1) }) := by
  subst ht
  simp [execSteeringBlockAccept, hk, hm, hc, hg, hb, Nat.not_le.mpr hs, ← hl, hi]

theorem execSteeringBlockAccept_release (hb : beAt b 4 1 = 4) :
    execSteeringBlockAccept k b s = .next (releaseAccepted t (sideOf k) l) := by
  subst ht
  simp [execSteeringBlockAccept, hk, hm, hc, hg, hb, Nat.not_le.mpr hs, ← hl]

end Good
end Accept

/-! ### The spare's data takes the lane's place (R111) -/

section Align
variable {s t : State} {k l p d : Nat} (hr : (s.spare k).rx = .synced l p) (hd : d = ((s.lane l).got / 32 + 2 ^ 32 - p % 2 ^ 32) % 2 ^ 32)
include hr hd

/-- The lane's count has passed POSITION: as many leading bits are discarded. -/
theorem execSpareAlign_late (hp : d < 2 ^ 31) (ht : t = s.setSpare k { s.spare k with rx := .carrying l, discarded := d }) :
    execSpareAlign k s = .next (laneEdge s l t) := by
  subst hd ht
  simp only [execSpareAlign, hr, hp, decide_true, if_true]

/-- The lane's count has not come to POSITION: the data is held until it does. -/
theorem execSpareAlign_held (hp : 2 ^ 31 ≤ d) (ht : t = s.setSpare k { s.spare k with rx := .carrying l, discarded := 0 }) :
    execSpareAlign k s = .next (laneEdge s l (t.setLane l { s.lane l with got := p % 2 ^ 32 * 32 })) := by
  subst hd ht
  simp only [execSpareAlign, hr, Nat.not_lt.mpr hp, decide_false, Bool.false_eq_true, if_false, State.setSpare_lane_at]

end Align

/-! ### The second ASK that is not answered (R113) -/

/-- What waits on a side for the SYNC of lane `l`, or holds it, ends. -/
def endWait (s : State) (side l : Nat) : State :=
  match spareWith s side (fun x => x.rx.awaits l) with
  | some m => s.setSpare m { s.spare m with rx := .idle }
  | none => s

theorem endWait_regs (s : State) (side l : Nat) : (endWait s side l).regs = s.regs := by unfold endWait; split <;> rfl

theorem tx_endWait (s : State) (side l k : Nat) : ((endWait s side l).spare k).tx = (s.spare k).tx := by
  unfold endWait
  split
  next m _ => by_cases h : k = m <;> simp [State.spare_setSpare, h]
  next => rfl

theorem rx_endWait {s : State} {side l m : Nat} (h : spareWith s side (fun x => x.rx.awaits l) = some m) :
    ((endWait s side l).spare m).rx = .idle := by
  simp [endWait, h, State.spare_setSpare]

/-- An ASK time-out is counted up to 0xFFFF. -/
def countAsk (s : State) (side : Nat) : State :=
  s.setFld (aSPARE_STATUS side) F.SPARE_STATUS_ASK_TIMEOUTS (min 0xFFFF (s.fld (aSPARE_STATUS side) F.SPARE_STATUS_ASK_TIMEOUTS + 1))

theorem fld_countAsk (s : State) (side : Nat) : (countAsk s side).fld (aSPARE_STATUS side) F.SPARE_STATUS_ASK_TIMEOUTS =
    min 0xFFFF (s.fld (aSPARE_STATUS side) F.SPARE_STATUS_ASK_TIMEOUTS + 1) := by
  rw [countAsk, State.fld_setFld_same _ _ _ _ (by decide)]
  exact Nat.mod_eq_of_lt (Nat.lt_of_le_of_lt (Nat.min_le_left _ _) (by decide))

/-- RELEASE goes out, the wait for the SYNC ends and the time-out is counted; no third ASK is sent. -/
theorem execAskTimeout_second {s : State} {k l : Nat} (h : (s.spare k).tx = .asking l true) : execAskTimeout k s =
    .next (countAsk (endWait (goIdle (sendSteer s k 4 (l % 18) 0) k) (sideOf k) l) (sideOf k)) := by
  unfold execAskTimeout
  rw [h]
  exact if_neg (by simp)

/-- Settles O31: one law for each block that is accepted, for the alignment of the spare's data and for the time-out of an ASK. -/
theorem steeringExchange : Obligations.SteeringExchange := by
  refine ⟨steerGood_steerBlock, ?outside, ?bad, ?badWaiting, ?good, ?sync, fun _ _ => rfl, ?late, ?held, ?timeout⟩
  case outside => exact fun s k b h => execSteeringBlockAccept_outside h
  case bad => exact fun s k b hk hm hc hg hw => execSteeringBlockAccept_bad hk hm hc hg hw
  case badWaiting => exact fun s k b l q hk hm hc hg hw => execSteeringBlockAccept_bad_waiting hk hm hc hg hw
  case good =>
    intro s k b t hk hm hc hg hw ht
    refine ⟨execSteeringBlockAccept_idle hk hm hc hg hw ht, fun hs l hl => ⟨?_, ?_, ?_, ?_⟩⟩
    · exact execSteeringBlockAccept_ask_unknown hk hm hc hg hw ht hs hl
    · exact fun m hb hn hx hf => execSteeringBlockAccept_ask hk hm hc hg hw ht hs hl hb hn hx hf
    · exact execSteeringBlockAccept_move hk hm hc hg ht hs hl
    · exact execSteeringBlockAccept_release hk hm hc hg hw ht hs hl
  case sync =>
    intro s k b l hk hm hg hc hb hs hl hw ha
    exact ⟨_, execSteeringBlockAccept_sync hk hm hc hg hb hs hl hw ha, spare_armSpare s k l _, lane_armSpare s k l _, rfl⟩
  case late => exact fun s k l p d t hr hd hp ht => execSpareAlign_late hr hd hp ht
  case held => exact fun s k l p d t hr hd hp ht => execSpareAlign_held hr hd hp ht
  case timeout =>
    intro s k l h
    let u := goIdle (sendSteer s k 4 (l % 18) 0) k
    have hrx : ∀ m, (u.spare m).rx = (s.spare m).rx := fun m => by rw [rx_goIdle, spare_sendSteer]
    have hregs : (endWait u (sideOf k) l).regs = s.regs := by rw [endWait_regs, goIdle_regs, sendSteer_regs]
    refine ⟨_, execAskTimeout_second h, ?_, fun m hm => ?_, ?_⟩
    · exact (tx_endWait u (sideOf k) l k).trans (by rw [tx_goIdle, if_pos rfl])
    · exact rx_endWait ((spareWith_congr (sideOf k) fun m => by rw [hrx]).trans hm)
    · rw [fld_countAsk, State.fld_congr hregs]

/-! ### SPARE_CMD (R114, R115, R126, R127) -/

section Steer
variable {s : State} {n k l : Nat} (tx rx : Bool)

theorem steerCheck_otherMode (h : spareMode s n ≠ 2) : steerCheck s n k l tx rx = .invalid := if_pos h

variable (hm : spareMode s n = 2)
include hm

theorem steerCheck_notPooled (hp : inPool s k = false) : steerCheck s n k l tx rx = .denied := by simp [steerCheck, hm, hp]

variable (hp : inPool s k = true)
include hp

theorem steerCheck_inUse (ho : spareOpen s k l tx rx = false) : steerCheck s n k l tx rx = .full := by simp [steerCheck, hm, hp, ho]

variable (ho : spareOpen s k l tx rx = true)
include ho

theorem steerCheck_noCarrier (hc : carrierOf s l = none) : steerCheck s n k l tx rx = .notFound := by simp [steerCheck, hm, hp, ho, hc]

theorem steerCheck_ok (hc : (carrierOf s l).isSome = true) (hr : sameRate s k l = true) : steerCheck s n k l tx rx = .ok := by
  simp [steerCheck, hm, hp, ho, hr, Option.isSome_iff_ne_none.mp hc]

end Steer

/-- A spare without a use may be given any use of any lane. -/
theorem spareOpen_idle {s : State} {k : Nat} (ht : (s.spare k).tx = .idle) (hr : (s.spare k).rx = .idle) (l : Nat) (tx rx : Bool) :
    spareOpen s k l tx rx = true := by
  simp [spareOpen, ht, hr]

section Command
variable {s : State} {n : Nat} (f : State → State) (hr : s.reachable = true) (hs : s.serves (blockOf (aSPARE_CMD n)) = true)
include hr hs

/-- While a release runs on the side a command is BUSY and does nothing (R126). -/
theorem spareCommand_releasing {r : Nat × Nat} (h : kget none s.releasing n = some r) : spareCommand s n f = spareStatus s n .busy := by
  simp [spareCommand, State.access_served hr hs, h]

variable (h : kget none s.releasing n = none)
include h

theorem spareCommand_free : spareCommand s n f = f s := by
  simp [spareCommand, State.access_served hr hs, h]

/-- A steering command ends with the code of its checks, and steers where that is OK. -/
theorem steerCmd_free (k l : Nat) (tx rx : Bool) {c : Status} (hc : steerCheck s n (spareLane n k) (18 * n + l) tx rx = c) :
    steerCmd s n k l tx rx = if c = .ok then steerTo (spareStatus s n .ok) (spareLane n k) (18 * n + l) tx rx else spareStatus s n c := by
  rw [steerCmd, spareCommand_free _ hr hs h, hc]
  by_cases ho : c = .ok
  · rw [ho, if_pos rfl]
  · simp only [if_neg ho]

end Command

/-- With no release on the side RELEASE is judged, goes out in coordinated mode, and frees the spare at once elsewhere (R114). -/
theorem execSpareRelease_free {s : State} {side : Side} {k l n m x : Nat} (hn : n = sideNum side) (hm : m = spareLane n (k % 2))
    (hx : x = 18 * n + l % 16) (hr : s.reachable = true) (hs : s.serves (blockOf (aSPARE_CMD n)) = true)
    (h : kget none s.releasing n = none) : execSpareRelease side k l s = .next
      (if inPool s m = false then spareStatus s n .denied
       else if carrierOf s x = none ∨ spareServes s m x = false then spareStatus s n .notFound
       else if spareMode s n = 1 then { sendSteer (spareStatus s n .busy) m 4 (x % 18) 0 with releasing := kset none s.releasing n (some (m, x)) }
       else freeOf (spareStatus s n .ok) m x) := by
  subst hn hm hx
  simp only [execSpareRelease, spareCommand_free _ hr hs h, Option.isNone_iff_eq_none, Bool.not_eq_true']

/-- The release that runs on a side ends OK when the exchange is reversed (log entry 82). -/
theorem finishRelease_running {s : State} {side m x : Nat} (h : kget none s.releasing side = some (m, x)) : finishRelease s side =
    freeOf (spareStatus { s with releasing := kset none s.releasing side none } side .ok) m x := by
  simp only [finishRelease, h]

/-- Settles O32: the order of the checks, and what a command does where no release runs on its side and where one does. -/
theorem spareCommands : Obligations.SpareCommands := by
  refine ⟨?steer, ?invalid, ?denied, ?full, ?notFound, ?ok, ?idle, ?busy, ?release, ?finish⟩
  case steer =>
    intro s side k l n hn hr hs h
    subst hn
    exact ⟨fun c hc => congrArg Host.Outcome.next (steerCmd_free hr hs h _ _ _ _ hc),
      fun c hc => congrArg Host.Outcome.next (steerCmd_free hr hs h _ _ _ _ hc),
      fun c hc => congrArg Host.Outcome.next (steerCmd_free hr hs h _ _ _ _ hc)⟩
  case invalid => exact fun s n k l tx rx h => steerCheck_otherMode tx rx h
  case denied => exact fun s n k l tx rx hm hp => steerCheck_notPooled tx rx hm hp
  case full => exact fun s n k l tx rx hm hp ho => steerCheck_inUse tx rx hm hp ho
  case notFound => exact fun s n k l tx rx hm hp ho hc => steerCheck_noCarrier tx rx hm hp ho hc
  case ok => exact fun s n k l tx rx hm hp ho hc hr => steerCheck_ok tx rx hm hp ho hc hr
  case idle => exact fun s k l ht hr tx rx => spareOpen_idle ht hr l tx rx
  case busy =>
    intro s side k l n r hn hr hs h
    subst hn
    have busy := fun f => congrArg (Host.Outcome.next (φ := Fault) (ρ := Refusal)) (spareCommand_releasing f hr hs h)
    exact ⟨busy _, busy _, busy _, busy _⟩
  case release => exact fun s side k l n m x hn hm hx hr hs h => execSpareRelease_free hn hm hx hr hs h
  case finish => exact fun s side m x h => finishRelease_running h

/-! ### Port commands, sleep and wake (R100 to R104, R118, R119) -/

section PortCommand
variable {s : State} {p : Nat} (hp : p < 32) (hr : s.reachable = true) (hs : s.serves (blockOf (aPORT_CTRL p)) = true)
include hp hr hs

/-- A served write of PORT_CTRL acts. -/
theorem portCtrl_served (f : State → State) : s.access (aPORT_CTRL (p % 32)) f = f s := by
  rw [Nat.mod_eq_of_lt hp, State.access_served hr hs]

theorem execPortUp_served : execPortUp p s = .next (s.setPort p { s.port p with held := false }) := by
  rw [execPortUp, portCtrl_served hp hr hs, Nat.mod_eq_of_lt hp]

/-- SLEEP of an awake port drops what is queued and begins the entry (R103). -/
theorem execPortSleep_awake (hk : s.flag (aPORT_CFG p) F.PORT_CFG_SLEEP_OK = true) (ha : (s.port p).sleep = .awake) :
    execPortSleep p s = .next ((s.dropQueued p (.port p 21)).setPort p { s.port p with sleep := .entering }) := by
  rw [execPortSleep, portCtrl_served hp hr hs, Nat.mod_eq_of_lt hp, if_pos hk, if_pos ha]

theorem execPortSleep_denied (hk : s.flag (aPORT_CFG p) F.PORT_CFG_SLEEP_OK = false) :
    execPortSleep p s = .next (s.setFld (aPORT_ERR p) F.PORT_ERR_SLEEP_DENIED 1) := by
  rw [execPortSleep, portCtrl_served hp hr hs, Nat.mod_eq_of_lt hp, if_neg (ne_true_of_eq_false hk)]

end PortCommand

/-- A wake event of a sleeping port begins its wake under its cause (R104). -/
theorem wakePort_asleep {s : State} {p : Nat} (c : Nat) (h : (s.port p).sleep = .asleep) :
    wakePort s p c = s.setPort p { s.port p with sleep := .waking, wakeCause := c } := if_pos h

theorem execPortWake_asleep {s : State} {p : Nat} (hp : p < 32) (hr : s.reachable = true) (hs : s.serves (blockOf (aPORT_CTRL p)) = true)
    (h : (s.port p).sleep = .asleep) : execPortWake p s = .next (s.setPort p { s.port p with sleep := .waking, wakeCause := 1 }) := by
  rw [execPortWake, portCtrl_served hp hr hs, Nat.mod_eq_of_lt hp, wakePort_asleep 1 h]

section Asleep
variable {s : State} {p : Nat} (hp : p < 32) (h : (s.port p).sleep = .asleep)
include hp h

/-- The first pattern that a frame matches wakes the port, and the frame is dropped. -/
theorem execWakePatternMatch_match {f : List Byte} {k : Nat} (hk : (List.range 4).find? (fun i => wakeMatch s p i f) = some k) :
    ∃ t, t = s.setPort p { s.port p with sleep := .waking, wakeCause := 2 } ∧
      execWakePatternMatch p f s = .next (wakeDrop (t.setPort p { t.port p with matched := k }) p) := by
  refine ⟨_, rfl, ?_⟩
  rw [← wakePort_asleep 2 h]
  simp only [execWakePatternMatch, hp, h, and_self, if_true, hk]

theorem execWakePatternMatch_none {f : List Byte} (hk : ∀ i, i < 4 → wakeMatch s p i f = false) : execWakePatternMatch p f s = .next s := by
  have hn : (List.range 4).find? (fun i => wakeMatch s p i f) = none :=
    List.find?_eq_none.mpr fun i hi => by simp [hk i (List.mem_range.mp hi)]
  simp only [execWakePatternMatch, hp, h, and_self, if_true, hn]

/-- Lost or gained alignment, or the end of remote fault, wakes the port where WAKE_CTRL.LINK is 1 (R104). -/
theorem execLinkChangeWake_wakes {a lf rf : Bool} (hk : s.flag (aWAKE_CTRL p) F.WAKE_CTRL_LINK = true)
    (hc : (s.port p).aligned ≠ a ∨ ((s.port p).rf = true ∧ rf = false ∧ lf = false)) :
    ∃ t, execLinkChangeWake p a lf rf s = .next t ∧
      t.port p = { s.port p with aligned := a, lf := lf, rf := rf, sleep := .waking, wakeCause := 3 } ∧ t = { s with ports := t.ports } := by
  let u := s.setPort p { s.port p with aligned := a, lf := lf, rf := rf }
  have hu : u.port p = { s.port p with aligned := a, lf := lf, rf := rf } := by rw [State.port_setPort, if_pos rfl]
  have ha : (u.port p).sleep = .asleep := by rw [hu]; exact h
  refine ⟨u.setPort p { u.port p with sleep := .waking, wakeCause := 3 }, ?_, ?_, rfl⟩
  · rw [← wakePort_asleep 3 ha]
    exact (if_pos ⟨hp, h⟩).trans (if_pos ⟨hk, by simpa using hc⟩)
  · rw [State.port_setPort, if_pos rfl, hu]

/-- Elsewhere the new state of the receive PCS is kept, and the port sleeps on (R119). -/
theorem execLinkChangeWake_sleepsOn (a lf rf : Bool) (hk : s.flag (aWAKE_CTRL p) F.WAKE_CTRL_LINK = false) :
    execLinkChangeWake p a lf rf s = .next (s.setPort p { s.port p with aligned := a, lf := lf, rf := rf }) := by
  simp [execLinkChangeWake, hp, h, hk]

end Asleep

/-- A port that a change takes down drops what is queued as node-closed, and verifies preemption anew (R101, R106). -/
theorem portEdge_down {s k : State} {p : Nat} (hs : portUp s p = true) (hk : portUp k p = false) :
    portEdge s p k = (k.dropQueued p (.port p 22)).setPort p { k.port p with verify := .verifying } := by
  simp [portEdge, hs, hk]

/-- Settles O33: one law for each command and event in the state of sleep in which it acts. -/
theorem portCommandsAndSleep : Obligations.PortCommandsAndSleep := by
  refine ⟨?up, ?sleep, ?denied, ?reached, ?wake, ?pattern, ?noPattern, ?link, ?linkOff, ?complete, ?verify, ?pcs, ?edge⟩
  case up => exact fun s p hp hr hs => execPortUp_served hp hr hs
  case sleep => exact fun s p hp hr hs hk ha => execPortSleep_awake hp hr hs hk ha
  case denied => exact fun s p hp hr hs hk => execPortSleep_denied hp hr hs hk
  case reached => exact fun s p he hf => if_pos ⟨he, by simp [hf]⟩
  case wake => exact fun s p hp hr hs h => execPortWake_asleep hp hr hs h
  case pattern => exact fun s p f k hp h hk => execWakePatternMatch_match hp h hk
  case noPattern => exact fun s p f hp h hk => execWakePatternMatch_none hp h hk
  case link => exact fun s p a lf rf hp h hk hc => execLinkChangeWake_wakes hp h hk hc
  case linkOff => exact fun s p a lf rf hp h hk => execLinkChangeWake_sleepsOn hp h a lf rf hk
  case complete => exact fun s p h => if_pos h
  case verify => exact fun s p ok hp hk => if_pos ⟨hp, hk⟩
  case pcs => exact fun s p a lf rf hp h => if_pos ⟨hp, h⟩
  case edge => exact fun s k p hs hk => portEdge_down hs hk

end Sys2Proof.Machine
end

section
/-! The family of spec/05_classification.md: the exact-match table, learning and ageing, and the table commands. -/

namespace Sys2Proof.Machine

/-! ### Sparse maps: what is listed and what a read finds -/

/-- A key read as something else than the default is listed with that value. -/
theorem mem_of_kget_ne {α : Type} {d : α} {m : KMap α} {k : Nat} (h : kget d m k ≠ d) : (k, kget d m k) ∈ m := by
  induction m with
  | nil => exact absurd rfl h
  | cons e r ih =>
    obtain ⟨j, v⟩ := e
    by_cases hj : j = k
    · simp [kget, hj]
    · simp only [kget, if_neg hj] at h ⊢
      exact List.mem_cons_of_mem _ (ih h)

/-- A key that is not listed reads as the default. -/
theorem kget_of_not_listed {α : Type} {d : α} {m : KMap α} {k : Nat} (h : ∀ e ∈ m, e.1 ≠ k) : kget d m k = d := by
  by_contra hk
  exact h _ (mem_of_kget_ne hk) rfl

/-- A write lists nothing but its own entry and what was listed. -/
theorem mem_kset {α : Type} [DecidableEq α] {d : α} {m : KMap α} {k : Nat} {v : α} {e : Nat × α} (h : e ∈ kset d m k v) :
    e = (k, v) ∨ e ∈ m := by
  unfold kset at h
  split at h
  · exact .inr (mem_kdel h).1
  · exact (mem_kins h).imp id fun h => (mem_kdel h).1

theorem le_lowestFree (l : List Nat) (n : Nat) : n ≤ lowestFree l n := by
  induction l generalizing n with
  | nil => exact le_rfl
  | cons k r ih =>
    unfold lowestFree
    split_ifs
    · exact ih n
    · exact (Nat.le_succ n).trans (ih _)
    · exact le_rfl

/-- In a table in canonical form the lowest free key is free. -/
theorem kget_lowestFree {α : Type} (d : α) {m : KMap α} (h : krising m = true) (n : Nat) : kget d m (lowestFree (m.map Prod.fst) n) = d := by
  induction m generalizing n with
  | nil => rfl
  | cons e r ih =>
    obtain ⟨k, v⟩ := e
    have skip : ∀ i, k < i → kget d ((k, v) :: r) (lowestFree (r.map Prod.fst) i) = d := fun i hi => by
      rw [kget, if_neg (hi.trans_le (le_lowestFree _ i)).ne]
      exact ih (krising_cons h) i
    rw [List.map_cons, lowestFree]
    split_ifs with hlt heq
    · exact skip n hlt
    · exact skip (n + 1) (by omega)
    · refine kget_of_not_listed fun e he => ?_
      rcases List.mem_cons.mp he with rfl | he
      · exact heq
      · have := krising_head h e he
        omega

/-! ### Finding a key (R136) -/

theorem emFind_eq_none {t : KMap EmEntry} {key : List Byte} : emFind t key = none ↔ ∀ x ∈ t, x.2.key ≠ key := by
  simp [emFind]

/-- A key is found with an entry that a table holds, where all that the table holds under the key is that entry. -/
theorem emFind_of_only {t : KMap EmEntry} {e : EmEntry} (he : e ≠ {}) (hheld : ∃ i, kget {} t i = e)
    (honly : ∀ x ∈ t, x.2.key = e.key → x.2 = e) : ∃ k, emFind t e.key = some (k, e) := by
  obtain ⟨i, hi⟩ := hheld
  have hmem : (i, e) ∈ t := hi ▸ mem_of_kget_ne (hi.trans_ne he)
  cases hf : emFind t e.key with
  | none => exact absurd rfl (emFind_eq_none.mp hf _ hmem)
  | some x =>
    have hkey : x.2.key = e.key := by simpa using List.find?_some hf
    exact ⟨x.1, by rw [← honly x (List.mem_of_find?_eq_some hf) hkey]⟩

/-! ### Placing an entry by relocations (R137) -/

/-- A write into a free slot holds its entry and all that the table held. -/
theorem kset_free_holds {t : KMap EmEntry} {k : Nat} {e x : EmEntry} (hk : kget {} t k = {}) (hx : x ≠ {})
    (h : x = e ∨ ∃ j, kget {} t j = x) : ∃ i, kget {} (kset {} t k e) i = x := by
  rcases h with rfl | ⟨j, rfl⟩
  · exact ⟨k, kget_kset_same ..⟩
  · exact ⟨j, kget_kset_other _ _ _ _ fun hj => hx (hj ▸ hk)⟩

/-- One relocation loses nothing: what the table and the entry in hand were is in the new table, or in hand. -/
theorem kset_displace_holds {t : KMap EmEntry} (k : Nat) {e x : EmEntry} (h : x = e ∨ ∃ j, kget {} t j = x) :
    x = kget {} t k ∨ ∃ i, kget {} (kset {} t k e) i = x := by
  rcases h with rfl | ⟨j, rfl⟩
  · exact .inr ⟨k, kget_kset_same ..⟩
  · by_cases hj : j = k
    · exact .inl (by rw [hj])
    · exact .inr ⟨j, kget_kset_other _ _ _ _ hj⟩

/-- A walk that ends with a table has placed its entry, and every entry that the table held is still in it. -/
theorem emWalk_holds {ctr n : Nat} {t u : KMap EmEntry} {e x : EmEntry} (hu : emWalk ctr n t e = some u) (hx : x ≠ {})
    (h : x = e ∨ ∃ j, kget {} t j = x) : ∃ i, kget {} u i = x := by
  induction n generalizing t e with
  | zero =>
    obtain ⟨k, hk, rfl⟩ := Option.map_eq_some_iff.mp hu
    exact kset_free_holds (by simpa using List.find?_some hk) hx h
  | succ n ih =>
    rw [emWalk] at hu
    split at hu
    next k hk =>
      cases hu
      exact kset_free_holds (by simpa using List.find?_some hk) hx h
    next => exact ih hu (kset_displace_holds _ h)

/-- A walk lists only values with a property that the table, its entry and the empty entry have. -/
theorem emWalk_forall {P : EmEntry → Prop} (hd : P {}) {ctr n : Nat} {t u : KMap EmEntry} {e : EmEntry} (hu : emWalk ctr n t e = some u)
    (ht : ∀ x ∈ t, P x.2) (he : P e) : ∀ x ∈ u, P x.2 := by
  have hset : ∀ k, ∀ x ∈ kset {} t k e, P x.2 := fun k x hx => by
    rcases mem_kset hx with rfl | hx
    · exact he
    · exact ht x hx
  induction n generalizing t e with
  | zero =>
    obtain ⟨k, -, rfl⟩ := Option.map_eq_some_iff.mp hu
    exact hset k
  | succ n ih =>
    rw [emWalk] at hu
    split at hu
    next k _ =>
      cases hu
      exact hset k
    next =>
      have hout : ∀ k, P (kget {} t k) := fun k => by
        by_cases hk : kget {} t k = {}
        · rwa [hk]
        · exact ht _ (mem_of_kget_ne hk)
      refine ih hu (hset _) (hout _) fun k x hx => ?_
      rcases mem_kset hx with rfl | hx
      · exact hout _
      · exact hset _ x hx

/-- The two ways in which an entry finds a place: by relocations, or in the lowest free slot (log entry 97). -/
theorem emPlace_cases {t u : KMap EmEntry} {e : EmEntry} {ctr : Nat} (h : emPlace t e ctr = some u) :
    emWalk ctr 64 t e = some u ∨ u = kset {} t (lowestFree (t.map Prod.fst) 0) e := by
  unfold emPlace at h
  split at h
  next v hv => exact .inl (hv.trans h)
  next => exact .inr (by split_ifs at h; exact (Option.some.inj h).symm)

/-- With 124518 entries or fewer a place is always found (R137). -/
theorem emPlace_isSome {t : KMap EmEntry} (e : EmEntry) (ctr : Nat) (h : t.length ≤ 124518) : (emPlace t e ctr).isSome = true := by
  unfold emPlace
  split
  · rfl
  · rw [if_pos h]; rfl

theorem emPlace_holds_new {t u : KMap EmEntry} {e : EmEntry} {ctr : Nat} (h : emPlace t e ctr = some u) (he : e ≠ {}) :
    ∃ i, kget {} u i = e := by
  rcases emPlace_cases h with hw | rfl
  · exact emWalk_holds hw he (.inl rfl)
  · exact ⟨_, kget_kset_same ..⟩

theorem emPlace_holds_old {t u : KMap EmEntry} {e x : EmEntry} {ctr : Nat} (h : emPlace t e ctr = some u) (hr : krising t = true)
    (hx : x ≠ {}) (hj : ∃ j, kget {} t j = x) : ∃ i, kget {} u i = x := by
  rcases emPlace_cases h with hw | rfl
  · exact emWalk_holds hw hx (.inr hj)
  · exact kset_free_holds (kget_lowestFree {} hr 0) hx (.inr hj)

theorem emPlace_forall {P : EmEntry → Prop} (hd : P {}) {ctr : Nat} {t u : KMap EmEntry} {e : EmEntry} (hu : emPlace t e ctr = some u)
    (ht : ∀ x ∈ t, P x.2) (he : P e) : ∀ x ∈ u, P x.2 := by
  rcases emPlace_cases hu with hw | rfl
  · exact emWalk_forall hd hw ht he
  · intro x hx
    rcases mem_kset hx with rfl | hx
    · exact he
    · exact ht x hx

/-- An entry with a new key that has found a place is what the key is found with. -/
theorem emFind_emPlace {t u : KMap EmEntry} {e : EmEntry} {ctr : Nat} (h : emPlace t e ctr = some u) (he : e.key ≠ [])
    (hn : emFind t e.key = none) : ∃ k, emFind u e.key = some (k, e) := by
  have hne : e ≠ {} := fun h => he (by rw [h])
  refine emFind_of_only hne (emPlace_holds_new h hne) (emPlace_forall (P := fun x => x.key = e.key → x = e) ?_ h ?_ fun _ => rfl)
  · exact fun h => absurd h.symm he
  · exact fun x hx h => absurd h (emFind_eq_none.mp hn x hx)

/-! ### INSERT, DELETE and SEARCH (R151) -/

@[simp] theorem State.em_modEm (s : State) (g : Nat) (f : KMap EmEntry → KMap EmEntry) : ((s.modEm g f).clsOf g).em = f (s.clsOf g).em := by
  simp [State.modEm, State.clsOf_setCls]

/-- The key of an entry given by bytes is never empty. -/
theorem emEntryOf_key_ne (b : List Byte) : (emEntryOf b).key ≠ [] :=
  List.ne_nil_of_length_pos (by rw [emEntryOf, slice_length]; decide)

section Insert
variable {s : State} {g : Nat} {b : List Byte} (hok : emEntryOk s g b = true) (hby : bypassDenied s b = false)
include hok hby

theorem tblInsertOp_present {k : Nat} {e : EmEntry} (hf : emFind (s.clsOf g).em (slice b 0 16) = some (k, e)) :
    tblInsertOp g 0 b s = { state := s, status := .conflict, index := some k } := by
  simp [tblInsertOp, hok, hby, hf]

variable (hf : emFind (s.clsOf g).em (slice b 0 16) = none)
include hf

theorem tblInsertOp_placed {u : KMap EmEntry} (hu : emPlace (s.clsOf g).em (emEntryOf b) s.freeCtr = some u) : tblInsertOp g 0 b s =
    { state := s.useFree.modEm g (fun _ => u), status := .ok, index := some (((emFind u (emEntryOf b).key).map Prod.fst).getD 0) } := by
  simp [tblInsertOp, hok, hby, hf, emInsert, hu]

theorem tblInsertOp_full (hu : emPlace (s.clsOf g).em (emEntryOf b) s.freeCtr = none) :
    tblInsertOp g 0 b s = { state := s.useFree, status := .full } := by
  simp [tblInsertOp, hok, hby, hf, emInsert, hu]

/-- An INSERT of a new key that answers OK has found a place. -/
theorem emPlace_of_tblInsertOp_ok (hs : (tblInsertOp g 0 b s).status = .ok) : ∃ u, emPlace (s.clsOf g).em (emEntryOf b) s.freeCtr = some u := by
  cases hu : emPlace (s.clsOf g).em (emEntryOf b) s.freeCtr with
  | some u => exact ⟨u, rfl⟩
  | none =>
    rw [tblInsertOp_full hok hby hf hu] at hs
    cases hs

theorem tblInsertOp_ok_of_room (hl : (s.clsOf g).em.length ≤ 124518) : (tblInsertOp g 0 b s).status = .ok := by
  obtain ⟨u, hu⟩ := Option.isSome_iff_exists.mp (emPlace_isSome (emEntryOf b) s.freeCtr hl)
  rw [tblInsertOp_placed hok hby hf hu]

end Insert

section Delete
variable {s : State} {g : Nat} {b : List Byte} (hok : emKeyOk g b = true)
include hok

theorem tblDeleteOp_absent (hf : emFind (s.clsOf g).em (slice b 0 16) = none) :
    tblDeleteOp g 0 b s = { state := s, status := .notFound } := by
  simp [tblDeleteOp, hok, hf]

theorem tblDeleteOp_present {k : Nat} {e : EmEntry} (hf : emFind (s.clsOf g).em (slice b 0 16) = some (k, e)) :
    tblDeleteOp g 0 b s = { state := s.modEm g (fun t => kset {} t k {}), status := .ok } := by
  simp [tblDeleteOp, hok, hf]

end Delete

/-- A key that one slot alone held is not found once that slot is empty. -/
theorem emFind_kset_empty {t : KMap EmEntry} {k : Nat} {key : List Byte} (h : ∀ x ∈ t, x.2.key = key → x.1 = k) :
    emFind (kset {} t k {}) key = none := by
  rw [kset, if_pos rfl, emFind_eq_none]
  exact fun x hx hkey => (mem_kdel hx).2 (h x (mem_kdel hx).1 hkey)

theorem tblSearchOp_present {s : State} {g k : Nat} {e : EmEntry} (hok : emKeyOk g (tblData s g) = true)
    (hf : emFind (s.clsOf g).em (slice (tblData s g) 0 16) = some (k, e)) :
    tblSearchOp g 0 s = { state := s, status := .ok, index := some k, data := some e.bytes } := by
  simp [tblSearchOp, hok, hf]

/-- Settles O15: an insertion loses no entry along its relocations, and no other entry has the key that it brings. -/
theorem exactMatchOperations : Obligations.ExactMatchOperations := by
  refine ⟨?present, ?new, ?room, ?delete, ?absent, ?search⟩
  case present => exact fun s g b k e hok hby hf => tblInsertOp_present hok hby hf
  case new =>
    intro s g b _ hok hby hf hs
    obtain ⟨u, hu⟩ := emPlace_of_tblInsertOp_ok hok hby hf hs
    obtain ⟨k, hk⟩ := emFind_emPlace hu (emEntryOf_key_ne b) hf
    rw [tblInsertOp_placed hok hby hf hu, hk]
    refine ⟨k, rfl, ?_, fun hr j e he hj => ?_⟩ <;> rw [State.em_modEm]
    · exact hk
    · exact emPlace_holds_old hu hr he ⟨j, hj⟩
  case room => exact fun s g b _ hok hby hf hl => tblInsertOp_ok_of_room hok hby hf hl
  case delete =>
    intro s g b k e hok hf honly _
    rw [tblDeleteOp_present hok hf, State.em_modEm]
    exact ⟨rfl, emFind_kset_empty honly⟩
  case absent => exact fun s g b hok hf => tblDeleteOp_absent hok hf
  case search => exact fun s g k e hok hf => tblSearchOp_present hok hf

/-! ### Applying a learn request (R141 to R143) -/

theorem execLearnApply_empty {s : State} {g : Nat} (h : (s.clsOf g).learnQ = []) : execLearnApply g s = .next s := by
  simp [execLearnApply, h]

section Learn
variable {s : State} {g : Nat} {r : Learn} {rest : List Learn} (hq : (s.clsOf g).learnQ = r :: rest)
include hq

section Unknown
variable (hf : emFind (s.clsOf g).em r.key = none)
include hf

/-- A new address that finds a place is inserted with HIT and counted. -/
theorem execLearnApply_inserted {k : Nat} {t : State}
    (hi : emInsert (s.setCls g { s.clsOf g with learnQ := rest }) g { key := r.key, res := r.res, hit := true } = some (k, t)) :
    execLearnApply g s = .next (t.count (.cls g 15)) := by
  simp [execLearnApply, hq, hf, hi]

theorem execLearnApply_full
    (hi : emInsert (s.setCls g { s.clsOf g with learnQ := rest }) g { key := r.key, res := r.res, hit := true } = none) :
    execLearnApply g s = .next (((s.setCls g { s.clsOf g with learnQ := rest }).useFree.count (.cls g 14)).alarm (R.CLS_ALARM g)
      F.CLS_ALARM_LEARN_FULL) := by
  simp [execLearnApply, hq, hf, hi]

end Unknown

section Known
variable {k : Nat} {e : EmEntry} (hf : emFind (s.clsOf g).em r.key = some (k, e))
include hf

/-- The same place only gains HIT (R140). -/
theorem execLearnApply_hit (hr : e.res = r.res) : execLearnApply g s =
    .next ((s.setCls g { s.clsOf g with learnQ := rest }).modEm g (fun t => kset {} t k { e with hit := true })) := by
  simp [execLearnApply, hq, hf, hr]

variable (hr : e.res ≠ r.res)
include hr

/-- A static entry is in conflict with the request; STATIC_DROP cuts every copy of its frame (R143). -/
theorem execLearnApply_static (hs : e.static = true) {v : State} (hv : v = ((s.setCls g { s.clsOf g with learnQ := rest }).count
    (.cls g 12)).alarm (R.CLS_ALARM g) F.CLS_ALARM_STATIC_CONFLICT) : execLearnApply g s =
    .next (if v.flag (R.DOMAIN_CFG_d g (beAt r.key 2 1)) F.DOMAIN_CFG_d_STATIC_DROP = true then v.cutFrame r.frame else v) := by
  subst hv
  simp only [execLearnApply, hq, hf, if_neg hr, if_pos hs]
  split <;> rfl

variable (hs : ¬e.static = true)
include hs

theorem execLearnApply_pinned (hp : e.pinned = true) : execLearnApply g s = .next (s.setCls g { s.clsOf g with learnQ := rest }) := by
  simp [execLearnApply, hq, hf, hr, hs, hp]

theorem execLearnApply_moved (hp : ¬e.pinned = true) : execLearnApply g s =
    .next (stationMove (s.setCls g { s.clsOf g with learnQ := rest }) g k e r.res) := by
  simp [execLearnApply, hq, hf, hr, hs, hp]

end Known
end Learn

/-! ### The sweeper and the pins (R142, R144, R145) -/

section Sweep
variable {s : State} {g k : Nat}

theorem execAgeingSweepVisit_stopped (hit : Bool) (h : s.fld (R.CLS_AGE g) F.CLS_AGE_PERIOD_S = 0) :
    execAgeingSweepVisit g k hit s = .next s := if_pos h

variable {e : EmEntry} (h : s.fld (R.CLS_AGE g) F.CLS_AGE_PERIOD_S ≠ 0) (hk : kget {} (s.clsOf g).em k = e) (he : e ≠ {})
include h hk he

/-- A visit spares static and pinned entries, and else clears HIT, marks the entry, or removes it (R144). -/
theorem execAgeingSweepVisit_visit : execAgeingSweepVisit g k false s = .next
    (if e.static = true ∨ e.pinned = true then s
     else if e.hit = true then s.modEm g (fun t => kset {} t k { e with hit := false, swept := false })
     else if e.swept = false then s.modEm g (fun t => kset {} t k { e with swept := true })
     else (s.modEm g (fun t => kset {} t k {})).count (.cls g 16)) := by
  subst hk
  simp [execAgeingSweepVisit, h, sweepVisit, he]

/-- The lookup of a visit's own cycle wins over the visit (R145). -/
theorem execAgeingSweepVisit_hit (hs : e.static = false) (hp : e.pinned = false) :
    execAgeingSweepVisit g k true s = .next (s.modEm g (fun t => kset {} t k { e with hit := true, swept := false })) := by
  subst hk
  simp [execAgeingSweepVisit, h, sweepVisit, he, hs, hp]

end Sweep

/-- PIN_HOLD_S ends a pin of station moves. -/
theorem execPinHoldExpiry_moves {s : State} {g k : Nat} {e : EmEntry} (hk : kget {} (s.clsOf g).em k = e) (hp : e.pinned = true)
    (hw : e.pinSw = false) (h : s.fld (R.CLS_MOVE g) F.CLS_MOVE_PIN_HOLD_S ≠ 0) :
    execPinHoldExpiry g k s = .next (s.modEm g (fun t => kset {} t k { e with pinned := false, pinSw := false })) := by
  subst hk
  exact if_pos ⟨hp, by simp [hw], h⟩

/-- Settles O16: one law for each answer to a learn request, and one for each visit and each timer. -/
theorem learningAndAgeing : Obligations.LearningAndAgeing := by
  refine ⟨?empty, ?learn, ?visit, ?hit, ?stopped, ?window, ?pin, ?repair⟩
  case empty => exact fun s g h => execLearnApply_empty h
  case learn =>
    refine fun s g r rest hq => ⟨_, _, rfl, rfl, ?_⟩
    split
    next hf =>
      split
      next k t hi => exact execLearnApply_inserted hq hf hi
      next hi => exact execLearnApply_full hq hf hi
    next k e hf =>
      split_ifs with hr hs hd hp
      · exact execLearnApply_hit hq hf hr
      · exact (execLearnApply_static hq hf hr hs rfl).trans (by rw [if_pos hd])
      · exact (execLearnApply_static hq hf hr hs rfl).trans (by rw [if_neg hd])
      · exact execLearnApply_pinned hq hf hr hs hp
      · exact execLearnApply_moved hq hf hr hs hp
  case visit => exact fun s g k e h hk he => execAgeingSweepVisit_visit h hk he
  case hit => exact fun s g k e h hk he hs hp => execAgeingSweepVisit_hit h hk he hs hp
  case stopped => exact fun s g k hit h => execAgeingSweepVisit_stopped hit h
  case window => exact fun s g => rfl
  case pin => exact fun s g k e hk hp hw h => execPinHoldExpiry_moves hk hp hw h
  case repair => exact fun s g => rfl

/-! ### Windows of registers -/

/-- A window given bytes changes registers alone. -/
theorem State.setWin_frame (s : State) (a : Nat) (l : List Byte) (n : Nat) : s.setWin a l n = { s with regs := (s.setWin a l n).regs } := by
  induction n generalizing s a l with
  | zero => rfl
  | succ n ih => rw [State.setWin, ih]; rfl

/-- A window given bytes changes no register below it. -/
theorem State.fld_setWin_below (s : State) {a b : Nat} (f : Fld) (l : List Byte) (n : Nat) (h : b < a) :
    (s.setWin a l n).fld b f = s.fld b f := by
  induction n generalizing s a l with
  | zero => rfl
  | succ n ih => rw [State.setWin, ih _ _ (by omega), State.fld_setReg_reg _ _ _ h.ne]

/-! ### Starting a command (R149, R152, R157) -/

theorem execTblRead_page {g : Nat} (hg : g < 4) (table : Nat) (s : State) :
    execTblRead g table s = .next (tblIssue s g none (tblReadOp g table)) := by rw [execTblRead, Nat.mod_eq_of_lt hg]

theorem execTblWrite_page {g : Nat} (hg : g < 4) (table : Nat) (s : State) :
    execTblWrite g table s = .next (tblIssue s g (lpmTable table) (tblWriteOp g table)) := by rw [execTblWrite, Nat.mod_eq_of_lt hg]

theorem execTblInsert_page {g : Nat} (hg : g < 4) (table : Nat) (s : State) : execTblInsert g table s =
    .next (tblIssue s g (lpmTable table) (fun s => tblInsertOp g table (tblData s g) s)) := by rw [execTblInsert, Nat.mod_eq_of_lt hg]

theorem execTblDelete_page {g : Nat} (hg : g < 4) (table : Nat) (s : State) : execTblDelete g table s =
    .next (tblIssue s g (lpmTable table) (fun s => tblDeleteOp g table (tblData s g) s)) := by rw [execTblDelete, Nat.mod_eq_of_lt hg]

theorem execTblSearch_page {g : Nat} (hg : g < 4) (table : Nat) (s : State) :
    execTblSearch g table s = .next (tblIssue s g none (tblSearchOp g table)) := by rw [execTblSearch, Nat.mod_eq_of_lt hg]

theorem execTblFlush_page {g : Nat} (hg : g < 4) (table flt : Nat) (s : State) :
    execTblFlush g table flt s = .next (tblIssue s g (lpmTable table) (tblFlushOp g table flt)) := by rw [execTblFlush, Nat.mod_eq_of_lt hg]

theorem execTblAge_page {g : Nat} (hg : g < 4) (table : Nat) (s : State) :
    execTblAge g table s = .next (tblIssue s g none (tblAgeOp g table)) := by rw [execTblAge, Nat.mod_eq_of_lt hg]

theorem blockOf_TBL_CMD {g : Nat} (hg : g < 4) : blockOf (R.TBL_CMD g) = .cls := by
  interval_cases g <;> rfl

section Issue
variable {s : State} {g : Nat} (change : Option Nat) (op : State → TblAnswer) (hr : s.reachable = true) (hs : s.serves .cls = true) (hg : g < 4)
include hr hs hg

/-- A command while BUSY is ignored (R152). -/
theorem tblIssue_busy (hb : s.flag (R.TBL_STATUS g) F.TBL_STATUS_BUSY = true) : tblIssue s g change op = s := by
  rw [tblIssue, State.access_served hr (by rwa [blockOf_TBL_CMD hg]), if_pos hb]

variable (hb : s.flag (R.TBL_STATUS g) F.TBL_STATUS_BUSY = false)
include hb

/-- A change of an LPM table while another page's runs ends at once with BUSY (R152). -/
theorem tblIssue_lpmBusy (hc : change.isSome = true) (hl : lpmBusy s g = true) :
    tblIssue s g change op = s.setFld (R.TBL_STATUS g) F.TBL_STATUS_STATUS Status.busy.code := by
  rw [tblIssue, State.access_served hr (by rwa [blockOf_TBL_CMD hg]), if_neg (ne_true_of_eq_false hb), if_pos ⟨hc, hl⟩]

theorem tblIssue_started (hc : change = none ∨ lpmBusy s g = false) : tblIssue s g change op = TableStarted s g change (op s) := by
  have hn : ¬(change.isSome = true ∧ lpmBusy s g = true) := by rcases hc with h | h <;> simp [h]
  rw [tblIssue, State.access_served hr (by rwa [blockOf_TBL_CMD hg]), if_neg (ne_true_of_eq_false hb), if_neg hn]
  rfl

end Issue

/-! ### The end of a command (R149, R151, R152, R158) -/

/-- Replica `h` has swapped (R149). -/
def swapped (s : State) (h : Nat) : State := s.setCls h { s.clsOf h with lpmOld := none }

/-- The classifier when the command of page `g` is done: none runs there, and every replica has taken over a change of an LPM table. -/
def tblEnded (s : State) (g : Nat) (x : TblPending) : State :=
  let s := s.setCls g { s.clsOf g with pending := none }
  if x.lpmChange then [0, 1, 2, 3].foldl swapped s else s

/-- The registers of page `g` when its command is done: BUSY and STATUS, TBL_INDEX and TBL_DATA. -/
def tblShown (s : State) (g : Nat) (x : TblPending) : State :=
  let s := (s.setFld (R.TBL_STATUS g) F.TBL_STATUS_BUSY 0).setFld (R.TBL_STATUS g) F.TBL_STATUS_STATUS x.status.code
  let s := match x.index with
    | some i => s.setFld (R.TBL_INDEX g) F.TBL_INDEX_INDEX i
    | none => s
  match x.data with
  | some d => s.setWin (R.TBL_DATA_n g 0) d 8
  | none => s

theorem execTblCmdDone_pending {s : State} {g : Nat} {x : TblPending} (h : (s.clsOf g).pending = some x) :
    execTblCmdDone g s = .next (tblShown (tblEnded s g x) g x) := by
  rw [execTblCmdDone, h, tblShown]
  dsimp only
  cases x.data <;> rfl

/-- Swapping changes the classifier's own state alone. -/
theorem swapped_frame (l : List Nat) (s : State) : l.foldl swapped s = { s with cls := (l.foldl swapped s).cls } := by
  induction l generalizing s with
  | nil => rfl
  | cons h l ih =>
    rw [List.foldl_cons]
    conv_lhs => rw [ih]
    rfl

theorem tblEnded_frame (s : State) (g : Nat) (x : TblPending) : tblEnded s g x = { s with cls := (tblEnded s g x).cls } := by
  unfold tblEnded
  split
  · conv_lhs => rw [swapped_frame]
    rfl
  · rfl

/-- What swapping leaves: the pending command of every page. -/
theorem pending_swapped (l : List Nat) (s : State) (g : Nat) :
    ((l.foldl swapped s).clsOf g).pending = (s.clsOf g).pending := by
  induction l generalizing s with
  | nil => rfl
  | cons h l ih =>
    rw [List.foldl_cons, ih, swapped, State.clsOf_setCls]
    split_ifs with hg
    · rw [hg]
    · rfl

theorem tblEnded_pending (s : State) (g : Nat) (x : TblPending) : ((tblEnded s g x).clsOf g).pending = none := by
  unfold tblEnded
  split
  · rw [pending_swapped, State.clsOf_setCls, if_pos rfl]
  · rw [State.clsOf_setCls, if_pos rfl]

theorem tblShown_frame (s : State) (g : Nat) (x : TblPending) : tblShown s g x = { s with regs := (tblShown s g x).regs } := by
  unfold tblShown
  cases x.data with
  | none => cases x.index <;> rfl
  | some d =>
    dsimp only
    conv_lhs => rw [State.setWin_frame]
    cases x.index <;> rfl

section Shown
variable (s : State) (g : Nat) (x : TblPending)

/-- A register of the page below the data window reads as the status and the index leave it. -/
theorem fld_tblShown {a : Nat} (f : Fld) (h : a < R.TBL_DATA_n g 0) :
    (tblShown s g x).fld a f = (tblShown s g { x with data := none }).fld a f := by
  unfold tblShown
  cases x.data with
  | none => rfl
  | some d => exact State.fld_setWin_below _ f d 8 h

/-- TBL_STATUS reads as BUSY and STATUS leave it. -/
theorem fld_tblShown_status (f : Fld) : (tblShown s g x).fld (R.TBL_STATUS g) f =
    ((s.setFld (R.TBL_STATUS g) F.TBL_STATUS_BUSY 0).setFld (R.TBL_STATUS g) F.TBL_STATUS_STATUS x.status.code).fld (R.TBL_STATUS g) f := by
  rw [fld_tblShown _ _ _ _ (by simp [R.TBL_STATUS, R.TBL_DATA_n]), tblShown]
  cases x.index with
  | none => rfl
  | some i => exact State.fld_setFld_reg _ _ _ _ (by simp [R.TBL_STATUS, R.TBL_INDEX])

theorem tblShown_busy : (tblShown s g x).fld (R.TBL_STATUS g) F.TBL_STATUS_BUSY = 0 := by
  rw [fld_tblShown_status, State.fld_setFld_field _ _ _ _ _ (by decide), State.fld_setFld_same _ _ F.TBL_STATUS_BUSY, Nat.zero_mod]

theorem tblShown_status : (tblShown s g x).fld (R.TBL_STATUS g) F.TBL_STATUS_STATUS = x.status.code := by
  rw [fld_tblShown_status, State.fld_setFld_same _ _ F.TBL_STATUS_STATUS]
  exact Nat.mod_eq_of_lt x.status.code_lt

/-- TBL_INDEX reads as the answer's index leaves it. -/
theorem tblShown_index : (tblShown s g x).fld (R.TBL_INDEX g) F.TBL_INDEX_INDEX =
    (x.index.map (· % 2 ^ F.TBL_INDEX_INDEX.len)).getD (s.fld (R.TBL_INDEX g) F.TBL_INDEX_INDEX) := by
  have hne : R.TBL_INDEX g ≠ R.TBL_STATUS g := by simp [R.TBL_STATUS, R.TBL_INDEX]
  rw [fld_tblShown _ _ _ _ (by simp [R.TBL_INDEX, R.TBL_DATA_n]), tblShown]
  cases x.index with
  | none => exact (State.fld_setFld_reg _ _ _ _ hne).trans (State.fld_setFld_reg _ _ _ _ hne)
  | some i => exact State.fld_setFld_same _ _ _ _

end Shown

/-- A change of the classifier's own state and then of registers leaves the rest. -/
theorem frame_regs_cls {s u t : State} (hu : u = { s with cls := u.cls }) (ht : t = { u with regs := t.regs }) :
    t = { s with regs := t.regs, cls := t.cls } := by
  have hc : t.cls = u.cls := by rw [ht]
  rw [hc]
  conv_lhs => rw [ht, hu]

/-- Settles O14: a command is ignored, refused or started by the state of the page, and its end writes what its answer says. -/
theorem tableCommands : Obligations.TableCommands := by
  refine ⟨?reads, ?changes, ?busy, ?lpm, ?done⟩
  case reads =>
    intro s g table hr hs hg hb
    have started := fun op => congrArg (Host.Outcome.next (φ := Fault) (ρ := Refusal)) (tblIssue_started none op hr hs hg hb (.inl rfl))
    exact ⟨(execTblRead_page hg ..).trans (started _), (execTblSearch_page hg ..).trans (started _), (execTblAge_page hg ..).trans (started _)⟩
  case changes =>
    intro s g table flt hr hs hg hb hc
    have started := fun op => congrArg (Host.Outcome.next (φ := Fault) (ρ := Refusal)) (tblIssue_started _ op hr hs hg hb hc)
    exact ⟨(execTblWrite_page hg ..).trans (started _), (execTblInsert_page hg ..).trans (started _),
      (execTblDelete_page hg ..).trans (started _), (execTblFlush_page hg ..).trans (started _)⟩
  case busy =>
    intro s g table hr hs hg hb
    have busy := fun c op => congrArg (Host.Outcome.next (φ := Fault) (ρ := Refusal)) (tblIssue_busy c op hr hs hg hb)
    exact ⟨(execTblRead_page hg ..).trans (busy _ _), (execTblInsert_page hg ..).trans (busy _ _)⟩
  case lpm =>
    intro s g table flt hr hs hg hb ht hl
    have hc : (lpmTable table).isSome = true := by rw [lpmTable, if_pos ht]; rfl
    have refused := fun op => congrArg (Host.Outcome.next (φ := Fault) (ρ := Refusal)) (tblIssue_lpmBusy _ op hr hs hg hb hc hl)
    exact ⟨_, rfl, (execTblWrite_page hg ..).trans (refused _), (execTblInsert_page hg ..).trans (refused _),
      (execTblDelete_page hg ..).trans (refused _), (execTblFlush_page hg ..).trans (refused _)⟩
  case done =>
    intro s g x _ hx
    have hregs : (tblEnded s g x).regs = s.regs := by rw [tblEnded_frame]
    refine ⟨_, execTblCmdDone_pending hx, ?_, tblShown_busy .., tblShown_status .., fun hi => ?_, fun i hi => ?_, ?_⟩
    · rw [tblShown_frame]
      exact tblEnded_pending s g x
    · rw [tblShown_index, hi]
      exact State.fld_congr hregs _ _
    · rw [tblShown_index, hi]
      rfl
    · exact frame_regs_cls (tblEnded_frame s g x) (tblShown_frame _ g x)

end Sys2Proof.Machine
end

section
/-! The family of spec/06_associations_and_rekey.md: the SA commands, the events of key slots, and the comparators that arm a switch, with
the captures and the time-unlock of spec/12_time.md. -/

namespace Sys2Proof.Machine

/-! ### Associations by number -/

theorem State.assoc_setAssoc_same (s : State) (rx : Bool) (i : Nat) (x : Assoc) : (s.setAssoc rx i x).assoc rx i = x := by
  cases rx <;> exact kget_kset_same _ _ _ _

/-- Clearing counters leaves the associations. -/
theorem State.assoc_clearCtrs (s : State) (a n : Nat) (rx : Bool) (i : Nat) : (s.clearCtrs a n).assoc rx i = s.assoc rx i := by
  induction n with
  | zero => rfl
  | succ n ih => exact ih

theorem installAssoc_assoc (s : State) (rx : Bool) (i : Nat) (r : AssocRec) :
    (installAssoc s rx i r).assoc rx i = { valid := true, record := r } := by
  rw [installAssoc, State.assoc_clearCtrs, State.assoc_setAssoc_same]

/-- An association that has drained is gone. -/
theorem drainAssoc_assoc (s : State) (rx : Bool) (i : Nat) : (drainAssoc s rx i).assoc rx i = {} := State.assoc_setAssoc_same _ _ _ _

/-! ### The window of a function (R194, R195, R466) -/

/-- The pending word of a function's vectors is no register of its window. -/
theorem aSaStatus_ne_msixPba (k : Nat) : aSaStatus (.vf k) ≠ msixPba (.vf k) := by
  simp only [aSaStatus, saBase, msixPba, R.SL_SA_CMD, R.SL_MSIX_PBA]
  omega

/-- SA_STATUS reads as the end of a command writes it; the interrupt of a slice leaves it. -/
theorem fld_saEnd_status (s : State) (fn : Fn) (st : Status) (f : Fld) : (saEnd s fn st).fld (aSaStatus fn) f =
    ((s.setFld (aSaStatus fn) F.SA_STATUS_BUSY 0).setFld (aSaStatus fn) F.SA_STATUS_STATUS st.code).fld (aSaStatus fn) f := by
  cases fn with
  | pf => rfl
  | vf k => exact congrArg f.get (State.reg_interrupt_other _ _ _ (aSaStatus_ne_msixPba k))

theorem saEnd_busy (s : State) (fn : Fn) (st : Status) : (saEnd s fn st).flag (aSaStatus fn) F.SA_STATUS_BUSY = false := by
  rw [State.flag, fld_saEnd_status, State.fld_setFld_field _ _ _ _ _ (by decide), State.fld_setFld_same _ _ F.SA_STATUS_BUSY]
  rfl

theorem saEnd_status (s : State) (fn : Fn) (st : Status) : (saEnd s fn st).fld (aSaStatus fn) F.SA_STATUS_STATUS = st.code := by
  rw [fld_saEnd_status, State.fld_setFld_same _ _ F.SA_STATUS_STATUS]
  exact Nat.mod_eq_of_lt st.code_lt

/-- What a window shows of its command's answer: the status of one that has ended, BUSY for one that goes on (R194). -/
def saAnswer (fn : Fn) : State × Option Status → State
  | (t, some st) => saEnd t fn st
  | (t, none) => t.setFld (aSaStatus fn) F.SA_STATUS_BUSY 1

/-- A window whose command runs takes no other (R194). -/
theorem saCommand_busy {s : State} {fn : Fn} (o : Bool) (k : Bool → Nat → State → State × Option Status) (hr : s.reachable = true)
    (hs : s.serves (blockOf (aSaCmd fn)) = true) (hb : s.flag (aSaStatus fn) F.SA_STATUS_BUSY = true) : saCommand fn o k s = .next s := by
  rw [saCommand, State.access_served hr hs, if_pos hb]

section Window
variable {s t : State} {fn : Fn} {rx : Bool} {j : Nat} (h : SaOpen s fn rx j)
include h

section Command
variable (o : Bool) {k : Bool → Nat → State → State × Option Status}

/-- An open window runs its command on the direction and the association that it names. -/
theorem saCommand_open : saCommand fn o k s = .next (saAnswer fn (k rx j s)) := by
  obtain ⟨hr, hs, hshut, hb, rfl, hj⟩ := h
  rw [saCommand, State.access_served hr hs, if_neg (ne_true_of_eq_false hb), if_neg (by simp [hshut])]
  cases fn with
  | pf => subst hj; rfl
  | vf n =>
    obtain ⟨hi, rfl⟩ := hj
    exact congrArg _ (if_neg (Nat.not_le.mpr hi))

/-- A command that ends at once (log entry 99) shows its status. -/
theorem saCommand_ends {st : Status} (hk : k rx j s = (t, some st)) : saCommand fn o k s = .next (saEnd t fn st) := by
  rw [saCommand_open h, hk, saAnswer]

/-- A command that goes on leaves BUSY set. -/
theorem saCommand_runs (hk : k rx j s = (t, none)) : saCommand fn o k s = .next (t.setFld (aSaStatus fn) F.SA_STATUS_BUSY 1) := by
  rw [saCommand_open h, hk, saAnswer]

end Command

/-! ### INSTALL and REMOVE (R167, R195) -/

section Pool
variable (hp : poolDenied s fn j = false)
include hp

theorem execSaInstall_conflict (hv : (s.assoc rx j).valid = true) : execSaInstall fn s = .next (saEnd s fn .conflict) :=
  saCommand_ends h _ (by simp [hp, hv])

theorem execSaRemove_valid (hv : (s.assoc rx j).valid = true) : execSaRemove fn s = .next (saEnd (removeAssoc s rx j) fn .ok) :=
  saCommand_ends h _ (by simp [hp, hv])

variable (hv : (s.assoc rx j).valid = false)
include hv

theorem execSaRemove_notFound : execSaRemove fn s = .next (saEnd s fn .notFound) := saCommand_ends h _ (by simp [hp, hv])

theorem execSaInstall_draining (hd : (s.assoc rx j).draining = true) : execSaInstall fn s = .next (saEnd s fn .busy) :=
  saCommand_ends h _ (by simp [hp, hv, hd])

/-- A record that passes its checks is installed on a free index. -/
theorem execSaInstall_free {r : AssocRec} (hd : (s.assoc rx j).draining = false)
    (hl : sliceDenies s fn rx (assocRecOf (windowRecord s fn)) = false) (hk : recordOk s rx (windowRecord s fn) = true)
    (hr : r = { assocRecOf (windowRecord s fn) with paired := pairedIn fn (assocRecOf (windowRecord s fn)).paired })
    (hc : (!rx && duplicateSc s j r) = false) : execSaInstall fn s = .next (saEnd (installAssoc s rx j r) fn .ok) := by
  subst hr
  exact saCommand_ends h _ (by simp only [hp, hv, hd, hl, hk, hc]; rfl)

end Pool

/-- An association in the host pool is not the physical function's (R167, log entry 100). -/
theorem execSaInstall_denied (hp : poolDenied s fn j = true) : execSaInstall fn s = .next (saEnd s fn .denied) :=
  saCommand_ends h _ (by simp [hp])

theorem execSaRemove_denied (hp : poolDenied s fn j = true) : execSaRemove fn s = .next (saEnd s fn .denied) :=
  saCommand_ends h _ (by simp [hp])

end Window

/-- Settles O24: an open window runs its command, and each command judges the association that the window names. -/
theorem associationInstallAndRemove : Obligations.AssociationInstallAndRemove := by
  refine ⟨?installed, ?conflict, ?draining, ?denied, ?removed, ?notFound, ?drained, ?shown⟩
  case installed =>
    exact fun s fn rx j r h hp hv hd hl hk hr hc => ⟨execSaInstall_free h hp hv hd hl hk hr hc, installAssoc_assoc s rx j r⟩
  case conflict => exact fun s fn rx j h hp hv => execSaInstall_conflict h hp hv
  case draining => exact fun s fn rx j h hp hv hd => execSaInstall_draining h hp hv hd
  case denied => exact fun s rx j h hp => ⟨execSaInstall_denied h hp, execSaRemove_denied h hp⟩
  case removed => exact fun s fn rx j h hp hv => execSaRemove_valid h hp hv
  case notFound => exact fun s fn rx j h hp hv => execSaRemove_notFound h hp hv
  case drained => exact fun s rx i hd hb => ⟨if_pos ⟨hd, by simp [hb]⟩, drainAssoc_assoc s rx i⟩
  case shown => exact fun s fn st => ⟨saEnd_busy s fn st, saEnd_status s fn st⟩

/-! ### The commands on a valid association (R175, R184, R185, R192, R195, R197) -/

section Valid
variable {s t : State} {fn : Fn} {rx : Bool} {j : Nat} (h : SaOpen s fn rx j) (hv : (s.assoc rx j).valid = true)
include h hv

theorem execSaRead_valid : execSaRead fn s = .next (saEnd (s.setWin (aSaData fn)
    ({ (s.assoc rx j).record with paired := pairedOut fn (s.assoc rx j).record.paired }.bytes rx) 10) fn .ok) :=
  saCommand_ends h _ (by simp [hv])

theorem execSaReadSlot_valid : execSaReadSlot fn s =
    .next (saEnd (s.setWin (aSaData fn) (slotRecord s rx j (s.fld (aSaIndex fn) F.SA_INDEX_SLOT)) 8) fn .ok) :=
  saCommand_ends h _ (by simp [hv])

/-- A derivation that begins runs on: the command waits for its slot (log entry 99). -/
theorem execSaDerive_begun {d : List Byte} (hp : poolDenied s fn j = false) (hb : s.dev.state ≠ .standby)
    (hl : rx = true ∨ txLoadOpen s = true) (hd : d = s.winBytes (aSaData fn) 3)
    (ht : derive s rx j (beAt d 0 4) (beAt d 4 1) (beAt d 8 4) (some fn) false = .ok t) :
    execSaDerive fn s = .next (t.setFld (aSaStatus fn) F.SA_STATUS_BUSY 1) := by
  have hopen : (!rx && !txLoadOpen s) = false := by rcases hl with e | e <;> simp [e]
  subst hd
  exact saCommand_runs h _ (by simp [hv, hp, hb, hopen, ht])

/-- A record that differs only in what MODIFY may change takes the place of the old one. -/
theorem execSaModify_modifiable {r : AssocRec} (hl : sliceDenies s fn rx (assocRecOf (windowRecord s fn)) = false)
    (hk : recordOk s rx (windowRecord s fn) = true)
    (hr : r = { assocRecOf (windowRecord s fn) with paired := pairedIn fn (assocRecOf (windowRecord s fn)).paired })
    (hm : modifiable (s.assoc rx j).record r = r) :
    execSaModify fn s = .next (saEnd (s.setAssoc rx j { s.assoc rx j with record := r }) fn .ok) := by
  subst hr
  refine saCommand_ends h _ ?_
  simp only [hv, hl, Bool.not_true, Bool.false_eq_true, if_false]
  rw [if_pos ⟨hk, hm⟩]

end Valid

section Transmit
variable {s : State} {fn : Fn} {j : Nat} (h : SaOpen s fn false j) (hv : (s.assoc false j).valid = true)
include h hv

theorem execSaSwitch_ready {k : Nat} (hk : (s.assoc false j).ready = some k) :
    execSaSwitch fn s = .next (saEnd (switchSlot s j) fn .ok) :=
  saCommand_ends h _ (by simp [hv, hk])

theorem execSaRetire_ready {k : Nat} (hk : (s.assoc false j).ready = some k) :
    execSaRetire fn s = .next (saEnd (clearSlot s false j k) fn .ok) :=
  saCommand_ends h _ (by simp [hv, hk])

/-- An instant is armed on a claimed comparator that no other association holds (R185). -/
theorem execSaArmTime_armed {d : List Byte} (ht : (s.assoc false j).record.trig = 2)
    (hc : (s.reg R.TIM_TIA).getLsbD (s.assoc false j).record.comparator = true) (hd : d = s.winBytes (aSaData fn) 3)
    (hn : beAt d 6 4 < 1000000000)
    (ho : ∀ e ∈ s.txAssocs, e.1 ≠ j → e.2.armed.isSome = true → e.2.record.comparator ≠ (s.assoc false j).record.comparator) :
    execSaArmTime fn s = .next (saEnd (s.setAssoc false j
      { s.assoc false j with armed := some { sec := beAt d 0 6, ns := beAt d 6 4 } }) fn .ok) := by
  subst hd
  have hfree : s.txAssocs.any (fun e => e.1 ≠ j && e.2.armed.isSome && e.2.record.comparator = (s.assoc false j).record.comparator) = false :=
    List.any_eq_false.mpr fun e he => by simpa using ho e he
  refine saCommand_ends h _ ?_
  simp only [hv, ht, hc, hfree, Nat.not_le.mpr hn]
  rfl

end Transmit

/-- With both receive slots in use the older one is cleared (R192). -/
theorem execSaRetire_older {s : State} {fn : Fn} {j : Nat} (h : SaOpen s fn true j) (hv : (s.assoc true j).valid = true)
    (h0 : (s.assoc true j).slot0.state ≠ .empty) (h1 : (s.assoc true j).slot1.state ≠ .empty) : execSaRetire fn s =
    .next (saEnd (clearSlot (s.setAssoc true j { s.assoc true j with retiring := none }) true j
      (if (s.assoc true j).slot0.gen < (s.assoc true j).slot1.gen then 0 else 1)) fn .ok) :=
  saCommand_ends h _ (by simp [hv, h0, h1])

/-- The commands of a window, each with what it asks of the direction and the association. -/
theorem exec_saCommand {fn : Fn} {c : Instr} (s : State) (hc : c ∈ [Instr.saInstall fn, .saRemove fn, .saRead fn, .saReadSlot fn,
    .saDerive fn, .saSwitch fn, .saArmTime fn, .saRetire fn, .saModify fn]) : ∃ o k, exec c s = saCommand fn o k s := by
  simp only [List.mem_cons, List.not_mem_nil, or_false] at hc
  rcases hc with rfl | rfl | rfl | rfl | rfl | rfl | rfl | rfl | rfl <;>
    (dsimp only [exec, execSaInstall, execSaRemove, execSaRead, execSaReadSlot, execSaDerive, execSaSwitch, execSaArmTime, execSaRetire,
      execSaModify]; exact ⟨_, _, rfl⟩)

/-- Settles O25: an open window runs its command, and each command passes the checks that its case names. -/
theorem associationCommands : Obligations.AssociationCommands := by
  refine ⟨?read, ?readSlot, ?derive, ?switch, ?armTime, ?retireReady, ?retireOlder, ?modify, ?busy⟩
  case read => exact fun s fn rx j h hv => execSaRead_valid h hv
  case readSlot => exact fun s fn rx j h hv => execSaReadSlot_valid h hv
  case derive => exact fun s fn rx j d t h hv hp hb hl hd ht => execSaDerive_begun h hv hp hb hl hd ht
  case switch => exact fun s fn j k h hv hk => execSaSwitch_ready h hv hk
  case armTime => exact fun s fn j d h hv ht hc hd hn ho => execSaArmTime_armed h hv ht hc hd hn ho
  case retireReady => exact fun s fn j k h hv hk => execSaRetire_ready h hv hk
  case retireOlder => exact fun s fn j h hv h0 h1 => execSaRetire_older h hv h0 h1
  case modify => exact fun s fn rx j r h hv hl hk hr hm => execSaModify_modifiable h hv hl hk hr hm
  case busy =>
    intro s fn c hr hs hb hc
    obtain ⟨o, k, he⟩ := exec_saCommand s hc
    exact he.trans (saCommand_busy o k hr hs hb)

/-! ### Loads and FOLLOW candidates (R172, R173, R193, R427, R439) -/

section Load
variable {s : State} {i k : Nat} (hl : ((s.assoc false i).slot k).state = .loading) (hm : s.dev.mcUp = true)
include hl hm

theorem execSlotLoadComplete_failed : execSlotLoadComplete false i k false s = .next (loadFailed s i k) := by
  simp [execSlotLoadComplete, hl, hm]

/-- Without a partner to wait for, a journaled slot is loaded (R427). -/
theorem execSlotLoadComplete_alone (hr : s.pair.partner ≠ .ready) (ho : s.pair.partner ≠ .lost) :
    execSlotLoadComplete false i k true s = .next (txLoaded s i k) := by
  simp [execSlotLoadComplete, hl, hm, hr, ho]

/-- A READY partner has to have journaled the load too (R439). -/
theorem execSlotLoadComplete_ready (hr : s.pair.partner = .ready) : execSlotLoadComplete false i k true s =
    .next (if ((s.assoc false i).slot k).journaled = true then txLoaded s i k else s) := by
  cases hj : ((s.assoc false i).slot k).journaled <;> simp [execSlotLoadComplete, hl, hm, hr, hj]

end Load

theorem execSlotLoadComplete_receive {s : State} {i k : Nat} (jr : Bool) (hl : ((s.assoc true i).slot k).state = .loading) :
    execSlotLoadComplete true i k jr s = .next (rxLoaded s i k) := by
  simp [execSlotLoadComplete, hl]

theorem execRxRetireTimerExpiry_retiring {s : State} {i k : Nat} (h : (s.assoc true i).retiring = some k) : execRxRetireTimerExpiry i s =
    .next (clearSlot (s.setAssoc true i { s.assoc true i with retiring := none }) true i k) := by
  simp [execRxRetireTimerExpiry, h]

section Follow
variable {s : State} {i k : Nat} (hp : ((s.assoc true i).slot k).state = .probation) (hc : ((s.assoc true i).slot k).candidate = false)
include hp hc

theorem execFollowCandidateReady_derived {root m : List Byte} (hr : rootKey s (s.assoc true i).record.root = .ok root)
    (hm : m = deriveKey root (s.assoc true i).record 0 ((s.assoc true i).slot k).gen) : execFollowCandidateReady i k s =
    .next (putSlot s true i k { (s.assoc true i).slot k with
      candidate := true, key := m.take (keyBytes (s.assoc true i).record.suite), salt := m.drop (keyBytes (s.assoc true i).record.suite) }) := by
  subst hm
  simp [execFollowCandidateReady, hp, hc, hr]

/-- A root that gives no key ends the slot in PROBATION with an alarm; R193 leaves the case open, and this is the model's choice. -/
theorem execFollowCandidateReady_noRoot {e : Status} (hr : rootKey s (s.assoc true i).record.root = .error e) :
    execFollowCandidateReady i k s = .next (clearSlot (saAlarm s i F.SA_ALARM_FOLLOW_FAIL) true i k) := by
  simp [execFollowCandidateReady, hp, hc, hr]

end Follow

/-! ### Generations (R174, R175) -/

/-- Raising the generation of one pair keeps every mark's pair. -/
theorem find_raised (l : List GenMark) (root ctx gen r c : Nat) :
    (l.map (fun m => if m.root = root ∧ m.ctx = ctx then { m with gen := max m.gen gen } else m)).find? (fun m => m.root = r && m.ctx = c) =
    (l.find? (fun m => m.root = r && m.ctx = c)).map
      (fun m => if m.root = root ∧ m.ctx = ctx then { m with gen := max m.gen gen } else m) := by
  rw [List.find?_map]
  congr 2
  funext m
  dsimp only [Function.comp]
  split_ifs <;> rfl

/-- A pair that no mark names has generation 0. -/
theorem genHighOf_unknown {s : State} {root ctx : Nat} (h : s.genHigh.any (fun m => m.root = root && m.ctx = ctx) = false) :
    s.genHighOf root ctx = 0 := by
  rw [State.genHighOf, List.find?_eq_none.mpr (by simpa using h)]

/-- GEN_HIGH is never lowered (R175). -/
theorem genHighOf_le_raiseGen (s : State) (root ctx gen : Nat) : s.genHighOf root ctx ≤ (raiseGen s root ctx gen).genHighOf root ctx := by
  unfold raiseGen
  split
  · unfold State.genHighOf
    rw [find_raised]
    cases s.genHigh.find? (fun m => m.root = root && m.ctx = ctx) with
    | none => exact le_rfl
    | some m =>
      dsimp only [Option.map]
      split_ifs
      · exact le_max_left _ _
      · exact le_rfl
  next h => simp [genHighOf_unknown (eq_false_of_ne_true h)]

/-- A transmit load takes a generation above the highest one used, loads on their way included (R175). -/
theorem genFloor_lt_of_loadGen {s : State} {a : Assoc} {root ctx g h : Nat} (hg : loadGen s false a root ctx g = .ok h) :
    genFloor s root ctx < h := by
  simp only [loadGen, Bool.false_eq_true, if_false] at hg
  split_ifs at hg with hmax hlow hroom hzero
  · cases hg; exact Nat.lt_succ_self _
  · cases hg; exact Nat.lt_of_not_le fun hle => hlow ⟨hzero, hle⟩

/-- Settles O26: one law for each event of a slot, and a transmit load goes above the floor of its pair. -/
theorem slotEvents : Obligations.SlotEvents := by
  refine ⟨?receive, ?alone, ?ready, ?failed, ?drained, ?retry, ?retired, ?candidate, ?noRoot, ?raised, ?above⟩
  case receive => exact fun s i k jr hl => execSlotLoadComplete_receive jr hl
  case alone => exact fun s i k hl hm hr ho => execSlotLoadComplete_alone hl hm hr ho
  case ready => exact fun s i k hl hm hr => execSlotLoadComplete_ready hl hm hr
  case failed => exact fun s i k hl hm => execSlotLoadComplete_failed hl hm
  case drained => exact fun s i k hd hf => if_pos ⟨hd, hf⟩
  case retry => exact fun s i h => if_pos h
  case retired => exact fun s i k h => execRxRetireTimerExpiry_retiring h
  case candidate => exact fun s i k root m hp hc hr hm => execFollowCandidateReady_derived hp hc hr hm
  case noRoot => exact fun s i k e hp hc hr => execFollowCandidateReady_noRoot hp hc hr
  case raised => exact genHighOf_le_raiseGen
  case above => exact fun s a root ctx g h hg => (le_max_left _ _).trans_lt (genFloor_lt_of_loadGen hg)

/-! ### Comparators (R185, R357, R358) -/

section Fire
variable {s : State} {k : Nat}

/-- An armed comparator of a feature that it fires for reaches its target and acts. -/
theorem execComparatorFire_armed (ha : cmpArmed s k = true) (h3 : cmpFunc s k ≠ 3) (h5 : cmpFunc s k ≠ 5) :
    execComparatorFire k s = .next (cmpAct (reachTarget s k) k) := by
  simp [execComparatorFire, ha, h3, h5]

theorem execComparatorFire_unarmed (ha : cmpArmed s k = false) (h5 : cmpFunc s k ≠ 5) : execComparatorFire k s = .next s := by
  simp [execComparatorFire, ha, h5]

/-- A time-instant comparator reaches the instant of the association that has armed it (R185, log entry 108). -/
theorem execComparatorFire_instant {e : Nat × Assoc} (h5 : cmpFunc s k = 5)
    (he : s.txAssocs.find? (fun e => e.2.valid && e.2.record.trig = 2 && e.2.record.comparator = k && e.2.armed.isSome) = some e) :
    execComparatorFire k s = .next (cmpAct (s.reachIn 10 e.2.record.trigTb (e.2.armed.getD {})) k) := by
  simp only [execComparatorFire, if_pos h5, he]

/-- The time unit evaluates every comparator but that of a gate list (R17). -/
theorem reachTarget_timeUnit (h : cmpFunc s k ≠ 2) :
    reachTarget s k = s.reach (s.fld (R.CMP_CFG k) F.CMP_CFG_TB) (cmpTarget s k) := by
  unfold reachTarget
  cases gatePortOf s k <;> simp [h]

/-- That of a gate list is evaluated in the island of its port (R17). -/
theorem reachTarget_gate {p : Nat} (hp : gatePortOf s k = some p) (h : cmpFunc s k = 2) :
    reachTarget s k = s.reachIn (timeIsland s p) (s.fld (R.CMP_CFG k) F.CMP_CFG_TB) (cmpTarget s k) := by
  simp [reachTarget, hp, h]

/-- The comparator of a pulse output raises its pin (R358). -/
theorem cmpAct_pulse {n : Nat} (h : cmpFunc s k = 1) (hn : ppsOf s k = some n) :
    cmpAct s k = advanceCmp { s with ppsHigh := kset false s.ppsHigh n true } k := by
  simp [cmpAct, h, hn]

/-- A one-shot comparator that has fired is marked as done (log entry 171). -/
theorem advanceCmp_oneShot (h : s.reg (R.CMP_PERIOD k) = 0) : advanceCmp s k = { s with cmpDone := kset false s.cmpDone k true } := by
  simp [advanceCmp, h]

theorem advanceCmp_periodic (h : s.reg (R.CMP_PERIOD k) ≠ 0) :
    advanceCmp s k = setCmpTarget s k ((cmpTarget s k).shift ((s.reg (R.CMP_PERIOD k)).toNat * 2 ^ 24 : Nat)) :=
  if_neg fun h0 => h (BitVec.eq_of_toNat_eq h0)

end Fire

/-! ### Folds that write an own place in each step -/

/-- A fold whose steps each write their own place leaves, in the place of each of its elements, what that element's step writes. -/
theorem foldl_writes {α β : Type} {f : α → Nat → α} {read v : α → Nat → β}
    (hf : ∀ t b c, read (f t b) c = if c = b then v t b else read t c) (hv : ∀ t b c, v (f t b) c = v t c)
    {l : List Nat} (s : α) {c : Nat} (hc : c ∈ l) : read (l.foldl f s) c = v s c := by
  induction l using List.reverseRecOn with
  | nil => exact absurd hc List.not_mem_nil
  | append_singleton l b ih =>
    rw [List.foldl_append, List.foldl_cons, List.foldl_nil, hf]
    split_ifs with h
    · rw [h]
      exact foldl_keeps (g := (v · b)) (fun t x => hv t x b) l s
    · exact ih (by simpa [h] using hc)

/-! ### Captures (R79, R357, R358, R363) -/

/-- The time of an edge of the pulse input on base `b`, less its delay. -/
def ppsTime (s : State) (b : Nat) : TimeVal := (s.now b).shift (- delayUnits (s.cal 0x1C8))

/-- An edge of the pulse input captured on base `b`. -/
def latchPps (s : State) (b : Nat) : State :=
  ((s.setReg (R.PPS_IN_b_NS b) (BitVec.ofNat 32 (ppsTime s b).ns)).setReg (R.PPS_IN_b_SEC_LO b) (BitVec.ofNat 32 (ppsTime s b).sec)).setReg
    (R.PPS_IN_b_SEC_HI b) (BitVec.ofNat 32 ((ppsTime s b).sec / 2 ^ 32))

theorem execPpsInEdge_latched (s : State) :
    execPpsInEdge s = .next (((List.range 4).foldl latchPps s).setFld R.PPS_IN_STAT F.PPS_IN_STAT_NEW 1) := rfl

/-- What changes registers alone, twice, changes registers alone. -/
theorem regsFrame_trans {s t u : State} (ht : t = { s with regs := t.regs }) (hu : u = { t with regs := u.regs }) :
    u = { s with regs := u.regs } := by
  conv_lhs => rw [hu, ht]

theorem latchPps_frame (l : List Nat) (s : State) : l.foldl latchPps s = { s with regs := (l.foldl latchPps s).regs } :=
  List.foldlRecOn (motive := fun t : State => t = { s with regs := t.regs }) _ _ rfl fun _ ht _ _ => regsFrame_trans ht rfl

/-- A capture writes the nanoseconds of its own base alone. -/
theorem reg_latchPps_ns (s : State) (b c : Nat) : (latchPps s b).reg (R.PPS_IN_b_NS c) =
    if c = b then BitVec.ofNat 32 (ppsTime s b).ns else s.reg (R.PPS_IN_b_NS c) := by
  have hhi : R.PPS_IN_b_NS c ≠ R.PPS_IN_b_SEC_HI b := by simp only [R.PPS_IN_b_NS, R.PPS_IN_b_SEC_HI]; omega
  have hlo : R.PPS_IN_b_NS c ≠ R.PPS_IN_b_SEC_LO b := by simp only [R.PPS_IN_b_NS, R.PPS_IN_b_SEC_LO]; omega
  have hns : R.PPS_IN_b_NS c = R.PPS_IN_b_NS b ↔ c = b := by simp only [R.PPS_IN_b_NS]; omega
  rw [latchPps, State.reg_setReg_other _ _ hhi, State.reg_setReg_other _ _ hlo, State.reg_setReg]
  simp only [hns]

/-- An edge of the pulse input is captured on every base. -/
theorem reg_ppsInEdge_ns (s : State) {b : Nat} (hb : b < 4) :
    (((List.range 4).foldl latchPps s).setFld R.PPS_IN_STAT F.PPS_IN_STAT_NEW 1).reg (R.PPS_IN_b_NS b) = BitVec.ofNat 32 (ppsTime s b).ns := by
  have hne : R.PPS_IN_b_NS b ≠ R.PPS_IN_STAT := by simp only [R.PPS_IN_b_NS, R.PPS_IN_STAT]; omega
  rw [State.reg_setFld_other _ _ _ hne]
  exact foldl_writes (f := latchPps) (read := fun t c => t.reg (R.PPS_IN_b_NS c)) (v := fun t b => BitVec.ofNat 32 (ppsTime t b).ns) reg_latchPps_ns
    (fun _ _ _ => rfl) s (List.mem_range.mpr hb)

/-- An edge that a capture pin is set to, in either way, with its comparator enabled, latches the comparator's base; a value that was not
read is overrun (log entry 170). -/
theorem execGpioCapture_edge {s : State} {j k : Nat} {r : Bool} (hk : k = s.fld (R.TIM_GPIO_j j) F.TIM_GPIO_j_CMP)
    (hj : s.flag (R.TIM_GPIO_j j) F.TIM_GPIO_j_EN = true) (hc : s.flag (R.CMP_CFG k) F.CMP_CFG_EN = true)
    (he : s.fld (R.TIM_GPIO_j j) F.TIM_GPIO_j_EDGE = 2 ∨ s.fld (R.TIM_GPIO_j j) F.TIM_GPIO_j_EDGE = b2n (!r)) {u : State}
    (hu : u = if kget false s.captured k = true then s.setFld (R.CMP_CFG k) F.CMP_CFG_OVR 1 else s) : execGpioCapture j r s =
    .next { setCmpTarget u k (u.now (u.fld (R.CMP_CFG k) F.CMP_CFG_TB)) with captured := kset false s.captured k true } := by
  subst hk hu
  rw [execGpioCapture, if_pos ⟨hj, he, hc⟩]
  dsimp only
  split <;> rfl

/-! ### Time-unlock (R18, R345) -/

/-- The counter of island `i` for base `b` parts from the base. -/
def partCounter (i : Nat) (s : State) (b : Nat) : State :=
  { s with localTime := kset {} s.localTime (4 * i + b) { time := s.now b, rate := (s.reg (R.TB_INCR b)).toNat } }

/-- An island that parts keeps the value and the rate of each base (log entries 169 and 278). -/
theorem partLocal_localTime (s : State) (i : Nat) {b : Nat} (hb : b < 4) : kget {} (partLocal s i).localTime (4 * i + b) =
    { time := s.now b, rate := (s.reg (R.TB_INCR b)).toNat } :=
  foldl_writes (f := partCounter i) (read := fun t c => kget {} t.localTime (4 * i + c))
    (v := fun t b => { time := t.now b, rate := (t.reg (R.TB_INCR b)).toNat })
    (fun t b c => by simp only [partCounter, kget_kset, Nat.add_left_cancel_iff]) (fun _ _ _ => rfl) s (List.mem_range.mpr hb)

/-- Settles O39: one law for each thing that a comparator does, and folds over the four bases for the pulse input and the islands. -/
theorem comparatorsAndCaptures : Obligations.ComparatorsAndCaptures := by
  refine ⟨?fires, ?timeUnit, ?gate, ?unarmed, ?instant, ?pulse, ?oneShot, ?periodic, ?pulseEnd, ?edge, ?loss, ?capture, ?unlock, ?parted,
    ?freeRun, ?regained⟩
  case fires => exact fun s k ha h3 h5 => execComparatorFire_armed ha h3 h5
  case timeUnit => exact fun s k h => reachTarget_timeUnit h
  case gate => exact fun s k p hp h => reachTarget_gate hp h
  case unarmed => exact fun s k ha h5 => execComparatorFire_unarmed ha h5
  case instant => exact fun s k e h5 he => execComparatorFire_instant h5 he
  case pulse => exact fun s k n h hn => cmpAct_pulse h hn
  case oneShot => exact fun s k h => advanceCmp_oneShot h
  case periodic => exact fun s k h => advanceCmp_periodic h
  case pulseEnd => exact fun s n => rfl
  case edge =>
    refine fun s => ⟨_, execPpsInEdge_latched s, ?_, ?_, fun b hb => reg_ppsInEdge_ns s hb⟩
    · rw [State.flag, State.fld_setFld_same _ _ F.PPS_IN_STAT_NEW]
      rfl
    · exact regsFrame_trans (latchPps_frame _ s) rfl
  case loss => exact fun s => rfl
  case capture => exact fun s j r k hk hj hc he => ⟨_, rfl, execGpioCapture_edge hk hj hc he rfl⟩
  case unlock => exact fun s i hi => if_pos hi
  case parted => exact fun s i b hb => partLocal_localTime s i hb
  case freeRun => exact fun s => rfl
  case regained => exact fun s i hi => if_pos hi

end Sys2Proof.Machine
end

section
/-! The family of spec/07_rills.md: the commands of the rills, fences, faults and tests, and the tunnel endpoints. -/

namespace Sys2Proof.Machine

/-! ### The rill commands (R219, R221, R223, R224, R228) -/

theorem blockOf_RIL_CMD : blockOf R.RIL_CMD = .ril := rfl

section RilCommand
variable {s : State} (hr : s.reachable = true) (hs : s.serves .ril = true)
include hr hs

/-- What a rill command does once it is served. -/
theorem rilCommand_served (r : Nat) (k : State → State) : rilCommand r k s = .next
    (if s.flag R.RIL_STATUS F.RIL_STATUS_BUSY = true then s else if 8 < r then rilEnd s .invalid else k s) := by
  rw [rilCommand, State.access_served hr (by rwa [blockOf_RIL_CMD])]

theorem rilCommand_busy (hb : s.flag R.RIL_STATUS F.RIL_STATUS_BUSY = true) (r : Nat) (k : State → State) : rilCommand r k s = .next s := by
  rw [rilCommand_served hr hs, if_pos hb]

variable (hb : s.flag R.RIL_STATUS F.RIL_STATUS_BUSY = false) {r : Nat}
include hb

theorem rilCommand_noRill (h : 8 < r) (k : State → State) : rilCommand r k s = .next (rilEnd s .invalid) := by
  rw [rilCommand_served hr hs, if_neg (ne_true_of_eq_false hb), if_pos h]

variable (h : r ≤ 8)
include h

theorem rilCommand_runs (k : State → State) : rilCommand r k s = .next (k s) := by
  rw [rilCommand_served hr hs, if_neg (ne_true_of_eq_false hb), if_neg (Nat.not_lt.mpr h)]

/-- A rill that no frame can be in goes out of service without a fence (R219). -/
theorem execRilWithdraw_unfenced (same : Bool) (hx : (s.rill r).state = .gated ∨ (s.rill r).state = .waking) :
    execRilWithdraw r same s = .next (rilEnd (s.setRill r { s.rill r with state := .out }) .ok) := by
  rw [execRilWithdraw, rilCommand_runs hr hs hb h]
  rcases hx with hx | hx <;> simp only [hx]

/-- The last rill of a direction in use keeps its place unless the spare takes it (R223). -/
theorem execRilWithdraw_inService (same : Bool) (hx : (s.rill r).state = .inService) : execRilWithdraw r same s = .next
    (if directionUsed s (s.rill r).inbound = true ∧ (serving s (s.rill r).inbound).length ≤ 1 ∧ spareFree s r = false then rilEnd s .denied
     else startFence (rilEnd s .ok) r false same) := by
  rw [execRilWithdraw, rilCommand_runs hr hs hb h]
  simp only [hx, Bool.not_eq_true']

theorem execRilWithdraw_notFound (same : Bool) (hx : (s.rill r).state = .spare ∨ (s.rill r).state = .out ∨ (s.rill r).state = .faulted ∨
    (s.rill r).state = .leaving ∨ (s.rill r).state = .test) : execRilWithdraw r same s = .next (rilEnd s .notFound) := by
  rw [execRilWithdraw, rilCommand_runs hr hs hb h]
  rcases hx with hx | hx | hx | hx | hx <;> simp only [hx]

theorem execRilRestore_faulted (hx : (s.rill r).state = .faulted) : execRilRestore r s = .next (rilEnd s .denied) := by
  rw [execRilRestore, rilCommand_runs hr hs hb h]
  exact congrArg _ (if_pos (.inl hx))

/-- A rill that passed its test enters again; with no spare in its place none is fenced out for it (R224). -/
theorem execRilRestore_enters (hx : (s.rill r).state = .out) (hk : (s.rill r).katOk = some true) (he : (s.rill r).entering = none)
    (h8 : (s.rill 8).standsFor ≠ some r) :
    execRilRestore r s = .next (rilEnd (s.setRill r { s.rill r with entering := some r }) .ok) := by
  have hsp (x : Rill) : ¬(r ≠ 8 ∧ ((s.setRill r x).rill 8).state = .inService ∧ ((s.setRill r x).rill 8).standsFor = some r) := by
    rintro ⟨h1, -, h2⟩
    rw [State.rill_setRill, if_neg (Ne.symm h1)] at h2
    exact h8 h2
  rw [execRilRestore, rilCommand_runs hr hs hb h]
  simp only [if_neg (show ¬((s.rill r).state = .faulted ∨ (s.rill r).state = .out ∧ (s.rill r).katOk ≠ some true) by simp [hx, hk]),
    if_neg (show ¬((s.rill r).state ≠ .out ∨ (s.rill r).entering.isSome = true) by simp [hx, he]), if_neg (hsp _)]

end RilCommand

/-! ### The start of a fence (R221, R223) -/

/-- Rill `r` leaves, before the spare is claimed for it. -/
def rillLeaves (s : State) (r : Nat) (fault : Bool) : State :=
  (s.setRill r { s.rill r with state := .leaving, fault := fault }).setFld R.RIL_STATUS F.RIL_STATUS_BUSY 1

/-- The spare is claimed for rill `r`; a test of it is abandoned (R220). -/
def claimSpare (s : State) (r : Nat) : State := s.setRill 8 { s.rill 8 with state := .spare, katRun := none, entering := some r }

/-- The spare does not stand in for itself. -/
theorem ne_of_spareFree {s : State} {r : Nat} (h : spareFree s r = true) : r ≠ 8 := by
  simp only [spareFree, Bool.and_eq_true, decide_eq_true_eq] at h
  exact h.1

/-- A fence makes its rill leave, and may claim the spare for a rill other than the spare. -/
theorem startFence_cases (s : State) (r : Nat) (fault same : Bool) : startFence s r fault same = rillLeaves s r fault ∨
    r ≠ 8 ∧ startFence s r fault same = claimSpare (rillLeaves s r fault) r := by
  unfold startFence
  extract_lets x left busy won
  split
  next h =>
    refine .inr ⟨?_, rfl⟩
    rcases Bool.or_eq_true_iff.mp h with hf | hw
    · exact ne_of_spareFree hf
    · simp only [won, Bool.and_eq_true, decide_eq_true_eq] at hw
      exact hw.1.1.2
  next => exact .inl rfl

/-- Another rill's leaving does not touch the spare. -/
theorem spareFree_rillLeaves {s : State} {r : Nat} (fault : Bool) (h : spareFree s r = true) : spareFree (rillLeaves s r fault) r = true := by
  have h8 : (rillLeaves s r fault).rill 8 = s.rill 8 := by
    rw [rillLeaves, State.setFld_rill_at, State.rill_setRill, if_neg (ne_of_spareFree h).symm]
  rwa [spareFree, spareReady, h8]

/-- A free spare is claimed. -/
theorem startFence_spareFree {s : State} {r : Nat} (fault same : Bool) (h : spareFree s r = true) :
    startFence s r fault same = claimSpare (rillLeaves s r fault) r :=
  if_pos (Bool.or_eq_true_iff.mpr (.inl (spareFree_rillLeaves fault h)))

/-- A fence changes registers and rills alone. -/
theorem startFence_frame (s : State) (r : Nat) (fault same : Bool) :
    startFence s r fault same = { s with regs := (startFence s r fault same).regs, rills := (startFence s r fault same).rills } := by
  rcases startFence_cases s r fault same with e | ⟨-, e⟩ <;> rw [e] <;> rfl

/-- The only register that a fence changes is its status. -/
theorem reg_startFence (s : State) (r : Nat) (fault same : Bool) (a : Nat) :
    (startFence s r fault same).reg a = (s.setFld R.RIL_STATUS F.RIL_STATUS_BUSY 1).reg a := by
  rcases startFence_cases s r fault same with e | ⟨-, e⟩ <;> rw [e] <;> rfl

theorem startFence_busy (s : State) (r : Nat) (fault same : Bool) :
    (startFence s r fault same).flag R.RIL_STATUS F.RIL_STATUS_BUSY = true := by
  rw [State.flag, State.fld, reg_startFence]
  exact decide_eq_true (State.fld_setFld_same _ _ F.RIL_STATUS_BUSY _)

/-- A rill other than the spare is LEAVING, whether or not the spare is claimed for it. -/
theorem startFence_leaving (s : State) {r : Nat} (fault same : Bool) (h : r ≠ 8) :
    (startFence s r fault same).rill r = { s.rill r with state := .leaving, fault := fault } := by
  have hl : (rillLeaves s r fault).rill r = { s.rill r with state := .leaving, fault := fault } := by
    rw [rillLeaves, State.setFld_rill_at, State.rill_setRill, if_pos rfl]
  rcases startFence_cases s r fault same with e | ⟨-, e⟩ <;> rw [e]
  · exact hl
  · rw [claimSpare, State.rill_setRill, if_neg h, hl]

/-- Settles O17: a law for each state of the rill that is withdrawn or restored, and what a fence changes from its two forms. -/
theorem rillWithdrawAndRestore : Obligations.RillWithdrawAndRestore := by
  refine ⟨?unfenced, ?inService, ?notFound, ?noRill, ?busy, ?enters, ?faulted, ?fence⟩
  case unfenced => exact fun s r same hr hs hb h hx => execRilWithdraw_unfenced hr hs hb h same hx
  case inService => exact fun s r same hr hs hb h hx => execRilWithdraw_inService hr hs hb h same hx
  case notFound => exact fun s r same hr hs hb h hx => execRilWithdraw_notFound hr hs hb h same hx
  case noRill => exact fun s r same hr hs hb h => ⟨rilCommand_noRill hr hs hb h _, rilCommand_noRill hr hs hb h _⟩
  case busy => exact fun s r same hr hs hb => ⟨rilCommand_busy hr hs hb _ _, rilCommand_busy hr hs hb _ _⟩
  case enters => exact fun s r hr hs hb h hx hk he h8 => execRilRestore_enters hr hs hb h hx hk he h8
  case faulted => exact fun s r hr hs hb h hx => execRilRestore_faulted hr hs hb h hx
  case fence =>
    refine fun s r fault same => ⟨_, rfl, fun h => ?_, startFence_busy s r fault same, startFence_frame s r fault same, fun h => ?_, fun a ha => ?_⟩
    · rw [startFence_leaving s fault same h]
      exact ⟨rfl, rfl⟩
    · rw [startFence_spareFree fault same h, claimSpare, State.rill_setRill, if_pos rfl]
      exact ⟨rfl, rfl, rfl⟩
    · exact (reg_startFence s r fault same a).trans (State.reg_setFld_other _ _ _ ha)

/-! ### Faults, the end of a fence, and tests (R220, R221, R222, R224, R443) -/

/-- The diagnosis of a device without a spare touches no rill. -/
theorem noteRill_rill (s : State) (r : Nat) (k : State) (q : Nat) : (noteRill s r k).rill q = k.rill q := by
  unfold noteRill
  split
  · rw [LinkOnly.diagnose k 1 true]
    rfl
  · rfl

/-- The rill of a fence that is complete is OUT, FAULTED or SPARE, and stands for none. -/
theorem fenceDone_rill (s : State) (r : Nat) : (fenceDone s r).rill r = { s.rill r with
    state := if (s.rill r).fault = true then .faulted else if (s.rill r).toSpare = true then .spare else .out
    fault := false, toSpare := false, standsFor := none, inbound := decide (r ≠ 8) && (s.rill r).inbound, stalled := false } := by
  unfold fenceDone
  extract_lets was x st keep left freed
  calc (if x.fault = true then noteRill was r freed else freed).rill r
    _ = freed.rill r := by
      split
      · exact noteRill_rill was r freed r
      · rfl
    _ = left.rill r := by dsimp only [freed]; split <;> rfl
    _ = _ := (State.rill_setRill _ _ _ _).trans (if_pos rfl)

/-- The alarm comes first, and a fence, with AUTO, last. -/
theorem execRillFault_eq {s u v : State} {r kind : Nat} (same : Bool) (hv : v = s.alarm (R.RIL_ALARM r) (if kind = 0 then F.RIL_ALARM_PIPE_PAR
      else if kind = 1 then F.RIL_ALARM_KEY_ECC else F.RIL_ALARM_STALL))
    (hu : u = if 2 ≤ kind then v.setRill r { v.rill r with stalled := true } else v) : execRillFault r kind same s =
    .next (if u.flag R.RIL_SPARE F.RIL_SPARE_AUTO = true ∧ (u.rill r).state = .inService then startFence u r true same else u) := by
  subst hu hv
  exact (apply_ite Host.Outcome.next _ _ _).symm

/-- The spare enters for the rill that it was claimed for, in that rill's direction. -/
theorem execSpareInService_spare {s : State} {l : Nat} (he : (s.rill 8).entering = some l) (hl : l ≠ 8) : execSpareInService 8 s =
    .next (s.setRill 8 { s.rill 8 with state := .inService, entering := none, standsFor := some l, inbound := (s.rill l).inbound }) := by
  simp only [execSpareInService, he, if_pos, if_neg hl]

/-- A restored rill enters in its own direction: 4 to 7 serve inbound (R199). -/
theorem execSpareInService_restored {s : State} {r l : Nat} (hr : r ≠ 8) (he : (s.rill r).entering = some l) : execSpareInService r s =
    .next (s.setRill r { s.rill r with state := .inService, entering := none, inbound := decide (4 ≤ r) }) := by
  simp only [execSpareInService, he, if_neg hr]

section Kat
variable {s : State} {r : Nat} {was : RillState}

theorem endKat_passed (h : (s.rill r).katRun = some (was, true)) : endKat s r =
    (s.setRill r { s.rill r with katOk := some true, katRun := none, state := was }).setFld (R.RIL_KAT r) F.RIL_KAT_PASSES
      (min 0xFFFF (s.fld (R.RIL_KAT r) F.RIL_KAT_PASSES + 1)) := by
  simp only [endKat, h, if_pos]

theorem endKat_failed (h : (s.rill r).katRun = some (was, false)) : endKat s r =
    noteRill s r (((s.setRill r { s.rill r with katOk := some false, katRun := none, state := .faulted }).setFld (R.RIL_KAT r) F.RIL_KAT_FAILS
      (min 0xFFFF (s.fld (R.RIL_KAT r) F.RIL_KAT_FAILS + 1))).alarm (R.RIL_ALARM r) F.RIL_ALARM_KAT_FAIL) := by
  simp only [endKat, h, Bool.false_eq_true, if_false]

end Kat

/-- Settles O18: an event whose condition holds acts as its law says. -/
theorem rillFaultsAndTests : Obligations.RillFaultsAndTests := by
  refine ⟨?fault, ?complete, ?deadline, ?done, ?spareEnters, ?rillEnters, ?test, ?passed, ?failed, ?woken⟩
  case fault => exact fun s r kind same => ⟨_, _, rfl, rfl, execRillFault_eq same rfl rfl⟩
  case complete => exact fun s r hl hn => if_pos ⟨hl, hn⟩
  case deadline => exact fun s r hl => if_pos hl
  case done => exact fenceDone_rill
  case spareEnters => exact fun s l he hl => execSpareInService_spare he hl
  case rillEnters => exact fun s r l hr he => execSpareInService_restored hr he
  case test => exact fun s r pass hk hx he => if_pos ⟨hk, hx, Option.isNone_iff_eq_none.mpr he⟩
  case passed => exact fun s r was h => endKat_passed h
  case failed => exact fun s r was h => endKat_failed h
  case woken => exact fun s r h => if_pos h

/-! ### Tunnel endpoints (R209, R210, R230) -/

theorem blockOf_TEP_CMD : blockOf R.TEP_CMD = .ril := rfl

section TepCommand
variable {s : State} (hr : s.reachable = true) (hs : s.serves .ril = true)
include hr hs

theorem tepCommand_served (k : State → State) :
    tepCommand k s = .next (if s.flag R.TEP_STATUS F.TEP_STATUS_BUSY = true then s else k s) := by
  rw [tepCommand, State.access_served hr (by rwa [blockOf_TEP_CMD])]

theorem tepCommand_busy (hb : s.flag R.TEP_STATUS F.TEP_STATUS_BUSY = true) (k : State → State) : tepCommand k s = .next s := by
  rw [tepCommand_served hr hs, if_pos hb]

variable (hb : s.flag R.TEP_STATUS F.TEP_STATUS_BUSY = false)
include hb

theorem tepCommand_runs (k : State → State) : tepCommand k s = .next (k s) := by
  rw [tepCommand_served hr hs, if_neg (ne_true_of_eq_false hb)]

/-- An entry within R209 is written. -/
theorem execTepWrite_ok (i : Nat) (h : tepOk (s.winBytes (R.TEP_DATA_n 0) 16) = true) : execTepWrite i s = .next
    (replaceTep s i (if allZero (s.winBytes (R.TEP_DATA_n 0) 16) = true then [] else s.winBytes (R.TEP_DATA_n 0) 16)) :=
  (tepCommand_runs hr hs hb _).trans (congrArg _ (if_pos h))

theorem execTepWrite_invalid (i : Nat) (h : tepOk (s.winBytes (R.TEP_DATA_n 0) 16) = false) : execTepWrite i s = .next (tepEnd s .invalid) :=
  (tepCommand_runs hr hs hb _).trans (congrArg _ (if_neg (ne_true_of_eq_false h)))

end TepCommand

/-- Entry `i` is to be `e`: BUSY from here on (R210). -/
def tepAsked (s : State) (i : Nat) (e : List Byte) : State :=
  { s with tepPending := some (i % 4096, e) }.setFld R.TEP_STATUS F.TEP_STATUS_BUSY 1

/-- Entry `i` is `e`, and the command has ended. -/
def tepReplaced (s : State) (i : Nat) (e : List Byte) : State :=
  tepEnd ({ tepAsked s i e with teps := kset [] s.teps (i % 4096) e, tepPending := none }.setFld R.TEP_STATUS F.TEP_STATUS_BUSY 0) .ok

section Replace
variable {s : State} {i : Nat} (e : List Byte)

/-- A frame that still has to read the old entry holds the replacement up. -/
theorem replaceTep_held (h : tepWaits s (i % 4096) = true) : replaceTep s i e = tepAsked s i e := if_pos h

/-- With no frame that has to read the old entry, it is replaced at once. -/
theorem replaceTep_free (h : tepWaits s (i % 4096) = false) : replaceTep s i e = tepReplaced s i e := if_neg (ne_true_of_eq_false h)

end Replace

/-- Asking for a replacement and doing it both change TEP_STATUS, the entries and the pending one alone. -/
theorem replaceTep_frame (s : State) (i : Nat) (e : List Byte) : replaceTep s i e =
    { s with regs := (replaceTep s i e).regs, teps := (replaceTep s i e).teps, tepPending := (replaceTep s i e).tepPending } := by
  cases h : tepWaits s (i % 4096)
  case true => rw [replaceTep_held e h]; rfl
  case false => rw [replaceTep_free e h]; rfl

theorem reg_replaceTep_other (s : State) (i : Nat) (e : List Byte) {a : Nat} (ha : a ≠ R.TEP_STATUS) : (replaceTep s i e).reg a = s.reg a := by
  have hasked : (tepAsked s i e).reg a = s.reg a := State.reg_setFld_other _ _ _ ha
  cases h : tepWaits s (i % 4096)
  case true => rw [replaceTep_held e h, hasked]
  case false =>
    rw [replaceTep_free e h, tepReplaced, tepEnd, State.reg_setFld_other _ _ _ ha, State.reg_setFld_other _ _ _ ha]
    exact hasked

theorem tepAsked_busy (s : State) (i : Nat) (e : List Byte) : (tepAsked s i e).flag R.TEP_STATUS F.TEP_STATUS_BUSY = true :=
  decide_eq_true (State.fld_setFld_same _ _ F.TEP_STATUS_BUSY _)

theorem tepReplaced_notBusy (s : State) (i : Nat) (e : List Byte) : (tepReplaced s i e).flag R.TEP_STATUS F.TEP_STATUS_BUSY = false := by
  rw [State.flag, tepReplaced, tepEnd, State.fld_setFld_field _ _ _ _ _ (by decide), State.fld_setFld_same _ _ F.TEP_STATUS_BUSY]
  rfl

theorem tepReplaced_status (s : State) (i : Nat) (e : List Byte) : (tepReplaced s i e).fld R.TEP_STATUS F.TEP_STATUS_STATUS = Status.ok.code :=
  State.fld_setFld_same _ _ F.TEP_STATUS_STATUS _

/-- Settles O19: the commands run or are ignored as one, and a replacement is held up or done at once. -/
theorem tunnelEndpoints : Obligations.TunnelEndpoints := by
  refine ⟨?write, ?invalid, ?clear, ?busy, ?replace, ?read, ?entries⟩
  case write => exact fun s i hr hs hb h => execTepWrite_ok hr hs hb i h
  case invalid => exact fun s i hr hs hb h => execTepWrite_invalid hr hs hb i h
  case clear => exact fun s i hr hs hb => tepCommand_runs hr hs hb _
  case busy => exact fun s i hr hs hb => ⟨tepCommand_busy hr hs hb _, tepCommand_busy hr hs hb _, tepCommand_busy hr hs hb _⟩
  case replace =>
    refine fun s i e => ⟨_, rfl, replaceTep_frame s i e, fun a ha => reg_replaceTep_other s i e ha, fun h => ?_, fun h => ?_⟩
    · rw [replaceTep_held e h]
      exact ⟨tepAsked_busy s i e, rfl, rfl⟩
    · rw [replaceTep_free e h]
      exact ⟨tepReplaced_notBusy s i e, tepReplaced_status s i e, rfl, rfl⟩
  case read => exact fun s i hr hs hb => tepCommand_runs hr hs hb _
  case entries => exact fun s e i j => kget_kset [] s.teps i j e

end Sys2Proof.Machine
end

section
/-! The family of spec/08_cistern.md: sealed blocks and counters, spilling and fetching back, key IDs and regions, and errors, repair and
failure. -/

namespace Sys2Proof.Machine

/-! ### Sealed blocks (R242, R244) -/

@[simp] theorem blockStream_length (key : List Byte) (ctr : Nat × Nat) (b : Nat) : (blockStream key ctr b).length = 64 := by
  simp [blockStream, List.range_succ]

/-- A keystream laid over a byte string twice gives the byte string back. -/
theorem xorBytes_twice {l k : List Byte} (h : l.length = k.length) : xorBytes (xorBytes l k) k = l := by
  induction l generalizing k with
  | nil => simp [xorBytes]
  | cons x l ih =>
    obtain - | ⟨y, k⟩ := k
    · simp at h
    · have tail : xorBytes (xorBytes l k) k = l := ih (by simpa using h)
      simp only [xorBytes] at tail
      simp [xorBytes, tail]

theorem slice_append_left (a b : List Byte) : slice (a ++ b) 0 a.length = a := slice_mid [] a b

/-- The ciphertext that a sealed block begins with is its bytes under the keystream of its key ID and counter. -/
theorem slice_sealBlock (c : Cistern) (b : Nat) {l : List Byte} (h : l.length = 64) :
    slice (kget [] (sealBlock c b l).stack b) 0 64 = xorBytes l (blockStream (c.keyOf b).key (c.counter 0 b) b) := by
  have hc : (xorBytes l (blockStream (c.keyOf b).key (c.counter 0 b) b)).length = 64 := by simp [h]
  rw [sealBlock, kget_kset_same]
  simpa only [hc] using slice_append_left (xorBytes l (blockStream (c.keyOf b).key (c.counter 0 b) b)) _

theorem openBlock_sealBlock (c : Cistern) (b : Nat) {l : List Byte} (h : l.length = 64) : openBlock (sealBlock c b l) b = l := by
  rw [openBlock, slice_sealBlock c b h]
  exact xorBytes_twice (by simp [h])

/-! ### Counters (R239, R243) -/

/-- What a counter overflow renews is sealed and tagged anew under counters that stay. -/
theorem renew_counter (old c : Cistern) (level n : Nat) : (renew old c level n).counter = c.counter := by
  unfold renew
  split
  · refine List.foldlRecOn (motive := fun t : Cistern => t.counter = c.counter) _ _ rfl fun t ht i _ => ?_
    dsimp only
    split <;> exact ht
  · refine List.foldlRecOn (motive := fun t : Cistern => t.counter = c.counter) _ _ rfl fun t ht i _ => ?_
    split <;> exact ht

/-- Below the root a counter is that of its node and its own. -/
theorem counter_node (c : Cistern) {level : Nat} (h : level ≠ 4) (unit : Nat) : c.counter level unit =
    (kget 0 c.major (unitKey level (unit / 64)), kget 0 c.minor (unitKey level unit)) := if_neg h

theorem zeroMinors_minor (c : Cistern) (level unit : Nat) : kget 0 (zeroMinors c level (unit / 64)).minor (unitKey level unit) = 0 := by
  have hn : unitKey level unit / 64 = unitKey level (64 * (unit / 64)) / 64 := by unfold unitKey; omega
  have := kget_filter_key 0 c.minor (fun k => decide (k / 64 = unitKey level (64 * (unit / 64)) / 64)) (unitKey level unit)
  simpa [zeroMinors, hn] using this

/-- Node `n` after an overflow: the next major counter over minors of 0. -/
def carriedNode (c : Cistern) (level n : Nat) : Cistern :=
  zeroMinors { c with major := kset 0 c.major (unitKey level n) (kget 0 c.major (unitKey level n) + 1) } level n

section Advance
variable {c : Cistern} {level unit : Nat} (hl : level ≠ 4)
include hl

theorem counter_advance_minor (hm : (c.counter level unit).2 ≠ 127) : (advance c level unit).1.counter level unit =
    ((c.counter level unit).1, (c.counter level unit).2 + 1) := by
  rw [counter_node c hl] at hm ⊢
  simp only [advance, if_neg hl, if_neg hm, counter_node _ hl, kget_kset_same]

theorem counter_advance_major (hm : (c.counter level unit).2 = 127) : (advance c level unit).1.counter level unit =
    ((c.counter level unit).1 + 1, 0) := by
  rw [counter_node c hl] at hm ⊢
  have hc : (advance c level unit).1.counter = (carriedNode c level (unit / 64)).counter := by
    simp only [advance, if_neg hl, if_pos hm]
    exact renew_counter _ _ _ _
  rw [hc, counter_node _ hl, carriedNode, zeroMinors_minor, zeroMinors, kget_kset_same]

/-- Major and minor as one number, which every advance raises by one. -/
theorem counter_advance :
    ((advance c level unit).1.counter level unit).1 * 128 + ((advance c level unit).1.counter level unit).2 =
      (c.counter level unit).1 * 128 + (c.counter level unit).2 + 1 := by
  by_cases h : (c.counter level unit).2 = 127
  · rw [counter_advance_major hl h, h]
    omega
  · rw [counter_advance_minor hl h]
    omega

end Advance

/-! ### Spilling and fetching back (R233 to R236) -/

section Spill
variable {s : State} {h : Nat}

/-- The spill that finds no room (R235). -/
theorem execSpill_full (errs : List (Nat × MemErr)) (hs : maySpill s h = true)
    (ha : allocCells s (frameOwner s (s.frame h)) h (cisternCells (s.frame h)) = none) :
    execSpill h errs s = .next ((s.alarm R.CIS_ALARM F.CIS_ALARM_FULL).count (.cis 9)) := by
  simp [execSpill, hs, ha]

theorem execSpill_written {t : State} {cells : List Nat} (errs : List (Nat × MemErr)) (hs : maySpill s h = true)
    (ha : allocCells s (frameOwner s (s.frame h)) h (cisternCells (s.frame h)) = some (cells, t)) :
    execSpill h errs s = .next (cells.zipIdx.foldl (writeCell errs h (s.frame h).bytes)
      (t.setFrame h { t.frame h with cells := cells, staged := [], quarantined := false })) := by
  simp [execSpill, hs, ha]

section Ack
variable (phase : Nat) (hc : (s.frame h).cells ≠ []) (hs : (s.frame h).spilled = false)
include hc hs

/-- What the acknowledgement of a frame that is being written does. -/
theorem execSpillWriteAck_writing : execSpillWriteAck h phase s = .next
    (if s.cistern.state = 1 ∧ (jobsOf s h).all (fun x => x.stage = .queued) = true then
      (s.setFrame h { s.frame h with spilled := true, spillTime := phase % 11 }).count (.cis 0)
    else unspill s h) := by
  simp only [execSpillWriteAck, hc, hs, Bool.false_eq_true, or_self, if_false, apply_ite Host.Outcome.next]

theorem execSpillWriteAck_spills (h1 : s.cistern.state = 1) (hq : ∀ x ∈ jobsOf s h, x.stage = .queued) : execSpillWriteAck h phase s =
    .next ((s.setFrame h { s.frame h with spilled := true, spillTime := phase % 11 }).count (.cis 0)) := by
  rw [execSpillWriteAck_writing phase hc hs, if_pos ⟨h1, by simpa using hq⟩]

theorem execSpillWriteAck_returns (hx : s.cistern.state ≠ 1 ∨ ∃ x ∈ jobsOf s h, x.stage ≠ .queued) :
    execSpillWriteAck h phase s = .next (unspill s h) := by
  rw [execSpillWriteAck_writing phase hc hs, if_neg]
  rintro ⟨h1, hq⟩
  rcases hx with hx | ⟨x, hx, hn⟩
  · exact hx h1
  · exact hn (of_decide_eq_true (List.all_eq_true.mp hq x hx))

end Ack

theorem execFetchBackComplete_staged (hd : fetchDue s h = true) (hq : (s.frame h).quarantined = false) :
    execFetchBackComplete h .none s = .next (stageCell s h) := by
  simp [execFetchBackComplete, hd, hq, onMemErr]

theorem execFetchBackComplete_quarantined (err : MemErr) (hd : fetchDue s h = true) (hq : (s.frame h).quarantined = true) :
    execFetchBackComplete h err s = .next (dropSpilled s (.cis 3) h) := by
  simp [execFetchBackComplete, hd, hq]

end Spill

/-- Settles O27: a law for each outcome of a spill, its acknowledgement and a fetch-back; the keystream cancels, and a counter carries. -/
theorem cisternSpillAndFetch : Obligations.CisternSpillAndFetch := by
  refine ⟨?full, ?written, ?spills, ?returns, ?staged, ?quarantined, fun s => rfl, ?aged, ?sealed, ?counter⟩
  case full => exact fun s h errs hs ha => execSpill_full errs hs ha
  case written => rintro s h errs cells t u hs ha rfl; exact execSpill_written errs hs ha
  case spills => exact fun s h phase hc hs h1 hq => execSpillWriteAck_spills phase hc hs h1 hq
  case returns => exact fun s h phase hc hs hx => execSpillWriteAck_returns phase hc hs hx
  case staged => exact fun s h hd hq => execFetchBackComplete_staged hd hq
  case quarantined => exact fun s h err hd hq => execFetchBackComplete_quarantined err hd hq
  case aged => exact fun s h ha => if_pos ha
  case sealed => exact fun c b l hl => openBlock_sealBlock c b hl
  case counter => exact fun c level unit hl _ => counter_advance (by omega)

/-! ### The commands of the cistern (R247, R258) -/

theorem blockOf_CIS_CMD : blockOf R.CIS_CMD = .cis := rfl

/-- A command of the cistern that has ended with a status. -/
def cisEnd (s : State) (st : Status) : State := s.setFld R.CIS_STATUS F.CIS_STATUS_STATUS st.code

section CisCommand
variable {s : State} (hr : s.reachable = true) (hs : s.serves .cis = true)
include hr hs

/-- What a command of the cistern does once it is served. -/
theorem cisCommand_served (k : State → State × Status) : cisCommand k s = .next
    (if s.flag R.CIS_STATUS F.CIS_STATUS_BUSY = true then s
     else cisEnd (if s.cistern.state = 2 then (s, .denied) else k s).1 (if s.cistern.state = 2 then (s, .denied) else k s).2) := by
  rw [cisCommand, State.access_served hr (by rwa [blockOf_CIS_CMD])]
  rfl

theorem cisCommand_busy (hb : s.flag R.CIS_STATUS F.CIS_STATUS_BUSY = true) (k : State → State × Status) : cisCommand k s = .next s := by
  rw [cisCommand_served hr hs, if_pos hb]

variable (hb : s.flag R.CIS_STATUS F.CIS_STATUS_BUSY = false)
include hb

theorem cisCommand_failed (h2 : s.cistern.state = 2) (k : State → State × Status) : cisCommand k s = .next (cisEnd s .denied) := by
  rw [cisCommand_served hr hs, if_neg (ne_true_of_eq_false hb), if_pos h2]

variable (h2 : s.cistern.state ≠ 2)
include h2

theorem cisCommand_runs (k : State → State × Status) : cisCommand k s = .next (cisEnd (k s).1 (k s).2) := by
  rw [cisCommand_served hr hs, if_neg (ne_true_of_eq_false hb), if_neg h2]

/-- A number that is no owner, and an owner without regions, have nothing to rotate. -/
theorem execCisRotate_notFound {o : Nat} (h : o = 0 ∨ 6 < o ∨ regionsOf s.cistern o = []) :
    execCisRotate o s = .next (cisEnd s .notFound) := by
  rw [execCisRotate, cisCommand_runs hr hs hb h2, if_pos (by simpa only [List.isEmpty_iff] using h)]

theorem execCisRotate_owner {o : Nat} (h0 : 0 < o) (h6 : o ≤ 6) (hn : regionsOf s.cistern o ≠ []) : execCisRotate o s =
    .next (match rotate s o with
      | some t => cisEnd t .ok
      | none => cisEnd s .full) := by
  have ho : ¬(o = 0 ∨ 6 < o ∨ (regionsOf s.cistern o).isEmpty = true) := by simp [h0.ne', Nat.not_lt.mpr h6, hn]
  rw [execCisRotate, cisCommand_runs hr hs hb h2, if_neg ho]
  cases rotate s o <;> rfl

theorem execScrubNow_runs : execScrubNow s = .next (cisEnd (s.setFld R.CIS_STATUS F.CIS_STATUS_BUSY 1) .ok) := by
  rw [execScrubNow, cisCommand_runs hr hs hb h2]

end CisCommand

/-! ### Timed rotation, retired key IDs and drained regions (R247 to R249) -/

/-- A timed rotation has no status to write. -/
theorem execTimedRotation_owner {s : State} {o : Nat} (hr : s.fld R.CIS_ROT F.CIS_ROT_ROT_H ≠ 0) (h1 : s.cistern.state = 1) (h0 : 0 < o)
    (h6 : o ≤ 6) (hn : regionsOf s.cistern o ≠ []) : execTimedRotation o s = .next ((rotate s o).getD s) := by
  simp [execTimedRotation, hr, h1, h0.ne', Nat.not_lt.mpr h6, hn]

theorem execKeyidRetireComplete_empties {s : State} {k : Nat} (hk : (kget {} s.cistern.keyIds k).state = .retiring)
    (hc : soundCells s.cistern k = 0) :
    ∃ c : Cistern, execKeyidRetireComplete k s = .next { s with cistern := { c with keyIds := kdel c.keyIds k } } :=
  ⟨_, if_pos ⟨hk, hc⟩⟩

theorem drained_retags {c : Cistern} {r k : Nat} (hd : (kget {} c.regions r).state = .draining) (hc : regionCells c r = 0)
    (hk : currentId c (kget {} c.regions r).owner = some k) : drained c r = retag c r k := by
  simp only [drained, hd, hc, hk, and_self, if_true]

/-- A key ID is given to a region by its age (R248). -/
theorem retag_state (c : Cistern) (r k : Nat) : (kget {} (retag c r k).regions r).state =
    if (kget {} c.regions r).born ≤ (kget {} c.keyIds k).serial then .active else .reinit := by
  rw [retag, kget_kset_same]
  split <;> rfl

/-- Settles O28: the outcomes of a command in their order, and what is left of a key ID and a region without cells. -/
theorem cisternKeysAndRegions : Obligations.CisternKeysAndRegions := by
  refine ⟨?rotate, ?notFound, ?scrub, ?failed, ?busy, ?timed, ?retired, fun s r => rfl, ?drained⟩
  case rotate => exact fun s o hr hs hb h2 h0 h6 hn => execCisRotate_owner hr hs hb h2 h0 h6 hn
  case notFound => exact fun s o hr hs hb h2 h => execCisRotate_notFound hr hs hb h2 h
  case scrub => exact fun s hr hs hb h2 => execScrubNow_runs hr hs hb h2
  case failed => exact fun s o hr hs hb h2 => ⟨cisCommand_failed hr hs hb h2 _, cisCommand_failed hr hs hb h2 _⟩
  case busy => exact fun s o hr hs hb => ⟨cisCommand_busy hr hs hb _, cisCommand_busy hr hs hb _⟩
  case timed => exact fun s o hr h1 h0 h6 hn => execTimedRotation_owner hr h1 h0 h6 hn
  case retired =>
    intro s k hk hc
    obtain ⟨c, he⟩ := execKeyidRetireComplete_empties hk hc
    exact ⟨_, he, kget_kdel_same {} c.keyIds k, rfl⟩
  case drained => exact fun c r k hd hc hk => ⟨drained_retags hd hc hk, retag_state c r k⟩

/-! ### Write-back and scrub (R243, R250, R253) -/

/-- An access that finds nothing changes nothing. -/
theorem touch_nil (s : State) (b : Nat) : touch [] s b = s := rfl

theorem execNodeWriteBack_clean {s : State} {k n : Nat} (hk : k ≤ 3) (hd : s.cistern.dirty.contains (unitKey k n) = true) :
    execNodeWriteBack k n [] s = .next { s with cistern := sealNode { (advance s.cistern (k + 1) n).1 with
      dirty := (advance s.cistern (k + 1) n).1.dirty.filter (· ≠ unitKey k n) } k n } := by
  simp only [execNodeWriteBack, touch_nil, List.foldl_fixed, if_pos (And.intro hk hd), if_pos hd]

section Scrub
variable {s : State} {b : Nat} (h1 : s.cistern.state = 1) (hb : b < 469762048)
  (he : s.flag R.CIS_STATUS F.CIS_STATUS_BUSY = true ∨ s.flag R.CIS_SCRUB F.CIS_SCRUB_SCRUB_EN = true)
include h1 hb he

/-- The scrubber visits a block of a READY cistern, on request or when enabled. -/
theorem scrubVisit_notIdle : ¬(s.cistern.state ≠ 1 ∨ 469762048 ≤ b ∨
    (!s.flag R.CIS_STATUS F.CIS_STATUS_BUSY) = true ∧ (!s.flag R.CIS_SCRUB F.CIS_SCRUB_SCRUB_EN) = true) := by
  rcases he with he | he <;> simp [h1, Nat.not_le.mpr hb, he]

/-- The scrubber judges no tag. -/
theorem execScrubVisit_quiet {err : MemErr} (hq : err = .none ∨ err = .dataTag ∨ ∃ k, err = .nodeTag k) (pe : Bool) :
    execScrubVisit b err pe s = .next (if pe = true then s.setFld R.CIS_STATUS F.CIS_STATUS_BUSY 0 else s) := by
  rcases hq with rfl | rfl | ⟨k, rfl⟩
  · exact if_neg (scrubVisit_notIdle h1 hb he)
  · exact if_neg (scrubVisit_notIdle h1 hb he)
  · exact if_neg (scrubVisit_notIdle h1 hb he)

theorem execScrubVisit_dataUncorr (pe : Bool) : execScrubVisit b .dataUncorr pe s = .next
    (if pe = true then (onMemErr s b .dataUncorr).setFld R.CIS_STATUS F.CIS_STATUS_BUSY 0 else onMemErr s b .dataUncorr) :=
  if_neg (scrubVisit_notIdle h1 hb he)

end Scrub

/-! ### Row repair and failure (R252, R254) -/

@[simp] theorem State.alarm_cistern (s : State) (a : Nat) (f : Fld) : (s.alarm a f).cistern = s.cistern := by rw [State.alarm_frame]

/-- The blocks of a data row leave the queue of repairs. -/
def unqueueRow (s : State) (cells : List Nat) (isData : Bool) : State :=
  if isData = true then { s with cistern := { s.cistern with repairs := s.cistern.repairs.filter (fun b => !cells.contains (b / 4)) } } else s

/-- A row of tags has no data block to be queued for. -/
theorem unqueueRow_noData (s : State) (cells : List Nat) : unqueueRow s cells false = s := rfl

theorem unqueueRow_failedRows (s : State) (cells : List Nat) (isData : Bool) :
    (unqueueRow s cells isData).cistern.failedRows = s.cistern.failedRows := by
  cases isData <;> rfl

/-- A row of stack `k` whose repair has failed: noted, counted for its stack and, as a data row, out of use. -/
def rowFailed (s : State) (k : Nat) (cells : List Nat) (isData : Bool) : State :=
  { (bumpPpr s F.CIS_PPR_FAILED).alarm R.CIS_ALARM F.CIS_ALARM_PPR_FAIL with cistern := { s.cistern with
      failedRows := kset 0 s.cistern.failedRows k (kget 0 s.cistern.failedRows k + 1)
      outCells := if isData = true then cells ++ s.cistern.outCells else s.cistern.outCells } }

theorem repairFails_eq (s : State) (k : Nat) (cells : List Nat) (isData : Bool) : repairFails s k cells isData =
    if 64 ≤ kget 0 s.cistern.failedRows k then cisternFails (rowFailed s k cells isData) else rowFailed s k cells isData := by
  simp only [repairFails, State.alarm_cistern, bumpPpr, State.setFld_cistern, rowFailed, Nat.lt_succ_iff]

theorem rowFailed_failedRows (s : State) (k : Nat) (cells : List Nat) (isData : Bool) :
    kget 0 (rowFailed s k cells isData).cistern.failedRows k = kget 0 s.cistern.failedRows k + 1 := by rw [rowFailed, kget_kset_same]

/-- A failed repair changes registers, the log and the cistern alone. -/
theorem rowFailed_frame (s : State) (k : Nat) (cells : List Nat) (isData : Bool) : rowFailed s k cells isData =
    { s with regs := (rowFailed s k cells isData).regs, out := (rowFailed s k cells isData).out,
             cistern := (rowFailed s k cells isData).cistern } := by
  unfold rowFailed
  conv_lhs => rw [State.alarm_frame]
  rfl

theorem rowFailed_pprFailed (s : State) (k : Nat) (cells : List Nat) (isData : Bool) :
    (rowFailed s k cells isData).fld R.CIS_PPR F.CIS_PPR_FAILED = min 255 (s.fld R.CIS_PPR F.CIS_PPR_FAILED + 1) := by
  calc (rowFailed s k cells isData).fld R.CIS_PPR F.CIS_PPR_FAILED
    _ = (bumpPpr s F.CIS_PPR_FAILED).fld R.CIS_PPR F.CIS_PPR_FAILED :=
      congrArg F.CIS_PPR_FAILED.get (State.reg_alarm_other _ _ (by decide) (by decide))
    _ = min 255 (s.fld R.CIS_PPR F.CIS_PPR_FAILED + 1) % 2 ^ 8 := State.fld_setFld_same _ _ F.CIS_PPR_FAILED _
    _ = min 255 (s.fld R.CIS_PPR F.CIS_PPR_FAILED + 1) := Nat.mod_eq_of_lt (by omega)

theorem rowFailed_alarm (s : State) (k : Nat) (cells : List Nat) (isData : Bool) :
    (rowFailed s k cells isData).flag R.CIS_ALARM F.CIS_ALARM_PPR_FAIL = true :=
  State.alarm_flag (bumpPpr s F.CIS_PPR_FAILED) _ _ rfl (by decide) (by decide)

section Repair
variable {s : State} (h1 : s.cistern.state = 1) (k : Nat) (cells : List Nat) (isData : Bool)
include h1

theorem execRowRepair_repaired : execRowRepair k cells isData true s = .next ((bumpPpr (bumpPpr (unqueueRow s cells isData)
    F.CIS_PPR_SOFT_DONE) F.CIS_PPR_HARD_PENDING).count (.cis 8)) := if_neg (not_not_intro h1)

theorem execRowRepair_noSpare : execRowRepair k cells isData false s = .next (repairFails (unqueueRow s cells isData) (k % 2) cells isData) :=
  if_neg (not_not_intro h1)

theorem execRowRepair_fails (hf : kget 0 s.cistern.failedRows (k % 2) < 64) :
    execRowRepair k cells isData false s = .next (rowFailed (unqueueRow s cells isData) (k % 2) cells isData) := by
  rw [execRowRepair_noSpare h1, repairFails_eq, unqueueRow_failedRows, if_neg (Nat.not_le.mpr hf)]

/-- The 65th failure of a stack fails the cistern. -/
theorem execRowRepair_lastFails (hf : 64 ≤ kget 0 s.cistern.failedRows (k % 2)) :
    execRowRepair k cells isData false s = .next (cisternFails (rowFailed (unqueueRow s cells isData) (k % 2) cells isData)) := by
  rw [execRowRepair_noSpare h1, repairFails_eq, unqueueRow_failedRows, if_pos hf]

end Repair

/-- Settles O29: a law for each finding of a visit, and for a repair and its failure with the failures of its stack so far. -/
theorem cisternErrorsAndRepair : Obligations.CisternErrorsAndRepair := by
  refine ⟨?writeBack, ?scrub, fun s b n => rfl, ?repaired, ?fails, ?lastFails, ?stackFails, fun s => rfl, ?notActive⟩
  case writeBack => exact fun s k n hk hd => ⟨_, rfl, execNodeWriteBack_clean hk hd⟩
  case scrub =>
    exact fun s b pe h1 hb he => ⟨fun err hq => execScrubVisit_quiet h1 hb he hq pe, _, rfl, execScrubVisit_dataUncorr h1 hb he pe⟩
  case repaired => exact fun s k cells d h1 => ⟨_, rfl, execRowRepair_repaired h1 k cells d⟩
  case fails =>
    exact fun s k cells h1 hf => ⟨_, execRowRepair_fails h1 k cells true hf, rfl, rowFailed_failedRows _ _ _ _, rowFailed_pprFailed _ _ _ _,
      rowFailed_alarm _ _ _ _⟩
  case lastFails =>
    intro s k cells h1 hf
    have hr := execRowRepair_lastFails h1 k cells false hf
    rw [unqueueRow_noData] at hr
    exact ⟨rowFailed s (k % 2) cells false, h1, hr, rowFailed_frame s (k % 2) cells false⟩
  case stackFails => exact fun s h1 => congrArg _ (if_pos h1)
  case notActive => exact fun s h1 => congrArg _ (if_neg h1)

end Sys2Proof.Machine
end

section
/-! The family of spec/09_scheduler_and_sluice.md: the governor's hardware loop, rill gating and slow loop. -/

namespace Sys2Proof.Machine

/-! ### The shed position and the committed factor (R284) -/

section Position
variable {s : State} {t : Int} {pw : Nat} (u : Sluice)

theorem stepP_hard (h : (8 * s.fld R.SLU_THERM F.SLU_THERM_HARD : Int) ≤ t) : stepP s t pw u = { u with p := 64, hardOn := true } := if_pos h

theorem stepP_over (hh : t < (8 * s.fld R.SLU_THERM F.SLU_THERM_HARD : Int))
    (ho : 250 * s.fld R.SLU_BUDGET F.SLU_BUDGET_BUDGET < pw ∨ (8 * s.fld R.SLU_THERM F.SLU_THERM_SOFT : Int) < t) :
    stepP s t pw u = { u with p := min (u.p + 1) 64, hardOn := false, quiet := 0 } :=
  (if_neg (Int.not_le.mpr hh)).trans (if_pos ho)

/-- Below both bands, the shed position falls at the end of the quiet time. -/
theorem stepP_released (hh : t < (8 * s.fld R.SLU_THERM F.SLU_THERM_HARD : Int))
    (hp : pw + 250 * s.fld R.SLU_BUDGET F.SLU_BUDGET_HYST ≤ 250 * s.fld R.SLU_BUDGET F.SLU_BUDGET_BUDGET)
    (ht : t ≤ (8 * s.fld R.SLU_THERM F.SLU_THERM_SOFT : Int) - 8 * s.fld R.SLU_THERM F.SLU_THERM_T_HYST)
    (hq : s.fld R.SLU_LOOP F.SLU_LOOP_RELEASE_US ≤ u.quiet + 1) :
    stepP s t pw u = { u with p := u.p - 1, hardOn := false, quiet := 0 } := by
  have hno : ¬(250 * s.fld R.SLU_BUDGET F.SLU_BUDGET_BUDGET < pw ∨ (8 * s.fld R.SLU_THERM F.SLU_THERM_SOFT : Int) < t) := by omega
  exact (if_neg (Int.not_le.mpr hh)).trans ((if_neg hno).trans ((if_pos ⟨hp, ht⟩).trans (if_pos hq)))

theorem stepG_falls {u : Sluice} (hu : u.hardOn = true) (hf : s.fld R.SLU_LOOP F.SLU_LOOP_HARD_STEP_US ≤ u.sinceFall + 1) :
    stepG s t u = { u with g := max (u.g - 1) (s.fld R.SLU_LOOP F.SLU_LOOP_COMMIT_FLOOR), sinceFall := 0, sinceRise := 0 } :=
  (if_pos hu).trans (if_pos hf)

theorem stepG_rises {u : Sluice} (hu : u.hardOn = false)
    (ht : t ≤ (8 * s.fld R.SLU_THERM F.SLU_THERM_HARD : Int) - 8 * s.fld R.SLU_THERM F.SLU_THERM_T_HYST) (hr : 100 ≤ u.sinceRise + 1) :
    stepG s t u = { u with g := min (u.g + 1) 16, sinceRise := 0, sinceFall := 0 } :=
  (if_neg (Bool.eq_false_iff.mp hu)).trans ((if_pos ht).trans (if_pos hr))

end Position

/-! ### What a tick shows (R283) -/

/-- T and P of a tick shown in SLU_MEAS. -/
def measured (s : State) (t : Int) (pw : Nat) : State :=
  (s.setFld R.SLU_MEAS F.SLU_MEAS_TMAX (unsigned 12 t)).setFld R.SLU_MEAS F.SLU_MEAS_POWER (min 1023 (pw / 250))

theorem fld_measured_other (s : State) (t : Int) (pw : Nat) {a : Nat} (f : Fld) (h : a ≠ R.SLU_MEAS) : (measured s t pw).fld a f = s.fld a f :=
  (State.fld_setFld_reg _ _ _ _ h).trans (State.fld_setFld_reg _ _ _ _ h)

theorem measured_tmax (s : State) (t : Int) (pw : Nat) :
    (measured s t pw).fld R.SLU_MEAS F.SLU_MEAS_TMAX = unsigned 12 t % 2 ^ F.SLU_MEAS_TMAX.len :=
  (State.fld_setFld_field _ _ _ _ _ (by decide)).trans (State.fld_setFld_same _ _ _ _)

theorem measured_power (s : State) (t : Int) (pw : Nat) : (measured s t pw).fld R.SLU_MEAS F.SLU_MEAS_POWER = min 1023 (pw / 250) :=
  (State.fld_setFld_same _ _ F.SLU_MEAS_POWER _).trans (Nat.mod_eq_of_lt (Nat.lt_succ_of_le (Nat.min_le_left _ _)))

/-- The loop reads its thresholds from other registers. -/
theorem stepP_measured (s : State) (t : Int) (pw : Nat) : stepP (measured s t pw) t pw = stepP s t pw := by
  funext u
  simp (disch := decide) only [stepP, fld_measured_other]

theorem stepG_measured (s : State) (t : Int) (pw : Nat) : stepG (measured s t pw) t = stepG s t := by
  funext u
  simp (disch := decide) only [stepG, fld_measured_other]

/-! ### The alarms of a tick (R293) -/

/-- What every alarm of the governor leaves true, they leave true together. -/
theorem sluiceAlarms_keeps {P : State → Prop} (h : ∀ t f, P t → P (t.alarm R.SLU_ALARM f)) {s : State} (hs : P s) : P (sluiceAlarms s) := by
  have hraise {c : Prop} [Decidable c] {t : State} (f : Fld) (ht : P t) : P (if c then t.alarm R.SLU_ALARM f else t) := by
    split
    · exact h t f ht
    · exact ht
  exact hraise _ (hraise _ (hraise _ (hraise _ hs)))

theorem sluiceAlarms_frame (s : State) : sluiceAlarms s = { s with regs := (sluiceAlarms s).regs, out := (sluiceAlarms s).out } := by
  obtain ⟨r, o, h⟩ : ∃ r o, sluiceAlarms s = { s with regs := r, out := o } := by
    refine sluiceAlarms_keeps (P := fun t => ∃ r o, t = { s with regs := r, out := o }) ?_ ⟨_, _, rfl⟩
    rintro _ f ⟨r, o, rfl⟩
    exact ⟨_, _, State.alarm_frame _ _ _⟩
  rw [h]

theorem fld_sluiceAlarms_meas (s : State) (f : Fld) : (sluiceAlarms s).fld R.SLU_MEAS f = s.fld R.SLU_MEAS f :=
  congrArg f.get (sluiceAlarms_keeps (P := fun t => t.reg R.SLU_MEAS = s.reg R.SLU_MEAS)
    (fun _ _ ht => (State.reg_alarm_other _ _ (by decide) (by decide)).trans ht) rfl)

/-! ### Rill gating (R288) -/

/-- The first half of a direction's gating: the lowest gated rill wakes where fewer than `n` serve. -/
def wakeRill (s : State) (inb : Bool) (n : Nat) : State :=
  match lowestRill s (rillsIn s inb .gated) with
  | some r => if (rillsIn s inb .inService).length + (rillsIn s inb .waking).length < n then s.setRill r { s.rill r with state := .waking } else s
  | none => s

theorem wakeRill_frame (s : State) (inb : Bool) (n : Nat) : ∃ m, wakeRill s inb n = { s with rills := m } := by
  unfold wakeRill
  split
  · split
    · exact ⟨_, rfl⟩
    · exact ⟨_, rfl⟩
  · exact ⟨_, rfl⟩

/-- After the waking, a direction's gating gates one rill or none. -/
theorem gateRills_cases (s : State) (inb : Bool) (beats low : Nat) :
    (gateRills s inb beats low).1 = wakeRill s inb (rillTarget s inb beats) ∨
    ∃ r, (gateRills s inb beats low).1 = (wakeRill s inb (rillTarget s inb beats)).setRill r
      { (wakeRill s inb (rillTarget s inb beats)).rill r with state := .gated } := by
  unfold gateRills; dsimp only
  split
  · split
    · split
      · exact .inr ⟨_, rfl⟩
      · exact .inl rfl
    · exact .inl rfl
  · exact .inl rfl

theorem gateRills_frame (s : State) (inb : Bool) (beats low : Nat) :
    (gateRills s inb beats low).1 = { s with rills := (gateRills s inb beats low).1.rills } := by
  obtain ⟨m, hm⟩ := wakeRill_frame s inb (rillTarget s inb beats)
  rcases gateRills_cases s inb beats low with h | ⟨r, h⟩
  · rw [h, hm]
  · rw [h, hm]
    rfl

/-- Where fewer serve than the target, the lowest gated rill wakes and none is gated. -/
theorem gateRills_wakes {s : State} {inb : Bool} {beats r : Nat} (low : Nat) (hr : lowestRill s (rillsIn s inb .gated) = some r)
    (hn : (rillsIn s inb .inService).length + (rillsIn s inb .waking).length < rillTarget s inb beats) :
    gateRills s inb beats low = (s.setRill r { s.rill r with state := .waking }, 0) := by
  have hlow : ¬ rillTarget s inb beats < (rillsIn s inb .inService).length := by omega
  simp only [gateRills, hr, if_pos hn, if_neg hlow]

/-- Both directions gated, and the beats counted anew. -/
def bothGated (s : State) : State :=
  let o := gateRills s false s.sluice.beatsOut s.sluice.lowOut
  let i := gateRills o.1 true o.1.sluice.beatsIn o.1.sluice.lowIn
  { i.1 with sluice := { i.1.sluice with beatsOut := 0, beatsIn := 0, lowOut := o.2, lowIn := i.2 } }

theorem bothGated_frame (s : State) : bothGated s = { s with rills := (bothGated s).rills, sluice := { s.sluice with
    beatsOut := 0, beatsIn := 0, lowOut := (bothGated s).sluice.lowOut, lowIn := (bothGated s).sluice.lowIn } } := by
  unfold bothGated; dsimp only
  rw [gateRills_frame, gateRills_frame s]

theorem fld_bothGated (s : State) (a : Nat) (f : Fld) : (bothGated s).fld a f = s.fld a f := by
  have hg : (bothGated s).regs = s.regs := by rw [bothGated_frame]
  exact State.fld_congr hg a f

/-! ### The tick (R283, R284, R290) -/

/-- The governor after a tick's loop: position, factor, and what it keeps for the slow loop. -/
def governed (a : State) (t : Int) (pw : Nat) (blind : Bool) : Sluice :=
  let w := stepG a t (stepP a t pw a.sluice)
  { w with blind := blind, pMax := max w.pMax w.p, hardSeen := w.hardSeen || w.hardOn }

/-- The loop reads nothing that SLU_MEAS shows. -/
theorem governed_measured (a : State) (t : Int) (pw : Nat) (blind : Bool) : governed (measured a t pw) t pw blind = governed a t pw blind := by
  have hu : (measured a t pw).sluice = a.sluice := rfl
  rw [governed, stepG_measured, stepP_measured, hu, governed]

/-- A tick before the gating of rills. -/
def ticked (a : State) (t : Int) (pw : Nat) (blind : Bool) : State :=
  sluiceAlarms { measured a t pw with sluice := governed a t pw blind }

theorem ticked_frame (a : State) (t : Int) (pw : Nat) (blind : Bool) : ticked a t pw blind =
    { a with regs := (ticked a t pw blind).regs, out := (ticked a t pw blind).out, sluice := governed a t pw blind } :=
  sluiceAlarms_frame _

theorem execSluiceTick_eq (readings : List Int) (rails : Option (List (Nat × Nat))) (hbm : Nat) (s : State) :
    execSluiceTick readings rails hbm s = .next (bothGated (ticked (readSensors s (readings.take 24))
      (tMax (readSensors s (readings.take 24)) (readings.take 24))
      ((rails.map (fun r => powerOf r hbm)).getD (250 * s.fld R.SLU_BUDGET F.SLU_BUDGET_BUDGET + 1000)) rails.isNone)) := by
  have hb : (readSensors s (readings.take 24)).fld R.SLU_BUDGET F.SLU_BUDGET_BUDGET = s.fld R.SLU_BUDGET F.SLU_BUDGET_BUDGET := rfl
  rw [← hb, ticked, ← governed_measured]
  unfold execSluiceTick
  dsimp only [measured, governed]
  generalize sluiceAlarms _ = x
  rfl

theorem bothGated_ticked_sluice (a : State) (t : Int) (pw : Nat) (blind : Bool) :
    (bothGated (ticked a t pw blind)).sluice = { governed a t pw blind with
      beatsOut := 0, beatsIn := 0
      lowOut := (bothGated (ticked a t pw blind)).sluice.lowOut, lowIn := (bothGated (ticked a t pw blind)).sluice.lowIn } := by
  have hg : (ticked a t pw blind).sluice = governed a t pw blind := by rw [ticked_frame]
  rw [← hg]
  exact congrArg State.sluice (bothGated_frame _)

/-- The loop changes registers, the log and the governor, and the gating rills and the governor. -/
theorem bothGated_ticked_frame (a : State) (t : Int) (pw : Nat) (blind : Bool) : bothGated (ticked a t pw blind) = { a with
    regs := (bothGated (ticked a t pw blind)).regs, out := (bothGated (ticked a t pw blind)).out
    rills := (bothGated (ticked a t pw blind)).rills, sluice := (bothGated (ticked a t pw blind)).sluice } := by
  have hx := ticked_frame a t pw blind
  have hy := bothGated_frame (ticked a t pw blind)
  generalize bothGated (ticked a t pw blind) = y at hy ⊢
  generalize ticked a t pw blind = x at hx hy
  rw [hy, hx]

theorem fld_ticked_meas (a : State) (t : Int) (pw : Nat) (blind : Bool) (f : Fld) :
    (ticked a t pw blind).fld R.SLU_MEAS f = (measured a t pw).fld R.SLU_MEAS f :=
  (fld_sluiceAlarms_meas _ f).trans (State.fld_congr (s := measured a t pw)
    (t := { measured a t pw with sluice := governed a t pw blind }) rfl _ _)

theorem bothGated_ticked_tmax (a : State) (t : Int) (pw : Nat) (blind : Bool) :
    (bothGated (ticked a t pw blind)).fld R.SLU_MEAS F.SLU_MEAS_TMAX = unsigned 12 t % 2 ^ F.SLU_MEAS_TMAX.len := by
  rw [fld_bothGated, fld_ticked_meas, measured_tmax]

theorem bothGated_ticked_power (a : State) (t : Int) (pw : Nat) (blind : Bool) :
    (bothGated (ticked a t pw blind)).fld R.SLU_MEAS F.SLU_MEAS_POWER = min 1023 (pw / 250) := by
  rw [fld_bothGated, fld_ticked_meas, measured_power]

/-! ### The slow loop (R282, R290) -/

/-- The pace of the public-key engine from what the governor has seen. -/
def pkeDuty (u : Sluice) : Nat := if u.hardSeen = true then 3 else if u.pMax < 16 then 0 else if u.pMax < 48 then 1 else 2

/-- The pace of the scrub from what the governor has seen. -/
def scrubPace (u : Sluice) : Nat := if u.hardSeen = true then 2 else if u.pMax < 16 then 0 else if u.pMax < 48 then 1 else 2

theorem pkeDuty_lt (u : Sluice) : pkeDuty u < 4 := by unfold pkeDuty; split_ifs <;> decide

theorem scrubPace_lt (u : Sluice) : scrubPace u < 4 := by unfold scrubPace; split_ifs <;> decide

/-- Both paces shown in SLU_STATUS. -/
def pacesShown (u : State) : State :=
  (u.setFld R.SLU_STATUS F.SLU_STATUS_PKE_DUTY (pkeDuty u.sluice)).setFld R.SLU_STATUS F.SLU_STATUS_SCRUB_X (scrubPace u.sluice)

theorem pacesShown_duty (u : State) : (pacesShown u).fld R.SLU_STATUS F.SLU_STATUS_PKE_DUTY = pkeDuty u.sluice := by
  rw [pacesShown, State.fld_setFld_field _ _ _ _ _ (by decide), State.fld_setFld_same _ _ F.SLU_STATUS_PKE_DUTY]
  exact Nat.mod_eq_of_lt (pkeDuty_lt _)

theorem pacesShown_scrub (u : State) : (pacesShown u).fld R.SLU_STATUS F.SLU_STATUS_SCRUB_X = scrubPace u.sluice := by
  rw [pacesShown, State.fld_setFld_same _ _ F.SLU_STATUS_SCRUB_X]
  exact Nat.mod_eq_of_lt (scrubPace_lt _)

theorem reg_pacesShown_other (u : State) {a : Nat} (h : a ≠ R.SLU_STATUS) : (pacesShown u).reg a = u.reg a := by
  rw [pacesShown, State.reg_setFld_other _ _ _ h, State.reg_setFld_other _ _ _ h]

/-- The slow loop's result from a state whose sensors are checked: the paces shown, the ceilings converted and the watch begun anew. -/
def paced (u : State) : State :=
  { pacesShown u with sluice := { u.sluice with
      ecl := [0, 1, 2, 3].map (fun e => (e, some (u.fld (R.SLU_ECL_e e) F.SLU_ECL_e_ECL_MAX))), pMax := u.sluice.p, hardSeen := u.sluice.hardOn } }

theorem paced_regs (u : State) : (paced u).regs = (pacesShown u).regs := rfl

theorem paced_duty (u : State) : (paced u).fld R.SLU_STATUS F.SLU_STATUS_PKE_DUTY = pkeDuty u.sluice :=
  (State.fld_congr (paced_regs u) _ _).trans (pacesShown_duty u)

theorem paced_scrub (u : State) : (paced u).fld R.SLU_STATUS F.SLU_STATUS_SCRUB_X = scrubPace u.sluice :=
  (State.fld_congr (paced_regs u) _ _).trans (pacesShown_scrub u)

theorem reg_paced_other (u : State) {a : Nat} (h : a ≠ R.SLU_STATUS) : (paced u).reg a = u.reg a :=
  (State.reg_congr (paced_regs u) a).trans (reg_pacesShown_other u h)

theorem paced_sluice (u : State) : (paced u).sluice = { u.sluice with
    ecl := [0, 1, 2, 3].map (fun e => (e, some (u.fld (R.SLU_ECL_e e) F.SLU_ECL_e_ECL_MAX))), pMax := u.sluice.p, hardSeen := u.sluice.hardOn } := rfl

theorem paced_frame (u : State) : paced u = { u with regs := (paced u).regs, sluice := (paced u).sluice } := rfl

theorem execSlowLoop_down {s : State} (h : s.dev.mcUp = false) : execSlowLoop s = .next s := if_pos (by rw [h]; rfl)

theorem execSlowLoop_up {s : State} (h : s.dev.mcUp = true) : execSlowLoop s = .next (paced (checkSensors s)) := if_neg (by simp [h])

/-- Settles O23: a law for each step of the loop's position and factor, the frames of alarms and gating for the tick, and the slow loop's
paces. -/
theorem sluiceLoops : Obligations.SluiceLoops := by
  refine ⟨?tick, ?hard, ?above, ?released, ?falls, ?rises, ?wakes, ?down, ?up⟩
  case tick =>
    intro s readings rails hbm
    refine ⟨_, _, _, _, _, rfl, rfl, rfl, rfl, execSluiceTick_eq readings rails hbm s, ?sluice, ?tmax, ?power, ?frame⟩
    case sluice => exact bothGated_ticked_sluice _ _ _ _
    case tmax => exact bothGated_ticked_tmax _ _ _ _
    case power => exact bothGated_ticked_power _ _ _ _
    case frame => exact bothGated_ticked_frame (readSensors s (readings.take 24)) _ _ _
  case hard => exact fun s t pw u h => by rw [stepP_hard u h]; exact ⟨rfl, rfl⟩
  case above => exact fun s t pw u hh ho => by rw [stepP_over u hh ho]; exact ⟨rfl, rfl, rfl⟩
  case released => exact fun s t pw u hh hp ht hq => by rw [stepP_released u hh hp ht hq]; exact ⟨rfl, rfl⟩
  case falls => exact fun s t u hu hf => by rw [stepG_falls hu hf]
  case rises => exact fun s t u hu ht hr => by rw [stepG_rises hu ht hr]
  case wakes => exact fun s inb beats low r hr hn => gateRills_wakes low hr hn
  case down => exact fun s h => execSlowLoop_down h
  case up =>
    exact fun s h => ⟨_, _, rfl, execSlowLoop_up h, paced_duty _, paced_scrub _, paced_sluice _, paced_frame _, fun _ ha => reg_paced_other _ ha⟩

end Sys2Proof.Machine
end

section
/-! The family of spec/10_cascade_format.md: the commands of a trunk, its epochs, and the frames it sends and judges. -/

namespace Sys2Proof.Machine

/-! ### CAS_CMD, the operations channel and CAS_PM_SEL (R309, R321, R331, R338, R339) -/

theorem epochSwitch_disabled {s : State} {t : Nat} (hd : s.flag (R.CAS_CFG t) F.CAS_CFG_ENABLE = false) :
    epochSwitch s t = (s, .denied) := by simp [epochSwitch, hd]

section CasCommand
variable {s : State} {t : Nat} (ht : t < 4) (hr : s.reachable = true) (hs : s.serves (blockOf (R.CAS_CMD t)) = true)
include hr hs

theorem casCommand_served (k : State → State × Status) :
    casCommand t k s = .next ((k s).1.setFld (R.CAS_CMDST t) F.CAS_CMDST_STATUS (k s).2.code) :=
  congrArg _ (State.access_served hr hs)

include ht

theorem execEpochSwitch_served : execEpochSwitch t s =
    .next ((epochSwitch s t).1.setFld (R.CAS_CMDST t) F.CAS_CMDST_STATUS (epochSwitch s t).2.code) := by
  rw [execEpochSwitch, Nat.mod_eq_of_lt ht, casCommand_served hr hs]

section Enabled
variable (he : s.flag (R.CAS_CFG t) F.CAS_CFG_ENABLE = true)
include he

theorem execMapSwitch_enabled : execMapSwitch t s = .next (if (s.trunk t).mapPend = 0
    then (s.setTrunk t { s.trunk t with mapPend := 1 }).setFld (R.CAS_CMDST t) F.CAS_CMDST_STATUS Status.ok.code
    else s.setFld (R.CAS_CMDST t) F.CAS_CMDST_STATUS Status.busy.code) := by
  rw [execMapSwitch, Nat.mod_eq_of_lt ht, casCommand_served hr hs]
  by_cases hm : (s.trunk t).mapPend = 0
  · simp [he, hm]
  · simp [he, hm]

theorem execRealign_enabled : execRealign t s = .next
    ((updateDefects (s.setTrunk t (loseAlignment (s.trunk t))) t).setFld (R.CAS_CMDST t) F.CAS_CMDST_STATUS Status.ok.code) := by
  rw [execRealign, Nat.mod_eq_of_lt ht, casCommand_served hr hs]
  simp [he]

end Enabled

section Disabled
variable (hd : s.flag (R.CAS_CFG t) F.CAS_CFG_ENABLE = false)
include hd

theorem execMapSwitch_denied : execMapSwitch t s = .next (s.setFld (R.CAS_CMDST t) F.CAS_CMDST_STATUS Status.denied.code) := by
  rw [execMapSwitch, Nat.mod_eq_of_lt ht, casCommand_served hr hs]
  simp [hd]

theorem execRealign_denied : execRealign t s = .next (s.setFld (R.CAS_CMDST t) F.CAS_CMDST_STATUS Status.denied.code) := by
  rw [execRealign, Nat.mod_eq_of_lt ht, casCommand_served hr hs]
  simp [hd]

theorem execEpochSwitch_denied : execEpochSwitch t s = .next (s.setFld (R.CAS_CMDST t) F.CAS_CMDST_STATUS Status.denied.code) := by
  rw [execEpochSwitch_served ht hr hs, epochSwitch_disabled hd]

end Disabled

end CasCommand

@[simp] theorem wordBytes_length (w : Word) : (wordBytes w).length = 4 := rfl

@[simp] theorem State.winBytes_length (s : State) (a n : Nat) : (s.winBytes a n).length = 4 * n := by
  induction n generalizing a with
  | zero => rfl
  | succ n ih => rw [State.winBytes, List.length_append, wordBytes_length, ih]; omega

/-- A message of `len` octets begins to go out: its length in CAS_OPS_CTRL, its octets, OK, and TX_BUSY (R331). -/
def opsStarted (s : State) (t len : Nat) : State :=
  let s := s.setFld (R.CAS_OPS_CTRL t) F.CAS_OPS_CTRL_LEN len
  let m := (s.winBytes (R.CAS_OPS_TXBUF t 0) ((len + 3) / 4)).take len
  ((s.setTrunk t { s.trunk t with opsOut := m, opsBegun := false }).setFld (R.CAS_OPS_STATUS t) F.CAS_OPS_STATUS_STATUS
    Status.ok.code).setFld (R.CAS_OPS_STATUS t) F.CAS_OPS_STATUS_TX_BUSY 1

section OpsSend
variable {s : State} {t : Nat} (len : Nat) (ht : t < 4) (hr : s.reachable = true)
  (hs : s.serves (blockOf (R.CAS_OPS_CTRL t)) = true)
include ht hr hs

theorem execOpsSend_busy (hb : s.flag (R.CAS_OPS_STATUS t) F.CAS_OPS_STATUS_TX_BUSY = true) :
    execOpsSend t len s = .next (s.setFld (R.CAS_OPS_STATUS t) F.CAS_OPS_STATUS_STATUS Status.busy.code) := by
  rw [execOpsSend, Nat.mod_eq_of_lt ht, State.access_served hr hs]
  exact congrArg _ (if_pos hb)

theorem execOpsSend_starts (hb : s.flag (R.CAS_OPS_STATUS t) F.CAS_OPS_STATUS_TX_BUSY = false)
    (he : s.flag (R.CAS_CFG t) F.CAS_CFG_ENABLE = true) (h0 : 0 < len) (h1 : len ≤ 4096) :
    execOpsSend t len s = .next (opsStarted s t len) := by
  have hn : (s.setFld (R.CAS_OPS_CTRL t) F.CAS_OPS_CTRL_LEN len).fld (R.CAS_OPS_CTRL t) F.CAS_OPS_CTRL_LEN = len :=
    (State.fld_setFld_same ..).trans (Nat.mod_eq_of_lt (show len < 2 ^ 13 by omega))
  have ha : R.CAS_CFG t ≠ R.CAS_OPS_CTRL t := by unfold R.CAS_CFG R.CAS_OPS_CTRL; omega
  have hc : (s.setFld (R.CAS_OPS_CTRL t) F.CAS_OPS_CTRL_LEN len).flag (R.CAS_CFG t) F.CAS_CFG_ENABLE = true := by
    rw [State.flag, State.fld_setFld_reg _ _ _ _ ha]; exact he
  have hlen : ¬(len = 0 ∨ 4096 < len) := by omega
  rw [execOpsSend, Nat.mod_eq_of_lt ht, State.access_served hr hs]
  simp only [hb, hn, hc, hlen, Bool.false_eq_true, Bool.not_true, if_false]
  rfl

end OpsSend

section OpsStarted
variable (s : State) (t len : Nat)

theorem opsStarted_busy : (opsStarted s t len).flag (R.CAS_OPS_STATUS t) F.CAS_OPS_STATUS_TX_BUSY = true :=
  decide_eq_true (State.fld_setFld_same ..)

theorem opsStarted_status : (opsStarted s t len).fld (R.CAS_OPS_STATUS t) F.CAS_OPS_STATUS_STATUS = Status.ok.code :=
  (State.fld_setFld_field _ _ _ _ _ (by decide)).trans (State.fld_setFld_same ..)

theorem opsStarted_trunk : (opsStarted s t len).trunk t = { s.trunk t with
    opsOut := ((s.setFld (R.CAS_OPS_CTRL t) F.CAS_OPS_CTRL_LEN len).winBytes (R.CAS_OPS_TXBUF t 0) ((len + 3) / 4)).take len
    opsBegun := false } := by
  simp [opsStarted, State.trunk_setTrunk]

theorem opsStarted_length : ((opsStarted s t len).trunk t).opsOut.length = len := by
  rw [opsStarted_trunk, List.length_take, State.winBytes_length]
  omega

end OpsStarted

theorem execCasPmSelWrite_served {s : State} {t : Nat} (v : Word) {u : State} (ht : t < 4) (hr : s.reachable = true)
    (hs : s.serves (blockOf (R.CAS_PM_SEL t)) = true)
    (hu : u = loadPm (s.setFld (R.CAS_PM_SEL t) F.CAS_PM_SEL_BIN v.toNat) t (v.toNat % 2 ^ F.CAS_PM_SEL_BIN.len)) :
    execCasPmSelWrite t v s = .next (u.setTrunk t { u.trunk t with frozen := true }) := by
  rw [execCasPmSelWrite, Nat.mod_eq_of_lt ht, State.access_served hr hs, hu]
  simp only [State.fld_setFld_same s (R.CAS_PM_SEL t) F.CAS_PM_SEL_BIN]

/-- Settles O36: each command by its law on a served block, and what a message going out leaves in the status and the trunk. -/
theorem cascadeCommands : Obligations.CascadeCommands := by
  refine ⟨?enabled, ?disabled, ?sends, ?busy, ?pm⟩
  case enabled => exact fun s t ht hr hs he => ⟨execMapSwitch_enabled ht hr hs he, execRealign_enabled ht hr hs he⟩
  case disabled =>
    intro s t ht hr hs hd c hc
    simp only [List.mem_cons, List.not_mem_nil, or_false] at hc
    rcases hc with rfl | rfl | rfl
    · exact execMapSwitch_denied ht hr hs hd
    · exact execRealign_denied ht hr hs hd
    · exact execEpochSwitch_denied ht hr hs hd
  case sends =>
    intro s t len ht hr hs hb he h0 h1
    exact ⟨opsStarted s t len, execOpsSend_starts len ht hr hs hb he h0 h1, opsStarted_busy s t len, opsStarted_status s t len,
      opsStarted_length s t len, by rw [opsStarted_trunk]⟩
  case busy => exact fun s t len ht hr hs hb => execOpsSend_busy len ht hr hs hb
  case pm => exact fun s t v ht hr hs => ⟨_, rfl, execCasPmSelWrite_served v ht hr hs rfl⟩

/-! ### Epoch switches (R304, R306, R427) -/

section EpochSwitch
variable {s : State} {t : Nat} (he : s.flag (R.CAS_CFG t) F.CAS_CFG_ENABLE = true)
include he

theorem epochSwitch_running (h : (s.trunk t).asked ≠ none ∨ (s.trunk t).nextEpoch ≠ 0) : epochSwitch s t = (s, .busy) := by
  rw [epochSwitch, if_neg (by simp [he]), if_pos (by rwa [Option.isSome_iff_ne_none])]

section Idle
variable (ha : (s.trunk t).asked = none) (hn : (s.trunk t).nextEpoch = 0)
include ha hn

theorem epochSwitch_asks {u : State} (h : askEpoch s t = some u) : epochSwitch s t = (u, .ok) := by simp [epochSwitch, he, ha, hn, h]

theorem epochSwitch_exhausted (h : askEpoch s t = none) : epochSwitch s t = (epochExhausted s t, .exhausted) := by
  simp [epochSwitch, he, ha, hn, h]

end Idle

end EpochSwitch

/-- The record that tells the partner of an epoch leaves the trunks alone. -/
@[simp] theorem mirror_trunk (s : State) (r : List Byte) (t : Nat) : (mirror s r).trunk t = s.trunk t := by rw [LinkOnly.mirror s r]; rfl

theorem askEpoch_asked {s u : State} {t : Nat} (h : askEpoch s t = some u) :
    (u.trunk t).asked = some (s.genHighOf (masterHandle s t) (txTag s t) + 1) := by
  unfold askEpoch at h
  dsimp only at h
  split at h
  · simp at h
  · obtain rfl := Option.some.inj h
    simp [State.trunk_setTrunk]

/-- A generation made durable is no matter of the pair. -/
@[simp] theorem raiseGen_pair (s : State) (root ctx gen : Nat) : (raiseGen s root ctx gen).pair = s.pair := by unfold raiseGen; split <;> rfl

@[simp] theorem journalCompact_pair (s : State) : (journalCompact s).pair = s.pair :=
  foldl_keeps (g := State.pair) (f := fun u m => journalAppend u 0 m) (fun _ _ => rfl) _ _

@[simp] theorem journalGen_pair (s : State) (assoc root ctx gen : Nat) : (journalGen s assoc root ctx gen).pair = s.pair := by
  unfold journalGen
  dsimp only
  rw [raiseGen_pair]
  split
  · exact journalCompact_pair s
  · rfl

section EpochConfirmed
variable {s : State} {t e : Nat} (ha : (s.trunk t).asked = some e)
include ha

/-- Epochs are deferred while the partner is LOST (R427). -/
theorem execEpochConfirmed_lost (journalOk : Bool) (hl : s.pair.partner = .lost) : execEpochConfirmed t journalOk s = .next s := by
  simp [execEpochConfirmed, ha, hl]

variable (hm : s.dev.mcUp = true) (hp : s.pair.partner = .none)
include hm hp

theorem execEpochConfirmed_failed : execEpochConfirmed t false s =
    .next (journalFault ((s.alarm (R.CAS_ALARM t) F.CAS_ALARM_JOURNAL).setTrunk t { s.trunk t with asked := none, retryDue := true })) := by
  simp [execEpochConfirmed, ha, hm, hp]

theorem execEpochConfirmed_alone {k : List Byte} {u : State}
    (hu : u = journalGen (s.free 65536).2 (s.free 65536).1 (masterHandle (s.free 65536).2 t) (txTag (s.free 65536).2 t) e)
    (hk : masterKey u t = some k) : execEpochConfirmed t true s = .next (u.setTrunk t
      (if (s.trunk t).running = true then { s.trunk t with asked := none, nextEpoch := e, countdown := 17 }
       else { s.trunk t with asked := none, running := true, txEpoch := e, txKey := epochKey k (txTag u t) e, txFc := 0 })) := by
  have hgo : ¬((!s.dev.mcUp) = true ∨ s.pair.partner = .lost ∨ s.pair.partner = .ready ∧ (!(s.trunk t).journaled) = true) := by simp [hm, hp]
  have hpu : u.pair = s.pair := by rw [hu, journalGen_pair]; rfl
  have hna : ¬u.pair.partner = .active := by simp [hpu, hp]
  rw [execEpochConfirmed]
  dsimp only
  rw [ha]
  dsimp only
  rw [if_neg hgo, if_neg (by decide), ← hu, if_neg hna, hk]
  dsimp only
  split_ifs <;> rfl

end EpochConfirmed

/-- Settles O35: a switch by what `askEpoch` answers, and the confirmation by the branches of EPOCH_CONFIRMED. -/
theorem cascadeEpochs : Obligations.CascadeEpochs := by
  refine ⟨?switches, ?busy, ?period, ?asks, ?confirmed, ?failed, ?lost, ?retry⟩
  case switches =>
    intro s t ht hr hs he ha hn
    refine (execEpochSwitch_served ht hr hs).trans ?_
    cases h : askEpoch s t with
    | some u => rw [epochSwitch_asks he ha hn h]
    | none => rw [epochSwitch_exhausted he ha hn h]
  case busy =>
    intro s t ht hr hs he h
    refine (execEpochSwitch_served ht hr hs).trans ?_
    rw [epochSwitch_running he h]
  case period =>
    intro s t ht h
    refine (if_neg ?_).trans ?_
    · rwa [Nat.mod_eq_of_lt ht]
    · rw [Nat.mod_eq_of_lt ht]
  case asks => exact fun s t u h => askEpoch_asked h
  case confirmed => exact fun s t e k u ha hm hp hu hk => execEpochConfirmed_alone ha hm hp hu hk
  case failed => exact fun s t e ha hm hp => execEpochConfirmed_failed ha hm hp
  case lost =>
    intro s t jr ha hl
    obtain ⟨e, he⟩ := Option.ne_none_iff_exists'.mp ha
    exact execEpochConfirmed_lost he jr hl
  case retry => exact fun s t h => if_pos h

/-! ### Sending frames and fill (R35, R300 to R305) -/

theorem txBoundary_txFc (s : State) (t : Nat) (x : Trunk) : (txBoundary s t x).txFc = x.txFc := by
  unfold txBoundary
  extract_lets y
  have hy : y.txFc = x.txFc := by dsimp only [y]; split_ifs <;> rfl
  rw [← hy]
  split_ifs <;> rfl

theorem opsFragment_txFc (x : Trunk) : (opsFragment x).2.txFc = x.txFc := by
  unfold opsFragment
  split_ifs <;> rfl

/-- A tributary's share takes from the tributary alone. -/
theorem laySharesStep_txFc (s : State) (t m : Nat) (cl : List (Nat × Nat × List Bool)) (acc : List Byte × State × List (Nat × Nat)) (i : Nat) :
    ((laySharesStep s t m cl acc i).2.1.trunk t).txFc = (acc.2.1.trunk t).txFc := by
  unfold laySharesStep
  dsimp only
  split
  · rw [State.trunk_setTrunk, if_pos rfl]
  · rw [State.trunk_setTrunk, if_pos rfl]

/-- Counting is no matter of the trunks. -/
@[simp] theorem State.countN_trunk (s : State) (c : Ctr) (n t : Nat) : (s.countN c n).trunk t = s.trunk t := by rw [State.countN_frame]; rfl

@[simp] theorem State.count_trunk (s : State) (c : Ctr) (t : Nat) : (s.count c).trunk t = s.trunk t := s.countN_trunk c 1 t

/-- A frame begins with the alignment word and the FC of its trunk, which takes the next FC and has told its partner of the frames that
were not accepted. -/
theorem nextFrame_fc (t : Nat) (cl : List (Nat × Nat × List Bool)) (s : State) :
    (∃ g, (nextFrame t cl s).1 = faw ++ be 8 (s.trunk t).txFc ++ g) ∧
    ((nextFrame t cl s).2.trunk t).txFc = (s.trunk t).txFc + 1 ∧ ((nextFrame t cl s).2.trunk t).rei = 0 := by
  unfold nextFrame
  extract_lets x y
  have hy : y.txFc = (s.trunk t).txFc := by
    dsimp only [y]
    split
    · exact txBoundary_txFc s t x
    · rfl
  split
  rename_i ops w hw
  have hwy : w.txFc = y.txFc := by rw [← opsFragment_txFc y, hw]
  extract_lets u
  split
  rename_i plain v js hv
  have hvu : (v.trunk t).txFc = (u.trunk t).txFc := by
    have := foldl_keeps (g := fun a : List Byte × State × List (Nat × Nat) => (a.2.1.trunk t).txFc)
      (laySharesStep_txFc u t w.txMap cl) (tribsOf u t) (List.replicate 16256 (0 : Byte), u, [])
    rwa [hv] at this
  have huw : u.trunk t = w := by rw [State.trunk_setTrunk, if_pos rfl]
  have hfc : (v.trunk t).txFc = (s.trunk t).txFc := by rw [hvu, huw, hwy, hy]
  extract_lets x2 mapNext ep cd head iv ct a b
  have hb : b.trunk t = { x2 with txFc := x2.txFc + 1, rei := 0 } := by
    have ha : a.trunk t = { x2 with txFc := x2.txFc + 1, rei := 0 } := by rw [State.trunk_setTrunk, if_pos rfl]
    dsimp only [b]
    split
    · exact ha
    · exact ha
  refine ⟨?begins, ?next, ?told⟩
  case begins =>
    rw [← hfc]
    simp only [head, List.append_assoc]
    exact ⟨_, rfl⟩
  case next => rw [State.count_trunk, State.useFree_trunk_at, hb, ← hfc]
  case told => rw [State.count_trunk, State.useFree_trunk_at, hb]

section Send
variable {s : State} {t : Nat} (cl : List (Nat × Nat × List Bool))

theorem execCascadeFrameSend_silent (h : trunkSends s t = false) : execCascadeFrameSend t cl s = .next s := if_pos (by rw [h]; rfl)

variable (h : trunkSends s t = true)
include h

theorem execCascadeFrameSend_frame (hl : trunkLive s t = true) (hr : (s.trunk t).running = true) : execCascadeFrameSend t cl s =
    .next (sendStream ((nextFrame t cl s).2.emit (.cascade t (nextFrame t cl s).1)) t (nextFrame t cl s).1) :=
  (if_neg (by simp [h])).trans (if_pos ⟨hl, hr⟩)

theorem execCascadeFrameSend_fill (hn : trunkLive s t = false ∨ (s.trunk t).running = false) :
    execCascadeFrameSend t cl s = .next (sendStream s t (List.replicate 16384 0)) :=
  (if_neg (by simp [h])).trans (if_neg (by rcases hn with e | e <;> simp [e]))

end Send

/-! ### The lanes of a trunk (R297 to R299) -/

section Chunk
variable (t : Nat) {x : Trunk} (chunk : List Byte) {i : Nat} {c : Coder}

/-- The markers of an interval stand before its first chunk, which lane 0 carries. -/
theorem sendChunk_marker (hx : x.chunk = 0) (hi : 0 < i) (hc : x.coders[i]? = some c) :
    (sendChunk t x chunk).coders[i]? = some { c with bits := c.bits ++ bitsOfBytes (laneMarker i x.coders.length t x.mcnt) } := by
  simp only [sendChunk, hx, if_true, Nat.zero_mod]
  rw [List.getElem?_set_ne (by omega)]
  simp [hc]

theorem sendChunk_mcnt (hx : x.chunk = 0) : (sendChunk t x chunk).mcnt = (x.mcnt + 1) % 240 := by
  simp only [sendChunk, hx, if_true]

theorem sendChunk_mcnt_within (hx : x.chunk ≠ 0) : (sendChunk t x chunk).mcnt = x.mcnt := by
  simp only [sendChunk, hx, if_false]

theorem sendChunk_turn (hx : x.chunk ≠ 0) (hi : i = x.chunk % x.coders.length) (hc : x.coders[i]? = some c) :
    (sendChunk t x chunk).coders[i]? =
      some { scr := (scramble c.scr (bitsOfBytes chunk)).1, bits := c.bits ++ (scramble c.scr (bitsOfBytes chunk)).2 } := by
  have hlt : i < x.coders.length := (List.getElem?_eq_some_iff.mp hc).1
  have hd : x.coders.getD i {} = c := by rw [List.getD_eq_getElem?_getD, hc]; rfl
  simp only [sendChunk, hx, if_false, ← hi, hd]
  exact List.getElem?_set_self hlt

end Chunk

/-! ### Codewords (R297, step 4) -/

theorem byTurns_length {α : Type} (a b : List α) : (byTurns a b).length = a.length + b.length := by
  induction a, b using byTurns.induct with
  | case1 a l b r ih => simp only [byTurns, List.length_cons, ih]; omega
  | case2 l => simp [byTurns]
  | case3 r => simp [byTurns]

theorem evens_length {α : Type} (l : List α) : (evens l).length = (l.length + 1) / 2 := by
  induction l using evens.induct with
  | case1 => simp [evens]
  | case2 a => simp [evens]
  | case3 a b r ih => simp only [evens, List.length_cons, ih]; omega

/-- What grows by one with every step of a fold has grown by the steps. -/
theorem foldl_counts {α γ : Type} {g : α → Nat} {f : α → γ → α} (h : ∀ t x, g (f t x) = g t + 1) (l : List γ) (s : α) :
    g (l.foldl f s) = g s + l.length := by
  induction l generalizing s with
  | nil => rfl
  | cons x l ih => rw [List.foldl_cons, ih, h, List.length_cons]; omega

theorem rsGenerator_length : rsGenerator.length = 30 := by
  unfold rsGenerator
  rw [List.length_drop, foldl_counts (g := fun g : List (BitVec 10) × BitVec 10 => g.1.length) (fun g _ => by simp)]
  simp

theorem rsParity_length (l : List (BitVec 10)) : (rsParity l).length = 30 :=
  List.foldlRecOn (motive := fun r : List (BitVec 10) => r.length = 30) _ _ List.length_replicate fun r hr m _ => by
    simp [hr, rsGenerator_length]

theorem codeword_length {a b : List (BitVec 10)} (ha : a.length = 257) (hb : b.length = 257) :
    (codeword a b).1.length = 272 ∧ (codeword a b).2.length = 272 := by
  simp only [codeword, evens_length, List.length_drop, List.length_append, byTurns_length, rsParity_length, ha, hb]
  decide

/-! ### Frame alignment (R317; log entry 143) -/

/-- What frame alignment does with a whole frame, by FA_STATE. -/
def alignStep (s : State) (t : Nat) (f : List Byte) (errored : Bool) : State :=
  match (s.trunk t).fa with
  | 0 => if fawErrors f = 0 then s.setTrunk t { s.trunk t with fa := 1, faCount := 1 } else s
  | 1 =>
    if fawErrors f = 0 then s.setTrunk t
      (if 3 ≤ (s.trunk t).faCount + 1 then { s.trunk t with fa := 2, faCount := 0 } else { s.trunk t with faCount := (s.trunk t).faCount + 1 })
    else s.setTrunk t (loseAlignment (s.trunk t))
  | _ => receiveJudged s t f errored

theorem slice_whole (f : List Byte) : slice f 0 f.length = f := by simpa using slice_append_left f []

section Receive
variable {s : State} {t : Nat} {f : List Byte} (e : Bool) {corr : Nat} {u : State}
  (hl : trunkLive s t = true) (hd : (s.trunk t).deskewed = true) (hf : f.length = 16384)
  (hu : u = (s.countN (.cas t 5) 0).countN (.cas t 6) corr)

include hu

/-- The FEC's counts are no matter of the trunks. -/
theorem counted_trunk : u.trunk t = s.trunk t := by simp [hu]

include hl hd hf

theorem execCascadeFrameReceive_whole : execCascadeFrameReceive t f e 0 corr s = .next (updateDefects (alignStep u t f e) t) := by
  have hw : slice f 0 16384 = f := hf ▸ slice_whole f
  rw [execCascadeFrameReceive]
  dsimp only
  rw [if_neg (by simp [hl, hd]), if_pos rfl, hw, ← hu, alignStep]
  congr 2
  simp only [decide_eq_true_eq] <;> rfl

end Receive

/-! ### Keys and kinds of frames (R307, R323) -/

theorem execEpochKeyDerived_held {s : State} {t e : Nat} {k : List Byte} (hp : (s.trunk t).pendingKey = some e) (hk : masterKey s t = some k) :
    execEpochKeyDerived t s = .next
      (s.setTrunk t { s.trunk t with pendingKey := none, rxKeys := (e, epochKey k (rxTagOf s t) e) :: (s.trunk t).rxKeys }) := by
  simp only [execEpochKeyDerived, hp, hk]

section Judge
variable {s : State} {t : Nat} {f : List Byte}

theorem judge_stale (h : beAt f 16 4 < epochFloor s t) : judge s t f = (.stale, []) := if_pos h

variable (h : epochFloor s t ≤ beAt f 16 4)
include h

theorem judge_noKey (hk : heldKey (s.trunk t) (beAt f 16 4) = none) :
    judge s t f = (if (masterKey s t).isNone then .stale else .keyWait, []) := by
  simp only [judge, if_neg (Nat.not_lt.mpr h), hk]

/-- Of a frame whose key is held, the tag is judged first and then the order of its FC. -/
theorem judge_held {k : List Byte} (hk : heldKey (s.trunk t) (beAt f 16 4) = some k) (ha : (s.trunk t).rxAny = true)
    (he : (s.trunk t).rxEpoch = beAt f 16 4) (hc : beAt f 8 8 ≤ (s.trunk t).rxFc) :
    (judge s t f).1 = .tagFail ∨ (judge s t f).1 = .replay := by
  simp only [judge, if_neg (Nat.not_lt.mpr h), hk]
  split
  · exact .inl rfl
  · rw [if_pos ⟨ha, by simp [he, hc]⟩]
    exact .inr rfl

end Judge

/-- Settles O34: what is sent and where it goes, the lengths of a codeword, alignment by FA_STATE, and the judgement of a frame. -/
theorem cascadeFrames : Obligations.CascadeFrames := by
  refine ⟨?frame, ?fill, ?silent, ?marker, ?turn, ?codeword, ?hunt, ?presync, ?judged, ?derived, ?stale, ?noKey, ?order⟩
  case frame =>
    intro s t cl hs hl hr
    obtain ⟨⟨g, hg⟩, hfc, hrei⟩ := nextFrame_fc t cl s
    exact ⟨_, g, _, rfl, hg, hfc, hrei, execCascadeFrameSend_frame cl hs hl hr⟩
  case fill => exact fun s t cl hs hn => execCascadeFrameSend_fill cl hs hn
  case silent => exact fun s t cl hs => execCascadeFrameSend_silent cl hs
  case marker => exact fun t x chunk i c hx hi hc => ⟨sendChunk_mcnt t chunk hx, sendChunk_marker t chunk hx hi hc⟩
  case turn => exact fun t x chunk i c hx hi hc => ⟨sendChunk_mcnt_within t chunk hx, sendChunk_turn t chunk hx hi hc⟩
  case codeword => exact fun a b ha hb => codeword_length ha hb
  case hunt =>
    intro s t f e corr u hl hd hf hu ha
    refine (execCascadeFrameReceive_whole e hl hd hf hu).trans ?_
    simp only [alignStep, counted_trunk hu, ha]
  case presync =>
    intro s t f e corr u hl hd hf hu ha
    refine (execCascadeFrameReceive_whole e hl hd hf hu).trans ?_
    simp only [alignStep, counted_trunk hu, ha, apply_ite (u.setTrunk t)]
  case judged =>
    intro s t f e corr u hl hd hf hu ha
    refine (execCascadeFrameReceive_whole e hl hd hf hu).trans ?_
    obtain ⟨n, hn⟩ := Nat.exists_eq_add_of_le' ha
    simp only [alignStep, counted_trunk hu, hn]
  case derived => exact fun s t e k hp hk => execEpochKeyDerived_held hp hk
  case stale => exact fun s t f h => judge_stale h
  case noKey => exact fun s t f h hk => judge_noKey h hk
  case order =>
    intro s t f k h hk ha he hc
    rcases judge_held h hk ha he hc with e | e <;> simp [e]

end Sys2Proof.Machine
end

section
/-! The whole block, spec/11_cascade_maintenance.md and spec/12_time.md: steps, slips and availability, time bases, gates. -/

namespace Sys2Proof.Machine

/-! ### Steps and runs (R340, R376) -/

/-- Settles O58: each step is steady, so that its epoch is no lower than that of the state whose front it takes. -/
theorem epochNeverFalls : Obligations.EpochNeverFalls := by
  intro s t h
  induction h with
  | here => exact le_rfl
  | more h _ ih => exact le_trans h.steady.epoch ih

/-- A fold over places that are apart, whose steps each write their own place from what no other step changes, leaves in each place what
its own step writes. -/
theorem foldl_writes_apart {α β : Type} {f : α → Nat → α} {read v : α → Nat → β}
    (hf : ∀ t b c, read (f t b) c = if c = b then v t b else read t c) (hv : ∀ t b c, c ≠ b → v (f t b) c = v t c)
    {l : List Nat} (hl : l.Nodup) (s : α) {c : Nat} (hc : c ∈ l) : read (l.foldl f s) c = v s c := by
  induction l using List.reverseRecOn with
  | nil => exact absurd hc List.not_mem_nil
  | append_singleton l b ih =>
    obtain ⟨hn, hb⟩ : l.Nodup ∧ b ∉ l := by simpa [List.nodup_append, ← List.forall_mem_ne'] using hl
    rw [List.foldl_append, List.foldl_cons, List.foldl_nil, hf]
    split_ifs with h
    · rw [h]
      exact List.foldlRecOn (motive := fun t => v t b = v s b) _ _ rfl fun t ht x hx => (hv t x b fun e => hb (e ▸ hx)).trans ht
    · exact ih hn (by simpa [h] using hc)

/-- One base's tick (R340). -/
def tickBase (s : State) (b : Nat) : State := { s with bases := kset {} s.bases b ((s.now b).shift (s.reg (R.TB_INCR b)).toNat) }

theorem now_tickBase (s : State) (b c : Nat) : (tickBase s b).now c = if c = b then (s.now b).shift (s.reg (R.TB_INCR b)).toNat else s.now c :=
  kget_kset _ _ _ _ _

theorem State.reg_bases (s : State) (m : KMap TimeVal) (a : Nat) : ({ s with bases := m } : State).reg a = s.reg a := rfl

theorem reg_tickBase (s : State) (b a : Nat) : (tickBase s b).reg a = s.reg a := State.reg_bases s _ a

theorem tickBases_eq (s : State) : tickBases s = (List.range 4).foldl tickBase s := rfl

theorem tickBases_frame (s : State) : tickBases s = { s with bases := (tickBases s).bases } := by
  rw [tickBases_eq]
  exact List.foldlRecOn (motive := fun t : State => t = { s with bases := t.bases }) _ _ rfl fun t ht b _ =>
    congrArg (fun u : State => ({ u with bases := (tickBase t b).bases } : State)) (a₂ := { s with bases := t.bases }) ht

/-- A tick adds to each of the four bases its own increment. -/
theorem tickBases_now (s : State) {b : Nat} (hb : b < 4) : (tickBases s).now b = (s.now b).shift (s.reg (R.TB_INCR b)).toNat := by
  rw [tickBases_eq]
  exact foldl_writes_apart (read := State.now) (v := fun t b => (t.now b).shift (t.reg (R.TB_INCR b)).toNat) now_tickBase
    (fun t b c h => by rw [now_tickBase, if_neg h, reg_tickBase]) List.nodup_range s (List.mem_range.mpr hb)

/-- Settles O54: the front of the queue decides what a step does, and a tick adds to the bases alone. -/
theorem stepTakesTheFront : Obligations.StepTakesTheFront := by
  refine ⟨fun c s q => rfl, ?tick, fun s => ⟨tickBases_frame s, fun b hb => tickBases_now s hb⟩, ?still⟩
  case tick =>
    intro s hq hp hc
    simp [Steps, step, hq, idleTick, hp, hc]
  case still =>
    intro s hq h
    have hi : idleTick s = s := if_neg (by rcases h with h | h <;> simp [h])
    simp [Steps, step, hq, hi]

/-! ### Slips and availability (R325, R333, R334) -/

theorem execPmSecondBoundary_off {s : State} {t : Nat} (h : s.flag (R.CAS_PM_CFG t) F.CAS_PM_CFG_PM_EN = false) :
    execPmSecondBoundary t s = .next s := if_pos (.inl (by simp [h]))

/-- A second of a trunk that counts ends judged, and the next one takes the defects present. -/
theorem execPmSecondBoundary_ends {s u : State} {t b now : Nat} {d : List Bool} {h : HeldSec}
    (hp : s.flag (R.CAS_PM_CFG t) F.CAS_PM_CFG_PM_EN = true) (he : s.flag (R.CAS_CFG t) F.CAS_CFG_ENABLE = true)
    (hb : b = s.fld (R.CAS_PM_CFG t) F.CAS_PM_CFG_PM_TB) (hn : now = (s.localNow (timeIsland s (64 + t)) b).sec)
    (hu : u = if (s.trunk t).second < now then s else s.reachIn (timeIsland s (64 + t)) b { sec := now + 1 }) (hd : d = presentDefects u t)
    (hh : h = { start := (s.trunk t).second, es := decide (0 < (s.trunk t).ef) || (s.trunk t).uncorr || (s.trunk t).anyDef
                ses := decide (sesThreshold u t ≤ (s.trunk t).ef) || (s.trunk t).severe }) :
    execPmSecondBoundary t s = .next (u.setTrunk t { judgeSecond (s.trunk t) h with
      second := (u.localNow (timeIsland s (64 + t)) b).sec, ef := 0, uncorr := false, anyDef := d.any id
      severe := d.getD 0 false || d.getD 1 false || d.getD 2 false }) := by
  subst hh hd hu hn hb
  exact if_neg (by simp [hp, he])

section Judge
variable {x : Trunk} {h : HeldSec}

/-- While available, severely errored seconds are held until ten have come in a row. -/
theorem judgeSecond_holds (hu : x.unavail = false) (hs : h.ses = true) (hl : x.held.length < 9) :
    judgeSecond x h = { x with held := x.held ++ [h] } := by
  have hn : ¬10 ≤ (x.held ++ [h]).length := by simp; omega
  simp only [judgeSecond, hu, hs, Bool.not_false, if_true, if_neg hn]

/-- The tenth makes the trunk unavailable, from the first of the ten. -/
theorem judgeSecond_unavailable (hu : x.unavail = false) (hs : h.ses = true) (hl : x.held.length = 9) :
    judgeSecond x h = { (x.held ++ [h]).foldl (fun y e => commitSecond y e true) x with held := [], unavail := true } := by
  have hn : 10 ≤ (x.held ++ [h]).length := by simp [hl]
  simp only [judgeSecond, hu, hs, Bool.not_false, if_true, if_pos hn]

/-- The tenth second in a row without severe errors makes it available again. -/
theorem judgeSecond_available (hu : x.unavail = true) (hs : h.ses = false) (hl : x.held.length = 9) :
    judgeSecond x h = { (x.held ++ [h]).foldl (fun y e => commitSecond y e false) x with held := [], unavail := false } := by
  have hn : 10 ≤ (x.held ++ [h]).length := by simp [hl]
  simp only [judgeSecond, hu, hs, Bool.not_true, Bool.not_false, if_true, if_pos hn, Bool.false_eq_true, if_false]

theorem commitSecond_unavail (y : Trunk) (e : HeldSec) (uas : Bool) : (commitSecond y e uas).unavail = y.unavail := rfl

/-- While unavailable, a severely errored second ends the row of the others. -/
theorem judgeSecond_stays (hu : x.unavail = true) (hs : h.ses = true) : (judgeSecond x h).unavail = true ∧ (judgeSecond x h).held = [] := by
  have hf : (x.held.foldl (fun y e => commitSecond y e true) x).unavail = x.unavail :=
    foldl_keeps (g := Trunk.unavail) (fun y e => commitSecond_unavail y e true) _ _
  simp [judgeSecond, hu, hs, commitSecond_unavail, hf]

end Judge

/-- Settles O37: one law for each kind of second, and the slip's defect as it is set and cleared. -/
theorem cascadeMaintenance : Obligations.CascadeMaintenance := by
  refine ⟨?slips, ?clears, ?ends, ?off, ?holds, ?unavailable, ?available, ?stays⟩
  case slips => exact fun s t i hl hi ht => if_pos ⟨hl, hi, ht⟩
  case clears =>
    intro s t i ht hi
    simp only [Completes, exec, execDslipClear, Nat.mod_eq_of_lt ht, Nat.mod_eq_of_lt hi]
  case ends => exact fun s t b now u h d hp he hb hn hu hd hh => execPmSecondBoundary_ends hp he hb hn hu hd hh
  case off => exact fun s t h => execPmSecondBoundary_off h
  case holds => exact fun x h hu hs hl => judgeSecond_holds hu hs hl
  case unavailable =>
    intro x h hu hs hl
    rw [judgeSecond_unavailable hu hs hl]
    exact ⟨rfl, rfl, rfl⟩
  case available =>
    intro x h hu hs hl
    rw [judgeSecond_available hu hs hl]
    exact ⟨rfl, rfl, rfl⟩
  case stays => exact fun x h hu hs => judgeSecond_stays hu hs

/-! ### Time bases (R341 to R344, R361) -/

section Base
variable {s : State} {b : Nat}

/-- A command's status shows its code. -/
theorem fld_tbEnd_status (s : State) (b : Nat) (st : Status) : (tbEnd s b st).fld (R.TB_STATUS b) F.TB_STATUS_STATUS = st.code := by
  rw [tbEnd, State.fld_setFld_field _ _ _ _ _ (by decide), State.fld_setFld_same _ _ F.TB_STATUS_STATUS]
  exact Nat.mod_eq_of_lt st.code_lt

/-- Every command of a base but ARM_FORCE disarms the override (R343). -/
theorem tbEnd_disarms (s : State) (b : Nat) (st : Status) : (tbEnd s b st).flag (R.TB_STATUS b) F.TB_STATUS_ARMED = false := by
  rw [State.flag, tbEnd, State.fld_setFld_same _ _ F.TB_STATUS_ARMED]
  rfl

section Command
variable (hr : s.reachable = true) (hs : s.serves (blockOf (R.TB_CMD b)) = true)
include hr hs

theorem execTbStep_busy (h : (kget {} s.steps b).pending = true) : execTbStep b s = .next (tbEnd s b .busy) := by
  simp only [execTbStep, State.access_served hr hs, h, true_or, if_true]

theorem execTbArmForce_arms : execTbArmForce b s = .next ((tbEnd s b .ok).setFld (R.TB_STATUS b) F.TB_STATUS_ARMED 1) := by
  simp only [execTbArmForce, State.access_served hr hs]

variable (hp : (kget {} s.steps b).pending = false) (ht : b = 0 → s.txn.state ≠ .applying)
include hp ht

/-- No step waits and none is held up by a transaction. -/
theorem execTbStep_free : execTbStep b s = .next
    (if s.flag (R.TB_STATUS b) F.TB_STATUS_VALID = false then
      (tbEnd (scheduleStep s b (stepAmount s b)) b .ok).setFld (R.TB_STATUS b) F.TB_STATUS_VALID 1
     else if (stepAmount s b).natAbs ≤ (s.reg (R.TB_JUMP b)).toNat then tbEnd (scheduleStep s b (stepAmount s b)) b .ok
     else if s.flag (R.TB_STATUS b) F.TB_STATUS_ARMED = true then
       tbEnd ((scheduleStep s b (stepAmount s b)).alarm R.TIM_ALARM F.TIM_ALARM_FORCED) b .ok
     else tbEnd (s.alarm R.TIM_ALARM F.TIM_ALARM_JUMP_REFUSED) b .denied) := by
  have hb : ¬((kget {} s.steps b).pending = true ∨ b = 0 ∧ s.txn.state = .applying) := by simp [hp]; exact ht
  simp only [execTbStep, State.access_served hr hs, if_neg hb, Bool.not_eq_true']

end Command

/-- At its instant the pending step is taken and waits no more. -/
theorem execStepInstant_steps {u : State} (hp : (kget {} s.steps b).pending = true) (hu : u = s.reach b (kget {} s.steps b).instant) :
    execStepInstant b s =
      .next (takeStep { u with steps := kset {} u.steps b {} } b ((u.now b).shift ((kget {} s.steps b).amount * 2 ^ 24))) :=
  (if_pos hp).trans (by rw [hu]; rfl)

theorem execStepInstant_none (hp : (kget {} s.steps b).pending = false) : execStepInstant b s = .next s := if_neg (by simp [hp])

/-- A step counts in a list that runs on the stepped base and that no other is to replace (R344). -/
theorem stepGate_running {p : Nat} {l : GateList} (old new : TimeVal) (hl : (kget {} s.gates p).running = some l)
    (hn : (kget {} s.gates p).next = none) (hb : l.tb = b) :
    stepGate s b old new p = { s with gates := kset {} s.gates p { kget {} s.gates p with steps := (kget {} s.gates p).steps + 1 } } := by
  simp only [stepGate, hn, Bool.false_eq_true, if_false, hl, if_pos hb]

theorem State.setReg_frame (s : State) (a : Nat) (v : Word) : s.setReg a v = { s with regs := (s.setReg a v).regs } := rfl

/-- A base latched into its snapshot registers. -/
def latchBase (s : State) (b : Nat) : State :=
  (((s.setReg (R.TB_SNAP_FRAC b) (BitVec.ofNat 32 (s.now b).frac)).setReg (R.TB_SNAP_NS b) (BitVec.ofNat 32 (s.now b).ns)).setReg
    (R.TB_SNAP_SEC_LO b) (BitVec.ofNat 32 (s.now b).sec)).setReg (R.TB_SNAP_SEC_HI b) (BitVec.ofNat 32 ((s.now b).sec / 2 ^ 32))

theorem execTbSnapFracRead_served (hr : s.reachable = true) (hs : s.serves .tim = true) : execTbSnapFracRead b s =
    .next ((latchBase s b).emit (.readData .pf (R.TB_SNAP_FRAC b) (BitVec.ofNat 32 (s.now b).frac))) :=
  (if_neg (by simp [hr])).trans (if_neg (by simp [hs]))

/-- The four snapshot registers of a base are apart. -/
theorem latchBase_regs (s : State) (b : Nat) :
    (latchBase s b).reg (R.TB_SNAP_FRAC b) = BitVec.ofNat 32 (s.now b).frac ∧ (latchBase s b).reg (R.TB_SNAP_NS b) = BitVec.ofNat 32 (s.now b).ns ∧
    (latchBase s b).reg (R.TB_SNAP_SEC_LO b) = BitVec.ofNat 32 (s.now b).sec ∧
    (latchBase s b).reg (R.TB_SNAP_SEC_HI b) = BitVec.ofNat 32 ((s.now b).sec / 2 ^ 32) := by
  simp [latchBase, State.reg_setReg, R.TB_SNAP_FRAC, R.TB_SNAP_NS, R.TB_SNAP_SEC_LO, R.TB_SNAP_SEC_HI]

theorem latchBase_frame (s : State) (b : Nat) : latchBase s b = { s with regs := (latchBase s b).regs } :=
  regsFrame_trans (regsFrame_trans (regsFrame_trans (State.setReg_frame s _ _) (State.setReg_frame _ _ _)) (State.setReg_frame _ _ _))
    (State.setReg_frame _ _ _)

end Base

/-- Settles O38: the order of a step's checks, the status of a command, and what is done at a step's instant. -/
theorem timeBasesAndSteps : Obligations.TimeBasesAndSteps := by
  refine ⟨?increment, ?busy, ?first, ?later, ?arms, ?status, fun s b => rfl, ?instant, ?none, ?taken, ?list, ?read⟩
  case increment => exact fun s b v hr hs => congrArg Host.Outcome.next (State.access_served hr hs)
  case busy => exact fun s b hr hs hp => execTbStep_busy hr hs hp
  case first => exact fun s b hr hs hp ht hv => (execTbStep_free hr hs hp ht).trans (congrArg _ (if_pos hv))
  case later => exact fun s b hr hs hp ht hv => (execTbStep_free hr hs hp ht).trans (congrArg _ (if_neg (by simp [hv])))
  case arms =>
    refine fun s b hr hs => ⟨_, execTbArmForce_arms hr hs, ?_, ?_, rfl, fun a ha => ?_⟩
    · rw [State.flag, State.fld_setFld_same _ _ F.TB_STATUS_ARMED]
      rfl
    · rw [State.fld_setFld_field _ _ _ _ _ (by decide), fld_tbEnd_status]
    · rw [State.reg_setFld_other _ _ _ ha, tbEnd, State.reg_setFld_other _ _ _ ha, State.reg_setFld_other _ _ _ ha]
  case status => exact fun s b st => ⟨tbEnd_disarms s b st, fld_tbEnd_status s b st⟩
  case instant => exact fun s b u hp hu => execStepInstant_steps hp hu
  case none => exact fun s b hp => execStepInstant_none hp
  case taken => exact fun s b new u hu => by rw [hu]; rfl
  case list => exact fun s b p l old new hl hn hb => stepGate_running old new hl hn hb
  case read =>
    intro s b hr hs
    obtain ⟨frac, ns, lo, hi⟩ := latchBase_regs s b
    refine ⟨_, execTbSnapFracRead_served hr hs, frac, ns, lo, hi, ?_⟩
    conv_lhs => rw [latchBase_frame]
    rfl

/-! ### Gate lists and launch times (R352 to R356) -/

section Gate
variable {s : State} {p : Nat} {l : GateList}

/-- The list that is due takes over at a cycle's start. -/
theorem gateCycle_due (hc : cmpArmed s (s.fld (R.GATE_CFG p) F.GATE_CFG_CMP) = false) (hn : (kget {} s.gates p).next = some l) :
    gateCycle s p = { s.reachIn (timeIsland s p) l.tb (cycleStart l (egressNow s p l.tb).nanos) with
      gates := kset {} s.gates p { kget {} s.gates p with running := some l, next := none } } := by
  simp only [gateCycle, hc, Bool.false_eq_true, if_false, hn]

/-- An entry of the running list ends where the entries from the present position on say. -/
theorem execGateEntryBoundary_running {t : Nat} (hl : (kget {} s.gates p).running = some l) (ht : t = (egressNow s p l.tb).nanos)
    (hb : l.base.nanos ≤ t) (hc : l.cycle ≠ 0) : execGateEntryBoundary p s = .next (preemptAtGate (s.reachIn (timeIsland s p) l.tb
      (timeOf ((t + ((fromPosition (fillCycle l.entries l.cycle) ((t - l.base.nanos) % l.cycle)).headD (0, 0)).2) * 2 ^ 24))) p) := by
  subst ht
  simp only [execGateEntryBoundary, hl]
  exact if_neg (by simp [hc]; exact hb)

/-- A list filled to its cycle adds up to the cycle. -/
theorem fillCycle_sum (l : List (Nat × Nat)) {n : Nat} (hn : 0 < n) : ((fillCycle l n).map Prod.snd).sum = n := by
  induction l, n using fillCycle.induct with
  | case1 n => simp [fillCycle]
  | case2 n g d => simp [fillCycle]
  | case3 g d r n hr hd =>
    have h : fillCycle ((g, d) :: r) n = [(g, n)] := by rw [fillCycle.eq_3 _ _ _ _ hr, if_pos hd]
    simp [h]
  | case4 g d r n hr hd ih =>
    have h : fillCycle ((g, d) :: r) n = (g, d) :: fillCycle r (n - d) := by rw [fillCycle.eq_3 _ _ _ _ hr, if_neg hd]
    simp only [h, List.map_cons, List.sum_cons, ih (by omega)]
    omega

end Gate

section Launch
variable {s u : State} {j b : Nat} {l : TimeVal} (hl : (s.job j).launch = some (b, l))
include hl

theorem execLaunchEligible_waiting (hw : (s.job j).stage = .queued ∨ (s.job j).stage = .handoff) : execLaunchEligible j s =
    .next ((s.reachIn 10 b (timeOf ((l.nanos - s.fld (R.LAUNCH_CFG (s.job j).egress) F.LAUNCH_CFG_LEAD_NS) * 2 ^ 24))).setJob j
      { s.job j with eligible := true }) := by
  simp only [execLaunchEligible, hl, if_pos hw]

theorem execLaunchRelease_reached (hu : u = s.reachIn (timeIsland s (s.job j).egress) b l) : execLaunchRelease j s =
    .next (if (s.job j).stage = .dispatched ∧ gateAdmits u (s.job j).egress (s.job j).cls (s.job j).size 0 = true then
      (if portUnlocked s (s.job j).egress = true then u.count (.port (s.job j).egress 30) else u).setJob j
        { s.job j with launch := none, eligible := true }
     else u) := by
  subst hu
  simp only [execLaunchRelease, hl]
  split <;> rfl

/-- Late is what waits to leave: sent or discarded, as the port's policy says (R356). -/
theorem execLaunchLate_waiting (hn : (s.job j).stage ≠ .none) (hd : (s.job j).stage ≠ .done)
    (hu : u = s.reachIn (timeIsland s (s.job j).egress) b (timeOf ((l.nanos + 5) * 2 ^ 24))) : execLaunchLate j s =
    .next (if u.flag (R.LAUNCH_CFG (s.job j).egress) F.LAUNCH_CFG_LATE_POLICY = true then
      (u.setJob j { s.job j with launch := none, eligible := true, late := true, discard := true }).count (.port (s.job j).egress 26)
     else ((if portUnlocked u (s.job j).egress then u.count (.port (s.job j).egress 30) else u).setJob j
      { s.job j with launch := none, eligible := true, late := true }).count (.port (s.job j).egress 25)) := by
  subst hu
  have hs : ¬((s.job j).stage = .none ∨ (s.job j).stage = .done) := by simp [hn, hd]
  simp only [execLaunchLate, hl, if_neg hs]
  split <;> rfl

end Launch

/-- Settles O40: one law for each event of a list and of a launch time, and the sum of a list that is filled. -/
theorem gatesAndLaunch : Obligations.GatesAndLaunch := by
  refine ⟨fun s p => rfl, ?due, ?entry, ?sum, ?eligible, ?release, ?late⟩
  case due => exact fun s p l hc hn => gateCycle_due hc hn
  case entry => exact fun s p l t hl ht hb hc => ⟨_, rfl, execGateEntryBoundary_running hl ht hb hc⟩
  case sum => exact fun l n hn _ => fillCycle_sum l hn
  case eligible => exact fun s j b l hl hw => execLaunchEligible_waiting hl hw
  case release => exact fun s j b l u hl hu => execLaunchRelease_reached hl hu
  case late => exact fun s j b l u hl hn hd hu => execLaunchLate_waiting hl hn hd hu

end Sys2Proof.Machine
end

section
/-! The family of spec/18_counters.md: snapshots, commanded instants, counters, arms and split reads. -/

namespace Sys2Proof.Machine

/-! ### Commanded instants (R481, R482) -/

theorem blockOf_CNT_CMD : blockOf R.CNT_CMD = .cnt := rfl

/-- A command of the collector shows its code and changes registers alone. -/
theorem fld_cntEnd (s : State) (st : Status) : (cntEnd s st).fld R.CNT_STATUS F.CNT_STATUS_STATUS = st.code :=
  (State.fld_setFld_same _ _ F.CNT_STATUS_STATUS _).trans (Nat.mod_eq_of_lt st.code_lt)

/-- The three commands of an instant, each with its number. -/
theorem exec_cntInstant {op : Nat} {c : Instr} (s : State) (h : (op, c) ∈ [(1, Instr.cntSnap), (2, .cntFreeze), (3, .cntThaw)]) :
    exec c s = .next (cntInstant op s) := by
  simp only [List.mem_cons, Prod.mk.injEq, List.not_mem_nil, or_false] at h
  rcases h with ⟨rfl, rfl⟩ | ⟨rfl, rfl⟩ | ⟨rfl, rfl⟩ <;> rfl

theorem exists_cntOp {c : Instr} (h : c ∈ [Instr.cntSnap, .cntFreeze, .cntThaw]) :
    ∃ op, (op, c) ∈ [(1, Instr.cntSnap), (2, .cntFreeze), (3, .cntThaw)] := by
  simp only [List.mem_cons, List.not_mem_nil, or_false] at h
  rcases h with rfl | rfl | rfl
  · exact ⟨1, by simp⟩
  · exact ⟨2, by simp⟩
  · exact ⟨3, by simp⟩

section Instant
variable {s : State} (hr : s.reachable = true) (hs : s.serves (blockOf R.CNT_CMD) = true)
include hr hs

/-- While the MC is down or an instant is pending, the three commands are BUSY (R482, R488). -/
theorem cntInstant_busy (op : Nat) (h : s.dev.mcUp = false ∨ s.snap.pending.isSome = true) : cntInstant op s = cntEnd s .busy := by
  rw [cntInstant, State.access_served hr hs]
  exact if_pos (by simpa using h)

/-- With none pending, CNT_AT says the instant, 10 us ahead of the base at least (R482). -/
theorem cntInstant_taken {op : Nat} {n : TimeVal} (hm : s.dev.mcUp = true) (hp : s.snap.pending = none)
    (hn : n = (s.now (s.fld R.CNT_CFG F.CNT_CFG_SNAP_TB)).shift (10000 * 2 ^ 24 : Nat)) : cntInstant op s =
    if cntAt s = {} then cntEnd { s with snap := { s.snap with pending := some (op, s.fld R.CNT_CFG F.CNT_CFG_SNAP_TB, n) } } .ok
    else if (cntAt s).ge n = false then cntEnd s .invalid
    else cntEnd { s with snap := { s.snap with pending := some (op, s.fld R.CNT_CFG F.CNT_CFG_SNAP_TB, cntAt s) } } .ok := by
  subst hn
  rw [cntInstant, State.access_served hr hs]
  simp only [hm, hp, Bool.not_true, Bool.false_eq_true, Option.isSome_none, or_self, if_false, Bool.not_eq_true']

theorem execCntClearWrap_served (i : Nat) : execCntClearWrap i s =
    .next (cntEnd { s with wraps := if i % 2 ^ 20 = 0xFFFFF then [] else kset false s.wraps (i % 2 ^ 20) false } .ok) :=
  congrArg Host.Outcome.next (State.access_served hr hs)

end Instant

/-- Settles O60: BUSY before the checks of CNT_AT, and what CNT_AT says else. -/
theorem commandedInstantsFromCntAt : Obligations.CommandedInstantsFromCntAt := by
  refine ⟨?taken, ?busy, ?status⟩
  case taken =>
    intro s n op c hr hs hm hp hn hc
    exact (exec_cntInstant s hc).trans (congrArg _ (cntInstant_taken hr hs hm hp hn))
  case busy =>
    intro s c hr hs hp hc
    obtain ⟨op, ho⟩ := exists_cntOp hc
    exact (exec_cntInstant s ho).trans (congrArg _ (cntInstant_busy hr hs op (.inr hp)))
  case status =>
    rintro s st t rfl
    exact ⟨fld_cntEnd s st, rfl⟩

/-! ### Snapshots (R478 to R480) -/

theorem takeSnapshot_skips {s : State} (c : Bool) (b : Nat) (t : TimeVal)
    (h : s.dev.mcUp = false ∨ s.snap.image.isSome = true ∨ buffersSet s = false) : takeSnapshot s c b t = skipImage s :=
  if_pos (by simpa using h)

/-- An image begins with every counter latched. -/
theorem takeSnapshot_begins {s : State} (c : Bool) (b : Nat) (t : TimeVal) (hm : s.dev.mcUp = true) (hi : s.snap.image = none)
    (hb : buffersSet s = true) : ∃ i, (takeSnapshot s c b t).snap.image = some i ∧ i.counters = s.counters ∧ i.wraps = s.wraps ∧ i.instant = t ∧
    i.skipped = s.snap.skipped ∧ (takeSnapshot s c b t).snap.skipped = 0 ∧ (takeSnapshot s c b t).counters = s.counters := by
  have hn : ¬((!s.dev.mcUp) = true ∨ s.snap.image.isSome = true ∨ (!buffersSet s) = true) := by simp [hm, hi, hb]
  rw [takeSnapshot, if_neg hn]
  exact ⟨_, rfl, rfl, rfl, rfl, rfl, rfl, rfl⟩

theorem execSnapshotInstant_runs {s : State} (h : snapRuns s = true) : execSnapshotInstant s =
    .next (takeSnapshot (s.reach (s.fld R.CNT_CFG F.CNT_CFG_SNAP_TB) (nextInstant s (s.now (s.fld R.CNT_CFG F.CNT_CFG_SNAP_TB)))) false
      (s.fld R.CNT_CFG F.CNT_CFG_SNAP_TB) (nextInstant s (s.now (s.fld R.CNT_CFG F.CNT_CFG_SNAP_TB)))) := if_pos h

/-- A commanded instant that is reached is pending no more and does what its command says. -/
theorem execCommandedInstant_pending {s : State} {op b : Nat} {t : TimeVal} (h : s.snap.pending = some (op, b, t)) :
    execCommandedInstant s = .next (atInstant op { s.reach b t with snap := { s.snap with pending := none } } b t) := by
  simp only [execCommandedInstant, h]

theorem atInstant_snap (s : State) (b : Nat) (t : TimeVal) : atInstant 1 s b t = takeSnapshot s true b t := if_pos rfl

/-- What a FREEZE leaves (R481). -/
def frozenNow (s : State) : State := { s with snap := { s.snap with frozen := some (latchNow s) } }

theorem atInstant_freeze (s : State) (b : Nat) (t : TimeVal) : atInstant 2 s b t = frozenNow s := by
  rw [atInstant, if_neg (by decide), if_pos rfl, frozenNow]

/-- Right after a freeze, what reads show is what is counted. -/
theorem shownCounter_frozenNow (s : State) (i : Nat) : shownCounter (frozenNow s) i = kget 0 (frozenNow s).counters i := rfl

theorem atInstant_thaw (s : State) (b : Nat) (t : TimeVal) : atInstant 3 s b t = { s with snap := { s.snap with frozen := none } } := by
  rw [atInstant, if_neg (by decide), if_neg (by decide)]

section Image
variable {s : State} {i : Image} (h : s.snap.image = some i)
include h

/-- The header, with DONE and the next SEQ, is written behind the banks. -/
theorem execSnapshotImageDone_written : execSnapshotImageDone true s = .next
    { (s.emit (s.dmaWrite .pf true (snapBuffer s i.toB + 0x100) (imageBanks i ++ imageBitmap i))).emit
        (s.dmaWrite .pf false (snapBuffer s i.toB) (imageHeader i (s.snap.seq + 1))) with
      snap := { s.snap with image := none, seq := s.snap.seq + 1 } } := by
  simp only [execSnapshotImageDone, h, if_true, State.emit_snap]

theorem execSnapshotImageDone_failed : execSnapshotImageDone false s = .next
    ({ s with snap := { s.snap with image := none, skipped := s.snap.skipped + i.skipped + 1 } }.alarm R.CNT_ALARM F.CNT_ALARM_DMA_ERR) := by
  simp only [execSnapshotImageDone, h, Bool.false_eq_true, if_false]

end Image

/-- Settles O52: an instant taken or skipped, the end of an image, and a commanded instant by its operation. -/
theorem counterSnapshots : Obligations.CounterSnapshots := by
  refine ⟨?periodic, fun s c b t h => takeSnapshot_skips c b t h, fun s c b t hm hi hb => takeSnapshot_begins c b t hm hi hb, ?down, ?snap, ?freeze,
    ?thaw, ?written, fun s i h => execSnapshotImageDone_failed h⟩
  case periodic =>
    rintro s _ _ h rfl rfl
    exact execSnapshotInstant_runs h
  case down =>
    intro s c hr hs hm hc
    obtain ⟨op, ho⟩ := exists_cntOp hc
    exact (exec_cntInstant s ho).trans (congrArg _ (cntInstant_busy hr hs op (.inl hm)))
  case snap =>
    rintro s b t _ h rfl
    have hs := execCommandedInstant_pending h
    rwa [atInstant_snap] at hs
  case freeze =>
    intro s b t h
    have hf := execCommandedInstant_pending h
    rw [atInstant_freeze] at hf
    exact ⟨_, hf, rfl, shownCounter_frozenNow _⟩
  case thaw =>
    intro s b t h
    have ht := execCommandedInstant_pending h
    rw [atInstant_thaw] at ht
    exact ⟨_, ht, rfl, rfl⟩
  case written =>
    rintro s i _ h rfl
    exact execSnapshotImageDone_written h

/-! ### Arms (R484) -/

/-- The registers of an arm are no pending word of an interrupt. -/
theorem armIdx_ne_msixPba {k : Nat} (hk : k < 8) : R.CNT_ARM_k_IDX k ≠ msixPba .pf := by
  simp only [R.CNT_ARM_k_IDX, msixPba, R.PF_MSIX_PBA]
  omega

theorem armIdx_ne_armHit {k : Nat} (hk : k < 8) : R.CNT_ARM_k_IDX k ≠ R.CNT_ARM_HIT := by
  simp only [R.CNT_ARM_k_IDX, R.CNT_ARM_HIT]
  omega

/-- Arm `k` fired: disarmed, its count at 0, its hit bit set and vector 0 raised. -/
def armFired (s : State) (k : Nat) : State :=
  (({ s.setFld (R.CNT_ARM_k_IDX k) F.CNT_ARM_k_IDX_EN 0 with armed := kset 0 s.armed k 0 }).setFld R.CNT_ARM_HIT ⟨k, 1⟩ 1).interrupt .pf 0

section Arm
variable {s : State} {k : Nat} (hk : k < 8)
include hk

theorem execArmFire_seen (he : s.flag (R.CNT_ARM_k_IDX k) F.CNT_ARM_k_IDX_EN = true)
    (hn : max 1 (s.reg (R.CNT_ARM_k_N k)).toNat ≤ kget 0 s.armed k) : execArmFire k s = .next (armFired s k) := if_pos ⟨hk, he, hn⟩

theorem armFired_disarmed : (armFired s k).flag (R.CNT_ARM_k_IDX k) F.CNT_ARM_k_IDX_EN = false := by
  rw [State.flag, State.fld, armFired, State.reg_interrupt_other _ _ _ (armIdx_ne_msixPba hk), State.reg_setFld_other _ _ _ (armIdx_ne_armHit hk)]
  have h : (s.setFld (R.CNT_ARM_k_IDX k) F.CNT_ARM_k_IDX_EN 0).fld (R.CNT_ARM_k_IDX k) F.CNT_ARM_k_IDX_EN = 0 := State.fld_setFld_same _ _ _ _
  exact decide_eq_false fun h1 => absurd (h.symm.trans h1) (by decide)

theorem armFired_hit : (armFired s k).flag R.CNT_ARM_HIT ⟨k, 1⟩ = true := by
  have hl : k + 1 ≤ 32 := by omega
  rw [State.flag, State.fld, armFired, State.reg_interrupt_other _ _ _ (by decide)]
  exact decide_eq_true (State.fld_setFld_same _ _ ⟨k, 1⟩ 1 hl)

omit hk in
theorem armFired_armed : kget 0 (armFired s k).armed k = 0 := by
  rw [armFired, State.interrupt_frame]
  exact kget_kset_same 0 s.armed k 0

theorem execCntArmIdxWrite_served (v : Word) (hr : s.reachable = true) (hs : s.serves (blockOf (R.CNT_ARM_k_IDX k)) = true) :
    execCntArmIdxWrite k v s = .next
      (if F.CNT_ARM_k_IDX_EN.get v = 1 ∧ knownIndex (F.CNT_ARM_k_IDX_IDX.get v) = false then cntEnd s .invalid
       else cntEnd { s.setReg (R.CNT_ARM_k_IDX k) (v &&& rwMask (R.CNT_ARM_k_IDX k)) with armed := kset 0 s.armed k 0 } .ok) := by
  simp only [execCntArmIdxWrite, Nat.mod_eq_of_lt hk, State.access_served hr hs, Bool.not_eq_true']

end Arm

/-! ### Windows and split reads (R483, R485, R488) -/

theorem execBwWindowBoundary_armed {s : State} {k : Nat} (he : s.flag R.CNT_BW F.CNT_BW_EN = true) (hk : k = s.fld R.CNT_BW F.CNT_BW_CMP)
    (ha : cmpArmed s k = true) : execBwWindowBoundary s =
    .next (advanceCmp (latchWindows (s.reach (s.fld (R.CMP_CFG k) F.CMP_CFG_TB) (cmpTarget s k))) k) := by
  subst hk
  exact if_pos ⟨he, ha⟩

/-- A read of a served low word answers its low 32 bits and keeps the rest. -/
theorem readLow_served {s : State} {a : Nat} (fn : Fn) (hi : Nat) (v : State → Nat) (hr : s.reachable = true) (hs : s.serves (blockOf a) = true) :
    readLow fn a hi v s = (latchHigh s hi (v s)).emit (.readData fn a (BitVec.ofNat 32 (v s))) := by
  simp [readLow, hr, hs]

theorem highs_latchHigh (s : State) (hi v : Nat) : kget 0 (latchHigh s hi v).snap.highs hi = BitVec.ofNat 32 (v / 2 ^ 32) := kget_kset_same _ _ _ _

/-- Settles O53: counting and clearing a wrap bit touch one place, an arm fires as `armFired` says, and a split read keeps its high word. -/
theorem countersAndArms : Obligations.CountersAndArms := by
  refine ⟨fun s c i _ => s.count_counters c i, ?one, ?all, ?window, ?armed, ?fires, ?native, ?legacy⟩
  case one =>
    intro s i hr hs hi
    have hm : i % 2 ^ 20 = i := Nat.mod_eq_of_lt (by omega)
    have hw := execCntClearWrap_served hr hs i
    rw [hm, if_neg (by omega)] at hw
    exact ⟨_, hw, kget_kset_same false s.wraps i false, rfl, fun j hj => kget_kset_other false false s.wraps false hj⟩
  case all => exact fun s hr hs => execCntClearWrap_served hr hs 0xFFFFF
  case window => exact fun s k he hk ha => execBwWindowBoundary_armed he hk ha
  case armed => exact fun s k v hk hr hs => execCntArmIdxWrite_served hk v hr hs
  case fires =>
    exact fun s k hk he hn => ⟨_, rfl, execArmFire_seen hk he hn, armFired_disarmed hk, armFired_hit hk, armFired_armed⟩
  case native =>
    intro s hr hs
    exact ⟨_, _, rfl, congrArg Host.Outcome.next (readLow_served .pf _ _ hr hs), rfl, highs_latchHigh s _ _⟩
  case legacy =>
    intro s i hi hr hs
    have hl : execLegLoRead i s = .next (readLow .pf (R.LEG_i_LO i) (R.LEG_i_HI i) (fun s => if i < 248 then shownLegacy s i else 0) s) := by
      simp only [execLegLoRead, Nat.mod_eq_of_lt hi]
    exact ⟨_, _, rfl, hl.trans (congrArg Host.Outcome.next (readLow_served .pf _ _ hr hs)), rfl, highs_latchHigh s _ _⟩

end Sys2Proof.Machine
end

section
/-! The family of spec/15_tamper_and_well.md: sources, responses, and the commands of the tamper monitor. -/

namespace Sys2Proof.Machine

/-! ### Responses (R416 to R421) -/

theorem LinkOnly.tmp {s t : State} (h : LinkOnly s t) : t.tmp = s.tmp := by rw [h]

@[simp] theorem State.interrupt_tmp (s : State) (fn : Fn) (v : Nat) : (s.interrupt fn v).tmp = s.tmp := by rw [State.interrupt_frame]

@[simp] theorem endStart_tmp (s : State) (o r : Nat) : (endStart s o r).tmp = s.tmp := by rw [endStart_frame]

@[simp] theorem lateIdentity_tmp (s : State) : (lateIdentity s).tmp = s.tmp := by unfold lateIdentity; split <;> rfl

/-- The entry of Halt leaves the tamper monitor alone. -/
@[simp] theorem enterHalt_tmp (s : State) : (enterHalt s).tmp = s.tmp := by
  unfold enterHalt
  split
  · rfl
  · exact (lateIdentity_tmp _).trans (endStart_tmp s 3 0)

theorem enterHalt_state (s : State) : (enterHalt s).dev.state = .halt := by
  unfold enterHalt
  split
  · assumption
  · rfl

/-- What every response does first: TAMPER_MAX, and the signal from ALERT on. -/
def signalled (s : State) (level : Nat) : State :=
  let t : State := { s with tmp := { s.tmp with max := max s.tmp.max level } }
  if level < 2 then t else { t with tmp := { t.tmp with alert := true } }.interrupt .pf 1

/-- The level that is in force, which up to level 4 a reset finds pending. -/
def putInForce (s : State) (level : Nat) : State :=
  { s with tmp := { s.tmp with inForce := level, pendingLvl := if level ≤ 4 then max s.tmp.pendingLvl level else s.tmp.pendingLvl } }

/-- From level 4 on keys are cleared. -/
def beginClear (s : State) (level : Nat) : State :=
  if level < 4 then s else { s with tmp := { s.tmp with clearing := max s.tmp.clearing level } }

/-- Level 5 holds the device in Halt. -/
def holdHalt (s : State) (level : Nat) : State := if level = 5 then { s with tmp := { s.tmp with haltHold := true } } else s

/-- A level put in force: diagnosis 7, the clearing, and the hold. -/
def forced (s : State) (level : Nat) : State := holdHalt (beginClear (diagnose (putInForce s level) 7 true) level) level

theorem signalled_log (s : State) : signalled s 1 = { s with tmp := { s.tmp with max := max s.tmp.max 1 } } := rfl

theorem signalled_tmp {s : State} {l : Nat} (h : 2 ≤ l) : (signalled s l).tmp = { s.tmp with max := max s.tmp.max l, alert := true } := by
  rw [signalled, if_neg (by omega), State.interrupt_tmp]

theorem signalled_dev {s : State} {l : Nat} (h : 2 ≤ l) : (signalled s l).dev = s.dev := by
  rw [signalled, if_neg (by omega), State.interrupt_dev]

/-- The signal changes neither the level in force nor the service window. -/
theorem signalled_keeps (s : State) (l : Nat) : (signalled s l).tmp.inForce = s.tmp.inForce ∧ (signalled s l).tmp.window = s.tmp.window := by
  unfold signalled
  split
  · exact ⟨rfl, rfl⟩
  · rw [State.interrupt_tmp]
    exact ⟨rfl, rfl⟩

theorem beginClear_keeps (s : State) (l : Nat) : (beginClear s l).tmp.inForce = s.tmp.inForce ∧ (beginClear s l).tmp.window = s.tmp.window := by
  unfold beginClear
  split <;> exact ⟨rfl, rfl⟩

theorem holdHalt_keeps (s : State) (l : Nat) : (holdHalt s l).tmp.inForce = s.tmp.inForce ∧ (holdHalt s l).tmp.window = s.tmp.window := by
  unfold holdHalt
  split <;> exact ⟨rfl, rfl⟩

/-- The diagnosis changes nothing of the monitor. -/
theorem diagnose_tmp (s : State) (n : Nat) (b : Bool) : (diagnose s n b).tmp = s.tmp := (LinkOnly.diagnose s n b).tmp

theorem forced_inForce (s : State) (l : Nat) : (forced s l).tmp.inForce = l := by
  rw [forced, (holdHalt_keeps _ l).1, (beginClear_keeps _ l).1, diagnose_tmp]
  rfl

theorem forced_window (s : State) (l : Nat) : (forced s l).tmp.window = s.tmp.window := by
  rw [forced, (holdHalt_keeps _ l).2, (beginClear_keeps _ l).2, diagnose_tmp]
  rfl

theorem forced_haltHold (s : State) : (forced s 5).tmp.haltHold = true := rfl

theorem respond_eq (s : State) (l : Nat) : respond s l = if l < 3 ∨ l < (signalled s l).tmp.inForce then signalled s l else
    let t := if l < 5 then forced (signalled s l) l else enterHalt (forced (signalled s l) l)
    if l = 6 then eraseWell t else t := by
  unfold respond forced putInForce beginClear holdHalt signalled
  rfl

theorem respond_signals {s : State} {l : Nat} (h : l < 3) : respond s l = signalled s l := by rw [respond_eq, if_pos (.inl h)]

theorem respond_lower {s : State} {l : Nat} (h : l < s.tmp.inForce) : respond s l = signalled s l := by
  rw [respond_eq, (signalled_keeps s l).1, if_pos (.inr h)]

/-- From level 3 on the level is in force where none above it is; Halt follows from level 5 on and the Well's erase at level 6 (log entries 200
and 201). -/
theorem respond_forces {s : State} {l : Nat} (h3 : 3 ≤ l) (hf : s.tmp.inForce ≤ l) : respond s l =
    if l = 6 then eraseWell (enterHalt (forced (signalled s l) l))
    else if l < 5 then forced (signalled s l) l else enterHalt (forced (signalled s l) l) := by
  rw [respond_eq, (signalled_keeps s l).1, if_neg (by omega)]
  dsimp only
  by_cases h6 : l = 6
  · rw [if_pos h6, if_pos h6, if_neg (show ¬l < 5 by omega)]
  · rw [if_neg h6, if_neg h6]

theorem respond_inForce {s : State} {l : Nat} (h3 : 3 ≤ l) (hf : s.tmp.inForce ≤ l) : (respond s l).tmp.inForce = l := by
  have hi := forced_inForce (signalled s l) l
  rw [respond_forces h3 hf]
  split
  · exact (congrArg Tamper.inForce (enterHalt_tmp _)).trans hi
  · split
    · exact hi
    · rw [enterHalt_tmp]
      exact hi

theorem respond_halt {s : State} {l : Nat} (h5 : 5 ≤ l) (hf : s.tmp.inForce ≤ l) : (respond s l).dev.state = .halt := by
  rw [respond_forces (by omega) hf, if_neg (show ¬l < 5 by omega)]
  split
  · exact enterHalt_state _
  · exact enterHalt_state _

/-- A response leaves the service window as it is. -/
theorem respond_window (s : State) (l : Nat) : (respond s l).tmp.window = s.tmp.window := by
  have hw := (signalled_keeps s l).2
  have hf : (forced (signalled s l) l).tmp.window = s.tmp.window := (forced_window _ l).trans hw
  by_cases h : l < 3 ∨ l < s.tmp.inForce
  · rcases h with h | h
    · rwa [respond_signals h]
    · rwa [respond_lower h]
  · rw [respond_forces (by omega) (by omega)]
    split
    · exact (congrArg Tamper.window (enterHalt_tmp _)).trans hf
    · split
      · exact hf
      · rwa [enterHalt_tmp]

theorem execKeyClearComplete_none {s : State} (h : s.tmp.clearing < 4) : execKeyClearComplete s = .next s := if_pos h

theorem execKeyClearComplete_traffic {s : State} (h : s.tmp.clearing = 4) :
    execKeyClearComplete s = .next (clearTraffic { s with tmp := { s.tmp with clearing := 0 } }) := by
  simp [execKeyClearComplete, h]

/-- The state after the clearing of levels 5 and above: no owner key, and no identity from level 6 on. -/
def allCleared (s : State) : State :=
  let t : State := { clearTraffic { s with tmp := { s.tmp with clearing := 0 } } with owner := [] }
  if s.tmp.clearing < 6 then t else { t with ident := { t.ident with alias_ := false, agree := false } }

theorem execKeyClearComplete_all {s : State} (h : 5 ≤ s.tmp.clearing) : execKeyClearComplete s = .next (allCleared s) := by
  rw [execKeyClearComplete]
  dsimp only
  rw [if_neg (show ¬s.tmp.clearing < 4 by omega), if_neg (show ¬s.tmp.clearing < 5 by omega)]
  rfl

theorem allCleared_keys (s : State) : (allCleared s).owner = [] ∧
    (6 ≤ s.tmp.clearing → (allCleared s).ident.alias_ = false ∧ (allCleared s).ident.agree = false) := by
  unfold allCleared
  split
  · exact ⟨rfl, fun h => by omega⟩
  · exact ⟨rfl, fun _ => ⟨rfl, rfl⟩⟩

/-- Settles O45: what is signalled, forced, held and erased, level by level, and what a clearing leaves. -/
theorem tamperResponses : Obligations.TamperResponses := by
  refine ⟨?alert, ?log, fun s l h3 hf => respond_inForce h3 hf, fun s l h5 hf => respond_halt h5 hf, ?hold, ?erase,
    fun s h => execKeyClearComplete_none h, fun s h => execKeyClearComplete_traffic h, ?clears⟩
  case alert =>
    intro s
    rw [respond_signals (by decide), signalled_tmp le_rfl, signalled_dev le_rfl]
    exact ⟨rfl, rfl, rfl⟩
  case log =>
    intro s
    rw [respond_signals (by decide), signalled_log]
    exact ⟨rfl, rfl, rfl⟩
  case hold =>
    intro s hf
    rw [respond_forces (by decide) hf, if_neg (by decide), if_neg (by decide), enterHalt_tmp]
    exact forced_haltHold _
  case erase =>
    intro s hf
    rw [respond_forces (by decide) hf, if_pos rfl]
    exact ⟨rfl, rfl, rfl, rfl, rfl⟩
  case clears => exact fun s h => ⟨_, execKeyClearComplete_all h, allCleared_keys s⟩

/-! ### Sources (R412 to R420) -/

theorem fireSources_nil (s : State) : fireSources s [] = s := by simp [fireSources, topResponse]

/-- A source that may not fire is not latched. -/
theorem fireSources_not {s : State} {src : Nat} (v : Nat) (h : mayFire s src = false) : fireSources s [(src, v)] = s := by
  have hl : [(src, v)].filter (fun x => mayFire s x.1) = [] := by simp [h]
  rw [fireSources]
  dsimp only
  rw [hl]
  exact if_pos rfl

/-- With main power, one source that may fire is latched and gives its own response. -/
theorem fireSources_one {s : State} {src : Nat} (v : Nat) (h : mayFire s src = true) (hp : s.dev.power = true) :
    fireSources s [(src, v)] = respond (latchSource s src v) (max 0 (responseOf s src)) := by
  have hl : [(src, v)].filter (fun x => mayFire s x.1) = [(src, v)] := by simp [h]
  have hr : ¬max 0 (responseOf s src) = 0 := by
    simp only [mayFire, Bool.and_eq_true, decide_eq_true_eq] at h
    simpa using h.2
  rw [fireSources]
  dsimp only
  rw [hl]
  exact (if_neg hr).trans (if_pos hp)

theorem latchSource_window (s : State) (x : Nat × Nat) : (latchSource s x.1 x.2).tmp.window = s.tmp.window := rfl

/-- Sources that fire leave the service window as it is. -/
theorem fireSources_window (s : State) (l : List (Nat × Nat)) : (fireSources s l).tmp.window = s.tmp.window := by
  unfold fireSources
  extract_lets m top u
  have hu : u.tmp.window = s.tmp.window := foldl_keeps (g := fun t : State => t.tmp.window) latchSource_window m s
  split
  · exact hu
  · split
    · exact (respond_window u top).trans hu
    · split
      · exact hu
      · exact hu

section Undervoltage
variable {s : State} {src : Nat}

theorem execUndervoltageDelayExpiry_fires (hp : s.dev.power = true) (h2 : 2 ≤ src) (h7 : src ≤ 7) : execUndervoltageDelayExpiry src s =
    .next (fireSource { s with tmp := { s.tmp with raw := s.tmp.raw ||| 2 ^ src } } src) := if_pos ⟨hp, h2, h7⟩

theorem execUndervoltageDelayExpiry_off (hp : s.dev.power = false) : execUndervoltageDelayExpiry src s = .next s := if_neg (by simp [hp])

end Undervoltage

/-- The state after both cells have been sampled, before any source fires. -/
def sampled (s : State) (a b : Int) : State :=
  { s with tmp := { s.tmp with
    cellA := unsigned 16 a, cellB := unsigned 16 b, bandA := cellBand s a, bandB := cellBand s b
    runA := runOf s.tmp.bandA s.tmp.runA (cellBand s a), runB := runOf s.tmp.bandB s.tmp.runB (cellBand s b)
    raw := (s.tmp.raw &&& 0xFE07FF) ||| (if cellBand s a = 0 then 0 else 2 ^ bandSource 0 (cellBand s a)) |||
      (if cellBand s b = 0 then 0 else 2 ^ bandSource 1 (cellBand s b)) } }

/-- The sources that both cells fire at a sample: those of a band met twice in a row. -/
def bandFires (s : State) (a b : Int) : List (Nat × Nat) :=
  (if cellBand s a ≠ 0 ∧ runOf s.tmp.bandA s.tmp.runA (cellBand s a) = 2 then [(bandSource 0 (cellBand s a), unsigned 16 a)] else []) ++
  (if cellBand s b ≠ 0 ∧ runOf s.tmp.bandB s.tmp.runB (cellBand s b) = 2 then [(bandSource 1 (cellBand s b), unsigned 16 b)] else [])

/-- Outside a service window a sample fires what its bands say, and no more. -/
theorem execCellSample_noWindow {s : State} (a b : Int) (hw : s.tmp.window = 0) :
    execCellSample a b s = .next (fireSources (sampled s a b) (bandFires s a b)) := by
  have hf : (fireSources (sampled s a b) (bandFires s a b)).tmp.window = 0 := (fireSources_window _ _).trans hw
  have he : execCellSample a b s = .next (if ((fireSources (sampled s a b) (bandFires s a b)).tmp.window = 1 && cellBand s a = 0 &&
      decide (2 ≤ runOf s.tmp.bandA s.tmp.runA (cellBand s a)) || (fireSources (sampled s a b) (bandFires s a b)).tmp.window = 2 &&
      cellBand s b = 0 && decide (2 ≤ runOf s.tmp.bandB s.tmp.runB (cellBand s b))) && (fireSources (sampled s a b) (bandFires s a b)).tmp.removed
      then closeWindow (fireSources (sampled s a b) (bandFires s a b)) else fireSources (sampled s a b) (bandFires s a b)) := rfl
  rw [he]
  simp [hf]

/-- The state after the readings of a temperature sample, before any source fires. -/
def heated (s : State) (hot cold : Nat) (well : Int) : State :=
  { s with tmp := { s.tmp with
    hot := hot, cold := cold, raw := (s.tmp.raw &&& 0xFFFFFC) ||| b2n (decide (0 < hot)) ||| (2 * b2n (decide (0 < cold)))
    temp := unsigned 8 (well / 8) } }

section Temperature
variable {s : State} {hi lo : Int} (well : Int) (hp : s.dev.power = true) (hl : 8 * tempLow s ≤ lo)
include hp hl

/-- Readings within the limits count anew, and no source fires. -/
theorem execTemperatureReading_within (hh : hi ≤ 8 * tempHigh s) : execTemperatureReading hi lo well s = .next (heated s 0 0 well) := by
  simp only [execTemperatureReading, hp, if_true, if_neg (not_lt.mpr hh), if_neg (not_lt.mpr hl)]
  exact congrArg _ (fireSources_nil _)

/-- The second reading in a row above the limit fires source 0. -/
theorem execTemperatureReading_hot (hh : 8 * tempHigh s < hi) (h1 : s.tmp.hot = 1) : execTemperatureReading hi lo well s =
    .next (fireSources (heated s 2 0 well) [(0, unsigned 16 hi)]) := by
  simp only [execTemperatureReading, hp, if_true, if_pos hh, if_neg (not_lt.mpr hl), h1]
  rfl

end Temperature

/-- What a brown-out leaves of the Well and of the tamper monitor. -/
theorem execWellBrownOut_loses {s : State} (hp : s.dev.power = false) : ∃ t, execWellBrownOut s = .next t ∧ t.well = {} ∧ t.tmp.flags = 0 ∧
    t.tmp.log = [] ∧ t.fuses = s.fuses := by
  refine ⟨_, if_neg (by simp [hp]), ?_⟩
  rw [foldl_setReg_frame (fun a => a) resetVal]
  exact ⟨rfl, rfl, rfl, rfl⟩

/-- Settles O44: a source fires or does not, and each kind of reading fires its own source at its second sample in a row. -/
theorem tamperSources : Obligations.TamperSources := by
  refine ⟨?cycle, fun s src v h hp => fireSources_one v h hp, fun s src v h => fireSources_not v h, fun s src v => ⟨rfl, rfl, rfl, rfl⟩,
    fun s src hp h2 h7 => execUndervoltageDelayExpiry_fires hp h2 h7, fun s src hp => execUndervoltageDelayExpiry_off hp, ?good, ?bad, ?within, ?hot,
    fun s hp => if_pos hp, fun s hp => execWellBrownOut_loses hp⟩
  case cycle =>
    rintro s mask raw _ rfl
    rfl
  case good =>
    intro s a b ha hb hw
    have hf : bandFires s a b = [] := by simp [bandFires, ha, hb]
    refine ⟨sampled s a b, (execCellSample_noWindow a b hw).trans (by rw [hf, fireSources_nil]), ?_⟩
    simp only [sampled, ha, hb, if_true, Nat.or_zero]
  case bad =>
    intro s a b hb ha hs h1 hw
    have hr : runOf s.tmp.bandA s.tmp.runA (cellBand s a) = 2 := by simp [runOf, hs, h1]
    have hf : bandFires s a b = [(bandSource 0 (cellBand s a), unsigned 16 a)] := by simp [bandFires, ha, hb, hr]
    refine ⟨_, rfl, (execCellSample_noWindow a b hw).trans ?_⟩
    rw [hf]
    simp only [sampled, hb, if_true, if_neg ha, hr]
  case within => exact fun s hi lo well hp hh hl => ⟨_, execTemperatureReading_within well hp hl hh, rfl⟩
  case hot => exact fun s hi lo well hp hh hl h1 => ⟨_, rfl, execTemperatureReading_hot well hp hl hh h1⟩

/-! ### Commands (R419, R422, R425) -/

/-- A free status is one of those that may be. -/
theorem mem_freeStatus (s : State) {l : List Status} (h : l ≠ []) : (freeStatus s l).1 ∈ l := by
  have hi : Config.freeNat s.freeCtr % l.length < l.length := Nat.mod_lt _ (List.length_pos_iff.mpr h)
  rw [freeStatus, List.getD_eq_getElem _ _ hi]
  exact List.getElem_mem hi

section Command
variable {s : State} (hr : s.reachable = true) (hs : s.serves (blockOf R.TMP_CMD) = true)
include hr hs

/-- In Start and Halt a command that is not one of ZEROISE_ALL is DENIED (R419). -/
theorem tmpCommand_denied (k : State → State × Status) (hd : s.dev.state = .start ∨ s.dev.state = .halt) :
    tmpCommand false k s = .next (s.setFld R.TMP_STATUS F.TMP_STATUS_CMD_STATUS Status.denied.code) := by
  simp only [tmpCommand, State.access_served hr hs, Bool.not_false, true_and, if_pos hd]

theorem tmpCommand_runs {always : Bool} (k : State → State × Status) (hd : always = false → s.dev.state ≠ .start ∧ s.dev.state ≠ .halt) :
    tmpCommand always k s = .next ((k s).1.setFld R.TMP_STATUS F.TMP_STATUS_CMD_STATUS (k s).2.code) := by
  have hn : ¬((!always) = true ∧ (s.dev.state = .start ∨ s.dev.state = .halt)) := by
    rintro ⟨ha, h⟩
    have ⟨h1, h2⟩ := hd (by simpa using ha)
    exact h.elim h1 h2
  simp only [tmpCommand, State.access_served hr hs, if_neg hn]

theorem execTmpRelease_runs (hd : s.dev.state = .active ∨ s.dev.state = .standby ∨ s.dev.state = .maintenance) : execTmpRelease s = .next
    (if rawSevere s = true then s.setFld R.TMP_STATUS F.TMP_STATUS_CMD_STATUS Status.denied.code
     else if s.tmp.inForce < 3 then ({ s with tmp := { s.tmp with pendingLvl := 0 } }).setFld R.TMP_STATUS F.TMP_STATUS_CMD_STATUS Status.ok.code
     else (diagnose (portsAsAtStart { s with tmp := { s.tmp with inForce := 0, pendingLvl := 0 } }) 7 false).setFld R.TMP_STATUS
      F.TMP_STATUS_CMD_STATUS Status.ok.code) := by
  have hn : s.dev.state ≠ .start ∧ s.dev.state ≠ .halt := by rcases hd with h | h | h <;> simp [h]
  have hk : ¬(s.dev.state ≠ .active ∧ s.dev.state ≠ .standby ∧ s.dev.state ≠ .maintenance) := by tauto
  rw [execTmpRelease, tmpCommand_runs hr hs _ fun _ => hn]
  dsimp only
  simp only [hk, false_or]
  split_ifs <;> rfl

theorem execTmpZeroiseArm_arms : execTmpZeroiseArm s =
    .next ({ s with tmp := { s.tmp with armed := true } }.setFld R.TMP_STATUS F.TMP_STATUS_CMD_STATUS Status.ok.code) := by
  rw [execTmpZeroiseArm, tmpCommand_runs hr hs _ (by simp)]

/-- ZEROISE_ALL consumes an arm, and fires where it is not late. -/
theorem execTmpZeroiseAll_armed (late : Bool) (ha : s.tmp.armed = true) : execTmpZeroiseAll late s = .next
    (if late = true then { s with tmp := { s.tmp with armed := false } }.setFld R.TMP_STATUS F.TMP_STATUS_CMD_STATUS Status.expired.code
     else (fireSource { s with tmp := { s.tmp with armed := false } } 23).setFld R.TMP_STATUS F.TMP_STATUS_CMD_STATUS Status.ok.code) := by
  rw [execTmpZeroiseAll, tmpCommand_runs hr hs _ (by simp)]
  dsimp only
  rw [if_neg (by simp [ha])]
  split_ifs <;> rfl

theorem execTmpZeroiseAll_unarmed (late : Bool) (ha : s.tmp.armed = false) :
    execTmpZeroiseAll late s = .next (s.setFld R.TMP_STATUS F.TMP_STATUS_CMD_STATUS Status.denied.code) := by
  rw [execTmpZeroiseAll, tmpCommand_runs hr hs _ (by simp)]
  dsimp only
  rw [if_pos (by simp [ha])]

variable (h1 : s.dev.state ≠ .start) (h2 : s.dev.state ≠ .halt)
include h1 h2

/-- A service command outside Start and Halt is answered as `openWindow` says. -/
theorem service_answers {cell : Nat} {t : State} {st : Status} (ho : openWindow cell s = (t, st)) :
    tmpCommand false (openWindow cell) s = .next (t.setFld R.TMP_STATUS F.TMP_STATUS_CMD_STATUS st.code) := by
  rw [tmpCommand_runs hr hs _ fun _ => ⟨h1, h2⟩, ho]

theorem execTmpEndService_open (hw : s.tmp.window ≠ 0) :
    execTmpEndService s = .next ((closeWindow s).setFld R.TMP_STATUS F.TMP_STATUS_CMD_STATUS Status.ok.code) := by
  rw [execTmpEndService, tmpCommand_runs hr hs _ fun _ => ⟨h1, h2⟩]
  dsimp only
  rw [if_pos hw]

theorem execTmpEndService_none (hw : s.tmp.window = 0) : execTmpEndService s =
    .next (s.useFree.setFld R.TMP_STATUS F.TMP_STATUS_CMD_STATUS (freeStatus s [.ok, .denied, .invalid]).1.code) := by
  rw [execTmpEndService, tmpCommand_runs hr hs _ fun _ => ⟨h1, h2⟩]
  dsimp only
  rw [if_neg (by simp [hw])]
  rfl

end Command

section Window
variable {s : State}

theorem openWindow_busy {cell : Nat} (hw : s.tmp.window ≠ 0) : openWindow cell s = (s, .busy) := if_pos hw

variable (hw : s.tmp.window = 0) (h0 : 0 < s.fld R.TMP_WINDOW F.TMP_WINDOW_SECONDS) (hm : s.fld R.TMP_WINDOW F.TMP_WINDOW_SECONDS ≤ windowMax s)
include hw h0 hm

/-- A window opens on a cell while the other is good; its cell counts as removed where it already was (log entry 202). -/
theorem openWindow_opens {cell : Nat} (hc : cellLow s ≤ signed 16 (if cell = 1 then s.tmp.cellB else s.tmp.cellA)) : openWindow cell s =
    ({ s with tmp := { s.tmp with
      window := cell, windowSecs := s.fld R.TMP_WINDOW F.TMP_WINDOW_SECONDS
      removed := if cell = 1 then decide (s.tmp.bandA = 1 ∧ 2 ≤ s.tmp.runA) else decide (s.tmp.bandB = 1 ∧ 2 ≤ s.tmp.runB) } }, .ok) := by
  refine (if_neg (by simp [hw])).trans ((if_neg (not_lt.mpr hc)).trans (if_neg ?_))
  omega

end Window

theorem execTmpFlagsClear_served {s : State} (mask : Nat) (hr : s.reachable = true) (hs : s.serves (blockOf R.TMP_FLAGS) = true)
    (h1 : s.dev.state ≠ .start) (h2 : s.dev.state ≠ .halt) : execTmpFlagsClear mask s = .next
    { s with tmp := { s.tmp with
      flags := s.tmp.flags &&& (2 ^ 24 - 1 - mask % 2 ^ 24)
      max := if s.tmp.flags &&& (2 ^ 24 - 1 - mask % 2 ^ 24) = 0 then 0 else s.tmp.max } } :=
  congrArg Host.Outcome.next ((State.access_served hr hs).trans (if_neg (by simp [h1, h2])))

section Smbus
variable {s : State} (hp : s.dev.power = true)
include hp

theorem execSmbusZeroiseWrite_arms : execSmbusZeroiseWrite 0x5A true s = .next { s with tmp := { s.tmp with smbArmed := true } } :=
  (if_neg (by simp [hp])).trans (if_pos ⟨rfl, rfl⟩)

theorem execSmbusZeroiseWrite_fires (ha : s.tmp.smbArmed = true) :
    execSmbusZeroiseWrite 0xA5 true s = .next (fireSource { s with tmp := { s.tmp with smbArmed := false } } 21) :=
  (if_neg (by simp [hp])).trans ((if_neg (by decide)).trans (congrArg _ (if_pos ⟨rfl, rfl, ha⟩)))

theorem execSmbusZeroiseWrite_disarms {d : Nat} (ha : s.tmp.smbArmed = false ∨ d ≠ 0xA5) (hd : d ≠ 0x5A) :
    execSmbusZeroiseWrite d true s = .next { s with tmp := { s.tmp with smbArmed := false } } := by
  have hn : ¬(d = 0xA5 ∧ true = true ∧ s.tmp.smbArmed = true) := by
    rintro ⟨h, -, hs⟩
    rcases ha with ha | ha
    · simp [hs] at ha
    · exact ha h
  exact (if_neg (by simp [hp])).trans ((if_neg (by simp [hd])).trans (congrArg _ (if_neg hn)))

end Smbus

/-- Settles O46: the state decides first whether a command of the monitor is taken, and each then answers by its own checks. -/
theorem tamperCommands : Obligations.TamperCommands := by
  refine ⟨?denied, fun s hr hs hd => execTmpRelease_runs hr hs hd, ?service, ?ends, fun s => rfl, ?arm, ?zeroise,
    fun s late hr hs ha => execTmpZeroiseAll_unarmed hr hs late ha, ?flags, fun s hp => execSmbusZeroiseWrite_arms hp,
    fun s hp ha => execSmbusZeroiseWrite_fires hp ha, fun s d hp ha hd => execSmbusZeroiseWrite_disarms hp ha hd, fun s => rfl, ?page⟩
  case denied =>
    intro s c hr hs hd hc
    simp only [List.mem_cons, List.not_mem_nil, or_false] at hc
    rcases hc with rfl | rfl | rfl | rfl <;> exact tmpCommand_denied hr hs _ hd
  case service =>
    rintro s t _ hr hs h1 h2 hw rfl h0 hm
    refine ⟨?_, ?_⟩
    · rintro hc rfl
      exact service_answers hr hs h1 h2 (openWindow_opens hw h0 hm hc)
    · rintro hc rfl
      exact service_answers hr hs h1 h2 (openWindow_opens hw h0 hm hc)
  case ends =>
    intro s hr hs h1 h2
    refine ⟨fun hw => ⟨execTmpEndService_open hr hs h1 h2 hw, service_answers hr hs h1 h2 (openWindow_busy hw),
      service_answers hr hs h1 h2 (openWindow_busy hw)⟩, fun hw => ⟨_, mem_freeStatus s (by simp), execTmpEndService_none hr hs h1 h2 hw⟩⟩
  case arm => exact fun s hr hs => execTmpZeroiseArm_arms hr hs
  case zeroise =>
    rintro s late _ hr hs ha rfl
    exact execTmpZeroiseAll_armed hr hs late ha
  case flags => exact fun s mask hr hs h1 h2 => ⟨_, execTmpFlagsClear_served mask hr hs h1 h2, rfl, rfl, rfl⟩
  case page => exact fun s hp => congrArg Host.Outcome.next (if_pos hp)

end Sys2Proof.Machine
end

section
/-! The family of spec/13_keys_and_attestation.md and 14_public_key_engine.md: key updates, the key store's mailbox, and the jobs of the engine. -/

namespace Sys2Proof.Machine

/-! ### The mailbox (R388) -/

/-- Where the operation is served, an open mailbox runs it. -/
theorem kstCommand_runs {s : State} {served : List DevState} (h : KstOpen s) (hs : s.dev.state ∈ served) (k : State → State) :
    kstCommand served k s = .next (k s) := by
  obtain ⟨hr, -, hb, hbusy, hup⟩ := h
  rw [kstCommand, State.access_served hr hb, hbusy, hup]
  simp [hs]

theorem kstCommand_open {s : State} (h : KstOpen s) (k : State → State) : kstCommand kstStates k s = .next (k s) := kstCommand_runs h h.2.1 k

/-- ATTEST is served in two more states. -/
theorem kstCommand_attest {s : State} (h : KstOpen s) (k : State → State) : kstCommand (.minimal :: .halt :: kstStates) k s = .next (k s) :=
  kstCommand_runs h (.tail _ (.tail _ h.2.1)) k

/-- While an operation is under way another one is ignored. -/
theorem kstCommand_busy {s : State} {served : List DevState} (hr : s.reachable = true) (hs : s.serves (blockOf R.KST_CMD) = true)
    (hb : s.flag R.KST_STATUS F.KST_STATUS_BUSY = true) (k : State → State) : kstCommand served k s = .next s := by
  rw [kstCommand, State.access_served hr hs, if_pos hb]

/-! ### Key updates (R375 to R382) -/

theorem execKstUpdate_data {s : State} (h : KstOpen s) (b : List Byte) (f : List Bool) (l : Bool) :
    execKstUpdate (.data b) f l s = .next (match judgeMessage (messageAsked s) (s.reg R.KST_LEN).toNat b with
      | .error (step, detail, st) => updateEnd ((messageAsked s).count (.dev 11)) step detail st
      | .ok j => applyMessage (messageAsked s).useFree j (beAt b 67 5) f l) := by
  rw [execKstUpdate, kstCommand_open h]
  rfl

theorem execKstUpdate_error {s : State} (h : KstOpen s) (f : List Bool) (l : Bool) :
    execKstUpdate .error f l s = .next (updateEnd ((messageAsked s).useFree.count (.dev 11)) 1 0
      (freeStatus (messageAsked s) [.aborted, .invalid, .integrity]).1) := by
  rw [execKstUpdate, kstCommand_open h]
  rfl

theorem judgeMessage_length {len : Nat} {b : List Byte} (s : State) (h : len ≠ 9216 + beAt b 12 4) : judgeMessage s len b = .error (1, 0, .invalid) :=
  if_pos (.inl h)

/-- What an accepted message has passed: steps 1 to 6 of R382. -/
theorem judgeMessage_ok {s : State} {len : Nat} {b : List Byte} {j : Judged} (h : judgeMessage s len b = .ok j) :
    messageFormat len (slice b 0 len) = true ∧
    ownerSigned (slice b 0 len) (1784 + beAt b 12 4) (sha384 (slice (slice b 0 len) 0 (1784 + beAt b 12 4))) = true ∧
    s.fuses.exhausted = false ∧ slice (slice b 0 len) 16 48 = identityDigest ∧ beAt (slice b 0 len) 72 1 = s.epoch ∧
    ¬(beAt (slice b 0 len) 67 5 ≤ s.counterS ∨ s.epoch + 1 < beAt (slice b 0 len) 67 5 / 2 ^ 32) := by
  rw [judgeMessage] at h
  dsimp only at h
  split_ifs at h with hlen hfmt hsig hexh hid hep hctr
  refine ⟨?_, ?_, ?_, not_not.mp hid, not_not.mp hep, hctr⟩
  · simpa using hfmt
  · simpa using hsig
  · simpa using hexh

/-- What ends an update as exhausted: the three attempts on the epoch's fuse. -/
theorem blowEpoch_false {s t : State} {outs : List Bool} (h : blowEpoch s outs = (t, false)) : t.fuses.exhausted = true := by
  rw [blowEpoch] at h
  split at h
  split at h
  · cases congrArg Prod.snd h
  · cases h
    rfl

theorem commitCounter_same (s : State) (wc : Nat) (outs : List Bool) :
    commitCounter s s.epoch wc outs = ({ s with well := { s.well with w := wc } }, true) := by
  simp [commitCounter]

theorem commitCounter_false {s t : State} {ec wc : Nat} {outs : List Bool} (h : commitCounter s ec wc outs = (t, false)) :
    t.fuses.exhausted = true := by
  by_cases he : ec = s.epoch + 1
  · rw [commitCounter, if_pos he] at h
    cases hb : blowEpoch s outs with
    | mk u good =>
      rw [hb] at h
      cases good with
      | true => cases congrArg Prod.snd h
      | false =>
        cases h
        exact blowEpoch_false hb
  · rw [commitCounter, if_neg he] at h
    cases congrArg Prod.snd h

/-- Settles O41: a message's outcome is that of its judgement, and no check of R382 that fails lets it pass. -/
theorem keyUpdates : Obligations.KeyUpdates := by
  refine ⟨fun s b f l h => execKstUpdate_data h b f l, ?length, ?failedRead, ?rejects, ?commits, fun s t ec wc outs h => commitCounter_false h⟩
  case length =>
    intro s b f l h hlen
    refine (execKstUpdate_data h b f l).trans ?_
    rw [judgeMessage_length _ hlen]
  case failedRead =>
    intro s f l h
    exact ⟨_, (messageAsked s).useFree, mem_freeStatus _ (by simp), rfl, execKstUpdate_error h f l⟩
  case rejects =>
    rintro s len b _ j rfl hbad hok
    obtain ⟨hfmt, hsig, hexh, hid, hep, hctr⟩ := judgeMessage_ok hok
    rcases hbad with h | h | h | h | h | h | h
    · exact absurd h (by simp [hexh])
    · exact hctr (.inl h)
    · exact hctr (.inr h)
    · exact h hep
    · exact h hid
    · exact absurd h (by simp [hfmt])
    · exact absurd h (by simp [hsig])
  case commits =>
    intro s t wc outs h
    rw [commitCounter_same] at h
    cases h
    rfl

/-! ### The key store's operations (R366 to R389) -/

theorem execKstAttest_runs {s : State} (h : KstOpen s) (hl : 11312 ≤ (s.reg R.KST_LEN).toNat) (ha : kstAddr s % 8 = 0) :
    execKstAttest s = .next (if !s.ident.alias_ ∨ s.drbgDown then kstEnd s 0 0 .aborted else kstOutput s.useFree (statement s)) := by
  rw [execKstAttest, kstCommand_attest h, if_neg (by omega)]

/-- With local generation permitted and the request well formed, the key is made with the generator's bytes. -/
theorem execKstGenerate_makes {s : State} {n : Nat} (logOk : Bool) (h : KstOpen s) (hp : bit s.localOps 0 = true) (hh : handleStatus (argHandle s) = .ok)
    (ht : s.fld R.KST_ARG_1 F.KST_ARG_1_TYPE ≠ 0x20) (hd : destOk (s.fld R.KST_ARG_1 F.KST_ARG_1_TYPE) (s.fld R.KST_ARG_1 F.KST_ARG_1_DEST) = true)
    (hm : materialSize s (s.fld R.KST_ARG_1 F.KST_ARG_1_TYPE) (s.fld R.KST_ARG_1 F.KST_ARG_1_PARAM) = .ok n)
    (hf : s.flag R.KST_ARG_1 F.KST_ARG_1_PERSIST = false) (ho : s.ownerKey (argHandle s) = none) (hg : s.drbgDown = false) :
    execKstGenerate logOk s = .next (kstEnd (s.useFree.setOwner (argHandle s)
      { typ := s.fld R.KST_ARG_1 F.KST_ARG_1_TYPE, dest := s.fld R.KST_ARG_1 F.KST_ARG_1_DEST, param := s.fld R.KST_ARG_1 F.KST_ARG_1_PARAM,
        gen := 1, origin := 1, persist := false,
        material := drawMaterial s (s.fld R.KST_ARG_1 F.KST_ARG_1_TYPE) (s.fld R.KST_ARG_1 F.KST_ARG_1_PARAM) n }) 0 0 .ok) := by
  rw [execKstGenerate, kstCommand_open h]
  simp [hp, hh, ht, hd, hm, hf, ho, hg, tryBatch]

theorem execKstGenerate_denied {s : State} (logOk : Bool) (h : KstOpen s) (hp : bit s.localOps 0 = false) :
    execKstGenerate logOk s = .next (kstEnd s 0 0 .denied) := by
  rw [execKstGenerate, kstCommand_open h]
  simp [hp]

theorem execKstDelete_denied {s : State} (logOk : Bool) (h : KstOpen s) (hp : bit s.localOps 1 = false) :
    execKstDelete logOk s = .next (kstEnd s 0 0 .denied) := by
  rw [execKstDelete, kstCommand_open h]
  simp [hp]

theorem execKstDelete_inUse {s : State} {k : OwnerKey} (logOk : Bool) (h : KstOpen s) (hp : bit s.localOps 1 = true)
    (hh : handleStatus (argHandle s) = .ok) (ho : s.ownerKey (argHandle s) = some k) (hu : inUse s (argHandle s) = true) :
    execKstDelete logOk s = .next (kstEnd s 0 0 .denied) := by
  rw [execKstDelete, kstCommand_open h]
  simp [hp, hh, ho, hu]

/-- A key that nothing uses and that is not persisted is removed. -/
theorem execKstDelete_removes {s : State} {k : OwnerKey} (logOk : Bool) (h : KstOpen s) (hp : bit s.localOps 1 = true)
    (hh : handleStatus (argHandle s) = .ok) (ho : s.ownerKey (argHandle s) = some k) (hu : inUse s (argHandle s) = false)
    (hj : ∀ e ∈ s.pke.jobs, e.2.ended = none → e.2.handle ≠ argHandle s) (hk : k.persist = false) :
    execKstDelete logOk s = .next (kstEnd (s.setOwner (argHandle s) {}) 0 0 .ok) := by
  have hnone : s.pke.jobs.any (fun e => e.2.ended.isNone && e.2.handle = argHandle s) = false := by
    simpa using fun a b he hn => hj (a, b) he hn
  rw [execKstDelete, kstCommand_open h]
  dsimp only
  rw [hnone]
  simp [hp, hh, ho, hu, hk, tryBatch]

theorem ownerKey_removed (s : State) (h : Nat) : (s.setOwner h {}).ownerKey h = none := by
  simp [State.ownerKey, State.setOwner]

/-- Settles O42: each operation of the mailbox, and the random generator. -/
theorem keyStoreOperations : Obligations.KeyStoreOperations := by
  refine ⟨?attest, ?short, ?agree, ?info, ?noInfo, ?generate, fun s l h hp => execKstGenerate_denied l h hp, fun s l h hp => execKstDelete_denied l h hp,
    fun s l k h hp hh ho hu => execKstDelete_inUse l h hp hh ho hu,
    fun s l k h hp hh ho hu hj hk => ⟨execKstDelete_removes l h hp hh ho hu hj hk, ownerKey_removed s _⟩, ?busy,
    fun s hd => congrArg Host.Outcome.next (if_neg (by simp [hd])), fun s hd => congrArg Host.Outcome.next (if_pos hd),
    fun s hp => if_pos hp, fun s => rfl, ?down⟩
  case attest =>
    intro s h hl ha hid hg
    refine (execKstAttest_runs h hl ha).trans (congrArg Host.Outcome.next (if_neg ?_))
    simp [hid, hg]
  case down =>
    intro s h hl ha hg
    exact (execKstAttest_runs h hl ha).trans (congrArg Host.Outcome.next (if_pos (.inr hg)))
  case short =>
    intro s h hl
    exact (kstCommand_attest h _).trans (congrArg Host.Outcome.next (if_pos (.inl hl)))
  case agree =>
    intro s h hl ha hid
    refine (kstCommand_open h _).trans (congrArg Host.Outcome.next ?_)
    rw [if_neg (by omega), if_neg (by simp [hid])]
  case info =>
    intro s k h hh ho
    refine (kstCommand_open h _).trans (congrArg Host.Outcome.next ?_)
    simp [hh, ho]
  case noInfo =>
    intro s h hh ho
    refine (kstCommand_open h _).trans (congrArg Host.Outcome.next ?_)
    simp [hh, ho]
  case generate =>
    rintro s l n k h hp hh rfl ht hd hm hf ho hg
    exact execKstGenerate_makes l h hp hh ht hd hm hf ho hg
  case busy =>
    intro s c hr _ hs hb hc
    simp only [List.mem_cons, List.not_mem_nil, or_false] at hc
    rcases hc with rfl | rfl | rfl | rfl | rfl <;> exact kstCommand_busy hr hs hb _

/-! ### The public-key engine: submission and abort (R397, R407) -/

theorem execPkeSubmit_unaligned {s : State} (d l : HostRead) (hr : s.reachable = true) (hs : s.serves (blockOf R.PKE_CMD) = true)
    (ha : s.reg64 R.PKE_DESC_LO R.PKE_DESC_HI % 8 ≠ 0) : execPkeSubmit d l s = .next (pkeStatus s .invalid) := by
  rw [execPkeSubmit, State.access_served hr hs]
  exact congrArg Host.Outcome.next (if_pos ha)

/-- A failed read ends a submission with a status that is free, on the state that has used it up. -/
def readFailed (s : State) : State := pkeStatus s.useFree (freeStatus s [.aborted, .invalid, .integrity]).1

theorem execPkeSubmit_noDesc {s : State} (l : HostRead) (hr : s.reachable = true) (hs : s.serves (blockOf R.PKE_CMD) = true)
    (ha : s.reg64 R.PKE_DESC_LO R.PKE_DESC_HI % 8 = 0) :
    execPkeSubmit .error l s = .next (readFailed (s.emit (s.dmaRead .pf (s.reg64 R.PKE_DESC_LO R.PKE_DESC_HI) 64))) := by
  rw [execPkeSubmit, State.access_served hr hs]
  exact congrArg Host.Outcome.next (if_neg (not_not.mpr ha))

theorem execPkeSubmit_noInput {s : State} (d : List Byte) (hr : s.reachable = true) (hs : s.serves (blockOf R.PKE_CMD) = true)
    (ha : s.reg64 R.PKE_DESC_LO R.PKE_DESC_HI % 8 = 0) :
    execPkeSubmit (.data d) .error s = .next (readFailed (descriptorAsked s (slice d 0 64))) := by
  rw [execPkeSubmit, State.access_served hr hs]
  exact congrArg Host.Outcome.next (if_neg (not_not.mpr ha))

/-- A job queued under the first free ID from a free value on. -/
def queued (v : State) (j : PkeJob) : State :=
  let id := freeJobId v.useFree (v.free 256).1 256
  pkeStatus ((v.useFree.modPke (fun p => { p with jobs := kset {} p.jobs id j, order := p.order + 1 })).setFld R.PKE_CMD_STATUS F.PKE_CMD_STATUS_JOB id) .ok

theorem execPkeSubmit_read {s : State} (d l : List Byte) (hr : s.reachable = true) (hs : s.serves (blockOf R.PKE_CMD) = true)
    (ha : s.reg64 R.PKE_DESC_LO R.PKE_DESC_HI % 8 = 0) :
    execPkeSubmit (.data d) (.data l) s = .next (match judgeDesc (descriptorAsked s (slice d 0 64)) (slice d 0 64) l with
      | .error e => pkeStatus (descriptorAsked s (slice d 0 64)) e
      | .ok j => queued (descriptorAsked s (slice d 0 64)) j) := by
  rw [execPkeSubmit, State.access_served hr hs]
  exact congrArg Host.Outcome.next (if_neg (not_not.mpr ha))

/-- The reads of a submission change nothing but what has been sent out. -/
theorem descriptorAsked_frame (s : State) (d : List Byte) : descriptorAsked s d = { s with out := (descriptorAsked s d).out } := by
  unfold descriptorAsked
  dsimp only
  split <;> rfl

theorem execPkeAbort_known {s : State} {id : Nat} (hr : s.reachable = true) (hs : s.serves (blockOf R.PKE_CMD) = true) (hj : s.pkeJob id ≠ {})
    (he : (s.pkeJob id).ended = none) : execPkeAbort id s = .next (if s.pke.run = some id
      then pkeStatus (s.modPke (fun p => { p with jobs := kset {} p.jobs id { s.pkeJob id with aborting := true } })) .ok
      else pkeStatus (abortPke s id) .ok) := by
  rw [execPkeAbort, State.access_served hr hs]
  exact congrArg Host.Outcome.next (if_neg (by simp [hj, he]))

theorem execPkeAbort_unknown {s : State} {id : Nat} (hr : s.reachable = true) (hs : s.serves (blockOf R.PKE_CMD) = true) (hj : s.pkeJob id = {}) :
    execPkeAbort id s = .next (pkeStatus s .notFound) := by
  rw [execPkeAbort, State.access_served hr hs]
  exact congrArg Host.Outcome.next (if_pos (.inl hj))

/-! ### The order of the jobs (R405) -/

/-- One job more is weighed against the first so far. -/
def pkePick (r : Option (Nat × PkeJob)) (e : Nat × PkeJob) : Option (Nat × PkeJob) :=
  match r with
  | none => some e
  | some x => if pkeBefore e.2 x.2 then some e else some x

theorem pkeFirst_eq (l : List (Nat × PkeJob)) : pkeFirst l = l.foldl pkePick none := rfl

/-- A job that does not come before another one has no better priority. -/
theorem prio_le_of_not_before {a b : PkeJob} (h : pkeBefore a b = false) : b.prio ≤ a.prio := by
  simp only [pkeBefore, Bool.or_eq_false_iff, decide_eq_false_iff_not] at h
  omega

/-- A job that comes before another one has a priority as good. -/
theorem prio_le_of_before {a b : PkeJob} (h : pkeBefore a b = true) : a.prio ≤ b.prio := by
  simp only [pkeBefore, Bool.or_eq_true, Bool.and_eq_true, decide_eq_true_eq] at h
  omega

/-- Weighed against `x`, a list gives one of its jobs or `x`, with the best priority of all. -/
theorem foldl_pkePick {l : List (Nat × PkeJob)} {x e : Nat × PkeJob} (h : l.foldl pkePick (some x) = some e) :
    (e = x ∨ e ∈ l) ∧ e.2.prio ≤ x.2.prio ∧ ∀ y ∈ l, e.2.prio ≤ y.2.prio := by
  induction l generalizing x with
  | nil =>
    cases h
    simp
  | cons y r ih =>
    rw [List.foldl_cons] at h
    cases hb : pkeBefore y.2 x.2 with
    | true =>
      rw [pkePick, if_pos hb] at h
      obtain ⟨hm, hy, hr⟩ := ih h
      refine ⟨.inr (List.mem_cons.mpr hm), hy.trans (prio_le_of_before hb), fun z hz => ?_⟩
      rcases List.mem_cons.mp hz with rfl | hz
      · exact hy
      · exact hr z hz
    | false =>
      rw [pkePick, if_neg (by simp [hb])] at h
      obtain ⟨hm, hx, hr⟩ := ih h
      refine ⟨hm.imp_right (.tail _), hx, fun z hz => ?_⟩
      rcases List.mem_cons.mp hz with rfl | hz
      · exact hx.trans (prio_le_of_not_before hb)
      · exact hr z hz

theorem pkeFirst_best {l : List (Nat × PkeJob)} {e : Nat × PkeJob} (h : pkeFirst l = some e) : e ∈ l ∧ ∀ x ∈ l, e.2.prio ≤ x.2.prio := by
  rw [pkeFirst_eq] at h
  cases l with
  | nil => cases h
  | cons y r =>
    obtain ⟨hm, hy, hr⟩ := foldl_pkePick h
    refine ⟨List.mem_cons.mpr hm, fun x hx => ?_⟩
    rcases List.mem_cons.mp hx with rfl | hx
    · exact hy
    · exact hr x hx

theorem execPkeJobStart_starts {s : State} {i : Nat} {e : Nat × PkeJob} (hr : s.pke.run = none) (hi : i < dutyIntervals s)
    (hf : pkeFirst (pkeWaiting s) = some e) : execPkeJobStart i s = .next ((runPke s e.1).modPke (fun p => { p with paused := false })) := by
  rw [execPkeJobStart, if_neg (by simp [hr, hi]), hf]

/-! ### Checkpoints and ends (R399, R402 to R407) -/

/-- The running job has executed one interval more; the next one may be idle. -/
def checked (s : State) (i id : Nat) : State :=
  s.modPke (fun p => { p with jobs := kset {} p.jobs id { s.pkeJob id with ran := (s.pkeJob id).ran + 1 }, paused := decide (dutyIntervals s ≤ i) })

/-- Where nothing waited, nothing waits at the running job's checkpoint. -/
theorem checked_waiting {s : State} {i id : Nat} (hr : s.pke.run = some id) (hw : pkeWaiting s = []) : pkeWaiting (checked s i id) = [] := by
  rw [pkeWaiting, List.filter_eq_nil_iff] at hw ⊢
  intro e he hc
  have hrun : (checked s i id).pke.run = some id := hr
  rw [hrun] at hc
  rcases mem_kset he with rfl | hm
  · simp at hc
  · exact hw e hm (by rwa [hr])

theorem execPkeCheckpoint_aborting {s : State} {i id : Nat} (hr : s.pke.run = some id) (hs : pkeStill s = false)
    (hc : reachesCheckpoint s (s.pkeJob id) = true) (ha : (s.pkeJob id).aborting = true) : execPkeCheckpoint i s = .next (abortPke s id) := by
  rw [execPkeCheckpoint, hr]
  dsimp only
  rw [if_neg (by simp [hs, hc]), if_pos ha]

theorem execPkeCheckpoint_alone {s : State} {i id : Nat} (hr : s.pke.run = some id) (hs : pkeStill s = false)
    (hc : reachesCheckpoint s (s.pkeJob id) = true) (ha : (s.pkeJob id).aborting = false) (hw : pkeWaiting s = []) :
    execPkeCheckpoint i s = .next (checked s i id) := by
  have hnone : pkeWaiting (checked s i id) = [] := checked_waiting hr hw
  rw [execPkeCheckpoint, hr]
  dsimp only
  rw [if_neg (by simp [hs, hc]), if_neg (by simp [ha])]
  rw [checked] at hnone
  rw [hnone]
  split
  · rfl
  · rfl

theorem execPkeJobEnd_aborting {s : State} {id : Nat} (ex w : Nat) (fault : Bool) (hr : s.pke.run = some id) (hs : pkeStill s = false)
    (ha : (s.pkeJob id).aborting = true) : execPkeJobEnd ex w fault s = .next (abortPke s id) := by
  rw [execPkeJobEnd, hr]
  dsimp only
  rw [if_neg (by simp [hs]), if_pos ha]

theorem execPkeJobEnd_noRandom {s : State} {id : Nat} (ex w : Nat) (fault : Bool) (hr : s.pke.run = some id) (hs : pkeStill s = false)
    (ha : (s.pkeJob id).aborting = false) (ho : opRandom (s.pkeJob id).op = true) (hg : s.drbgDown = true) :
    execPkeJobEnd ex w fault s = .next (endPke (s.alarm R.PKE_ALARM F.PKE_ALARM_RANDOM) id
      { status := .aborted, detail := 0, result := [], exec := ex, wait := w }) := by
  rw [execPkeJobEnd, hr]
  dsimp only
  rw [if_neg (by simp [hs]), if_neg (by simp [ha]), if_pos ⟨ho, hg⟩]

/-- The job's result ends it, or a fault of its check does. -/
theorem execPkeJobEnd_result {s t : State} {id n : Nat} {st : Status} {r : List Byte} (ex w : Nat) (fault : Bool) (hr : s.pke.run = some id)
    (hs : pkeStill s = false) (ha : (s.pkeJob id).aborting = false) (hg : opRandom (s.pkeJob id).op = true → s.drbgDown = false)
    (hj : jobResult s id (s.pkeJob id) = (t, st, n, r)) :
    execPkeJobEnd ex w fault s = .next (if fault = true ∧ opChecked (s.pkeJob id).op = true ∧ st = .ok
      then endPke (State.alarm { t with freeCtr := t.freeCtr + 200 } R.PKE_ALARM F.PKE_ALARM_FAULT) id
        { status := .integrity, detail := 0, result := [], exec := ex, wait := w }
      else endPke { t with freeCtr := t.freeCtr + 200 } id { status := st, detail := n, result := r, exec := ex, wait := w }) := by
  rw [execPkeJobEnd, hr]
  dsimp only
  rw [if_neg (by simp [hs]), if_neg (by simp [ha]), if_neg (fun h => by simp [hg h.1] at h), hj]
  dsimp only
  split <;> rfl

/-- Settles O43: submission, abort, the order, the checkpoints and the ends of jobs. -/
theorem publicKeyJobs : Obligations.PublicKeyJobs := by
  refine ⟨?queues, ?refuses, ?reads, fun s d l hr hs ha => execPkeSubmit_unaligned d l hr hs ha,
    fun s id hr hs hj he => execPkeAbort_known hr hs hj he, fun s id hr hs hj => execPkeAbort_unknown hr hs hj,
    fun s i e hr hi hf => execPkeJobStart_starts hr hi hf, fun s i h => if_pos h, fun l e h => pkeFirst_best h,
    fun s i id hr hs hc ha => execPkeCheckpoint_aborting hr hs hc ha, ?checkpoint,
    fun s ex w fault id hr hs ha => execPkeJobEnd_aborting ex w fault hr hs ha,
    fun s ex w fault id hr hs ha ho hg => execPkeJobEnd_noRandom ex w fault hr hs ha ho hg, ?ends, fun s => rfl⟩
  case queues =>
    intro s d l j hr hs ha hj
    refine ⟨_, _, _, rfl, rfl, rfl, (execPkeSubmit_read d l hr hs ha).trans ?_⟩
    rw [hj]
    rfl
  case refuses =>
    intro s d l e hr hs ha hj
    refine (execPkeSubmit_read d l hr hs ha).trans ?_
    rw [hj]
  case reads =>
    intro s d l hr hs ha hread
    cases d with
    | error => exact ⟨_, _, mem_freeStatus _ (by simp), rfl, execPkeSubmit_noDesc l hr hs ha⟩
    | data d =>
      obtain rfl : l = .error := hread.resolve_left nofun
      refine ⟨_, (descriptorAsked s (slice d 0 64)).useFree, mem_freeStatus _ (by simp), ?_, execPkeSubmit_noInput d hr hs ha⟩
      rw [descriptorAsked_frame]
      rfl
  case checkpoint =>
    intro s i id hr hs hc ha hw
    exact ⟨_, execPkeCheckpoint_alone hr hs hc ha hw, kget_kset_same _ _ _ _, rfl, rfl⟩
  case ends =>
    rintro s ex w id t st n r _ hr hs ha hg hj rfl
    refine ⟨(execPkeJobEnd_result ex w false hr hs ha hg hj).trans (congrArg Host.Outcome.next (if_neg nofun)),
      (execPkeJobEnd_result ex w true hr hs ha hg hj).trans ?_⟩
    simp only [true_and]

end Sys2Proof.Machine
end

section
/-! The family of spec/16_pair_and_aqueduct.md: roles, training, and traffic of the Aqueduct. -/

namespace Sys2Proof.Machine

@[simp] theorem State.alarm_pair (s : State) (a : Nat) (f : Fld) : (s.alarm a f).pair = s.pair := by rw [State.alarm_frame]

@[simp] theorem State.count_pair (s : State) (c : Ctr) : (s.count c).pair = s.pair := by rw [State.count_frame]

/-! ### Training of the Aqueduct (R430 to R434) -/

/-- Fresh coders take free values alone. -/
theorem newLine_frame (s : State) (n : Nat) : (newLine s n).2 = { s with freeCtr := (newLine s n).2.freeCtr } := by
  induction n generalizing s with
  | zero => rfl
  | succ n ih => exact (ih (s.free (2 ^ 58)).2).trans rfl

/-- The link at its deskew lock: CONFIG begins under a nonce that has just been drawn. -/
def configBegun (s : State) : State :=
  s.modPair (fun p => { p with train := .config, nonce := s.freeBytes 32, agreeing := 0, lastConfig := [], lanes := 2 ^ aqdLanes s - 1 })

/-- Its lanes have fresh coders. -/
def linesBegun (s : State) : State := (newLine (configBegun s).useFree (aqdLanes s)).2.modPair
  (fun p => { p with line := (newLine (configBegun s).useFree (aqdLanes s)).1, place := 0 })

theorem execAqdDeskewLock_config {s : State} (h : s.pair.train = .deskew) :
    execAqdDeskewLock s = .next (sendLink (linesBegun s) (configFrame (newLine (configBegun s).useFree (aqdLanes s)).2)) := by
  rw [execAqdDeskewLock, if_pos h]
  rfl

theorem linesBegun_nonce (s : State) : (linesBegun s).pair.nonce = s.freeBytes 32 := by
  rw [linesBegun, newLine_frame]
  rfl

theorem linesBegun_regs (s : State) : (linesBegun s).regs = s.regs := by
  rw [linesBegun, newLine_frame]
  rfl

/-- The shape of a CONFIG frame that both devices can use. -/
def ConfigFits (s : State) (f : List Byte) : Prop :=
  beAt f 0 4 = 0xA9C35E17 ∧ beAt f 4 1 = 2 ∧
  beAt (slice f 24 224) 80 1 = s.fld R.AQD_CFG F.AQD_CFG_WIDTH ∧ beAt (slice f 24 224) 81 1 = s.fld R.AQD_CFG F.AQD_CFG_CODING

theorem execConfigFrameReceive_stranger {s : State} {f : List Byte} (ht : s.pair.train = .config) (hf : ConfigFits s f)
    (hid : slice (slice f 24 224) 0 48 ≠ slice s.pair.partnerId 0 48) :
    execConfigFrameReceive f s = .next (setTrain (s.alarm R.AQD_ALARM F.AQD_ALARM_ID_MISMATCH) .failed) := by
  obtain ⟨hm, hk, hw, hc⟩ := hf
  rw [execConfigFrameReceive]
  dsimp only
  rw [if_neg (by simp [ht, hm, hk])]
  simp [hw, hc, hid]

/-- The first CONFIG frame of three is taken in. -/
def configTaken (s : State) (c : List Byte) : State :=
  s.modPair (fun p => { p with agreeing := 1, lastConfig := c, peerId := slice c 0 48, peerNonce := slice c 48 32, peerPrefer := beAt c 82 1, peerState := beAt c 83 1 })

theorem execConfigFrameReceive_first {s : State} {f : List Byte} (ht : s.pair.train = .config) (hf : ConfigFits s f)
    (hid : slice (slice f 24 224) 0 48 = slice s.pair.partnerId 0 48) (hnew : slice f 24 224 ≠ s.pair.lastConfig) :
    execConfigFrameReceive f s = .next (configTaken s (slice f 24 224)) := by
  obtain ⟨hm, hk, hw, hc⟩ := hf
  rw [execConfigFrameReceive]
  dsimp only
  rw [if_neg (by simp [ht, hm, hk]), if_neg (by simp [hw, hc, hid]), if_neg hnew]
  exact if_pos (by decide)

theorem execAuthFrameReceive_judged {s : State} {f : List Byte} (rtt : Nat) (ht : s.pair.train = .auth) (hk : beAt f 4 1 = 3) :
    execAuthFrameReceive f rtt s = .next (if tagOk s f = true then linkCameUp s (rtt % 65536)
      else setTrain (s.alarm R.AQD_ALARM F.AQD_ALARM_AUTH_FAIL) .failed) := by
  rw [execAuthFrameReceive, if_neg (by simp [ht, hk])]
  split <;> rfl

/-- A new session of a link that has come up. -/
def newSession (s : State) (rtt : Nat) : State :=
  s.modPair (fun p => { p with
    train := .up, seqTx := 1, tagFails := 0, base := 0, queue := [], sent := 0, expected := 0, rtt := rtt, detached := false, wasDetached := false
    peerRole := 0 })

/-- An Active device whose partner is no standby has nothing to resynchronise. -/
theorem linkCameUp_active {s : State} (rtt : Nat) (ha : s.dev.state = .active) (hp : s.pair.peerState ≠ 5) : linkCameUp s rtt = newSession s rtt := by
  have hd : (newSession s rtt).dev.state = .active := ha
  have hq : (newSession s rtt).pair.peerState ≠ 5 := hp
  rw [newSession] at hd hq
  rw [linkCameUp, if_neg (by simp [hd]), if_neg (fun h => hq h.2), if_neg (by simp [hd])]
  rfl

/-- Settles O48: the states of training in their order, what ends them, and where they begin again. -/
theorem aqueductTraining : Obligations.AqueductTraining := by
  refine ⟨fun s h => congrArg Host.Outcome.next (if_pos h), fun s h => ⟨_, _, _, _, rfl, rfl, rfl, execAqdDeskewLock_config h, linesBegun_nonce s, linesBegun_regs s⟩,
    fun s f ht hm hk hw hc hid => execConfigFrameReceive_stranger ht ⟨hm, hk, hw, hc⟩ hid,
    fun s f ht hm hk hw hc hid hnew => ⟨_, execConfigFrameReceive_first ht ⟨hm, hk, hw, hc⟩ hid hnew, rfl, rfl, rfl, rfl⟩,
    fun s f rtt ht hk => execAuthFrameReceive_judged rtt ht hk, ?up, fun s h => congrArg Host.Outcome.next (if_pos h),
    fun s h => congrArg Host.Outcome.next (if_pos h), fun s h => congrArg Host.Outcome.next (if_pos h), fun s => ⟨rfl, rfl, rfl, rfl⟩⟩
  case up =>
    intro s rtt ha hp
    rw [linkCameUp_active rtt ha hp]
    exact ⟨rfl, rfl, rfl, rfl⟩

/-! ### Traffic of the Aqueduct (R432 to R437) -/

theorem execDataFrameReceive_up {s : State} {f : List Byte} (hu : s.linkUp = true) (hm : beAt f 0 4 = 0xA9C35E17) (hk : beAt f 4 1 = 1) :
    execDataFrameReceive f s = .next (if tagOk s f = true
      then receiveRecords (takeAck (s.modPair (fun p => { p with tagFails := 0 })) (beAt f 20 4)) f else tagFailed s) := by
  rw [execDataFrameReceive, if_neg (by simp [hu, hm, hk])]
  by_cases ht : tagOk s f = true
  · rw [if_neg (by simp [ht]), if_pos ht]
  · rw [if_pos (by simp [ht]), if_neg ht]

theorem execDataFrameReceive_down {s : State} (f : List Byte) (hu : s.linkUp = false) : execDataFrameReceive f s = .next s :=
  if_pos (.inl (by simp [hu]))

/-- A frame that does not verify is counted, with its alarm. -/
def tagMissed (s : State) : State := (s.count (.dev 4)).alarm R.AQD_ALARM F.AQD_ALARM_FRAME_TAG

theorem tagMissed_pair (s : State) : (tagMissed s).pair = s.pair := by rw [tagMissed, State.alarm_pair, State.count_pair]

theorem tagFailed_eq (s : State) : tagFailed s =
    if 8 ≤ (tagMissed s).pair.tagFails + 1 then linkDown (tagMissed s)
    else (tagMissed s).modPair (fun p => { p with tagFails := p.tagFails + 1 }) := rfl

theorem tagFailed_few {s : State} (h : s.pair.tagFails < 7) : (tagFailed s).pair = { s.pair with tagFails := s.pair.tagFails + 1 } := by
  rw [tagFailed_eq, tagMissed_pair, if_neg (by omega), State.modPair, tagMissed_pair]

theorem tagFailed_eighth {s : State} (h : 7 ≤ s.pair.tagFails) : tagFailed s = linkDown (tagMissed s) := by
  rw [tagFailed_eq, tagMissed_pair, if_pos (by omega)]

/-- Records of another position than the one expected change no association and nothing of the link. -/
theorem receiveRecords_other {s : State} {f : List Byte} (h : beAt f 16 4 ≠ s.pair.expected) :
    (receiveRecords s f).pair = s.pair ∧ (receiveRecords s f).txAssocs = s.txAssocs ∧ (receiveRecords s f).rxAssocs = s.rxAssocs := by
  rw [receiveRecords]
  dsimp only
  rw [if_neg h]
  split
  · rw [State.alarm_frame]
    exact ⟨rfl, rfl, rfl⟩
  · exact ⟨rfl, rfl, rfl⟩

theorem aqdCommand_served {s : State} (hr : s.reachable = true) (hs : s.serves (blockOf R.AQD_CMD) = true) (k : State → State × Status) :
    aqdCommand k s = .next ((k s).1.setFld R.AQD_CMDST F.AQD_CMDST_STATUS (k s).2.code) := by
  rw [aqdCommand, State.access_served hr hs]

/-- A command of the link whose outcome is known answers with it. -/
theorem aqdCommand_answers {s t : State} {st : Status} {k : State → State × Status} (hr : s.reachable = true) (hs : s.serves (blockOf R.AQD_CMD) = true)
    (hk : k s = (t, st)) : aqdCommand k s = .next (t.setFld R.AQD_CMDST F.AQD_CMDST_STATUS st.code) := by
  rw [aqdCommand_served hr hs, hk]

/-- Settles O49: what a DATA frame does, what is sent again, heartbeats, and the low-power states. -/
theorem aqueductTraffic : Obligations.AqueductTraffic := by
  refine ⟨fun s f hu hm hk => execDataFrameReceive_up hu hm hk, fun s f hu => execDataFrameReceive_down f hu, fun s h => tagFailed_few h,
    fun s h => ⟨_, rfl, tagFailed_eighth h⟩, fun s f h => receiveRecords_other h, fun s hu hn => if_pos ⟨hu, hn⟩,
    fun s hp hu => ⟨_, _, rfl, rfl, if_pos ⟨hp, hu⟩⟩, ?commands, fun s h => congrArg Host.Outcome.next (if_pos h), ?sleep,
    fun s h => congrArg Host.Outcome.next (if_pos h), fun s h => congrArg Host.Outcome.next (if_pos h)⟩
  case commands =>
    intro s hr hs
    refine ⟨fun ht hw h1 h2 h3 h4 => ?deep, fun ht => ?noDeep, fun ht => ?wake, fun ht => ?noWake⟩
    case deep =>
      refine aqdCommand_answers hr hs (if_neg ?_)
      simp [ht, h1, h2, h3, h4]
      omega
    case noDeep => exact aqdCommand_answers hr hs (if_pos (.inl ht))
    case wake => exact aqdCommand_answers hr hs (if_pos ht)
    case noWake => exact ⟨_, mem_freeStatus s (by simp), aqdCommand_answers hr hs (if_neg ht)⟩
  case sleep =>
    intro s hu hw he
    have hon : ¬((!s.linkUp) = true ∨ s.fld R.AQD_CFG F.AQD_CFG_WIDTH ≠ 2 ∨ (!s.flag R.AQD_CFG F.AQD_CFG_SLEEP_EN) = true) := by simp [hu, hw, he]
    exact ⟨(if_neg hon).trans (if_pos rfl), fun hq => (if_neg hon).trans ((if_neg nofun).trans (congrArg Host.Outcome.next (if_pos hq)))⟩

/-! ### Giving up (R443, R444) -/

/-- What the end of giving up is about: that the device gives up, and that its `ACTIVE` is low. -/
def Pair.leaving (p : Pair) : Bool × Bool := (p.givingUp, p.activeOut)

theorem sendBlock_leaving (w : Nat) (x : Pair × List (List Bool)) (b : Bool × List Byte) : (sendBlock w x b).1.leaving = x.1.leaving := rfl

theorem sendByte_leaving (w : Nat) (x : Pair × List (List Bool)) (b : Byte) : (sendByte w x b).1.leaving = x.1.leaving := rfl

/-- A frame that leaves changes neither. -/
theorem sendLink_leaving (s : State) (f : List Byte) : (sendLink s f).pair.leaving = s.pair.leaving := by
  unfold sendLink
  dsimp only [State.emit]
  split
  · exact foldl_keeps (g := fun x : Pair × List (List Bool) => x.1.leaving) (sendByte_leaving _) _ _
  · exact foldl_keeps (g := fun x : Pair × List (List Bool) => x.1.leaving) (sendBlock_leaving _) _ _

theorem pumpFrames_leaving (n : Nat) : ∀ s, (pumpFrames s n).pair.leaving = s.pair.leaving := by
  induction n with
  | zero => exact fun s => rfl
  | succ n ih =>
    intro s
    rw [pumpFrames]
    split
    · exact (ih _).trans (sendLink_leaving _ _)
    · rfl

theorem pump_leaving (s : State) : (pump s).pair.leaving = s.pair.leaving := by
  unfold pump
  split
  · exact pumpFrames_leaving _ s
  · rfl

theorem sendUrgent_leaving (s : State) (r : List Byte) : (sendUrgent s r).pair.leaving = s.pair.leaving := by
  unfold sendUrgent
  split
  · rw [pump_leaving, State.count_pair]
    rfl
  · rfl

theorem startGiveUp_leaving (s : State) (cause : Nat) : (startGiveUp s cause).pair.leaving = (true, false) := sendUrgent_leaving _ _

theorem execPeerActiveChange_low (s : State) : execPeerActiveChange false s = .next (s.modPair (fun p => { p with peerActive := false })) := rfl

theorem execPeerActiveChange_high (s : State) : execPeerActiveChange true s = .next (ousted (s.modPair (fun p => { p with peerActive := true }))) := rfl

theorem tryGiveUp_ready {s : State} {cause : Nat} (hm : mayGiveUp s = true) (hp : s.pair.partner = .ready) :
    tryGiveUp s cause = (startGiveUp s cause, .ok) := by
  rw [tryGiveUp, if_neg (by simp [hm]), if_pos hp]

theorem tryGiveUp_alone {s : State} {cause : Nat} (hm : mayGiveUp s = true) (hp : s.pair.partner ≠ .ready) :
    tryGiveUp s cause = (s.alarm R.PAI_ALARM F.PAI_ALARM_NO_STANDBY, .denied) := by
  rw [tryGiveUp, if_neg (by simp [hm]), if_neg hp]

/-- At the deadline a device that gives up enters Standby. -/
theorem execGiveUpDiscardDeadline_active {s : State} (hg : s.pair.givingUp = true) (hj : s.jobs = []) (ha : s.dev.state = .active) :
    execGiveUpDiscardDeadline s = .next (enterStandby s) := by
  rw [execGiveUpDiscardDeadline, if_pos hg, hj]
  exact congrArg Host.Outcome.next (if_pos ha)

theorem diagnose_known {n : Nat} (s : State) (b : Bool) (h5 : n ≠ 5) (h7 : n ≤ 7) : diagnose s n b =
    if b = true then
      (if mayGiveUp (addFault s n) = true ∧ (n = 7 ∨ bit ((addFault s n).fld R.PAI_CFG F.PAI_CFG_GU_EN) n = true)
        then (tryGiveUp (addFault s n) (n + 1)).1 else addFault s n)
    else becomeReady (s.modPair (fun p => { p with faults := p.faults.filter (· ≠ n) })) := by
  rw [diagnose, if_neg (by omega)]

/-! ### Taking over (R441, R445, R446) -/

theorem trigger_ready {s : State} (hs : s.dev.state = .standby) (hr : s.pair.role = .ready) (ht : s.pair.taking = false) :
    trigger s = s.modPair (fun p => { p with taking := true }) := if_pos ⟨hs, hr, by simp [ht]⟩

theorem execPeerHandoverRise_takes {s : State} (hp : pairOn s = true) (hs : s.dev.state = .standby) (hr : s.pair.role = .ready)
    (ht : s.pair.taking = false) : execPeerHandoverRise s = .next (s.modPair (fun p => { p with peerHandover := true, taking := true })) :=
  congrArg Host.Outcome.next ((if_pos hp).trans (trigger_ready (s := s.modPair (fun p => { p with peerHandover := true })) hs hr ht))

theorem execHbLoss_standby {s : State} (hs : s.dev.state = .standby) (hr : s.pair.role = .ready) :
    execHbLoss s = .next (if (s.alarm R.PAI_ALARM F.PAI_ALARM_HB_LOSS).flag R.PAI_CFG F.PAI_CFG_HB_TAKE = true
      then trigger (s.alarm R.PAI_ALARM F.PAI_ALARM_HB_LOSS) else s.alarm R.PAI_ALARM F.PAI_ALARM_HB_LOSS) := by
  rw [execHbLoss, if_neg (by simp [hs]), if_pos ⟨hs, hr⟩]

theorem takeTx_loading (r : AssocRec) {x : Slot} (h : x.state = .loading) : takeTx r x = { x with pn := max (2 ^ 24) x.resEnd + 2 ^ 25 } := by
  rw [takeTx, if_neg (by simp [h]), if_pos h]

/-- A loaded slot whose PN is `b` after a take-over, with its first boundary or without any PN left. -/
def takenAt (r : AssocRec) (x : Slot) (b : Nat) : Slot :=
  if pnMax r.kind r.suite < b then { x with state := .exhausted, pn := b, resEnd := b, resReq := none, inFlight := 0 }
  else { x with pn := b, resEnd := b + 2 ^ 24, resReq := none, backed := b + 2 ^ 24, inFlight := 0 }

theorem takenAt_pn (r : AssocRec) (x : Slot) (b : Nat) : (takenAt r x b).pn = b := by
  unfold takenAt
  split <;> rfl

theorem takeTx_loaded (r : AssocRec) {x : Slot} (h : x.state ≠ .empty) (hl : x.state ≠ .loading) : takeTx r x = takenAt r x (x.resEnd + 2 ^ 25) := by
  rw [takeTx, if_neg h, if_neg hl]
  rfl

/-- A slot taken over starts above its reservation. -/
theorem lt_takeTx_pn (r : AssocRec) {x : Slot} (h : x.state ≠ .empty) : x.resEnd < (takeTx r x).pn := by
  by_cases hl : x.state = .loading
  · rw [takeTx_loading r hl]
    exact lt_of_le_of_lt (le_max_right (2 ^ 24) x.resEnd) (Nat.lt_add_of_pos_right (Nat.two_pow_pos 25))
  · rw [takeTx_loaded r h hl, takenAt_pn]
    exact Nat.lt_add_of_pos_right (Nat.two_pow_pos 25)

/-- The slots and the state of a device that has taken over, before its trunks. -/
def takenOver (s : State) (delta : Nat) : State :=
  { s with
    txAssocs := s.txAssocs.map (fun e => (e.1, { e.2 with slot0 := takeTx e.2.record e.2.slot0, slot1 := takeTx e.2.record e.2.slot1 }))
    rxAssocs := s.rxAssocs.map (fun e => (e.1, { e.2 with slot0 := takeRx e.2.record delta e.2.slot0, slot1 := takeRx e.2.record delta e.2.slot1 }))
    sched := { s.sched with subC := [], subP := [], svcS := [], nodeL := [], ceil := [] }
    dev := { s.dev with state := .active }
    pair := { s.pair with
      taking := false, role := .active, partner := .ousted, activeOut := true, takeGen := (s.pair.takeGen + 1) % 2 ^ 32, synced := false } }

/-- The trunks start, and the TAKE record goes out ahead of the others. -/
def announceTake (delta : Nat) (u : State) : State :=
  let v := (List.range 4).foldl (takeTrunk delta) u
  sendUrgent (v.count (.dev 8)) (be 1 9 ++ be 3 0 ++ be 4 v.pair.takeGen)

theorem execTakeOverComplete_taking {s : State} (h : s.pair.taking = true) : execTakeOverComplete s =
    .next (announceTake (if s.flag R.PAI_CFG F.PAI_CFG_RX_RESUME = true then 0 else 2 ^ 16)
      (takenOver s (if s.flag R.PAI_CFG F.PAI_CFG_RX_RESUME = true then 0 else 2 ^ 16))) := by
  rw [execTakeOverComplete, if_neg (by simp [h])]
  rfl

/-- A trunk that is not enabled is left alone. -/
theorem takeTrunk_off {s : State} {t : Nat} (delta : Nat) (h : s.flag (R.CAS_CFG t) F.CAS_CFG_ENABLE = false) : takeTrunk delta s t = s :=
  if_neg (by simp [h])

/-! ### Commands of the pair -/

/-- A command of the pair whose outcome is known answers with it. -/
theorem paiCommand_answers {s t : State} {st : Status} {k : State → State × Status} (hr : s.reachable = true) (hs : s.serves (blockOf R.PAI_CMD) = true)
    (hk : k s = (t, st)) : paiCommand k s = .next (t.setFld R.PAI_CMDST F.PAI_CMDST_STATUS st.code) := by
  rw [paiCommand, State.access_served hr hs, hk]

/-- PARTNER_GONE of a LOST partner forgets it. -/
theorem execPartnerGone_lost {s : State} (hr : s.reachable = true) (hs : s.serves (blockOf R.PAI_CMD) = true) (ha : s.dev.state = .active)
    (hp : s.pair.peerActive = false) (hl : s.pair.partner = .lost) : execPartnerGone s =
      .next ((s.modPair (fun p => { p with partner := .none })).setFld R.PAI_CMDST F.PAI_CMDST_STATUS (Status.code .ok)) := by
  refine paiCommand_answers hr hs ((if_neg (by simp [ha, hp])).trans ?_)
  rw [hl]

/-- PARTNER_GONE of a READY partner detaches it. -/
theorem execPartnerGone_ready {s : State} (hr : s.reachable = true) (hs : s.serves (blockOf R.PAI_CMD) = true) (ha : s.dev.state = .active)
    (hp : s.pair.peerActive = false) (hl : s.pair.partner = .ready) : execPartnerGone s =
      .next ((s.modPair (fun p => { p with partner := .none, detached := true })).setFld R.PAI_CMDST F.PAI_CMDST_STATUS (Status.code .ok)) := by
  refine paiCommand_answers hr hs ((if_neg (by simp [ha, hp])).trans ?_)
  rw [hl]

/-- Settles O47: giving up, taking over, what a take-over starts with, and the commands of the pair. -/
theorem pairRoles : Obligations.PairRoles := by
  refine ⟨?peer, fun s h => if_pos h, ?leaving, fun s hp hs hr ht => execPeerHandoverRise_takes hp hs hr ht, fun s ha hp => if_pos ⟨ha, hp⟩,
    fun s hs hr => ⟨_, rfl, execHbLoss_standby hs hr⟩, ?commands, fun s hg hj ha => execGiveUpDiscardDeadline_active hg hj ha,
    fun s n b h5 h7 => congrArg Host.Outcome.next (diagnose_known s b h5 h7), ?complete, fun s delta t h => takeTrunk_off delta h,
    fun r x h => lt_takeTx_pn r h, fun r x h => takeTx_loading r h⟩
  case peer =>
    intro s l
    cases l with
    | false => exact execPeerActiveChange_low s
    | true => exact execPeerActiveChange_high s
  case leaving =>
    intro s
    have h := startGiveUp_leaving s 0x12
    exact ⟨congrArg Prod.fst h, congrArg Prod.snd h⟩
  case commands =>
    intro s hr hs
    refine ⟨fun hm hp => paiCommand_answers hr hs (tryGiveUp_ready hm hp), fun hm hp => paiCommand_answers hr hs (tryGiveUp_alone hm hp),
      fun hd hp => paiCommand_answers hr hs (if_pos ⟨hd, hp⟩), fun hd => paiCommand_answers hr hs (if_neg fun h => hd h.1),
      fun ha hp hl => execPartnerGone_lost hr hs ha hp hl, fun ha hp hl => execPartnerGone_ready hr hs ha hp hl,
      fun h => paiCommand_answers hr hs (if_pos h)⟩
  case complete =>
    rintro s _ _ _ h rfl rfl rfl
    exact execTakeOverComplete_taking h

end Sys2Proof.Machine
end

section
/-! The family of the host interface's slices: R457 and R467 to R472. -/

namespace Sys2Proof.Machine

/-- A command on a slice whose outcome is known answers with it. -/
theorem sliceCommand_answers {s t : State} {st : Status} {f : State → State × Status} (hr : s.reachable = true)
    (hs : s.serves (blockOf R.HIF_SLCMD) = true) (hf : f s = (t, st)) :
    sliceCommand f s = .next (t.setFld R.HIF_SLCMDST F.HIF_SLCMDST_STATUS st.code) := by
  rw [sliceCommand, State.access_served hr hs, hf]

section
variable {s : State} {k : Nat} (hk : k < 64) (hr : s.reachable = true) (hs : s.serves (blockOf R.HIF_SLCMD) = true)
include hk hr hs

theorem execSliceBind_binds (hu : (s.slice k).state = .unbound) (hon : s.slicesOn = true)
    (hp : ∀ n, n < 64 → n ≠ k → (s.slice n).state ≠ .unbound → (s.slice n).pasid ≠ s.fld R.HIF_SLARG F.HIF_SLARG_PASID) :
    execSliceBind k true true s = .next (((clearSliceCtrs (clearRings s k) k).setSlice k
      { state := .active, pasid := s.fld R.HIF_SLARG F.HIF_SLARG_PASID }).setFld R.HIF_SLCMDST F.HIF_SLCMDST_STATUS (Status.code .ok)) := by
  have hfree : (List.range 64).any (fun n => decide (n ≠ k) && decide ((s.slice n).state ≠ .unbound) &&
      decide ((s.slice n).pasid = s.fld R.HIF_SLARG F.HIF_SLARG_PASID)) = false := by
    simpa [List.any_eq_false, and_imp] using hp
  refine sliceCommand_answers hr hs ?_
  dsimp only
  rw [Nat.mod_eq_of_lt hk, if_neg (not_not.mpr hu), if_neg (by simp [hon]), hfree]
  rfl

theorem execSliceBind_denied {vf pa : Bool} (hu : (s.slice k).state = .unbound) (ho : s.slicesOn = false ∨ vf = false ∨ pa = false) :
    execSliceBind k vf pa s = .next (s.setFld R.HIF_SLCMDST F.HIF_SLCMDST_STATUS (Status.code .denied)) := by
  refine sliceCommand_answers hr hs ?_
  dsimp only
  rw [Nat.mod_eq_of_lt hk, if_neg (not_not.mpr hu), if_pos (by simpa using ho)]

theorem execSliceBind_bound (vf pa : Bool) (hu : (s.slice k).state ≠ .unbound) :
    execSliceBind k vf pa s = .next (s.setFld R.HIF_SLCMDST F.HIF_SLCMDST_STATUS (Status.code .quiesceRequired)) := by
  refine sliceCommand_answers hr hs ?_
  dsimp only
  rw [Nat.mod_eq_of_lt hk, if_pos hu]

theorem execSliceFence_active (ha : (s.slice k).state = .active) : execSliceFence k s =
    .next ((s.setSlice k { s.slice k with state := .fenced }).setFld R.HIF_SLCMDST F.HIF_SLCMDST_STATUS (Status.code .ok)) := by
  refine sliceCommand_answers hr hs ?_
  dsimp only
  rw [Nat.mod_eq_of_lt hk, if_pos ha]

theorem execSliceResume_quiesced (hq : (s.slice k).state = .quiesced) : execSliceResume k s =
    .next ((s.setSlice k { s.slice k with state := .active, silent := false }).setFld R.HIF_SLCMDST F.HIF_SLCMDST_STATUS (Status.code .ok)) := by
  refine sliceCommand_answers hr hs ?_
  dsimp only
  rw [Nat.mod_eq_of_lt hk, if_pos hq]

theorem execSliceReset_active (ha : (s.slice k).state = .active) : execSliceReset k s =
    .next (s.setFld R.HIF_SLCMDST F.HIF_SLCMDST_STATUS (Status.code .quiesceRequired)) := by
  refine sliceCommand_answers hr hs ?_
  rw [Nat.mod_eq_of_lt hk, ha]

theorem execSliceUnbind_active (ha : (s.slice k).state = .active) : execSliceUnbind k s =
    .next (s.setFld R.HIF_SLCMDST F.HIF_SLCMDST_STATUS (Status.code .quiesceRequired)) := by
  refine sliceCommand_answers hr hs ?_
  rw [Nat.mod_eq_of_lt hk, ha]

theorem execSliceReset_quiesced (hq : (s.slice k).state = .quiesced) : execSliceReset k s =
    .next ((resetSlice s k).setFld R.HIF_SLCMDST F.HIF_SLCMDST_STATUS (Status.code .ok)) := by
  refine sliceCommand_answers hr hs ?_
  rw [Nat.mod_eq_of_lt hk, hq]

theorem execSliceUnbind_quiesced (hq : (s.slice k).state = .quiesced) : execSliceUnbind k s =
    .next ((((resetSlice s k).setSlice k {}).interrupt .pf 6).setFld R.HIF_SLCMDST F.HIF_SLCMDST_STATUS (Status.code .ok)) := by
  refine sliceCommand_answers hr hs ?_
  rw [Nat.mod_eq_of_lt hk, hq]

/-- RESET of an unbound slice changes nothing, and its status is free (log entry 150). -/
theorem execSliceReset_unbound (hu : (s.slice k).state = .unbound) : execSliceReset k s =
    .next (s.useFree.setFld R.HIF_SLCMDST F.HIF_SLCMDST_STATUS (freeStatus s [.denied, .conflict, .invalid, .quiesceRequired]).1.code) := by
  refine sliceCommand_answers hr hs ?_
  rw [Nat.mod_eq_of_lt hk, hu]
  rfl

end

/-- A slice that is neither active nor fenced has nothing to silence. -/
theorem silenceSlice_idle {s : State} {k : Nat} (ha : (s.slice k).state ≠ .active) (hf : (s.slice k).state ≠ .fenced) : silenceSlice s k = s :=
  if_pos ⟨ha, hf⟩

theorem execVfFlr_lt {k : Nat} (s : State) (hk : k < 64) : execVfFlr k s = .next (clearMsix (silenceSlice s k) k) := by
  rw [execVfFlr, Nat.mod_eq_of_lt hk]

theorem execVfBusMasterClear_lt {k : Nat} (s : State) (hk : k < 64) : execVfBusMasterClear k s = .next (silenceSlice s k) := by
  rw [execVfBusMasterClear, Nat.mod_eq_of_lt hk]

theorem execSliceQuiesced_done {s : State} {k : Nat} (hf : (s.slice k).state = .fenced) (h0 : inFlight s k = 0) (hl : (s.slice k).silent = false) :
    execSliceQuiesced k s = .next ((s.setSlice k { s.slice k with state := .quiesced }).interrupt .pf 6) := by
  rw [execSliceQuiesced, if_pos ⟨hf, h0⟩]
  dsimp only
  rw [if_neg (by simp [hl])]

/-- Settles O51: the commands on a slice by its state, and what silences and quiesces it. -/
theorem hostSlices : Obligations.HostSlices := by
  refine ⟨fun s k hk hr hs hu hon hp => ⟨_, rfl, execSliceBind_binds hk hr hs hu hon hp⟩,
    fun s k vf pa hk hr hs hu ho => execSliceBind_denied hk hr hs hu ho, fun s k vf pa hk hr hs hu => execSliceBind_bound hk hr hs vf pa hu,
    fun s k hk hr hs ha => ⟨execSliceFence_active hk hr hs ha, execSliceReset_active hk hr hs ha, execSliceUnbind_active hk hr hs ha⟩,
    fun s k hk hr hs hq => ⟨execSliceResume_quiesced hk hr hs hq, execSliceReset_quiesced hk hr hs hq, execSliceUnbind_quiesced hk hr hs hq⟩,
    fun s k hk => ⟨execVfFlr_lt s hk, execVfBusMasterClear_lt s hk⟩, fun s k ha hf => silenceSlice_idle ha hf,
    fun s k hk hr hs hu => ⟨_, mem_freeStatus s (by simp), execSliceReset_unbound hk hr hs hu⟩,
    fun s k hf h0 hl => execSliceQuiesced_done hf h0 hl, fun s k hf h0 => if_neg fun h => h0 h.2⟩

end Sys2Proof.Machine
end
